-- ==== Sys2Proof/Word.lean ====
section
/-!
DEFINITION. The word types and their plainest arithmetic, and the sparse table type in which the state keeps
every large collection (00_scope.md, Conventions: bit 0 is the least significant, everything little-endian).
-/

namespace Sys2Proof

/-- A byte. -/
abbrev Byte := BitVec 8

/-- A register of the window, or a 32-bit lane. -/
abbrev W32 := BitVec 32

/-- A 64-bit quantity, a register pair _LO and _HI. -/
abbrev W64 := BitVec 64

/-- A sparse table: key and value pairs in strictly rising order of the key. -/
abbrev Tbl (α : Type) := List (Nat × α)

end Sys2Proof
end

