-- ==== Sys2Proof/Syntax.lean ====
section
/-!
DEFINITION. The commands and events of the AX8: one constructor of Instr for each row of the opcode table, with the
operands that the sender supplies. Outcomes that the spec leaves to the surroundings (a training result, a signature
check, a measured figure) are operands, so that every outcome is admitted.
-/

namespace Sys2Proof

/-- Ports in the order of TICK_CFG.PARENT: 0 to 3 D2D[0] to D2D[3], 4 SPN[0], 5 SPN[1] (Table 02-14). -/
abbrev PortId := Fin 6

/-- Cells of the comb (Table 01-1). -/
abbrev CellId := Fin 64

/-- Tenant contexts (Table 00-3). -/
abbrev TenantId := BitVec 12

/-- Rings (Table 00-3). -/
abbrev RingId := BitVec 12

/-- Sequences (Table 00-3). -/
abbrev SeqId := BitVec 18

/-- Access paths to the register window (R9). -/
inductive Path where
  /-- Keeper firmware. -/
  | keeper
  /-- Register-access frames on a port. -/
  | port (p : PortId)
  /-- The I3C target. -/
  | i3c
  deriving DecidableEq, Repr

/-- A Toroux frame: header of Table 12-3 and payload. -/
structure Frame where
  typ : Byte
  flags : Byte
  tag : BitVec 16
  src : BitVec 16
  dst : BitVec 16
  len : BitVec 32
  tenant : BitVec 16
  rsv : BitVec 16
  addr : BitVec 64
  aux : BitVec 32
  crc : BitVec 32
  payload : List Byte
  deriving DecidableEq, Repr

/-- The configuration flash (R365): whether SFDP answers, its capacity in bytes, and the bytes of each slot. -/
structure Flash where
  sfdp : Bool
  capacity : Nat
  slots : List (List Byte)
  deriving DecidableEq, Repr

/-- What training one link port found (R306, R309, R313): working modules or lanes, and the HELLO that the partner
sent within 100 µs of the PHY coming up, if any. -/
structure LinkTraining where
  port : PortId
  width : BitVec 16
  hello : Option Frame
  deriving DecidableEq, Repr

/-- A read of the register window by keeper firmware: its offset and its size in bytes (R5, R8). -/
structure WindowRead where
  off : BitVec 24
  size : Nat := 4
  deriving DecidableEq, Repr

/-- Memory that a word in error stands in (Table 15-1): the unit's own memory, a cell's accumulators (R130), its vector
registers and tables (R167) or operand buffers, or a stack behind its on-die code (R304). -/
inductive WordPlace where
  | memory | accumulator | vector | operand | stack
  deriving DecidableEq, Repr

/-- An error report as a unit sends it (R378, Table 15-3): code, reporting unit, address, tenant, sequence,
request and INFO bytes 0x2C to 0x3F as a number; the memory of the word, and whether its code corrected it (R379). -/
structure Report where
  code : Byte
  unit : BitVec 7
  addr : BitVec 64
  tenant : Option TenantId
  seq : Option SeqId
  req : BitVec 32
  info : BitVec 160
  place : WordPlace := .memory
  corrected : Bool := false
  deriving DecidableEq, Repr

/-- A 4 KiB ownership unit: of a cell's memory, or of hive memory (R269). -/
inductive MemPlace where
  | cell (c : CellId) (unit : BitVec 10)
  | hive (unit : BitVec 16)
  deriving DecidableEq, Repr

/-- A cell-memory bank or a hive band (R272). -/
inductive BankId where
  | cell (c : CellId) (bank : Fin 8)
  | hive (band : Fin 7)
  deriving DecidableEq, Repr

/-- What a SEND sends (R191, R28, R196, R199). The spec gives SEND no class fields, so its operands name the data; the values are
those of the request's chain (log 98). -/
inductive SendForm where
  /-- SPLIT 1: the cell's partial frame to the home die. -/
  | partials
  /-- A tile row of the cell's partial output: row of the request, tile of the row. -/
  | rows (row tile : Nat)
  /-- SAVE_STATS: (m, L) of every row of the request and query head of the cell. -/
  | stats
  /-- The cell's part of a BACKWARD's result. -/
  | grads
  /-- The result row to OUT_PORT at OUT_ADDR. -/
  | result
  deriving DecidableEq, Repr

/-- A tick program of an image: OP and bucket, and where its instruction words stand in the image (R86). -/
structure ProgArea where
  op : Nat
  bucket : Nat
  off : Nat
  count : Nat
  deriving DecidableEq, Repr

/-- What the tables of an image hold whose layout the spec does not give (log 10): the element format of the weights and the tick
programs. -/
structure ImageTables where
  wfmt : Nat
  progs : List ProgArea
  deriving DecidableEq, Repr

/-- Instructions of the TAP controller (R328); every other one acts as BYPASS. -/
inductive TapInstr where
  | bypass | idcode | samplePreload | extest | other
  deriving DecidableEq, Repr

/-- One command or event of the block: one constructor for each row of the opcode table. -/
inductive Instr where
  /-- PORST (R363): A rise of PORST_N ends a power-on reset: every unit returns to its reset state and bring-up starts at stage WINTER. -/
  | porst (sa : BitVec 2)
  /-- WRST (R362): A low level on WRST_N of at least 1 µs stops every unit outside the winter domain, drops every link and starts a warm bring-up. -/
  | wrst (lowNs : Nat)
  /-- STAGE_WINTER (R369): Bring-up stage 1 takes the winter domain out of reset, reads the fuses and checks REFCLK. -/
  | stageWinter (us : Nat) (fuses : List (List Byte)) (refclkOk : Bool)
  /-- STAGE_IMAGE (R365): Bring-up stage 2 reads the configuration image from the flash slots in order (or checks the keeper-memory copy after a warm reset) and verifies it. -/
  | stageImage (us : Nat) (flash : Flash) (found : Option (List Byte))
  /-- STAGE_REGULATORS (R334): Bring-up stage 3 checks the regulator map, reads every STATUS_WORD, turns on VDDH and VDDL and sets VDDC to 0.55 V. -/
  | stageRegulators (us : Nat) (failed : Option (Fin 16)) (acked : Bool)
  /-- STAGE_CLOCKS (R369): Bring-up stage 4 locks the PLLs at P3, initialises the memories with CLEAN tags and runs the start-up diagnostic program on every cell. -/
  | stageClocks (us : Nat) (pllOk : Bool) (failedCells : BitVec 64)
  /-- STAGE_HBM (R301): Bring-up stage 5 trains every HBM port at its configured rate and builds the frame table with every frame FREE. -/
  | stageHbm (us : Nat) (ok : BitVec 8)
  /-- STAGE_D2D (R306): Bring-up stage 6 trains the enabled die-to-die ports and exchanges HELLO. -/
  | stageD2d (us : Nat) (training : List LinkTraining)
  /-- STAGE_SPINE (R309): Bring-up stage 7 trains the enabled spine ports and exchanges HELLO. -/
  | stageSpine (us : Nat) (training : List LinkTraining)
  /-- STAGE_JOIN (R371): Bring-up stage 8: a solo or queen die sets S(0), and a worker measures its hop delay and waits for an acceptable beacon. -/
  | stageJoin
  /-- BRINGUP_FAIL (R369): A stage that fails or exceeds its bound stops the die with STAGE, FAILED and the error code shown in ID_BOOT_STATUS. -/
  | bringupFail (err : BitVec 8) (info : W32)
  /-- LOCK_CHECK (R375): At the end of stage 8 the configuration conditions are checked in a fixed order; on success ID_LOCK is set and keeper firmware starts. -/
  | lockCheck
  /-- JOIN_TIMEOUT (R373): When no acceptable beacon arrives within TICK_JOIN_TIMEOUT, the worker locks, runs out of its domain and tries to join again. -/
  | joinTimeout
  /-- WORKER_JOIN (R372): On an acceptable beacon a worker steps its timebase to the queen's and starts tick K with its ledgers. -/
  | workerJoin (port : PortId) (frame : Frame)
  /-- REJOIN_START (R374): A worker out of its domain starts a new join once no token is queued or running and no open ledger holds a charge. -/
  | rejoinStart
  /-- TICK_START (R35): At S(N) the tick unit starts tick N and broadcasts the boundary; the admit and execute phases open. -/
  | tickStart
  /-- DVFS_UP_STEP (R341): An up-step to the fastest acknowledged point is taken once the droop flag has been clear for 2 µs, or deferred to the next tick. -/
  | dvfsUpStep
  /-- INPUT_CLOSE (R33): At input close the input window of tick N ends, the wave counter starts and ordinary work is costed from this point. -/
  | inputClose
  /-- TOKEN_SKIP (R33): A cell whose token input is incomplete at or after input close skips the token and writes a KILLED completion with an INPUT_MISSING record. -/
  | tokenSkip (cell : CellId)
  /-- ADMIT_CLOSE (R34): At admit close the ledger of tick N + 1 closes and ordinary ADMITs go to ledger N + 2. -/
  | admitClose
  /-- DRAIN_START (R46): At drain start the execute phase closes; cells still running make the tick late and drain work begins. -/
  | drainStart
  /-- BEACON_START (R391): At beacon start the queen sends the next beacon and every die assembles and sends its worker report. -/
  | beaconStart (busyPm : Nat)
  /-- ADMIT (R43): An ADMIT frame is decided against tenant, descriptor, drops, ring and ledgers, and answered in the same transaction. -/
  | admitFrame (port : PortId) (frame : Frame)
  /-- EXPRESS_RELEASE (R52): The entrance releases an accepted express token to its express cell at the cycle start that the decision fixed. -/
  | expressRelease (cell : CellId)
  /-- TOKEN_START (R23): A cell pulls its next token in bucket and admission order in the execute phase of the token's tick and starts its tick program. -/
  | tokenStart (cell : CellId)
  /-- INPUT (R320): An INPUT frame writes bytes of an ordinary request's input if it arrives on the ADMIT port within the input window. -/
  | input (port : PortId) (frame : Frame)
  /-- EXPBUF (R321): An EXPBUF frame writes row bytes into an express buffer and marks it full when MORE is clear. -/
  | expbuf (port : PortId) (frame : Frame)
  /-- SYNC_WAIT (R79): A SYNC_WAIT is held until the sync object passes its threshold, or answered BUSY when 64 are held. -/
  | syncWait (port : PortId) (frame : Frame)
  /-- SYNC_WAIT_ANSWER (R79): A held SYNC_WAIT is answered with the value once the wrapped comparison passes. -/
  | syncWaitAnswer (port : PortId) (tag : BitVec 16)
  /-- SYNC_WAIT_TIMEOUT (R79): A held SYNC_WAIT whose timeout passes is answered with the value and TIMEOUT set. -/
  | syncWaitTimeout (port : PortId) (tag : BitVec 16)
  /-- HELLO (R313): A HELLO sets the link's Toroux version to the lower VER_MAX, or fails the port below VER_MIN. -/
  | hello (port : PortId) (frame : Frame)
  /-- HELLO_TIMEOUT (R313): No HELLO within 100 µs of the PHY coming up makes the port FAILED. -/
  | helloTimeout (port : PortId)
  /-- ECHO (R53): An ECHO exchange gives a worker one hop-delay measurement to its parent. -/
  | echo (port : PortId) (frame : Frame)
  /-- ECHO_INTERVAL_EXPIRY (R53): Every TICK_ECHO_INTERVAL ticks a worker starts a new hop-delay echo. -/
  | echoIntervalExpiry
  /-- BEACON (R54): A received beacon aligns the worker's timebase and rate trim, is forwarded to the children and supplies budgets and activations. -/
  | beacon (port : PortId) (frame : Frame)
  /-- BEACON_MISSING (R56): When beacon K has not arrived by S(K) − 1 µs, the worker starts tick K alone with zero credit in ledger K + 2. -/
  | beaconMissing
  /-- DOMAIN_LEAVE (R57): After TICK_MISS_LIMIT missing beacons, a wrong TICK_NUM or PERIOD_US, or a large alignment error, the worker leaves its domain. -/
  | domainLeave
  /-- TICK_IN_EDGE (R331): A rising edge on TICK_IN aligns the tick unit when ALIGN_SRC is set, unless it lies too far from S(K) or is a glitch. -/
  | tickInEdge (edgeNs : Nat) (highNs : Nat)
  /-- REPORT (R392): A worker report is forwarded up the tree; the queen records DIE_LOST for an out-of-domain flag. -/
  | report (port : PortId) (frame : Frame)
  /-- REPORT_SILENCE (R392): The queen records DIE_LOST for a die whose report has been missing for TICK_MISS_LIMIT intervals. -/
  | reportSilence (die : Fin 512)
  /-- REG_RD (R324): A REG_RD frame reads one register of the receiving die and answers with the value. -/
  | regRd (port : PortId) (frame : Frame)
  /-- REG_WR (R324): A REG_WR frame writes one register of the receiving die, subject to the lock rules. -/
  | regWr (port : PortId) (frame : Frame)
  /-- REGISTER_WRITE (R377): A write from any path to a register without behaviour of its own sets it, or is ignored and counted under lock and path rules. -/
  | registerWrite (path : Path) (off : BitVec 24) (size : Nat) (val : W32)
  /-- MEM_RD (R67): A MEM_RD frame reads hive bytes only when all of them lie within enabled rings. -/
  | memRd (port : PortId) (frame : Frame)
  /-- MEM_WR (R67): A MEM_WR frame writes hive bytes only when all of them lie within enabled command rings. -/
  | memWr (port : PortId) (frame : Frame)
  /-- I3C_PRIVATE_WRITE (R325): An I3C private write of 8 bytes writes a register, or one of 4 bytes sets the offset for a following read. -/
  | i3cPrivateWrite (bytes : List Byte)
  /-- I3C_PRIVATE_READ (R325): An I3C private read of 4 bytes returns the register value, stretching until it is ready. -/
  | i3cPrivateRead
  /-- I3C_WINTER_WAKE (R326): A private transfer to the die's address in Winter is NACKed and wakes the die. -/
  | i3cWinterWake (addr : BitVec 7)
  /-- PWR_FRAME (R192): A received partial frame is stored in its combine region or discarded with a PARTIAL_DISCARD record, and answered. -/
  | pwrFrame (port : PortId) (frame : Frame)
  /-- WCHUNK (R283): A weight chunk is taken into a relay entry of a LOADING slot, or answered WNACK NO_LOAD and discarded. -/
  | wchunk (port : PortId) (frame : Frame)
  /-- CHUNK_VERIFY (R284): The weight engine verifies a chunk by digest and GCM, writes it into the image and answers WACK or WNACK CORRUPT. -/
  | chunkVerify (slot : Fin 8) (tenant : TenantId) (version : W32) (index : Nat)
  /-- WACK (R285): A WACK from downstream frees the chunk's relay entry. -/
  | wack (port : PortId) (frame : Frame)
  /-- WNACK (R285): A WNACK CORRUPT or MISSING makes the die send the chunk again; NO_LOAD stops forwarding to that port. -/
  | wnack (port : PortId) (frame : Frame)
  /-- WFAIL (R288): A received WFAIL fails the die's own load with reason UPSTREAM. -/
  | wfail (port : PortId) (frame : Frame)
  /-- CHUNK_MISSING (R287): On a gap of 32 indices or ENT_WGT_TIMEOUT, WNACK MISSING is sent for the four lowest missing chunks. -/
  | chunkMissing (slot : Fin 8)
  /-- LOAD_FAIL (R288): A failed or cancelled load sends WFAIL, frees its entries and slot, and writes CHECK_FAIL. -/
  | loadFail (slot : Fin 8) (reason : BitVec 4)
  /-- LOAD_END (R289): When every chunk is verified, the image header and tick programs are checked and the slot becomes VERIFIED. -/
  | loadEnd (slot : Fin 8) (kvHeads : Nat) (tables : ImageTables)
  /-- HOT_COPY_END (R290): The end of the hot-block and rotary copy after a first activation clears BARRIER. -/
  | hotCopyEnd (tenant : TenantId)
  /-- SWAP_START (R292): A swap starts its steps in the first drain phase whose start finds the tenant free of tokens, open prefills and combine regions. -/
  | swapStart (tenant : TenantId)
  /-- SWAP_LAYER (R293): One layer is pointed at the new image and its hot block copied into the hive window. -/
  | swapLayer (tenant : TenantId)
  /-- SWAP_END (R293): After the rotary table is copied the slot becomes READY and the WGT_SWAP record carries DONE. -/
  | swapEnd (tenant : TenantId)
  /-- REVERT_END (R297): The revert of an aborted swap ends with the old layers restored, the slot IDLE and the WGT_ABORT record written. -/
  | revertEnd (tenant : TenantId)
  /-- HOT_BLOCK_RECOPY (R300): After an uncorrectable error in a hot block or rotary table, the block is copied again from the image and BARRIER cleared. -/
  | hotBlockRecopy (tenant : TenantId)
  /-- RNG_DOORBELL_COMPLETION (R70): A doorbell on a completion ring advances HEAD if every slot up to it holds its record. -/
  | rngDoorbellCompletion (path : Path) (ring : RingId) (val : W32)
  /-- RNG_DOORBELL_COMMAND (R72): A doorbell on a command ring advances TAIL if the new entries fit. -/
  | rngDoorbellCommand (path : Path) (ring : RingId) (val : W32)
  /-- RNG_ENABLE (R66): A write that sets EN enables a ring after its checks, zeroes its counters and wipes its buffer. -/
  | rngEnable (path : Path) (ring : RingId) (val : W32)
  /-- RING_WIPE_END (R271): When the last unit of a ring buffer ends its wipe, the buffer is tagged RING and its slots marked with lap parity 1. -/
  | ringWipeEnd (ring : RingId)
  /-- RNG_DISABLE (R65): A write that only clears EN disables a ring, unless a completion ring has pending records. -/
  | rngDisable (path : Path) (ring : RingId) (val : W32)
  /-- SYN_VALUE_WRITE (R77): A write to SYN_VALUE sets a sync object. -/
  | synValueWrite (path : Path) (sync : BitVec 14) (val : W32)
  /-- SYN_ADD_WRITE (R77): A write to SYN_ADD adds the value to a sync object modulo 2^32. -/
  | synAddWrite (path : Path) (sync : BitVec 14) (val : W32)
  /-- TCX_WRITE (R80): A write to a tenant context applies only while FREE, except HOT of TCX_MODE in ACTIVE. -/
  | tcxWrite (path : Path) (tenant : TenantId) (off : BitVec 8) (val : W32)
  /-- ENT_CREDIT_SCALE_WRITE (R58): A write to ENT_CREDIT_SCALE or a TICK_BUDGET field stores 256 in place of any larger value. -/
  | entCreditScaleWrite (path : Path) (off : BitVec 24) (val : W32)
  /-- PWR_BOOST_WRITE (R352): A write to PWR_BOOST, clamped to 40, requests the new core voltage over AVSBus at once. -/
  | pwrBoostWrite (path : Path) (val : W32)
  /-- PWR_STATE_REQ_WRITE (R354): A write of 1 to 3 to PWR_STATE_REQ starts a power-state entry attempt at the next drain start; 0 is a wake event. -/
  | pwrStateReqWrite (path : Path) (val : W32)
  /-- PWR_HINT_FIFO_READ (R351): A read of PWR_HINT_FIFO pops one hint entry. -/
  | pwrHintFifoRead (path : Path)
  /-- GRD_ACK (R386): A write of the head record's SEQNUM to GRD_ACK frees its place in the queue. -/
  | grdAck (path : Path) (val : W32)
  /-- GRD_FORCE (R393): A write of 0xFA7A_0001 to GRD_FORCE escalates KEEPER_FATAL. -/
  | grdForce (path : Path) (val : W32)
  /-- GRD_FLAGS_CLEAR (R382): A W1C write to GRD_FLAGS clears OVERFLOW, MULTIPLE or HW_ESC. -/
  | grdFlagsClear (path : Path) (val : W32)
  /-- WIN_WAKE_SRC_CLEAR (R360): A W1C write to WIN_WAKE_SRC clears recorded wake sources. -/
  | winWakeSrcClear (path : Path) (val : W32)
  /-- KPR_WDOG (R390): Any write to KPR_WDOG restarts the keeper watchdog. -/
  | kprWdog (path : Path) (val : W32)
  /-- KEEPER_WATCHDOG_EXPIRY (R390): A watchdog expiry or uncorrectable keeper memory word records KEEPER_HALT and restarts the keeper after a digest check. -/
  | keeperWatchdogExpiry (unc : Bool) (found : Option (List Byte))
  /-- CTX_ACTIVATE (R81): Checks a FREE context and makes it ACTIVE, or refuses it with a reason. -/
  | ctxActivate (ring : RingId)
  /-- CTX_KILL (R82): Sets an ACTIVE context DRAINING so its ADMITs are refused and its later tokens are retired KILLED. -/
  | ctxKill (ring : RingId)
  /-- REQ_KILL (R83): Kills the tenant's accepted requests with the given REQ_ID from the next tick. -/
  | reqKill (ring : RingId)
  /-- SEQ_KILL (R83): Kills every accepted request on the sequence and clears PREFILL_OPEN. -/
  | seqKill (ring : RingId)
  /-- SEQ_OPEN (R209): Opens a FREE sequence with its root and layer directories, or gives NO_SPACE. -/
  | seqOpen (ring : RingId)
  /-- SEQ_FORK (R223): Opens a sequence that shares a prefix of a parent, sharing and copying leaves over drain phases. -/
  | seqFork (ring : RingId)
  /-- FORK_END (R223): When the last head of a fork is done, the child is set OPEN, the record written and the fork flags cleared. -/
  | forkEnd (seq : SeqId)
  /-- SEQ_RELEASE (R228): Sets an OPEN sequence RELEASING and frees its pages in later drain steps. -/
  | seqRelease (ring : RingId)
  /-- RELEASE_END (R228): When release work is done, the sequence is set FREE and its record written. -/
  | releaseEnd (seq : SeqId)
  /-- SEQ_SET (R85): Changes the EVICTABLE bit of an OPEN sequence. -/
  | seqSet (ring : RingId)
  /-- CT_LOAD (R74): Installs the cost table carried by the next 64 entries. -/
  | ctLoad (ring : RingId)
  /-- SYNC_SET (R77): Sets a sync object by command. -/
  | syncSet (ring : RingId)
  /-- BAD_CMD (R85): A reserved command code is consumed and gives RESULT BAD_CMD. -/
  | badCmd (ring : RingId)
  /-- WGT_KEY_LOAD (R277): Unwraps and stores a key set at a handle, incrementing its key epoch. -/
  | wgtKeyLoad (ring : RingId) (cmdId : W32) (handle : BitVec 12)
  /-- WGT_KEY_CLEAR (R278): Erases a key set and increments its key epoch. -/
  | wgtKeyClear (ring : RingId)
  /-- WGT_LOAD (R282): Starts a weight load into the lowest IDLE slot. -/
  | wgtLoad (ring : RingId)
  /-- WGT_CANCEL (R297): Ends a LOADING or VERIFIED slot as a failed load. -/
  | wgtCancel (ring : RingId)
  /-- WGT_SWAP (R291): Starts the in-place swap of a VERIFIED version and sets BARRIER. -/
  | wgtSwap (ring : RingId)
  /-- WGT_ACTIVATE (R294): On a queen or solo die, schedules cluster-wide activation at tick T through beacon entries. -/
  | wgtActivate (ring : RingId)
  /-- WGT_ABORT (R297): Sets a SWAPPING or READY slot REVERTING. -/
  | wgtAbort (ring : RingId)
  /-- COMPLETION_RECORD_WRITE (R69): Once the result has left, the completion record is written with PHASE last, then pending is decremented and the sync adds applied. -/
  | completionRecordWrite (uid : Nat)
  /-- REDUCTION (R28): The home cell sums the partial output rows of a tile in head order once all have arrived, and runs the home segment. -/
  | reduction (uid : Nat) (rowGroup tile : Nat)
  /-- COMBINE_TOKEN (R193): The combine token on the home die waits for all partial frames until input close, then combines them or is skipped. -/
  | combineToken (uid : Nat)
  /-- TIMING_RECORD (R394): When the last late cell finishes its work of a late tick, the guard takes one TIMING report. -/
  | timingRecord (tick : Nat)
  /-- NOP (R86): No operation for one issue cycle. -/
  | nop (cell : CellId) (word : BitVec 128)
  /-- HINT (R351): Sends a load hint to the power controller's hint queue. -/
  | hint (cell : CellId) (word : BitVec 128)
  /-- BAR (R113): Waits for all arrays and the nectar path, then restarts at the cell's wave slot. -/
  | bar (cell : CellId) (word : BitVec 128)
  /-- LOOP (R86): Repeats the next instructions COUNT times. -/
  | loopInstr (cell : CellId) (word : BitVec 128)
  /-- END (R96): Ends the token's program and clears arrays, nectar banks, accumulators, vector state and operand buffers. -/
  | endTok (cell : CellId) (word : BitVec 128)
  /-- RESERVED_OPCODE (R87): A reserved opcode or GANG mismatch decoded at run time stops the token with ECC_FAIL. -/
  | reservedOpcode (cell : CellId) (word : BitVec 128)
  /-- LDS (R93): Loads a stationary tile into the named arrays after their release. -/
  | lds (cell : CellId) (word : BitVec 128)
  /-- MMR (R89): Runs a row-mode product through the row trees. -/
  | mmr (cell : CellId) (word : BitVec 128) (parityRow : Option Nat)
  /-- MMC (R90): Runs a column-mode product through the column trees. -/
  | mmc (cell : CellId) (word : BitVec 128) (parityRow : Option Nat)
  /-- DIST (R105): Runs a distance-mode reduction against the stationary tile. -/
  | dist (cell : CellId) (word : BitVec 128) (parityRow : Option Nat)
  /-- CMPX (R105): Runs a comparison-mode maximum or minimum against the stationary tile. -/
  | cmpx (cell : CellId) (word : BitVec 128) (parityRow : Option Nat)
  /-- NECT_LOAD (R107): Writes a nectar bank from vector registers, one row per cycle. -/
  | nectLoad (cell : CellId) (word : BitVec 128)
  /-- NECT_DOT (R108): Streams keys against a bank of query rows and returns scores to the tile queue. -/
  | nectDot (cell : CellId) (word : BitVec 128)
  /-- NECT_ACC (R109): Streams values against a bank of p and accumulates into the nectar accumulators. -/
  | nectAcc (cell : CellId) (word : BitVec 128)
  /-- NECT_READ (R111): Sends the nectar accumulators to the tile queue. -/
  | nectRead (cell : CellId) (word : BitVec 128)
  /-- ACCRD (R128): Reads a slot of accumulator memory into vector registers or the tile queue with a cast. -/
  | accrd (cell : CellId) (word : BitVec 128)
  /-- ACCWR (R128): Writes vector registers into a slot of accumulator memory. -/
  | accwr (cell : CellId) (word : BitVec 128)
  /-- ACCX_READ (R131): Reads a physical accumulator entry by index, in diagnostic programs only. -/
  | accxRead (cell : CellId) (word : BitVec 128)
  /-- ACCX_WRITE (R131): Writes a physical accumulator entry by index, in diagnostic programs only. -/
  | accxWrite (cell : CellId) (word : BitVec 128)
  /-- ACCX_CLEAR (R131): Clears the valid bits of a physical accumulator entry, in diagnostic programs only. -/
  | accxClear (cell : CellId) (word : BitVec 128)
  /-- TOPK (R132): Ranks candidates into the running list of k values with positions. -/
  | topk (cell : CellId) (word : BitVec 128)
  /-- VOP (R150): Applies one vector function to COUNT elements. -/
  | vop (cell : CellId) (word : BitVec 128)
  /-- LOOKUP (R162): Reads entries of the active table bank by index. -/
  | lookup (cell : CellId) (word : BitVec 128)
  /-- EPOCH (R164): Makes the other table bank active after earlier table MOVs have written. -/
  | epoch (cell : CellId) (word : BitVec 128)
  /-- VPROG (R152): Runs a per-element program of up to 16 operations. -/
  | vprog (cell : CellId) (word : BitVec 128) (words : List (BitVec 128))
  /-- VBCAST (R150): Applies a vector function to a tile with a row, column, scalar or pair broadcast. -/
  | vbcast (cell : CellId) (word : BitVec 128)
  /-- VMASK (R154): Builds a mask register by comparison or mask logic. -/
  | vmask (cell : CellId) (word : BitVec 128)
  /-- VCVT (R155): Casts elements between formats under the named rounding. -/
  | vcvt (cell : CellId) (word : BitVec 128)
  /-- VRED (R153): Reduces each row to one value. -/
  | vred (cell : CellId) (word : BitVec 128)
  /-- ROWSTAT (R160): Writes max, min, mean, second moment and counts for each row, optionally merged. -/
  | rowstat (cell : CellId) (word : BitVec 128)
  /-- RMSSTAT (R159): Accumulates the RMS statistic of row segments and writes r_m and k at FINAL. -/
  | rmsstat (cell : CellId) (word : BitVec 128)
  /-- SFU (R156): Evaluates one special function per element. -/
  | sfu (cell : CellId) (word : BitVec 128)
  /-- MOV (R260): Moves data between cell memory, hive window, weights, page lists, nectar stream, table bank or operand buffers. -/
  | mov (cell : CellId) (word : BitVec 128)
  /-- LDT (R258): Copies a tile from cell memory to an operand buffer. -/
  | ldt (cell : CellId) (word : BitVec 128)
  /-- STT (R258): Copies a tile from vector registers to cell memory. -/
  | stt (cell : CellId) (word : BitVec 128)
  /-- APPEND_STAGE (R213): Appends rows to the sequence's staged tail, opening pages by copy on write as needed. -/
  | appendStage (cell : CellId) (word : BitVec 128)
  /-- APPEND_PAGE (R218): Writes a whole page straight into a body as a flush would. -/
  | appendPage (cell : CellId) (word : BitVec 128)
  /-- PGWALK (R220): Translates a run of pages into a page list in cell memory. -/
  | pgwalk (cell : CellId) (word : BitVec 128)
  /-- SEND (R191): Sends partial frames to the home die, or results to a port or cell. -/
  | send (cell : CellId) (what : SendForm)
  /-- FATT (R179): Performs one fused attention block step of the online softmax. -/
  | fatt (cell : CellId) (word : BitVec 128)
  /-- SCORE (R185): Writes FP32 scores from the tile queue to cell memory for the unfused path. -/
  | score (cell : CellId) (word : BitVec 128)
  /-- CORR (R180): Applies the running-maximum correction to O and adds the block value. -/
  | corr (cell : CellId) (word : BitVec 128)
  /-- SCOUT_GATHER (R249): Fetches page summaries and a candidate mask into the stationary-side buffer. -/
  | scoutGather (cell : CellId) (word : BitVec 128)
  /-- SCOUT_LIST (R249): Turns the selected positions and extra pages into a page list. -/
  | scoutList (cell : CellId) (word : BitVec 128)
  /-- HBM_REQUEST (R24): An HBM controller accepts a cell's request against held credit and returns the credit on delivery. -/
  | hbmRequest (cell : CellId) (addr : Nat) (write : Bool) (bytes : Nat) (delivered : Bool)
  /-- HBM_REFRESH (R305): The HBM controller issues each refresh the stack temperature requires. -/
  | hbmRefresh (port : Fin 8) (temp : BitVec 12)
  /-- CACHE_DRAIN_WORK (R229): In each drain phase cache control frees, flushes, releases, forks, evicts and tops up in order. -/
  | cacheDrainWork (ops : Nat)
  /-- WIPE_END (R270): A WIPING unit finishes its zero-fill and takes its new owner tag. -/
  | wipeEnd (place : MemPlace)
  /-- BANK_GATE_CLOSE (R273): In a drain cycle the gate of a bank or band with OFF_REQ set closes if no blocking condition holds. -/
  | bankGateClose (bank : BankId)
  /-- BANK_OFF_REACHED (R274): A closing bank or band reaches OFF after its last accepted access, and its units become CLEAN. -/
  | bankOffReached (bank : BankId)
  /-- BANK_WAKE_START (R273): An OFF bank or band whose OFF_REQ is 0 in a drain cycle starts WAKING. -/
  | bankWakeStart (bank : BankId)
  /-- BANK_WAKE_END (R274): A waking bank or band becomes ON holding zeros with valid ECC. -/
  | bankWakeEnd (bank : BankId)
  /-- ERROR_REPORT (R380): The guard takes one error report, numbers it and stores, merges or loses its record. -/
  | errorReport (report : Report)
  /-- DROOP_CROSSING (R346): A detector below THRESH1 doubles the CCLK period within 2 cycles and sets the droop flag. -/
  | droopCrossing
  /-- STRETCH_END (R346): The doubled period ends when every detector has stayed above the threshold for HOLD cycles. -/
  | stretchEnd (cycles : Nat)
  /-- ARRAY_HALT (R347): A crossing of THRESH2 or a stretch of 8,192 cycles halts all array broadcasts die-wide. -/
  | arrayHalt
  /-- HALT_END (R347): The halt ends when the droop flag has been clear for 2 µs, and arrays restart by wave slot. -/
  | haltEnd
  /-- VOLTAGE_ACK (R340): An AVSBus status and voltage read acknowledge a requested core voltage. -/
  | voltageAck (mv : Nat)
  /-- VOLT_ACK_TIMEOUT (R340): A voltage request not acknowledged within PWR_ACK_TIMEOUT records VOLT_ACK. -/
  | voltAckTimeout
  /-- PM_ALERT (R350): A low PM_ALERT_N makes the power controller find the regulator, read STATUS_WORD and act on warnings or faults. -/
  | pmAlert (index : Fin 16) (status : BitVec 16) (answered : Bool)
  /-- POWER_SAMPLE (R337): The power controller samples VDDC current and voltage every 10 µs and polls the other regulators. -/
  | powerSample (ma : Nat) (mv : Nat) (pout : Nat) (pin : Nat) (sensor : Fin 32) (temp : BitVec 12)
  /-- THERM_TRIP (R332): A sensor at 115 °C drives THERM_TRIP_N low in hardware and escalates a fatal error. -/
  | thermTrip (sensor : Fin 32)
  /-- CLOCK_LOSS (R385): REFCLK absent for 1 µs or a PLL losing lock after lock escalates a fatal CLOCK error. -/
  | clockLoss (refclk : Bool)
  /-- POWER_ENTRY_ATTEMPT (R355): At drain start the power controller asks each block to grant, delay or refuse power-state entry. -/
  | powerEntryAttempt
  /-- POWER_ENTRY_STEP (R355): One step of the entry sequence of Idle, Doze or Winter is carried out. -/
  | powerEntryStep
  /-- WINTER_IMAGE_WRITE (R358): Entry step W3 writes the winter image to HBM. -/
  | winterImageWrite
  /-- ENTRY_ABORT (R356): A wake event during entry undoes every step at the next abort point and sets the die Active. -/
  | entryAbort
  /-- POWER_WAKE (R360): A wake event leaves Idle or Doze, or an enabled comparator or I3C match leaves Winter. -/
  | powerWake (src : Fin 9)
  /-- RESTORE_STEP (R359): One restore step completes within its fixed delay, or a failure escalates a fatal RESTORE error. -/
  | restoreStep (outcome : Option (List LinkTraining))
  /-- LINK_RETRAIN_PENDING (R307): CRC retries of a module or lane beyond ERR_LIMIT in one tick set RETRAIN_PEND. -/
  | linkRetrainPending (port : PortId) (lane : Fin 16) (retries : Nat)
  /-- LINK_RETRAIN (R307): At drain start the port retrains without the failing module, or becomes FAILED below MIN_WIDTH. -/
  | linkRetrain (port : PortId)
  /-- SPINE_RESEND (R310): A negative acknowledgement after an uncorrectable codeword makes the sender resend from the first unacknowledged frame. -/
  | spineResend (port : PortId) (acked : Nat) (corrected : Nat) (uncorrectable : Nat)
  /-- LINK_RETRAIN_END (R307): A retrain that began at drain start ends within 8 µs: the port resumes at its new width with held frames released, or becomes FAILED below MIN_WIDTH. -/
  | linkRetrainEnd (port : PortId)
  /-- LINK_DOWN (R322): A port whose PHY or partner is lost at run time leaves UP, so later results for it are discarded with ECC_FAIL and LINK_DOWN records. -/
  | linkDown (port : PortId)
  /-- PWR_ANSWER (R191): The answer to the last PWR frame of a train arrives at the sending die and allows it to write its completion record. -/
  | pwrAnswer (port : PortId) (frame : Frame)
  /-- RESERVED_FRAME (R315): A received frame of reserved TYPE, or one whose CRC fails, is discarded and counted, and a CRC failure records LINK_FRAME. -/
  | reservedFrame (port : PortId) (frame : Frame)
  /-- I3C_DYNAMIC_ADDRESS (R325): An I3C controller assigns the target a dynamic address, which replaces the static address and sets LNK_I3C_ADDR valid. -/
  | i3cDynamicAddress (addr : BitVec 7)
  /-- JTAG_INSTRUCTION (R328): A JTAG instruction shifted into the TAP is carried out, and only BYPASS, IDCODE and SAMPLE/PRELOAD act after lock. -/
  | jtagInstruction (code : TapInstr)
  /-- TICK_OUT_FALL (R330): TICK_OUT returns low 1 µs after it rose at S(N). -/
  | tickOutFall
  /-- PWR_KPR_VOTE_WRITE (R355): A write of a vote to PWR_KPR_VOTE supplies the keeper block's GRANT, DELAY or REFUSE answer to a running entry attempt. -/
  | pwrKprVoteWrite (path : Path) (val : W32)
  /-- KPR_WAIT_EXPIRY (R355): When no keeper vote has arrived KPR_WAIT µs after the ask, the keeper block answers DELAY. -/
  | kprWaitExpiry
  /-- PORST_ASSERT (R361): A fall of PORST_N, or loss of the supplies that holds it low, puts the whole die into power-on reset at any time. -/
  | porstAssert
  /-- KEEPER_LO_READ (R8): A keeper-firmware read of a _LO register captures the matching _HI register for the next read on that path. -/
  | keeperLoRead (access : WindowRead)
  deriving DecidableEq, Repr

end Sys2Proof
end

