-- ==== Sys2Proof/Decode.lean ====
section
/-!
DEFINITION. The command that a word spells by the opcode table's bits. The table gives no row any bits, so no word
spells a command: commands reach the block as data in its queue.
-/

namespace Sys2Proof

/-- The command spelled by a word of `nbits` bits: none for every word. -/
def decodeTableWord (_nbits _w : Nat) : Option Instr := none

end Sys2Proof
end

