-- ==== Sys2Proof/Machine/Crypto.lean ====
section
/-!
DEFINITION. The ciphers and the digest that the spec names by their standards: AES-256 (FIPS 197), AES-256-XTS (IEEE 1619,
R232), AES Key Wrap with Padding (NIST SP 800-38F, R277), AES-256-GCM (NIST SP 800-38D, R280), SHA-384
(FIPS 180-4, R284, R366) and ECDSA P-384 (FIPS 186-5, R366).
PRESUMED: their contents are the standards', not the spec's (log 104). Bytes are numbers below 256.
-/

namespace Sys2Proof.Machine.Crypto

/-- Runs of n items. -/
def runs {α : Type} (n : Nat) : Nat → List α → List (List α)
  | 0, _ => []
  | k + 1, xs => if xs.isEmpty then [] else xs.take n :: runs n k (xs.drop n)

/-- Bytes of two strings, XORed. -/
def xorBytes (a b : List Nat) : List Nat := List.zipWith (fun x y => x ^^^ y) a b

/-- Big-endian number of bytes. -/
def beNat (bs : List Nat) : Nat := bs.foldl (fun a b => 256 * a + b) 0

/-- The n big-endian bytes of a number. -/
def beBytes (n v : Nat) : List Nat := (List.range n).map (fun i => v / 256 ^ (n - 1 - i) % 256)

/-! ### AES-256 (FIPS 197) -/

/-- S-box, byte i at bits 8i + 7 to 8i. -/
def sboxTable : Nat := 0x16bb54b00f2d99416842e6bf0d89a18cdf2855cee9871e9b948ed9691198f8e19e1dc186b95735610ef6034866b53e708a8bbd4b1f74dde8c6b4a61c2e2578ba08ae7a65eaf4566ca94ed58d6d37c8e779e4959162acd3c25c2406490a3a32e0db0b5ede14b8ee4688902a22dc4f816073195d643d7ea7c41744975fec130ccdd2f3ff1021dab6bcf5389d928f40a351a89f3c507f02f94585334d43fbaaefd0cf584c4a39becb6a5bb1fc20ed00d153842fe329b3d63b52a05a6e1b1a2c830975b227ebe28012079a059618c323c7041531d871f1e5a534ccf73f362693fdb7c072a49cafa2d4adf04759fa7dc982ca76abd7fe2b670130c56f6bf27b777c63

/-- Inverse S-box. -/
def invSboxTable : Nat := 0x7d0c2155631469e126d677ba7e042b17619953833cbbebc8b0f52aae4d3be0a0ef9cc9939f7ae52d0d4ab519a97f51605fec8027591012b131c7078833a8dd1ff45acd78fec0db9a2079d2c64b3e56fc1bbe18aa0e62b76f89c5291d711af1476edf751ce837f9e28535ade72274ac9673e6b4f0cecff297eadc674f4111913a6b8a130103bdafc1020f3fca8f1e2cd00645b3b80558e4f70ad3bc8c00abd890849d8da75746155edab9edfd5048706c92b6655dcc5ca4d41698688664f6f87225d18b6d49a25b76b224d92866a12e084ec3fa420b954cee3d23c2a632947b54cbe9dec444438e3487ff2f9b8239e37cfbd7f3819ea340bf38a53630d56a0952

/-- Byte of a 256-byte table. -/
def tableByte (t x : Nat) : Nat := (t >>> (8 * x)) % 256

/-- Multiplication by x in GF(2^8). -/
def xtime (a : Nat) : Nat := if a < 128 then 2 * a else (2 * a) ^^^ 0x11B

/-- MixColumns. -/
def mixColumns : List Nat → List Nat
  | a :: b :: c :: d :: r =>
    let t := a ^^^ b ^^^ c ^^^ d
    (a ^^^ t ^^^ xtime (a ^^^ b)) :: (b ^^^ t ^^^ xtime (b ^^^ c)) :: (c ^^^ t ^^^ xtime (c ^^^ d)) ::
      (d ^^^ t ^^^ xtime (d ^^^ a)) :: mixColumns r
  | r => r

/-- InvMixColumns: MixColumns after a multiplication of each column by 04·x² + 05. -/
def preMix : List Nat → List Nat
  | a :: b :: c :: d :: r =>
    let u := xtime (xtime (a ^^^ c))
    let v := xtime (xtime (b ^^^ d))
    (a ^^^ u) :: (b ^^^ v) :: (c ^^^ u) :: (d ^^^ v) :: preMix r
  | r => r

/-- ShiftRows with the step that picks its source: 5 for the cipher, 13 for its inverse. -/
def shiftRows (k : Nat) (s : List Nat) : List Nat := (List.range 16).map (fun i => s.getD (k * i % 16) 0)

/-- Words of the next key chunk: each is the old word XORed with the word before it, which is given for the first. -/
def chainWords (t : List Nat) : List (List Nat) → List (List Nat)
  | [] => []
  | w :: ws => let x := xorBytes w t; x :: chainWords x ws

/-- SubWord. -/
def subWord (w : List Nat) : List Nat := w.map (tableByte sboxTable)

/-- Eight words of the key schedule from the eight before them. -/
def nextKey (rcon : Nat) (ws : List (List Nat)) : List (List Nat) :=
  let last := subWord (ws.getD 7 [])
  let t := xorBytes (last.drop 1 ++ last.take 1) [rcon, 0, 0, 0]
  let lo := chainWords t (ws.take 4)
  lo ++ chainWords (subWord (lo.getD 3 [])) (ws.drop 4)

/-- Key schedule: chunks of eight words. -/
def schedule : Nat → Nat → List (List Nat) → List (List Nat)
  | 0, _, ws => ws
  | n + 1, rcon, ws => ws ++ schedule n (xtime rcon) (nextKey rcon ws)

/-- The fifteen round keys of a 32-byte key. -/
def roundKeys (key : List Nat) : List (List Nat) :=
  (runs 4 15 (schedule 7 1 (runs 4 8 key))).map List.flatten

/-- A round before its key. -/
def encRound (s : List Nat) : List Nat := shiftRows 5 (s.map (tableByte sboxTable))

/-- Rounds 1 to 14 of the cipher. -/
def encRounds : List (List Nat) → List Nat → List Nat
  | [], s => s
  | [k], s => xorBytes (encRound s) k
  | k :: ks, s => encRounds ks (xorBytes (mixColumns (encRound s)) k)

/-- Cipher of a 16-byte block. -/
def encBlock (rk : List (List Nat)) (b : List Nat) : List Nat :=
  match rk with
  | [] => b
  | k :: ks => encRounds ks (xorBytes b k)

/-- Rounds of the inverse cipher, over the round keys from the last but one down to the first. -/
def decRounds : List (List Nat) → List Nat → List Nat
  | [], s => s
  | [k], s => xorBytes ((shiftRows 13 s).map (tableByte invSboxTable)) k
  | k :: ks, s => decRounds ks (mixColumns (preMix (xorBytes ((shiftRows 13 s).map (tableByte invSboxTable)) k)))

/-- Inverse cipher of a block. -/
def decBlock (rk : List (List Nat)) (b : List Nat) : List Nat :=
  match rk.reverse with
  | [] => b
  | k :: ks => decRounds ks (xorBytes b k)

/-! ### AES-256-XTS (IEEE 1619) -/

/-- Multiplication by the primitive element of a tweak, bytes in little-endian order. -/
def tweakNext (t : List Nat) : List Nat :=
  let n := 2 * beNat t.reverse
  (beBytes 16 (if n < 2 ^ 128 then n else (n - 2 ^ 128) ^^^ 0x87)).reverse

/-- Apply a block function to the blocks of a data unit under rising tweaks. -/
def xtsBlocks (f : List Nat → List Nat) : List Nat → List (List Nat) → List Nat
  | _, [] => []
  | t, b :: bs => xorBytes (f (xorBytes b t)) t ++ xtsBlocks f (tweakNext t) bs

/-- A 64-byte data unit under a 64-byte key, whose first half enciphers data and whose second half the tweak. -/
def xtsUnit (dec : Bool) (key : List Nat) (tweak : Nat) (unit : List Nat) : List Nat :=
  let rk := roundKeys (key.take 32)
  xtsBlocks (if dec then decBlock rk else encBlock rk) (encBlock (roundKeys (key.drop 32)) (beBytes 16 tweak).reverse)
    (runs 16 4 unit)

/-! ### AES Key Wrap with Padding (NIST SP 800-38F) -/

/-- One pass of the unwrapping function over the semiblocks, from the last to the first: the counter falls by one at each. -/
def unwrapPass (rk : List (List Nat)) : Nat → List (List Nat) → List Nat → List (List Nat) × List Nat
  | _, [], a => ([], a)
  | t, r :: rs, a =>
    let b := decBlock rk (xorBytes a (beBytes 8 t) ++ r)
    let rest := unwrapPass rk (t - 1) rs (b.take 8)
    (b.drop 8 :: rest.1, rest.2)

/-- The six passes, over semiblocks in falling order. -/
def unwrapPasses (rk : List (List Nat)) (n : Nat) : Nat → List (List Nat) → List Nat → List (List Nat) × List Nat
  | 0, rs, a => (rs, a)
  | j + 1, rs, a => let x := unwrapPass rk (n * (j + 1)) rs a; unwrapPasses rk n j x.1 x.2

/-- KWP-AD of at least three semiblocks: the plaintext, where the integrity check holds. -/
def keyUnwrap (kek wrapped : List Nat) : Option (List Nat) :=
  let n := wrapped.length / 8 - 1
  let x := unwrapPasses (roundKeys kek) n 6 (runs 8 n (wrapped.drop 8)).reverse (wrapped.take 8)
  let p := x.1.reverse.flatten
  let len := beNat (x.2.drop 4)
  if x.2.take 4 = [0xA6, 0x59, 0x59, 0xA6] ∧ 8 * (n - 1) < len ∧ len ≤ 8 * n ∧ (p.drop len).all (fun b => decide (b = 0)) then
    some (p.take len)
  else none

/-! ### AES-256-GCM (NIST SP 800-38D) -/

/-- Product in the field of GHASH: over the bits of the first factor, the highest first. -/
def ghashMul (x : Nat) : Nat → Nat → Nat → Nat
  | 0, z, _ => z
  | i + 1, z, v =>
    ghashMul x i (if x.testBit i then z ^^^ v else z)
      (if v % 2 = 1 then (v / 2) ^^^ (0xE1 * 2 ^ 120) else v / 2)

/-- GHASH of whole blocks. -/
def ghash (h : Nat) (blocks : List (List Nat)) : Nat := blocks.foldl (fun y b => ghashMul (y ^^^ beNat b) 128 0 h) 0

/-- Blocks of a string, the last padded with zeros. -/
def paddedBlocks (bs : List Nat) : List (List Nat) :=
  (runs 16 bs.length bs).map (fun b => b ++ List.replicate (16 - b.length) 0)

/-- Blocks enciphered in counter mode from a counter value. -/
def counterMode (rk : List (List Nat)) (iv : List Nat) : Nat → List (List Nat) → List Nat
  | _, [] => []
  | c, b :: bs => xorBytes b (encBlock rk (iv ++ beBytes 4 c)) ++ counterMode rk iv (c + 1) bs

/-- Tag of a ciphertext under a 96-bit IV. -/
def gcmTag (rk : List (List Nat)) (iv aad text : List Nat) : List Nat :=
  let h := beNat (encBlock rk (List.replicate 16 0))
  let s := ghash h (paddedBlocks aad ++ paddedBlocks text ++ [beBytes 8 (8 * aad.length) ++ beBytes 8 (8 * text.length)])
  xorBytes (beBytes 16 s) (encBlock rk (iv ++ [0, 0, 0, 1]))

/-- Open a ciphertext followed by its 128-bit tag: the plaintext, where the tag is right. -/
def gcmOpen (key iv aad sealedText : List Nat) : Option (List Nat) :=
  let n := sealedText.length - 16
  let rk := roundKeys key
  if 16 ≤ sealedText.length ∧ gcmTag rk iv aad (sealedText.take n) = sealedText.drop n then
    some (counterMode rk iv 2 (runs 16 n (sealedText.take n)))
  else none

/-! ### SHA-384 (FIPS 180-4) -/

/-- The eight 64-bit words of a 512-bit number, the highest first. -/
def words64 (x : Nat) : List Nat := (List.range 8).map (fun i => x >>> (448 - 64 * i) % 2 ^ 64)

/-- Round constants, eight to a number: the first 64 bits of the fractional parts of the cube roots of the first 80 primes. -/
def shaRoots : List Nat :=
  [0x428a2f98d728ae227137449123ef65cdb5c0fbcfec4d3b2fe9b5dba58189dbbc3956c25bf348b53859f111f1b605d019923f82a4af194f9bab1c5ed5da6d8118,
   0xd807aa98a303024212835b0145706fbe243185be4ee4b28c550c7dc3d5ffb4e272be5d74f27b896f80deb1fe3b1696b19bdc06a725c71235c19bf174cf692694,
   0xe49b69c19ef14ad2efbe4786384f25e30fc19dc68b8cd5b5240ca1cc77ac9c652de92c6f592b02754a7484aa6ea6e4835cb0a9dcbd41fbd476f988da831153b5,
   0x983e5152ee66dfaba831c66d2db43210b00327c898fb213fbf597fc7beef0ee4c6e00bf33da88fc2d5a79147930aa72506ca6351e003826f142929670a0e6e70,
   0x27b70a8546d22ffc2e1b21385c26c9264d2c6dfc5ac42aed53380d139d95b3df650a73548baf63de766a0abb3c77b2a881c2c92e47edaee692722c851482353b,
   0xa2bfe8a14cf10364a81a664bbc423001c24b8b70d0f89791c76c51a30654be30d192e819d6ef5218d69906245565a910f40e35855771202a106aa07032bbd1b8,
   0x19a4c116b8d2d0c81e376c085141ab532748774cdf8eeb9934b0bcb5e19b48a8391c0cb3c5c95a634ed8aa4ae3418acb5b9cca4f7763e373682e6ff3d6b2b8a3,
   0x748f82ee5defb2fc78a5636f43172f6084c87814a1f0ab728cc702081a6439ec90befffa23631e28a4506cebde82bde9bef9a3f7b2c67915c67178f2e372532b,
   0xca273eceea26619cd186b8c721c0c207eada7dd6cde0eb1ef57d4f7fee6ed17806f067aa72176fba0a637dc5a2c898a6113f9804bef90dae1b710b35131c471b,
   0x28db77f523047d8432caab7b40c724933c9ebe0a15c9bebc431d67c49c100d4c4cc5d4becb3e42b6597f299cfc657e2a5fcb6fab3ad6faec6c44198c4a475817]

/-- Initial hash value: of the square roots of the ninth to sixteenth primes. -/
def shaInit : List Nat := words64
  0xcbbb9d5dc1059ed8629a292a367cd5079159015a3070dd17152fecd8f70e593967332667ffc00b318eb44a8768581511db0c2e0d64f98fa747b5481dbefa4fa4

/-- Rotation of a 64-bit word to the right. -/
def rotr (n x : Nat) : Nat := (x >>> n) ||| ((x % 2 ^ n) <<< (64 - n))

/-- Message schedule: the word that follows sixteen words, oldest first. -/
def shaNext (w : List Nat) : Nat :=
  let at' (i : Nat) : Nat := w.getD i 0
  let low (x : Nat) : Nat := rotr 1 x ^^^ rotr 8 x ^^^ (x >>> 7)
  let high (x : Nat) : Nat := rotr 19 x ^^^ rotr 61 x ^^^ (x >>> 6)
  (at' 0 + low (at' 1) + at' 9 + high (at' 14)) % 2 ^ 64

/-- The working variables, each named as in FIPS 180-4. -/
structure ShaVars where
  a : Nat
  b : Nat
  c : Nat
  d : Nat
  e : Nat
  f : Nat
  g : Nat
  h : Nat
  deriving DecidableEq, Repr

/-- One round with its constant and its word. -/
def shaRound (k w : Nat) (v : ShaVars) : ShaVars :=
  let pick := (v.e &&& v.f) ||| (v.g - (v.g &&& v.e))
  let most := (v.a &&& (v.b ||| v.c)) ||| (v.b &&& v.c)
  let up := v.h + (rotr 14 v.e ^^^ rotr 18 v.e ^^^ rotr 41 v.e) + pick + k + w
  { a := (up + (rotr 28 v.a ^^^ rotr 34 v.a ^^^ rotr 39 v.a) + most) % 2 ^ 64, b := v.a, c := v.b, d := v.c
    e := (v.d + up) % 2 ^ 64, f := v.e, g := v.f, h := v.g }

/-- The rounds of a block: the schedule moves on by one word with each. -/
def shaRounds : List Nat → List Nat → ShaVars → ShaVars
  | [], _, v => v
  | k :: ks, w, v => shaRounds ks (w.tail ++ [shaNext w]) (shaRound k (w.headD 0) v)

/-- Compression of a 128-byte block. -/
def shaBlock (h : List Nat) (block : List Nat) : List Nat :=
  let x (i : Nat) : Nat := h.getD i 0
  let v := shaRounds (shaRoots.flatMap words64) ((runs 8 16 block).map beNat) ⟨x 0, x 1, x 2, x 3, x 4, x 5, x 6, x 7⟩
  [x 0 + v.a, x 1 + v.b, x 2 + v.c, x 3 + v.d, x 4 + v.e, x 5 + v.f, x 6 + v.g, x 7 + v.h].map (· % 2 ^ 64)

/-- SHA-384 of a byte string: 48 bytes. -/
def sha384 (m : List Nat) : List Nat :=
  let padded := m ++ 0x80 :: List.replicate ((111 - m.length % 128 + 128) % 128) 0 ++ beBytes 16 (8 * m.length)
  (((runs 128 padded.length padded).foldl shaBlock shaInit).take 6).flatMap (beBytes 8)

/-! ### ECDSA P-384 (FIPS 186-5, SP 800-186) -/

/-- The prime, the coefficient b, the order and the base point of P-384; the coefficient a is −3. -/
def p384 : Nat := 2 ^ 384 - 2 ^ 128 - 2 ^ 96 + 2 ^ 32 - 1
def b384 : Nat := 0xb3312fa7e23ee7e4988e056be3f82d19181d9c6efe8141120314088f5013875ac656398d8a2ed19d2a85c8edd3ec2aef
def n384 : Nat := 0xffffffffffffffffffffffffffffffffffffffffffffffffc7634d81f4372ddf581a0db248b0a77aecec196accc52973

/-- A point in Jacobian coordinates: (x / z², y / z³); z is 0 at infinity. -/
structure Point where
  x : Nat
  y : Nat
  z : Nat
  deriving DecidableEq, Repr

def g384 : Point :=
  ⟨0xaa87ca22be8b05378eb1c71ef320ad746e1d3b628ba79b9859f741e082542a385502f25dbf55296c3a545e3872760ab7,
   0x3617de4a96262c6f5d9e98bf9292dc29f8f41dbd289a147ce9da3113b5f0b8c00a60b1ce1d7e819d7a431d7c90ea0e5f, 1⟩

/-- Product and difference modulo the prime, of numbers below it. -/
def mulP (a b : Nat) : Nat := a * b % p384
def subP (a b : Nat) : Nat := (a + (p384 - b)) % p384

/-- Twice a point. -/
def double (a : Point) : Point :=
  let delta := mulP a.z a.z
  let gamma := mulP a.y a.y
  let beta := mulP a.x gamma
  let alpha := mulP 3 (mulP (subP a.x delta) (a.x + delta))
  let x := subP (mulP alpha alpha) (mulP 8 beta)
  ⟨x, subP (mulP alpha (subP (mulP 4 beta) x)) (mulP 8 (mulP gamma gamma)), mulP 2 (mulP a.y a.z)⟩

/-- Sum of two points. -/
def addPoints (a b : Point) : Point :=
  if a.z = 0 then b
  else if b.z = 0 then a
  else
    let za := mulP a.z a.z
    let zb := mulP b.z b.z
    let u := mulP a.x zb
    let h := subP (mulP b.x za) u
    let s := mulP a.y (mulP zb b.z)
    let r := subP (mulP b.y (mulP za a.z)) s
    if h = 0 then (if r = 0 then double a else ⟨1, 1, 0⟩)
    else
      let hh := mulP h h
      let hhh := mulP h hh
      let v := mulP u hh
      let x := subP (subP (mulP r r) hhh) (mulP 2 v)
      ⟨x, subP (mulP r (subP v x)) (mulP s hhh), mulP h (mulP a.z b.z)⟩

/-- Sum of u times a and v times b, over the bits of u and v, the highest first; ab is a + b. -/
def sumOfMultiples (a b ab : Point) (u v : Nat) : Nat → Point → Point
  | 0, acc => acc
  | i + 1, acc =>
    let t := double acc
    sumOfMultiples a b ab u v i (match u.testBit i, v.testBit i with
      | true, true => addPoints t ab
      | true, false => addPoints t a
      | false, true => addPoints t b
      | false, false => t)

/-- Power modulo m, over the bits of the exponent, the highest first. -/
def powMod (m base e : Nat) : Nat → Nat → Nat
  | 0, acc => acc
  | i + 1, acc => powMod m base e i (if e.testBit i then acc * acc % m * base % m else acc * acc % m)

/-- The point of a public key: X, then Y, 48 bytes each; it lies on the curve. -/
def publicPoint (key : List Nat) : Option Point :=
  let x := beNat (key.take 48)
  let y := beNat ((key.drop 48).take 48)
  if x < p384 ∧ y < p384 ∧ mulP y y = (mulP x (subP (mulP x x) 3) + b384) % p384 then some ⟨x, y, 1⟩ else none

/-- A signature r, s over a 48-byte digest verifies. -/
def ecdsaVerify (key digest sig : List Nat) : Bool :=
  let r := beNat (sig.take 48)
  let s := beNat ((sig.drop 48).take 48)
  match publicPoint key with
  | none => false
  | some q =>
    let w := powMod n384 s (n384 - 2) 384 1
    let sum := sumOfMultiples g384 q (addPoints g384 q) (beNat digest * w % n384) (r * w % n384) 384 ⟨1, 1, 0⟩
    let i := powMod p384 sum.z (p384 - 2) 384 1
    decide (0 < r) && decide (r < n384) && decide (0 < s) && decide (s < n384) && decide (sum.z ≠ 0) &&
      decide (mulP sum.x (mulP i i) % n384 = r)

end Sys2Proof.Machine.Crypto
end

