-- ==== Sys2Proof/Machine/Regs.lean ====
section
/-!
DEFINITION. The register window, row by row from the register tables of the spec: offsets under the manual's names
(namespace R), access code, reset value, implemented bits, and whether the register is a counter that a warm reset
keeps (Table 00-5, Table 14-1). Registers whose value a unit derives from its own state are rows here too; the read
operation of Machine/RegRead.lean says what they return.
-/

namespace Sys2Proof.Machine

/-- Access codes (Table 00-6). -/
inductive Access where
  | ro | rw | w1c | wo | rwl | rws
  deriving DecidableEq, Repr

/-- One row of a register table, over both of its index dimensions. -/
structure RegRow where
  /-- Offset of the first instance in the window. -/
  base : Nat
  /-- Instance stride and count (Table 00-5). -/
  stride : Nat
  count : Nat
  /-- Index stride and count within an instance. -/
  stride' : Nat
  count' : Nat
  access : Access
  reset : W32
  /-- Implemented bits; the others are reserved and read as zero (R6). -/
  mask : W32
  /-- A counter: kept by a warm reset (Table 14-1). -/
  counter : Bool
  deriving DecidableEq, Repr

/-- The row covers the offset. -/
def rowCovers (r : RegRow) (off : Nat) : Bool :=
  decide (r.base ≤ off) &&
    (let d := off - r.base
     decide (d / r.stride < r.count) && decide ((d % r.stride) / r.stride' < r.count') &&
       decide ((d % r.stride) % r.stride' = 0))

namespace R

def ID_VENDOR : Nat := 0x0
def ID_PART : Nat := 0x4
def ID_REV : Nat := 0x8
def ID_SERIAL_LO : Nat := 0xC
def ID_SERIAL_HI : Nat := 0x10
def ID_LOCK_WR_CNT : Nat := 0x14
def TICK_CFG : Nat := 0x1000
def TICK_PERIOD : Nat := 0x1004
def TICK_INPUT_CLOSE : Nat := 0x1008
def TICK_ADMIT_CLOSE : Nat := 0x100C
def TICK_DRAIN_LEN : Nat := 0x1010
def TICK_BEACON_LEN : Nat := 0x1014
def TICK_DIE_INDEX : Nat := 0x1018
def TICK_DOMAIN_SIZE : Nat := 0x101C
def TICK_TIME_LO : Nat := 0x1020
def TICK_TIME_HI : Nat := 0x1024
def TICK_NUM_LO : Nat := 0x1028
def TICK_NUM_HI : Nat := 0x102C
def TICK_PHASE : Nat := 0x1030
def TICK_HOP_DELAY : Nat := 0x1034
def TICK_ALIGN_ERR : Nat := 0x1038
def TICK_RATE_TRIM : Nat := 0x103C
def TICK_MISS_CNT : Nat := 0x1040
def TICK_MISS_LIMIT : Nat := 0x1044
def TICK_LATE_CNT : Nat := 0x1048
def TICK_ECHO_INTERVAL : Nat := 0x104C
def TICK_BUDGET (j : Nat) : Nat := 0x1400 + 0x4 * j
def ENT_ADMIT_CFG : Nat := 0x2000
def ENT_SLACK_CFG : Nat := 0x2004
def ENT_CREDIT_SCALE : Nat := 0x2008
def ENT_LATE_CFG : Nat := 0x200C
def ENT_OP_FREQ : Nat := 0x2010
def ENT_ACCEPT_CNT : Nat := 0x2014
def ENT_REFUSE_CNT : Nat := 0x2018
def ENT_HELD_CNT : Nat := 0x201C
def ENT_RECOMPUTE_CNT : Nat := 0x2020
def ENT_LEDGER_LO : Nat := 0x2024
def ENT_LEDGER_HI : Nat := 0x2028
def ENT_CREDIT_LEFT (j : Nat) : Nat := 0x2100 + 0x4 * j
def ENT_EXPRESS_FREE (j : Nat) : Nat := 0x2200 + 0x4 * j
def RNG_CFG (i : Nat) : Nat := 0x40000 + 0x40 * i
def RNG_BASE (i : Nat) : Nat := 0x40004 + 0x40 * i
def RNG_HEAD (i : Nat) : Nat := 0x40008 + 0x40 * i
def RNG_TAIL (i : Nat) : Nat := 0x4000C + 0x40 * i
def RNG_DOORBELL (i : Nat) : Nat := 0x40010 + 0x40 * i
def RNG_PENDING (i : Nat) : Nat := 0x40014 + 0x40 * i
def RNG_SYNC (i : Nat) : Nat := 0x40018 + 0x40 * i
def RNG_ERR_CNT (i : Nat) : Nat := 0x4001C + 0x40 * i
def SYN_VALUE (i : Nat) : Nat := 0x80000 + 0x8 * i
def SYN_ADD (i : Nat) : Nat := 0x80004 + 0x8 * i
def TCX_STATE (i : Nat) : Nat := 0x100000 + 0x100 * i
def TCX_MODE (i : Nat) : Nat := 0x100004 + 0x100 * i
def TCX_VERSION (i : Nat) : Nat := 0x100008 + 0x100 * i
def TCX_VERSION_NEXT (i : Nat) : Nat := 0x10000C + 0x100 * i
def TCX_WEIGHT_BASE_LO (i : Nat) : Nat := 0x100010 + 0x100 * i
def TCX_WEIGHT_BASE_HI (i : Nat) : Nat := 0x100014 + 0x100 * i
def TCX_PROG_BASE_LO (i : Nat) : Nat := 0x100018 + 0x100 * i
def TCX_PROG_BASE_HI (i : Nat) : Nat := 0x10001C + 0x100 * i
def TCX_HEAD_CELLS_LO (i : Nat) : Nat := 0x100020 + 0x100 * i
def TCX_HEAD_CELLS_HI (i : Nat) : Nat := 0x100024 + 0x100 * i
def TCX_SHAPE (i : Nat) : Nat := 0x100028 + 0x100 * i
def TCX_PAGE (i : Nat) : Nat := 0x10002C + 0x100 * i
def TCX_PATTERN (i : Nat) : Nat := 0x100030 + 0x100 * i
def TCX_SEQ_FIRST (i : Nat) : Nat := 0x100034 + 0x100 * i
def TCX_SEQ_COUNT (i : Nat) : Nat := 0x100038 + 0x100 * i
def TCX_CM_WINDOW (i : Nat) : Nat := 0x10003C + 0x100 * i
def TCX_HV_BASE (i : Nat) : Nat := 0x100040 + 0x100 * i
def TCX_HV_BOUND (i : Nat) : Nat := 0x100044 + 0x100 * i
def TCX_KEYS (i : Nat) : Nat := 0x100048 + 0x100 * i
def TCX_ROPE_BASE (i : Nat) : Nat := 0x10004C + 0x100 * i
def TCX_STAGE_LO (i j : Nat) : Nat := 0x100080 + 0x100 * i + 0x8 * j
def TCX_STAGE_HI (i j : Nat) : Nat := 0x100084 + 0x100 * i + 0x8 * j
def ENT_CMD_BUDGET : Nat := 0x202C
def ENT_TCX_IGN_CNT : Nat := 0x2030
def ENT_CMD_CNT : Nat := 0x2034
def ENT_HIVE_DENY_CNT : Nat := 0x2038
def ENT_CMD_NEXT : Nat := 0x203C
def ENT_CT_VALID (j : Nat) : Nat := 0x2300 + 0x4 * j
def CEL_WAVE (i : Nat) : Nat := 0x200100 + 0x1000 * i
def CEL_ARR_PAR_CNT (i : Nat) : Nat := 0x200104 + 0x1000 * i
def CEL_LDS_WAIT_CNT (i : Nat) : Nat := 0x200108 + 0x1000 * i
def CEL_TQ_HOLD_CNT (i : Nat) : Nat := 0x20010C + 0x1000 * i
def CEL_WAVE_WAIT_CNT (i : Nat) : Nat := 0x200110 + 0x1000 * i
def CEL_NECT_STALL_CNT (i : Nat) : Nat := 0x200114 + 0x1000 * i
def CEL_MAC_CYC_LO (i : Nat) : Nat := 0x200118 + 0x1000 * i
def CEL_MAC_CYC_HI (i : Nat) : Nat := 0x20011C + 0x1000 * i
def CEL_NECT_CYC_LO (i : Nat) : Nat := 0x200120 + 0x1000 * i
def CEL_NECT_CYC_HI (i : Nat) : Nat := 0x200124 + 0x1000 * i
def CEL_ZGATE_LO (i : Nat) : Nat := 0x200128 + 0x1000 * i
def CEL_ZGATE_HI (i : Nat) : Nat := 0x20012C + 0x1000 * i
def CEL_SAT_CNT (i : Nat) : Nat := 0x200140 + 0x1000 * i
def CEL_ACC_ECC_CNT (i : Nat) : Nat := 0x200144 + 0x1000 * i
def CEL_NAN_CNT (i : Nat) : Nat := 0x200148 + 0x1000 * i
def CEL_TOPK_CNT (i : Nat) : Nat := 0x20014C + 0x1000 * i
def CEL_COMP_CNT_LO (i : Nat) : Nat := 0x200150 + 0x1000 * i
def CEL_COMP_CNT_HI (i : Nat) : Nat := 0x200154 + 0x1000 * i
def CEL_VE_ECC_CNT (i : Nat) : Nat := 0x200180 + 0x1000 * i
def CEL_VE_QFULL_CNT (i : Nat) : Nat := 0x200184 + 0x1000 * i
def CEL_VE_TQWAIT_CNT (i : Nat) : Nat := 0x200188 + 0x1000 * i
def CEL_LUT_MISS_CNT (i : Nat) : Nat := 0x20018C + 0x1000 * i
def CEL_LUT_WAIT_CNT (i : Nat) : Nat := 0x200190 + 0x1000 * i
def CEL_LUT_EPOCH (i : Nat) : Nat := 0x200194 + 0x1000 * i
def CEL_VE_CYC_LO (i : Nat) : Nat := 0x200198 + 0x1000 * i
def CEL_VE_CYC_HI (i : Nat) : Nat := 0x20019C + 0x1000 * i
def CEL_SFU_CYC_LO (i : Nat) : Nat := 0x2001A0 + 0x1000 * i
def CEL_SFU_CYC_HI (i : Nat) : Nat := 0x2001A4 + 0x1000 * i
def CEL_EMPTY_ROW_CNT (i : Nat) : Nat := 0x2001C0 + 0x1000 * i
def CEL_ALPHA_ZERO_CNT (i : Nat) : Nat := 0x2001C4 + 0x1000 * i
def CEL_ROW_INVALID_CNT (i : Nat) : Nat := 0x2001C8 + 0x1000 * i
def CEL_FATT_CNT (i : Nat) : Nat := 0x2001CC + 0x1000 * i
def CEL_CMB_SKIP_CNT (i : Nat) : Nat := 0x2001D0 + 0x1000 * i
def ENT_CMB_DISCARD_CNT : Nat := 0x2040
def ENT_CMB_INUSE : Nat := 0x2044
def KVC_REGION_BASE_LO : Nat := 0x20000
def KVC_REGION_BASE_HI : Nat := 0x20004
def KVC_REGION_SIZE : Nat := 0x20008
def KVC_FT_BASE_LO : Nat := 0x2000C
def KVC_FT_BASE_HI : Nat := 0x20010
def KVC_WATERMARK : Nat := 0x20014
def KVC_WATERMARK_HI : Nat := 0x20018
def KVC_EVICT_BUDGET : Nat := 0x2001C
def KVC_FREE : Nat := 0x20020
def KVC_SLOT_FREE : Nat := 0x20024
def KVC_STAGED_PAGES : Nat := 0x20028
def KVC_FLUSH_CNT : Nat := 0x2002C
def KVC_FLUSH_DEFER_CNT : Nat := 0x20030
def KVC_COW_CNT : Nat := 0x20034
def KVC_DROP_CNT : Nat := 0x20038
def KVC_ECC_DROP_CNT : Nat := 0x2003C
def KVC_PIN_CNT : Nat := 0x20040
def KVC_RESERVE_FAIL_CNT : Nat := 0x20044
def KVC_TOPUP_SHORT_CNT : Nat := 0x20048
def KVC_LOST : Nat := 0x2004C
def KVC_PTC_HIT_CNT : Nat := 0x20050
def KVC_PTC_MISS_CNT : Nat := 0x20054
def KVC_SEQ_BASE_LO : Nat := 0x20060
def KVC_SEQ_BASE_HI : Nat := 0x20064
def KVC_RESERVE (j : Nat) : Nat := 0x20100 + 0x4 * j
def KVC_FREE_ORD (j : Nat) : Nat := 0x20140 + 0x4 * j
def CEL_SCOUT_CNT (i : Nat) : Nat := 0x200200 + 0x1000 * i
def CEL_SCOUT_SHORT_CNT (i : Nat) : Nat := 0x200204 + 0x1000 * i
def CEL_SCOUT_EXTRA_CNT (i : Nat) : Nat := 0x200208 + 0x1000 * i
def CEL_PACK_BAD_CNT (i : Nat) : Nat := 0x20020C + 0x1000 * i
def ENT_SPEC_OPEN : Nat := 0x2048
def KVC_COMMIT_CNT : Nat := 0x20058
def KVC_SPEC_DISCARD_CNT : Nat := 0x2005C
def CEL_BANK_CTL (i : Nat) : Nat := 0x200240 + 0x1000 * i
def CEL_BANK_STATE (i : Nat) : Nat := 0x200244 + 0x1000 * i
def CEL_BANK_REFUSE_CNT (i : Nat) : Nat := 0x200248 + 0x1000 * i
def CEL_BANK_LATE_CNT (i : Nat) : Nat := 0x20024C + 0x1000 * i
def CEL_WIPE_PEND (i : Nat) : Nat := 0x200250 + 0x1000 * i
def CEL_WIPE_CNT (i : Nat) : Nat := 0x200254 + 0x1000 * i
def CEL_CM_ECC_CNT (i : Nat) : Nat := 0x200258 + 0x1000 * i
def CEL_WIN_FAULT_CNT (i : Nat) : Nat := 0x20025C + 0x1000 * i
def CEL_MOVER_WAIT_CNT (i : Nat) : Nat := 0x200260 + 0x1000 * i
def HIV_BAND_CTL : Nat := 0x30000
def HIV_BAND_STATE : Nat := 0x30004
def HIV_BAND_REFUSE_CNT : Nat := 0x30008
def HIV_BAND_LATE_CNT : Nat := 0x3000C
def HIV_WIPE_PEND : Nat := 0x30010
def HIV_WIPE_CNT : Nat := 0x30014
def HIV_ECC_CNT : Nat := 0x30018
def ENT_WGT_REGION_BASE_LO : Nat := 0x2050
def ENT_WGT_REGION_BASE_HI : Nat := 0x2054
def ENT_WGT_REGION_SIZE : Nat := 0x2058
def ENT_WGT_RELAY_BASE_LO : Nat := 0x205C
def ENT_WGT_RELAY_BASE_HI : Nat := 0x2060
def ENT_WGT_TIMEOUT : Nat := 0x2064
def ENT_WGT_RETRY : Nat := 0x2068
def ENT_WGT_NACK_CNT : Nat := 0x206C
def ENT_WGT_DISCARD_CNT : Nat := 0x2070
def ENT_WGT_ACT_IGN_CNT : Nat := 0x2074
def ENT_KEY_REASON : Nat := 0x2078
def ENT_WGT_CMD_REASON : Nat := 0x207C
def ENT_WSLOT_STATE (j : Nat) : Nat := 0x2400 + 0x20 * j
def ENT_WSLOT_VERSION (j : Nat) : Nat := 0x2404 + 0x20 * j
def ENT_WSLOT_CHUNKS (j : Nat) : Nat := 0x2408 + 0x20 * j
def ENT_WSLOT_LAYER (j : Nat) : Nat := 0x240C + 0x20 * j
def ENT_WSLOT_DEST_LO (j : Nat) : Nat := 0x2410 + 0x20 * j
def ENT_WSLOT_DEST_HI (j : Nat) : Nat := 0x2414 + 0x20 * j
def ENT_WSLOT_ACT_LO (j : Nat) : Nat := 0x2418 + 0x20 * j
def ENT_WSLOT_ACT_HI (j : Nat) : Nat := 0x241C + 0x20 * j
def ENT_WACT_ID (j : Nat) : Nat := 0x2500 + 0x10 * j
def ENT_WACT_VERSION (j : Nat) : Nat := 0x2504 + 0x10 * j
def ENT_WACT_TICK_LO (j : Nat) : Nat := 0x2508 + 0x10 * j
def ENT_WACT_TICK_HI (j : Nat) : Nat := 0x250C + 0x10 * j
def ENT_WQ (j : Nat) : Nat := 0x3000 + 0x4 * j
def ENT_KEY_VALID (j : Nat) : Nat := 0x3200 + 0x4 * j
def LNK_CFG (i : Nat) : Nat := 0x8000 + 0x400 * i
def LNK_STATUS (i : Nat) : Nat := 0x8004 + 0x400 * i
def LNK_WIDTH (i : Nat) : Nat := 0x8008 + 0x400 * i
def LNK_DECL_LAT (i : Nat) : Nat := 0x800C + 0x400 * i
def LNK_RETRY_CNT (i : Nat) : Nat := 0x8010 + 0x400 * i
def LNK_FEC_CORR_LO (i : Nat) : Nat := 0x8014 + 0x400 * i
def LNK_FEC_CORR_HI (i : Nat) : Nat := 0x8018 + 0x400 * i
def LNK_FEC_UNC_CNT (i : Nat) : Nat := 0x801C + 0x400 * i
def LNK_RETRAIN_CNT (i : Nat) : Nat := 0x8020 + 0x400 * i
def LNK_DISCARD_CNT (i : Nat) : Nat := 0x8024 + 0x400 * i
def LNK_EXP_DISCARD_CNT (i : Nat) : Nat := 0x8028 + 0x400 * i
def LNK_WAITS (i : Nat) : Nat := 0x802C + 0x400 * i
def LNK_TICK_CFG : Nat := 0xA000
def LNK_TICKIN_DELAY : Nat := 0xA004
def LNK_TICKIN_MISS_CNT : Nat := 0xA008
def LNK_I3C_ADDR : Nat := 0xA00C
def LNK_XSPI_STATUS : Nat := 0xA010
def LNK_ROUTE (j : Nat) : Nat := 0xA100 + 0x4 * j
def HBM_CFG (i : Nat) : Nat := 0x10000 + 0x2000 * i
def HBM_STATUS (i : Nat) : Nat := 0x10004 + 0x2000 * i
def HBM_TEMP (i : Nat) : Nat := 0x10008 + 0x2000 * i
def HBM_DIE_ECC_CNT (i : Nat) : Nat := 0x1000C + 0x2000 * i
def HBM_CTL_ECC_CNT (i : Nat) : Nat := 0x10010 + 0x2000 * i
def HBM_REF_STALL_CNT (i : Nat) : Nat := 0x10014 + 0x2000 * i
def PWR_OP_NEXT : Nat := 0x4000
def PWR_OP_SCHED : Nat := 0x4004
def PWR_CAP_MW : Nat := 0x4008
def PWR_CAP_CFG : Nat := 0x400C
def PWR_THERM_CFG : Nat := 0x4010
def PWR_TICK_MW : Nat := 0x4014
def PWR_BUS_MW : Nat := 0x4018
def PWR_VDDC_MV : Nat := 0x401C
def PWR_BOOST : Nat := 0x4020
def PWR_DROOP_CFG : Nat := 0x4024
def PWR_ACK_TIMEOUT : Nat := 0x4028
def PWR_STATE_REQ : Nat := 0x402C
def PWR_STATE : Nat := 0x4030
def PWR_STATE_STATUS : Nat := 0x4034
def PWR_ENTRY_CFG : Nat := 0x4038
def PWR_KPR_VOTE : Nat := 0x403C
def PWR_STRETCH_LO : Nat := 0x4040
def PWR_STRETCH_HI : Nat := 0x4044
def PWR_DROOP_CNT : Nat := 0x4048
def PWR_HALT_CNT : Nat := 0x404C
def PWR_DVFS_DEFER_CNT : Nat := 0x4050
def PWR_DVFS_ABANDON_CNT : Nat := 0x4054
def PWR_DVFS_SHORT_CNT : Nat := 0x4058
def PWR_CAP_CUT_CNT : Nat := 0x405C
def PWR_ALERT_CNT : Nat := 0x4060
def PWR_ABORT_CNT : Nat := 0x4064
def PWR_HINT_NEXT : Nat := 0x4068
def PWR_HINT_NEWEST : Nat := 0x406C
def PWR_HINT_FIFO : Nat := 0x4070
def PWR_HINT_DROP_CNT : Nat := 0x4074
def PWR_TEMP_MAX : Nat := 0x4078
def PWR_REFUSE_CNT (j : Nat) : Nat := 0x4080 + 0x4 * j
def PWR_RMAP (j : Nat) : Nat := 0x4100 + 0x4 * j
def PWR_RMAP_MW (j : Nat) : Nat := 0x4140 + 0x4 * j
def PWR_TEMP (j : Nat) : Nat := 0x4180 + 0x4 * j
def WIN_WAKE_CFG : Nat := 0xF00000
def WIN_WAKE_TIME_LO : Nat := 0xF00004
def WIN_WAKE_TIME_HI : Nat := 0xF00008
def WIN_WAKE_TEMP : Nat := 0xF0000C
def WIN_WAKE_SRC : Nat := 0xF00010
def WIN_SAVE_BASE_LO : Nat := 0xF00014
def WIN_SAVE_BASE_HI : Nat := 0xF00018
def WIN_ENTRY_CNT : Nat := 0xF0001C
def ID_BOOT_STATUS : Nat := 0x18
def ID_BOOT_ERR_INFO : Nat := 0x1C
def ID_RESET_CAUSE : Nat := 0x20
def ID_LOCK : Nat := 0x24
def ID_IMG_VERSION : Nat := 0x28
def ID_FUSE_KEYS : Nat := 0x2C
def ID_DENY_WR_CNT : Nat := 0x30
def ID_BOOT_TIME_LO : Nat := 0x34
def ID_BOOT_TIME_HI : Nat := 0x38
def ID_SCRATCH : Nat := 0x3C
def TICK_JOIN_TIMEOUT : Nat := 0x1050
def TICK_JOIN_CNT : Nat := 0x1054
def GRD_STATUS : Nat := 0x5000
def GRD_FLAGS : Nat := 0x5004
def GRD_ACK : Nat := 0x5008
def GRD_REC_SEL : Nat := 0x500C
def GRD_NEXT_SEQ : Nat := 0x5010
def GRD_CORR_CNT : Nat := 0x5014
def GRD_CONT_CNT : Nat := 0x5018
def GRD_FATAL_CNT : Nat := 0x501C
def GRD_LOST_CNT (j : Nat) : Nat := 0x5020 + 0x4 * j
def GRD_MULTI_CNT : Nat := 0x502C
def GRD_LOST_SEQ : Nat := 0x5030
def GRD_IRQ_CFG : Nat := 0x5034
def GRD_FORCE : Nat := 0x5038
def GRD_ACK_ERR_CNT : Nat := 0x503C
def GRD_REC (j : Nat) : Nat := 0x5100 + 0x4 * j
def GRD_FATAL_REC (j : Nat) : Nat := 0x5180 + 0x4 * j
def KPR_DUTY_CFG : Nat := 0x6000
def KPR_BUSY : Nat := 0x6004
def KPR_LOAD : Nat := 0x6008
def KPR_DEFER_CNT : Nat := 0x600C
def KPR_WDOG : Nat := 0x6010
def KPR_WDOG_TICKS : Nat := 0x6014
def KPR_RESTART_CNT : Nat := 0x6018
def KPR_OVERRUN_CNT : Nat := 0x601C
def TEL_CFG : Nat := 0x7000
def TEL_SNAP_TICK_LO : Nat := 0x7004
def TEL_SNAP_TICK_HI : Nat := 0x7008
def TEL_SNAP_SPAN : Nat := 0x700C
def TEL_DONE_CNT : Nat := 0x7010
def TEL_LATE_CNT : Nat := 0x7014
def TEL_FAIL_CNT : Nat := 0x7018
def TEL_DONE_MAX_NS : Nat := 0x701C
def TEL_CREDIT_PM : Nat := 0x7020
def TEL_SLACK_PM : Nat := 0x7024
def TEL_OVERRUN : Nat := 0x7028
def TEL_POWER_MW : Nat := 0x702C
def TEL_TEMP_MAX : Nat := 0x7030
def TEL_ERR_CORR : Nat := 0x7034
def TEL_ERR_CONT : Nat := 0x7038
def TEL_RPT_DONE : Nat := 0x703C
def TEL_RPT_SENT_CNT : Nat := 0x7040
def TEL_RPT_SEEN (j : Nat) : Nat := 0x7100 + 0x4 * j
def TEL_RPT_OUT (j : Nat) : Nat := 0x7140 + 0x4 * j
def TEL_STALL (i j : Nat) : Nat := 0x7400 + 0x10 * i + 0x4 * j

end R

/-- Register rows of the ID window. -/
def rowsId : List RegRow := [
  ⟨0x0, 0x1000000, 1, 0x4, 1, .ro, 0x4D59, 0xFFFFFFFF, false⟩,
  ⟨0x4, 0x1000000, 1, 0x4, 1, .ro, 0x59410008, 0xFFFFFFFF, false⟩,
  ⟨0x8, 0x1000000, 1, 0x4, 1, .ro, 0x10000, 0xFFFFFFFF, false⟩,
  ⟨0xC, 0x1000000, 1, 0x4, 1, .ro, 0x0, 0xFFFFFFFF, false⟩,
  ⟨0x10, 0x1000000, 1, 0x4, 1, .ro, 0x0, 0xFFFFFFFF, false⟩,
  ⟨0x14, 0x1000000, 1, 0x4, 1, .ro, 0x0, 0xFFFFFFFF, true⟩,
  ⟨0x18, 0x1000000, 1, 0x4, 1, .ro, 0x0, 0xFFFF, false⟩,
  ⟨0x1C, 0x1000000, 1, 0x4, 1, .ro, 0x0, 0xFFFFFFFF, false⟩,
  ⟨0x20, 0x1000000, 1, 0x4, 1, .ro, 0x0, 0x7, false⟩,
  ⟨0x24, 0x1000000, 1, 0x4, 1, .ro, 0x0, 0x1, false⟩,
  ⟨0x28, 0x1000000, 1, 0x4, 1, .ro, 0x0, 0xFFFFFFFF, false⟩,
  ⟨0x2C, 0x1000000, 1, 0x4, 1, .ro, 0x0, 0x3F, false⟩,
  ⟨0x30, 0x1000000, 1, 0x4, 1, .ro, 0x0, 0xFFFFFFFF, true⟩,
  ⟨0x34, 0x1000000, 1, 0x4, 1, .ro, 0x0, 0xFFFFFFFF, false⟩,
  ⟨0x38, 0x1000000, 1, 0x4, 1, .ro, 0x0, 0xFFFFFFFF, false⟩,
  ⟨0x3C, 0x1000000, 1, 0x4, 1, .rws, 0x0, 0xFFFFFFFF, false⟩]

/-- Register rows of the TICK window. -/
def rowsTick : List RegRow := [
  ⟨0x1000, 0x1000000, 1, 0x4, 1, .rwl, 0x0, 0x3F77, false⟩,
  ⟨0x1004, 0x1000000, 1, 0x4, 1, .rwl, 0x3E8, 0xFFFFFFFF, false⟩,
  ⟨0x1008, 0x1000000, 1, 0x4, 1, .rwl, 0x14, 0xFFFFFFFF, false⟩,
  ⟨0x100C, 0x1000000, 1, 0x4, 1, .rwl, 0x3B6, 0xFFFFFFFF, false⟩,
  ⟨0x1010, 0x1000000, 1, 0x4, 1, .rwl, 0x28, 0xFFFFFFFF, false⟩,
  ⟨0x1014, 0x1000000, 1, 0x4, 1, .rwl, 0xA, 0xFFFFFFFF, false⟩,
  ⟨0x1018, 0x1000000, 1, 0x4, 1, .rwl, 0x0, 0x1FF, false⟩,
  ⟨0x101C, 0x1000000, 1, 0x4, 1, .rwl, 0x1, 0x3FF, false⟩,
  ⟨0x1020, 0x1000000, 1, 0x4, 1, .ro, 0x0, 0xFFFFFFFF, false⟩,
  ⟨0x1024, 0x1000000, 1, 0x4, 1, .ro, 0x0, 0xFFFFFFFF, false⟩,
  ⟨0x1028, 0x1000000, 1, 0x4, 1, .ro, 0x0, 0xFFFFFFFF, false⟩,
  ⟨0x102C, 0x1000000, 1, 0x4, 1, .ro, 0x0, 0xFFFFFFFF, false⟩,
  ⟨0x1030, 0x1000000, 1, 0x4, 1, .ro, 0x0, 0xF, false⟩,
  ⟨0x1034, 0x1000000, 1, 0x4, 1, .ro, 0x0, 0xFFFF, false⟩,
  ⟨0x1038, 0x1000000, 1, 0x4, 1, .ro, 0x0, 0xFFFFFFFF, false⟩,
  ⟨0x103C, 0x1000000, 1, 0x4, 1, .ro, 0x0, 0xFFFFFFFF, false⟩,
  ⟨0x1040, 0x1000000, 1, 0x4, 1, .ro, 0x0, 0xFFFFFFFF, true⟩,
  ⟨0x1044, 0x1000000, 1, 0x4, 1, .rwl, 0x4, 0xFF, false⟩,
  ⟨0x1048, 0x1000000, 1, 0x4, 1, .ro, 0x0, 0xFFFFFFFF, true⟩,
  ⟨0x104C, 0x1000000, 1, 0x4, 1, .rwl, 0x400, 0xFFFFFFFF, false⟩,
  ⟨0x1400, 0x1000000, 1, 0x4, 256, .rw, 0x1000100, 0x1FF01FF, false⟩,
  ⟨0x1050, 0x1000000, 1, 0x4, 1, .rwl, 0x3E8, 0xFFFF, false⟩,
  ⟨0x1054, 0x1000000, 1, 0x4, 1, .ro, 0x0, 0xFFFFFFFF, true⟩]

/-- Register rows of the ENT window. -/
def rowsEnt : List RegRow := [
  ⟨0x2000, 0x1000000, 1, 0x4, 1, .rwl, 0x0, 0x1, false⟩,
  ⟨0x2004, 0x1000000, 1, 0x4, 1, .rwl, 0x32, 0x3FF, false⟩,
  ⟨0x2008, 0x1000000, 1, 0x4, 1, .rw, 0x100, 0x1FF, false⟩,
  ⟨0x200C, 0x1000000, 1, 0x4, 1, .rwl, 0x100020, 0xFF01FF, false⟩,
  ⟨0x2010, 0x1000000, 1, 0x4, 1, .ro, 0x4E2, 0xFFFFFFFF, false⟩,
  ⟨0x2014, 0x1000000, 1, 0x4, 1, .ro, 0x0, 0xFFFFFFFF, true⟩,
  ⟨0x2018, 0x1000000, 1, 0x4, 1, .ro, 0x0, 0xFFFFFFFF, true⟩,
  ⟨0x201C, 0x1000000, 1, 0x4, 1, .ro, 0x0, 0xFFFFFFFF, true⟩,
  ⟨0x2020, 0x1000000, 1, 0x4, 1, .ro, 0x0, 0xFFFFFFFF, true⟩,
  ⟨0x2024, 0x1000000, 1, 0x4, 1, .ro, 0x0, 0xFFFFFFFF, false⟩,
  ⟨0x2028, 0x1000000, 1, 0x4, 1, .ro, 0x0, 0xFFFFFFFF, false⟩,
  ⟨0x2100, 0x1000000, 1, 0x4, 64, .ro, 0x0, 0xFFFFFFFF, false⟩,
  ⟨0x2200, 0x1000000, 1, 0x4, 4, .ro, 0xB0, 0xFFFFFFFF, false⟩,
  ⟨0x202C, 0x1000000, 1, 0x4, 1, .rwl, 0x100, 0xFFF, false⟩,
  ⟨0x2030, 0x1000000, 1, 0x4, 1, .ro, 0x0, 0xFFFFFFFF, true⟩,
  ⟨0x2034, 0x1000000, 1, 0x4, 1, .ro, 0x0, 0xFFFFFFFF, true⟩,
  ⟨0x2038, 0x1000000, 1, 0x4, 1, .ro, 0x0, 0xFFFFFFFF, true⟩,
  ⟨0x203C, 0x1000000, 1, 0x4, 1, .ro, 0x0, 0xFFF, false⟩,
  ⟨0x2300, 0x1000000, 1, 0x4, 16, .ro, 0x0, 0xFFFFFFFF, false⟩,
  ⟨0x2040, 0x1000000, 1, 0x4, 1, .ro, 0x0, 0xFFFFFFFF, true⟩,
  ⟨0x2044, 0x1000000, 1, 0x4, 1, .ro, 0x0, 0x7FF, false⟩,
  ⟨0x2048, 0x1000000, 1, 0x4, 1, .ro, 0x0, 0x7FFFF, false⟩,
  ⟨0x2050, 0x1000000, 1, 0x4, 1, .rwl, 0x0, 0xFFFFFFFF, false⟩,
  ⟨0x2054, 0x1000000, 1, 0x4, 1, .rwl, 0x0, 0xFFFFFFFF, false⟩,
  ⟨0x2058, 0x1000000, 1, 0x4, 1, .rwl, 0x0, 0xFFFFF, false⟩,
  ⟨0x205C, 0x1000000, 1, 0x4, 1, .rwl, 0x0, 0xFFFFFFFF, false⟩,
  ⟨0x2060, 0x1000000, 1, 0x4, 1, .rwl, 0x0, 0xFFFFFFFF, false⟩,
  ⟨0x2064, 0x1000000, 1, 0x4, 1, .rwl, 0xFA0, 0xFFFF, false⟩,
  ⟨0x2068, 0x1000000, 1, 0x4, 1, .rwl, 0x4, 0xFF, false⟩,
  ⟨0x206C, 0x1000000, 1, 0x4, 1, .ro, 0x0, 0xFFFFFFFF, true⟩,
  ⟨0x2070, 0x1000000, 1, 0x4, 1, .ro, 0x0, 0xFFFFFFFF, true⟩,
  ⟨0x2074, 0x1000000, 1, 0x4, 1, .ro, 0x0, 0xFFFFFFFF, true⟩,
  ⟨0x2078, 0x1000000, 1, 0x4, 1, .ro, 0x0, 0xFF, false⟩,
  ⟨0x207C, 0x1000000, 1, 0x4, 1, .ro, 0x0, 0xFF, false⟩,
  ⟨0x2400, 0x1000000, 1, 0x20, 8, .ro, 0x0, 0xFFFFF07, false⟩,
  ⟨0x2404, 0x1000000, 1, 0x20, 8, .ro, 0x0, 0xFFFFFFFF, false⟩,
  ⟨0x2408, 0x1000000, 1, 0x20, 8, .ro, 0x0, 0xFFFFFFFF, false⟩,
  ⟨0x240C, 0x1000000, 1, 0x20, 8, .ro, 0x0, 0xFF, false⟩,
  ⟨0x2410, 0x1000000, 1, 0x20, 8, .ro, 0x0, 0xFFFFFFFF, false⟩,
  ⟨0x2414, 0x1000000, 1, 0x20, 8, .ro, 0x0, 0xFFFFFFFF, false⟩,
  ⟨0x2418, 0x1000000, 1, 0x20, 8, .ro, 0x0, 0xFFFFFFFF, false⟩,
  ⟨0x241C, 0x1000000, 1, 0x20, 8, .ro, 0x0, 0xFFFFFFFF, false⟩,
  ⟨0x2500, 0x1000000, 1, 0x10, 8, .ro, 0x0, 0x80000FFF, false⟩,
  ⟨0x2504, 0x1000000, 1, 0x10, 8, .ro, 0x0, 0xFFFFFFFF, false⟩,
  ⟨0x2508, 0x1000000, 1, 0x10, 8, .ro, 0x0, 0xFFFFFFFF, false⟩,
  ⟨0x250C, 0x1000000, 1, 0x10, 8, .ro, 0x0, 0xFFFFFFFF, false⟩,
  ⟨0x3000, 0x1000000, 1, 0x4, 128, .ro, 0x0, 0xFFFFFFFF, false⟩,
  ⟨0x3200, 0x1000000, 1, 0x4, 128, .ro, 0x0, 0xFFFFFFFF, false⟩]

/-- Register rows of the PWR window. -/
def rowsPwr : List RegRow := [
  ⟨0x4000, 0x1000000, 1, 0x4, 1, .rw, 0x0, 0x3, false⟩,
  ⟨0x4004, 0x1000000, 1, 0x4, 1, .ro, 0x0, 0x7F, false⟩,
  ⟨0x4008, 0x1000000, 1, 0x4, 1, .rwl, 0x927C0, 0xFFFFFFFF, false⟩,
  ⟨0x400C, 0x1000000, 1, 0x4, 1, .rwl, 0x40020, 0xFF01FF, false⟩,
  ⟨0x4010, 0x1000000, 1, 0x4, 1, .rwl, 0x348, 0xFFF, false⟩,
  ⟨0x4014, 0x1000000, 1, 0x4, 1, .ro, 0x0, 0xFFFFFFFF, false⟩,
  ⟨0x4018, 0x1000000, 1, 0x4, 1, .ro, 0x0, 0xFFFFFFFF, false⟩,
  ⟨0x401C, 0x1000000, 1, 0x4, 1, .ro, 0x0, 0xFFF, false⟩,
  ⟨0x4020, 0x1000000, 1, 0x4, 1, .rw, 0x0, 0x3F, false⟩,
  ⟨0x4024, 0x1000000, 1, 0x4, 1, .rwl, 0x404628, 0xFFFFFFF, false⟩,
  ⟨0x4028, 0x1000000, 1, 0x4, 1, .rwl, 0xC8, 0xFFFF, false⟩,
  ⟨0x402C, 0x1000000, 1, 0x4, 1, .rw, 0x0, 0x3, false⟩,
  ⟨0x4030, 0x1000000, 1, 0x4, 1, .ro, 0x0, 0x3F, false⟩,
  ⟨0x4034, 0x1000000, 1, 0x4, 1, .ro, 0x0, 0xF03FFF3, false⟩,
  ⟨0x4038, 0x1000000, 1, 0x4, 1, .rwl, 0x3204, 0xFF0F, false⟩,
  ⟨0x403C, 0x1000000, 1, 0x4, 1, .rw, 0x0, 0x3, false⟩,
  ⟨0x4040, 0x1000000, 1, 0x4, 1, .ro, 0x0, 0xFFFFFFFF, true⟩,
  ⟨0x4044, 0x1000000, 1, 0x4, 1, .ro, 0x0, 0xFFFFFFFF, true⟩,
  ⟨0x4048, 0x1000000, 1, 0x4, 1, .ro, 0x0, 0xFFFFFFFF, true⟩,
  ⟨0x404C, 0x1000000, 1, 0x4, 1, .ro, 0x0, 0xFFFFFFFF, true⟩,
  ⟨0x4050, 0x1000000, 1, 0x4, 1, .ro, 0x0, 0xFFFFFFFF, true⟩,
  ⟨0x4054, 0x1000000, 1, 0x4, 1, .ro, 0x0, 0xFFFFFFFF, true⟩,
  ⟨0x4058, 0x1000000, 1, 0x4, 1, .ro, 0x0, 0xFFFFFFFF, true⟩,
  ⟨0x405C, 0x1000000, 1, 0x4, 1, .ro, 0x0, 0xFFFFFFFF, true⟩,
  ⟨0x4060, 0x1000000, 1, 0x4, 1, .ro, 0x0, 0xFFFFFFFF, true⟩,
  ⟨0x4064, 0x1000000, 1, 0x4, 1, .ro, 0x0, 0xFFFFFFFF, true⟩,
  ⟨0x4068, 0x1000000, 1, 0x4, 1, .ro, 0x0, 0xFFFFFFFF, false⟩,
  ⟨0x406C, 0x1000000, 1, 0x4, 1, .ro, 0x0, 0xFFFFFFFF, false⟩,
  ⟨0x4070, 0x1000000, 1, 0x4, 1, .ro, 0x0, 0xFFFF0FBF, false⟩,
  ⟨0x4074, 0x1000000, 1, 0x4, 1, .ro, 0x0, 0xFFFFFFFF, true⟩,
  ⟨0x4078, 0x1000000, 1, 0x4, 1, .ro, 0x0, 0xFFF, false⟩,
  ⟨0x4080, 0x1000000, 1, 0x4, 9, .ro, 0x0, 0xFFFFFFFF, true⟩,
  ⟨0x4100, 0x1000000, 1, 0x4, 16, .rwl, 0x0, 0x1FF07FF, false⟩,
  ⟨0x4140, 0x1000000, 1, 0x4, 16, .ro, 0x0, 0xFFFFFFFF, false⟩,
  ⟨0x4180, 0x1000000, 1, 0x4, 32, .ro, 0x0, 0xFFF, false⟩]

/-- Register rows of the GRD window. -/
def rowsGrd : List RegRow := [
  ⟨0x5000, 0x1000000, 1, 0x4, 1, .ro, 0x0, 0x1FF, false⟩,
  ⟨0x5004, 0x1000000, 1, 0x4, 1, .w1c, 0x0, 0x7, false⟩,
  ⟨0x5008, 0x1000000, 1, 0x4, 1, .wo, 0x0, 0xFFFFFFFF, false⟩,
  ⟨0x500C, 0x1000000, 1, 0x4, 1, .rw, 0x0, 0x3F, false⟩,
  ⟨0x5010, 0x1000000, 1, 0x4, 1, .ro, 0x1, 0xFFFFFFFF, true⟩,
  ⟨0x5014, 0x1000000, 1, 0x4, 1, .ro, 0x0, 0xFFFFFFFF, true⟩,
  ⟨0x5018, 0x1000000, 1, 0x4, 1, .ro, 0x0, 0xFFFFFFFF, true⟩,
  ⟨0x501C, 0x1000000, 1, 0x4, 1, .ro, 0x0, 0xFFFFFFFF, true⟩,
  ⟨0x5020, 0x1000000, 1, 0x4, 3, .ro, 0x0, 0xFFFFFFFF, true⟩,
  ⟨0x502C, 0x1000000, 1, 0x4, 1, .ro, 0x0, 0xFFFFFFFF, true⟩,
  ⟨0x5030, 0x1000000, 1, 0x4, 1, .ro, 0x0, 0xFFFFFFFF, true⟩,
  ⟨0x5034, 0x1000000, 1, 0x4, 1, .rw, 0x101, 0x17F, false⟩,
  ⟨0x5038, 0x1000000, 1, 0x4, 1, .wo, 0x0, 0xFFFFFFFF, false⟩,
  ⟨0x503C, 0x1000000, 1, 0x4, 1, .ro, 0x0, 0xFFFFFFFF, true⟩,
  ⟨0x5100, 0x1000000, 1, 0x4, 16, .ro, 0x0, 0xFFFFFFFF, false⟩,
  ⟨0x5180, 0x1000000, 1, 0x4, 16, .ro, 0x0, 0xFFFFFFFF, false⟩]

/-- Register rows of the KPR window. -/
def rowsKpr : List RegRow := [
  ⟨0x6000, 0x1000000, 1, 0x4, 1, .rwl, 0x801F4, 0xF03FF, false⟩,
  ⟨0x6004, 0x1000000, 1, 0x4, 1, .ro, 0x0, 0x3FF, false⟩,
  ⟨0x6008, 0x1000000, 1, 0x4, 1, .ro, 0x0, 0xF03, false⟩,
  ⟨0x600C, 0x1000000, 1, 0x4, 1, .ro, 0x0, 0xFFFFFFFF, true⟩,
  ⟨0x6010, 0x1000000, 1, 0x4, 1, .wo, 0x0, 0xFFFFFFFF, false⟩,
  ⟨0x6014, 0x1000000, 1, 0x4, 1, .rwl, 0x4, 0xFF, false⟩,
  ⟨0x6018, 0x1000000, 1, 0x4, 1, .ro, 0x0, 0xFFFFFFFF, true⟩,
  ⟨0x601C, 0x1000000, 1, 0x4, 1, .ro, 0x0, 0xFFFFFFFF, true⟩]

/-- Register rows of the TEL window. -/
def rowsTel : List RegRow := [
  ⟨0x7000, 0x1000000, 1, 0x4, 1, .rw, 0x0, 0x7, false⟩,
  ⟨0x7004, 0x1000000, 1, 0x4, 1, .ro, 0x0, 0xFFFFFFFF, false⟩,
  ⟨0x7008, 0x1000000, 1, 0x4, 1, .ro, 0x0, 0xFFFFFFFF, false⟩,
  ⟨0x700C, 0x1000000, 1, 0x4, 1, .ro, 0x0, 0xFF, false⟩,
  ⟨0x7010, 0x1000000, 1, 0x4, 1, .ro, 0x0, 0xFFFFFFFF, false⟩,
  ⟨0x7014, 0x1000000, 1, 0x4, 1, .ro, 0x0, 0xFFFFFFFF, false⟩,
  ⟨0x7018, 0x1000000, 1, 0x4, 1, .ro, 0x0, 0xFFFFFFFF, false⟩,
  ⟨0x701C, 0x1000000, 1, 0x4, 1, .ro, 0x0, 0xFFFFFFFF, false⟩,
  ⟨0x7020, 0x1000000, 1, 0x4, 1, .ro, 0x0, 0xFFFFFFFF, false⟩,
  ⟨0x7024, 0x1000000, 1, 0x4, 1, .ro, 0x0, 0xFFFFFFFF, false⟩,
  ⟨0x7028, 0x1000000, 1, 0x4, 1, .ro, 0x0, 0xFFFFFFFF, false⟩,
  ⟨0x702C, 0x1000000, 1, 0x4, 1, .ro, 0x0, 0xFFFFFFFF, false⟩,
  ⟨0x7030, 0x1000000, 1, 0x4, 1, .ro, 0x0, 0xFFF, false⟩,
  ⟨0x7034, 0x1000000, 1, 0x4, 1, .ro, 0x0, 0xFFFFFFFF, false⟩,
  ⟨0x7038, 0x1000000, 1, 0x4, 1, .ro, 0x0, 0xFFFFFFFF, false⟩,
  ⟨0x703C, 0x1000000, 1, 0x4, 1, .rw, 0x0, 0xFFFFFFFF, false⟩,
  ⟨0x7040, 0x1000000, 1, 0x4, 1, .ro, 0x0, 0xFFFFFFFF, true⟩,
  ⟨0x7100, 0x1000000, 1, 0x4, 16, .ro, 0x0, 0xFFFFFFFF, false⟩,
  ⟨0x7140, 0x1000000, 1, 0x4, 16, .ro, 0x0, 0xFFFFFFFF, false⟩,
  ⟨0x7400, 0x10, 64, 0x4, 4, .ro, 0x0, 0xFFFFFFFF, false⟩]

/-- Register rows of the LNK window. -/
def rowsLnk : List RegRow := [
  ⟨0x8000, 0x400, 6, 0x4, 1, .rwl, 0x1000805, 0xFFFF1F0D, false⟩,
  ⟨0x8004, 0x400, 6, 0x4, 1, .ro, 0x0, 0x1F, false⟩,
  ⟨0x8008, 0x400, 6, 0x4, 1, .ro, 0x0, 0xFFFF, false⟩,
  ⟨0x800C, 0x400, 6, 0x4, 1, .rwl, 0x0, 0xFFFF, false⟩,
  ⟨0x8010, 0x400, 6, 0x4, 1, .ro, 0x0, 0xFFFFFFFF, true⟩,
  ⟨0x8014, 0x400, 6, 0x4, 1, .ro, 0x0, 0xFFFFFFFF, true⟩,
  ⟨0x8018, 0x400, 6, 0x4, 1, .ro, 0x0, 0xFFFFFFFF, true⟩,
  ⟨0x801C, 0x400, 6, 0x4, 1, .ro, 0x0, 0xFFFFFFFF, true⟩,
  ⟨0x8020, 0x400, 6, 0x4, 1, .ro, 0x0, 0xFFFFFFFF, true⟩,
  ⟨0x8024, 0x400, 6, 0x4, 1, .ro, 0x0, 0xFFFFFFFF, true⟩,
  ⟨0x8028, 0x400, 6, 0x4, 1, .ro, 0x0, 0xFFFFFFFF, true⟩,
  ⟨0x802C, 0x400, 6, 0x4, 1, .ro, 0x0, 0x7F, false⟩,
  ⟨0xA000, 0x1000000, 1, 0x4, 1, .rwl, 0x1, 0x1, false⟩,
  ⟨0xA004, 0x1000000, 1, 0x4, 1, .rwl, 0x0, 0xFFFFFFFF, false⟩,
  ⟨0xA008, 0x1000000, 1, 0x4, 1, .ro, 0x0, 0xFFFFFFFF, true⟩,
  ⟨0xA00C, 0x1000000, 1, 0x4, 1, .ro, 0x0, 0xFF7F, false⟩,
  ⟨0xA010, 0x1000000, 1, 0x4, 1, .ro, 0x0, 0x7, false⟩,
  ⟨0xA100, 0x1000000, 1, 0x4, 64, .rwl, 0x77777777, 0xFFFFFFFF, false⟩]

/-- Register rows of the HBM window. -/
def rowsHbm : List RegRow := [
  ⟨0x10000, 0x2000, 8, 0x4, 1, .rwl, 0x12, 0x3F, false⟩,
  ⟨0x10004, 0x2000, 8, 0x4, 1, .ro, 0x0, 0x7F, false⟩,
  ⟨0x10008, 0x2000, 8, 0x4, 1, .ro, 0x0, 0xFFF, false⟩,
  ⟨0x1000C, 0x2000, 8, 0x4, 1, .ro, 0x0, 0xFFFFFFFF, true⟩,
  ⟨0x10010, 0x2000, 8, 0x4, 1, .ro, 0x0, 0xFFFFFFFF, true⟩,
  ⟨0x10014, 0x2000, 8, 0x4, 1, .ro, 0x0, 0xFFFFFFFF, true⟩]

/-- Register rows of the KVC window. -/
def rowsKvc : List RegRow := [
  ⟨0x20000, 0x1000000, 1, 0x4, 1, .rwl, 0x0, 0xFFFFFFFF, false⟩,
  ⟨0x20004, 0x1000000, 1, 0x4, 1, .rwl, 0x0, 0xFFFFFFFF, false⟩,
  ⟨0x20008, 0x1000000, 1, 0x4, 1, .rwl, 0x0, 0xFFFFF, false⟩,
  ⟨0x2000C, 0x1000000, 1, 0x4, 1, .rwl, 0x0, 0xFFFFFFFF, false⟩,
  ⟨0x20010, 0x1000000, 1, 0x4, 1, .rwl, 0x0, 0xFFFFFFFF, false⟩,
  ⟨0x20014, 0x1000000, 1, 0x4, 1, .rw, 0x0, 0xFFFFF, false⟩,
  ⟨0x20018, 0x1000000, 1, 0x4, 1, .rw, 0x0, 0xFFFFF, false⟩,
  ⟨0x2001C, 0x1000000, 1, 0x4, 1, .rw, 0x400, 0xFFFF, false⟩,
  ⟨0x20020, 0x1000000, 1, 0x4, 1, .ro, 0x0, 0xFFFFFFFF, false⟩,
  ⟨0x20024, 0x1000000, 1, 0x4, 1, .ro, 0x8000, 0x1FFFF, false⟩,
  ⟨0x20028, 0x1000000, 1, 0x4, 1, .ro, 0x0, 0xFFFFFFFF, false⟩,
  ⟨0x2002C, 0x1000000, 1, 0x4, 1, .ro, 0x0, 0xFFFFFFFF, true⟩,
  ⟨0x20030, 0x1000000, 1, 0x4, 1, .ro, 0x0, 0xFFFFFFFF, true⟩,
  ⟨0x20034, 0x1000000, 1, 0x4, 1, .ro, 0x0, 0xFFFFFFFF, true⟩,
  ⟨0x20038, 0x1000000, 1, 0x4, 1, .ro, 0x0, 0xFFFFFFFF, true⟩,
  ⟨0x2003C, 0x1000000, 1, 0x4, 1, .ro, 0x0, 0xFFFFFFFF, true⟩,
  ⟨0x20040, 0x1000000, 1, 0x4, 1, .ro, 0x0, 0xFFFFFFFF, true⟩,
  ⟨0x20044, 0x1000000, 1, 0x4, 1, .ro, 0x0, 0xFFFFFFFF, true⟩,
  ⟨0x20048, 0x1000000, 1, 0x4, 1, .ro, 0x0, 0xFFFFFFFF, true⟩,
  ⟨0x2004C, 0x1000000, 1, 0x4, 1, .ro, 0x0, 0xFFFFFFFF, true⟩,
  ⟨0x20050, 0x1000000, 1, 0x4, 1, .ro, 0x0, 0xFFFFFFFF, true⟩,
  ⟨0x20054, 0x1000000, 1, 0x4, 1, .ro, 0x0, 0xFFFFFFFF, true⟩,
  ⟨0x20060, 0x1000000, 1, 0x4, 1, .rwl, 0x0, 0xFFFFFFFF, false⟩,
  ⟨0x20064, 0x1000000, 1, 0x4, 1, .rwl, 0x0, 0xFFFFFFFF, false⟩,
  ⟨0x20100, 0x1000000, 1, 0x4, 11, .rwl, 0x0, 0xFFFF, false⟩,
  ⟨0x20140, 0x1000000, 1, 0x4, 11, .ro, 0x0, 0xFFFFFFFF, false⟩,
  ⟨0x20058, 0x1000000, 1, 0x4, 1, .ro, 0x0, 0xFFFFFFFF, true⟩,
  ⟨0x2005C, 0x1000000, 1, 0x4, 1, .ro, 0x0, 0xFFFFFFFF, true⟩]

/-- Register rows of the HIV window. -/
def rowsHiv : List RegRow := [
  ⟨0x30000, 0x1000000, 1, 0x4, 1, .rw, 0x0, 0x7F007F, false⟩,
  ⟨0x30004, 0x1000000, 1, 0x4, 1, .ro, 0x0, 0x3FFF, false⟩,
  ⟨0x30008, 0x1000000, 1, 0x4, 1, .ro, 0x0, 0xFFFFFFFF, true⟩,
  ⟨0x3000C, 0x1000000, 1, 0x4, 1, .ro, 0x0, 0xFFFFFFFF, true⟩,
  ⟨0x30010, 0x1000000, 1, 0x4, 1, .ro, 0x0, 0x7FFF, false⟩,
  ⟨0x30014, 0x1000000, 1, 0x4, 1, .ro, 0x0, 0xFFFFFFFF, true⟩,
  ⟨0x30018, 0x1000000, 1, 0x4, 1, .ro, 0x0, 0xFFFFFFFF, true⟩]

/-- Register rows of the RNG window. -/
def rowsRng : List RegRow := [
  ⟨0x40000, 0x40, 4096, 0x4, 1, .rw, 0x0, 0xFFFFF, false⟩,
  ⟨0x40004, 0x40, 4096, 0x4, 1, .rw, 0x0, 0xFFFF, false⟩,
  ⟨0x40008, 0x40, 4096, 0x4, 1, .ro, 0x0, 0xFFFFFFFF, false⟩,
  ⟨0x4000C, 0x40, 4096, 0x4, 1, .ro, 0x0, 0xFFFFFFFF, false⟩,
  ⟨0x40010, 0x40, 4096, 0x4, 1, .wo, 0x0, 0xFFFFFFFF, false⟩,
  ⟨0x40014, 0x40, 4096, 0x4, 1, .ro, 0x0, 0xFFFFFFFF, false⟩,
  ⟨0x40018, 0x40, 4096, 0x4, 1, .rw, 0x0, 0xBFFF, false⟩,
  ⟨0x4001C, 0x40, 4096, 0x4, 1, .ro, 0x0, 0xFFFFFFFF, true⟩]

/-- Register rows of the SYN window. -/
def rowsSyn : List RegRow := [
  ⟨0x80000, 0x8, 16384, 0x4, 1, .rw, 0x0, 0xFFFFFFFF, false⟩,
  ⟨0x80004, 0x8, 16384, 0x4, 1, .wo, 0x0, 0xFFFFFFFF, false⟩]

/-- Register rows of the TCX window. -/
def rowsTcx : List RegRow := [
  ⟨0x100000, 0x100, 4096, 0x4, 1, .ro, 0x0, 0xFF07, false⟩,
  ⟨0x100004, 0x100, 4096, 0x4, 1, .rw, 0x0, 0x7, false⟩,
  ⟨0x100008, 0x100, 4096, 0x4, 1, .rw, 0x0, 0xFFFFFFFF, false⟩,
  ⟨0x10000C, 0x100, 4096, 0x4, 1, .ro, 0x0, 0xFFFFFFFF, false⟩,
  ⟨0x100010, 0x100, 4096, 0x4, 1, .rw, 0x0, 0xFFFFFFFF, false⟩,
  ⟨0x100014, 0x100, 4096, 0x4, 1, .rw, 0x0, 0xFFFFFFFF, false⟩,
  ⟨0x100018, 0x100, 4096, 0x4, 1, .rw, 0x0, 0xFFFFFFFF, false⟩,
  ⟨0x10001C, 0x100, 4096, 0x4, 1, .rw, 0x0, 0xFFFFFFFF, false⟩,
  ⟨0x100020, 0x100, 4096, 0x4, 1, .rw, 0x0, 0xFFFFFFFF, false⟩,
  ⟨0x100024, 0x100, 4096, 0x4, 1, .rw, 0x0, 0xFFFFFFFF, false⟩,
  ⟨0x100028, 0x100, 4096, 0x4, 1, .rw, 0x0, 0x3FFFFFFF, false⟩,
  ⟨0x10002C, 0x100, 4096, 0x4, 1, .rw, 0x0, 0xFF7F, false⟩,
  ⟨0x100030, 0x100, 4096, 0x4, 1, .rw, 0x0, 0x3FFFFFFF, false⟩,
  ⟨0x100034, 0x100, 4096, 0x4, 1, .rw, 0x0, 0x3FFFF, false⟩,
  ⟨0x100038, 0x100, 4096, 0x4, 1, .rw, 0x0, 0x7FFFF, false⟩,
  ⟨0x10003C, 0x100, 4096, 0x4, 1, .rw, 0x0, 0x7FF07FF, false⟩,
  ⟨0x100040, 0x100, 4096, 0x4, 1, .rw, 0x0, 0xFFFF, false⟩,
  ⟨0x100044, 0x100, 4096, 0x4, 1, .rw, 0x0, 0x1FFFF, false⟩,
  ⟨0x100048, 0x100, 4096, 0x4, 1, .rw, 0x0, 0x1FF0FFF, false⟩,
  ⟨0x10004C, 0x100, 4096, 0x4, 1, .rw, 0x0, 0xFFFF, false⟩,
  ⟨0x100080, 0x100, 4096, 0x8, 16, .rw, 0x0, 0xFFFFFFFF, false⟩,
  ⟨0x100084, 0x100, 4096, 0x8, 16, .rw, 0x0, 0xFFFFFFFF, false⟩]

/-- Register rows of the CEL window. -/
def rowsCel : List RegRow := [
  ⟨0x200100, 0x1000, 64, 0x4, 1, .ro, 0x0, 0xF, false⟩,
  ⟨0x200104, 0x1000, 64, 0x4, 1, .ro, 0x0, 0xFFFFFFFF, true⟩,
  ⟨0x200108, 0x1000, 64, 0x4, 1, .ro, 0x0, 0xFFFFFFFF, true⟩,
  ⟨0x20010C, 0x1000, 64, 0x4, 1, .ro, 0x0, 0xFFFFFFFF, true⟩,
  ⟨0x200110, 0x1000, 64, 0x4, 1, .ro, 0x0, 0xFFFFFFFF, true⟩,
  ⟨0x200114, 0x1000, 64, 0x4, 1, .ro, 0x0, 0xFFFFFFFF, true⟩,
  ⟨0x200118, 0x1000, 64, 0x4, 1, .ro, 0x0, 0xFFFFFFFF, true⟩,
  ⟨0x20011C, 0x1000, 64, 0x4, 1, .ro, 0x0, 0xFFFFFFFF, true⟩,
  ⟨0x200120, 0x1000, 64, 0x4, 1, .ro, 0x0, 0xFFFFFFFF, true⟩,
  ⟨0x200124, 0x1000, 64, 0x4, 1, .ro, 0x0, 0xFFFFFFFF, true⟩,
  ⟨0x200128, 0x1000, 64, 0x4, 1, .ro, 0x0, 0xFFFFFFFF, true⟩,
  ⟨0x20012C, 0x1000, 64, 0x4, 1, .ro, 0x0, 0xFFFFFFFF, true⟩,
  ⟨0x200140, 0x1000, 64, 0x4, 1, .ro, 0x0, 0xFFFFFFFF, true⟩,
  ⟨0x200144, 0x1000, 64, 0x4, 1, .ro, 0x0, 0xFFFFFFFF, true⟩,
  ⟨0x200148, 0x1000, 64, 0x4, 1, .ro, 0x0, 0xFFFFFFFF, true⟩,
  ⟨0x20014C, 0x1000, 64, 0x4, 1, .ro, 0x0, 0xFFFFFFFF, true⟩,
  ⟨0x200150, 0x1000, 64, 0x4, 1, .ro, 0x0, 0xFFFFFFFF, true⟩,
  ⟨0x200154, 0x1000, 64, 0x4, 1, .ro, 0x0, 0xFFFFFFFF, true⟩,
  ⟨0x200180, 0x1000, 64, 0x4, 1, .ro, 0x0, 0xFFFFFFFF, true⟩,
  ⟨0x200184, 0x1000, 64, 0x4, 1, .ro, 0x0, 0xFFFFFFFF, true⟩,
  ⟨0x200188, 0x1000, 64, 0x4, 1, .ro, 0x0, 0xFFFFFFFF, true⟩,
  ⟨0x20018C, 0x1000, 64, 0x4, 1, .ro, 0x0, 0xFFFFFFFF, true⟩,
  ⟨0x200190, 0x1000, 64, 0x4, 1, .ro, 0x0, 0xFFFFFFFF, true⟩,
  ⟨0x200194, 0x1000, 64, 0x4, 1, .ro, 0x0, 0x1, false⟩,
  ⟨0x200198, 0x1000, 64, 0x4, 1, .ro, 0x0, 0xFFFFFFFF, true⟩,
  ⟨0x20019C, 0x1000, 64, 0x4, 1, .ro, 0x0, 0xFFFFFFFF, true⟩,
  ⟨0x2001A0, 0x1000, 64, 0x4, 1, .ro, 0x0, 0xFFFFFFFF, true⟩,
  ⟨0x2001A4, 0x1000, 64, 0x4, 1, .ro, 0x0, 0xFFFFFFFF, true⟩,
  ⟨0x2001C0, 0x1000, 64, 0x4, 1, .ro, 0x0, 0xFFFFFFFF, true⟩,
  ⟨0x2001C4, 0x1000, 64, 0x4, 1, .ro, 0x0, 0xFFFFFFFF, true⟩,
  ⟨0x2001C8, 0x1000, 64, 0x4, 1, .ro, 0x0, 0xFFFFFFFF, true⟩,
  ⟨0x2001CC, 0x1000, 64, 0x4, 1, .ro, 0x0, 0xFFFFFFFF, true⟩,
  ⟨0x2001D0, 0x1000, 64, 0x4, 1, .ro, 0x0, 0xFFFFFFFF, true⟩,
  ⟨0x200200, 0x1000, 64, 0x4, 1, .ro, 0x0, 0xFFFFFFFF, true⟩,
  ⟨0x200204, 0x1000, 64, 0x4, 1, .ro, 0x0, 0xFFFFFFFF, true⟩,
  ⟨0x200208, 0x1000, 64, 0x4, 1, .ro, 0x0, 0xFFFFFFFF, true⟩,
  ⟨0x20020C, 0x1000, 64, 0x4, 1, .ro, 0x0, 0xFFFFFFFF, true⟩,
  ⟨0x200240, 0x1000, 64, 0x4, 1, .rw, 0x0, 0xFFFF, false⟩,
  ⟨0x200244, 0x1000, 64, 0x4, 1, .ro, 0x0, 0xFFFF, false⟩,
  ⟨0x200248, 0x1000, 64, 0x4, 1, .ro, 0x0, 0xFFFFFFFF, true⟩,
  ⟨0x20024C, 0x1000, 64, 0x4, 1, .ro, 0x0, 0xFFFFFFFF, true⟩,
  ⟨0x200250, 0x1000, 64, 0x4, 1, .ro, 0x0, 0x7FF, false⟩,
  ⟨0x200254, 0x1000, 64, 0x4, 1, .ro, 0x0, 0xFFFFFFFF, true⟩,
  ⟨0x200258, 0x1000, 64, 0x4, 1, .ro, 0x0, 0xFFFFFFFF, true⟩,
  ⟨0x20025C, 0x1000, 64, 0x4, 1, .ro, 0x0, 0xFFFFFFFF, true⟩,
  ⟨0x200260, 0x1000, 64, 0x4, 1, .ro, 0x0, 0xFFFFFFFF, true⟩]

/-- Register rows of the WIN window. -/
def rowsWin : List RegRow := [
  ⟨0xF00000, 0x1000000, 1, 0x4, 1, .rw, 0x4, 0x7, false⟩,
  ⟨0xF00004, 0x1000000, 1, 0x4, 1, .rw, 0x0, 0xFFFFFFFF, false⟩,
  ⟨0xF00008, 0x1000000, 1, 0x4, 1, .rw, 0x0, 0xFFFFFFFF, false⟩,
  ⟨0xF0000C, 0x1000000, 1, 0x4, 1, .rw, 0x2D0, 0xFFF, false⟩,
  ⟨0xF00010, 0x1000000, 1, 0x4, 1, .w1c, 0x0, 0x7, false⟩,
  ⟨0xF00014, 0x1000000, 1, 0x4, 1, .rwl, 0x0, 0xFFFFFFFF, false⟩,
  ⟨0xF00018, 0x1000000, 1, 0x4, 1, .rwl, 0x0, 0xFFFFFFFF, false⟩,
  ⟨0xF0001C, 0x1000000, 1, 0x4, 1, .ro, 0x0, 0xFFFFFFFF, true⟩]

/-- The rows of the unit whose window holds the offset (Table 00-5). -/
def rowsAt (off : Nat) : List RegRow :=
  if off < 0x1000 then rowsId
  else if off < 0x2000 then rowsTick
  else if off < 0x4000 then rowsEnt
  else if off < 0x5000 then rowsPwr
  else if off < 0x6000 then rowsGrd
  else if off < 0x7000 then rowsKpr
  else if off < 0x8000 then rowsTel
  else if off < 0x10000 then rowsLnk
  else if off < 0x20000 then rowsHbm
  else if off < 0x30000 then rowsKvc
  else if off < 0x40000 then rowsHiv
  else if off < 0x80000 then rowsRng
  else if off < 0xA0000 then rowsSyn
  else if off < 0x100000 then []
  else if off < 0x200000 then rowsTcx
  else if off < 0x240000 then rowsCel
  else if off < 0xF00000 then []
  else rowsWin

/-- The register at an offset, none where the offset is reserved (R6). -/
def regRow? (off : Nat) : Option RegRow :=
  (rowsAt off).find? (fun r => rowCovers r off)

/-- Reset value of the register at an offset; the wave slot of cell[n] is n mod 16 (Table 04-10). -/
def regReset (off : Nat) : W32 :=
  match regRow? off with
  | none => 0
  | some r =>
    if 0x200000 ≤ off ∧ off < 0x240000 ∧ off % 0x1000 = 0x100 then BitVec.ofNat 32 ((off - 0x200000) / 0x1000 % 16)
    else r.reset

/-- Implemented bits at an offset. -/
def regMask (off : Nat) : W32 :=
  match regRow? off with
  | none => 0
  | some r => r.mask

/-- The register at an offset is a counter (Table 14-1). -/
def regIsCounter (off : Nat) : Bool :=
  match regRow? off with
  | none => false
  | some r => r.counter

/-- Access code at an offset. -/
def regAccess? (off : Nat) : Option Access :=
  (regRow? off).map (·.access)

/-- Bases of the rows of _LO registers; the matching _HI register lies 4 above each (R8). -/
def loBases : List Nat := [0xC, 0x34, 0x1020, 0x1028, 0x2024, 0x2050, 0x205C, 0x2410, 0x2418, 0x2508, 0x4040, 0x7004, 0x8014, 0x20000, 0x2000C, 0x20060, 0x100010, 0x100018, 0x100020, 0x100080, 0x200118, 0x200120, 0x200128, 0x200150, 0x200198, 0x2001A0, 0xF00004, 0xF00014]

/-- The register at an offset is a _LO register. -/
def regIsLo (off : Nat) : Bool :=
  match regRow? off with
  | none => false
  | some r => loBases.contains r.base

end Sys2Proof.Machine
end

