-- ==== Sys2Proof/Config.lean ====
section
/-!
DEFINITION. What the spec leaves to one die or leaves open: the per-die identity values and the free values.
Every constant here is opaque: it has no body, so no proof can lean on a value of it.
-/

namespace Sys2Proof

/-- Die serial number (Table 00-8: "per die"). -/
opaque Config.serial : BitVec 64

/-- Silicon stepping, ID_REV.STEP (Table 00-9: "per die"). -/
opaque Config.step : BitVec 8

/-- What a byte of HBM that nothing has written since the last reset reads as, by reset count and address
(Table 14-1: "Contents undefined"). -/
opaque Config.hbmByte : Nat → Nat → BitVec 8

/-- Bytes of a winter image in HBM, by reset count, number of the image and address: the spec gives its content and not its
layout (R358). -/
opaque Config.imageByte : Nat → Nat → Nat → BitVec 8

/-- The die key, a 64-byte AES-256-XTS key of the die's own (R232), and the 256-bit key-encryption key fused at manufacture
(11, Keys), as byte 0 at bits 7 to 0. No interface reads either. -/
opaque Config.dieKey : BitVec 512
opaque Config.kek : BitVec 256

/-- Which of the results that Table 06-7 permits the SFU gives, by function code and input (R156). -/
opaque Config.sfuChoice : Nat → BitVec 32 → Nat

/-- Where, between two neighbouring FP32 magnitudes, the SFU's reciprocal goes from the lower to the upper, by sign and
lower magnitude, in 2^-64 of their distance: every choice gives a monotonic RCP (Table 06-7). -/
opaque Config.rcpThreshold : Bool → Nat → Nat

/-- The E8M0 scale of a block of MX elements whose scale has no place that the spec names, by format and element codes: the
same elements give the same scale (R138). -/
opaque Config.blockScale : Nat → Nat → BitVec 8

/-- The seed of a stochastic rounding by ACCRD, whose class fields name none (R119), by instruction word, tenant, layer,
position and element: the same work gives the same seed (R138). -/
opaque Config.accSeed : BitVec 128 → Nat → Nat → Nat → Nat → Nat

/-- What LIST gives as the first position of an empty place, which Table 09-2 does not state, by place: the same list gives the
same words (R138). -/
opaque Config.emptyPos : Nat → BitVec 32

/-- From which argument on, in 2^-256, SMEXP_FAST gives an FP32 magnitude or a larger one: every choice gives a monotonic
function (Table 06-7). -/
opaque Config.fastThreshold : Nat → Int

/-- The rate trim after an alignment error (R54 gives its purpose and no formula): old trim, error, period. -/
opaque Config.rateTrim : BitVec 32 → Int → Nat → BitVec 32

/-- Refresh rate code that the stack standard sets for a temperature (R305 names the standard and gives no figures). -/
opaque Config.refreshRate : BitVec 12 → Nat

/-- By how much the longest beacon path of the domain exceeds the path that this die's own links show, in ns (R29, R311):
no register of one die holds the declared latencies of the other dies' links. -/
opaque Config.beaconRest : Nat

/-- What the boundary-scan chain holds for the levels of the sideband pins: the spec gives neither its order nor its length (R328). -/
opaque Config.boundaryScan : List Bool → BitVec 32

/-- A figure of a worker report that the spec does not state, by what is counted: a share of an offer or a reserve of zero, or a
count that its field does not hold (Table 02-12, R391). -/
opaque Config.reportFigure : Nat → Nat

/-- An undefined value that an otherwise defined step leaves, by the state's counter. -/
opaque Config.freeWord : Nat → BitVec 32

/-- A free natural number, by the state's counter. -/
opaque Config.freeNat : Nat → Nat

end Sys2Proof
end

