-- ==== Sys2Proof/Machine/CacheState.lean ====
section
/-!
DEFINITION. State of the paged cache (08, 09), of weight loading (11), and what a command keeps until its record is
written (03), as plain data.
-/

namespace Sys2Proof.Machine

open Sys2Proof

/-- A command whose record is written later: its completion ring and slot, and the fields echoed in the record. -/
structure CmdRef where
  ring : Nat
  ctr : W32
  cmdId : W32
  code : Nat
  tenant : Nat
  seq : Nat := 0
  /-- Tick in whose drain phase the command was consumed. -/
  tick : Nat := 0
  deriving DecidableEq, Repr

/-! ### Frames (Table 08-3, Table 08-4) -/

/-- States of a frame that is not FREE. -/
inductive FrameState where
  /-- Reserved for a cell (R208). -/
  | reserved (c : CellId)
  | used
  | pinned
  | freeing
  deriving DecidableEq, Repr

/-- KIND of a frame. -/
inductive FrameKind where
  | body | leaf | index | dir | root | staging
  deriving DecidableEq, Repr

/-- Frame table entry of a frame's first unit. -/
structure FrameEnt where
  refcnt : Nat
  tenant : Nat
  order : Nat
  st : FrameState
  kind : FrameKind
  deriving DecidableEq, Repr

/-! ### Page heads (Table 08-1) -/

/-- STATE of a page. -/
inductive PgState where
  | absent | staged | flushed | dropped
  deriving DecidableEq, Repr

/-- A page head. LOC is the first 2 KiB unit of the body or staging frame, or the first slot of the group. -/
structure PageHead where
  tenant : Nat := 0
  st : PgState := .absent
  spill : Bool := false
  frozen : Bool := false
  fmt : Nat := 0
  pshift : Nat := 0
  sumValid : Bool := false
  pos : Nat := 0
  valid : Nat := 0
  layer : Nat := 0
  head : Nat := 0
  version : W32 := 0
  loc : Nat := 0
  kSigma : W32 := 0
  vSigma : W32 := 0
  fillTick : Nat := 0
  kScales : List Byte := []
  vScales : List Byte := []
  /-- SUMMARY: D elements in BF16. -/
  summary : List Nat := []
  /-- Rows of the page that hold provisional candidates (R251). -/
  prov : List Nat := []
  deriving DecidableEq, Repr

/-! ### Sequence descriptors (Table 03-14, Table 08-10, Table 09-4) -/

/-- STATE of a sequence. -/
inductive SeqState where
  | free | live | releasing
  deriving DecidableEq, Repr

/-- SPEC field of a descriptor. -/
structure SpecField where
  base : Nat
  n : Nat
  bad : Bool
  parents : BitVec 64
  deriving DecidableEq, Repr

/-- A sequence descriptor. The dropped range stands in the entrance's sequence table, with which it always agrees;
STAGED and HELD follow from the directory. -/
structure SeqDesc where
  tenant : Nat := 0
  st : SeqState := .free
  evictable : Bool := false
  splitPos : Bool := false
  pinVersion : W32 := 0
  length : Nat := 0
  posLo : Nat := 0
  posHi : Nat := 0
  homeDie : Nat := 0
  parts : Nat := 0
  prefixLen : Nat := 0
  parent : Nat := 0x3FFFF
  /-- First unit of the root frame (DIR_BASE). -/
  root : Option Nat := none
  statsBase : Nat := 0
  lruTick : Nat := 0
  forkParent : Bool := false
  forkChild : Bool := false
  forkPeer : Nat := 0
  spec : Option SpecField := none
  /-- Next layer and head of release or fork work: layer · KVH + head. -/
  cursor : Nat := 0
  /-- Release or fork work is done, and its record is due. -/
  workDone : Bool := false
  /-- Shared length of a fork in progress. -/
  forkLen : Nat := 0
  /-- The command whose record the end of the work writes; none for a release by R84. -/
  cmd : Option CmdRef := none
  /-- The descriptor met an uncorrectable error (R225). -/
  damaged : Bool := false
  deriving DecidableEq, Repr

/-- A drop that a later read of the pages must name (R221): sequence, range, guard record, and the requests accepted
before it (those with an identifier below `uid`). -/
structure DropNote where
  seq : Nat
  lo : Nat
  hi : Nat
  ref : W32
  uid : Nat
  deriving DecidableEq, Repr

/-- Cache control. -/
structure CacheSt where
  /-- Frames that are not FREE, by first unit. -/
  frames : Tbl FrameEnt := []
  /-- FREE frames: first unit and order. -/
  freeFrames : Tbl Nat := []
  /-- Free brood slot groups: first slot and order. -/
  freeSlots : Tbl Nat := [(0, 15)]
  /-- Directory pointers with V = 1: 4,096 · unit + entry to the unit of the frame named. -/
  ptrs : Tbl Nat := []
  /-- Page heads that are not ABSENT zeros: 16 · unit of the leaf + index. -/
  heads : Tbl PageHead := []
  seqs : Tbl SeqDesc := []
  /-- Step of R229 in the drain phase now running (0: not begun), and cursor within it. -/
  step : Nat := 0
  /-- Cell whose reserve is topped up next. -/
  topCell : Nat := 0
  /-- Page columns evicted in this drain phase. -/
  evicted : Nat := 0
  /-- FULL pages skipped by the flush step of this drain phase: their head keys. -/
  skipped : List Nat := []
  /-- Work of step 3 found blocked in this drain phase: sequences, and drops that wait for a leaf copy. -/
  blocked : List Nat := []
  /-- Head writes of drops that wait for the copy of a shared leaf: sequence, layer, head, page (R229). -/
  waiting : List (Nat × Nat × Nat × Nat) := []
  notes : List DropNote := []
  deriving DecidableEq, Repr

/-! ### Weights (11) -/

/-- A key set of a handle (R277, R278). -/
structure KeySet where
  bytes : List Byte := []
  valid : Bool := false
  epoch : Nat := 0
  deriving DecidableEq, Repr

/-- State of a load slot (Table 11-1). -/
inductive SlotState where
  | idle | loading | verified | swapping | ready | reverting
  deriving DecidableEq, Repr

/-- A relay entry: chunk index, sealed bytes as received, and whether this die has verified it. -/
structure Relay where
  index : Nat
  bytes : List Byte
  verified : Bool := false
  deriving DecidableEq, Repr

/-- A load slot. -/
structure LoadSlot where
  st : SlotState := .idle
  reason : Nat := 0
  tenant : Nat := 0
  version : W32 := 0
  dest : Nat := 0
  up : Nat := 0
  down : Option PortId := none
  /-- The manifest verified: its bytes, IMAGE_BYTES and CHUNKS. -/
  manifest : List Byte := []
  imageBytes : Nat := 0
  chunks : Nat := 0
  /-- KV heads of the chain that the tick programs of a verified image run, the element format of its weights, and where
  its tick programs stand. -/
  kvHeads : Nat := 0
  wfmt : Nat := 1
  progs : List ProgArea := []
  /-- Indices verified, and one past the highest index that has arrived. -/
  done : List Nat := []
  arrived : Nat := 0
  /-- Timebase when a chunk of the slot last arrived or the timeout was restarted. -/
  lastAt : Nat := 0
  relays : List Relay := []
  /-- Sealed bytes of the chunks verified: sealing an image chunk again gives the same bytes (R285). -/
  sealed : Tbl (List Byte) := []
  nacks : Tbl Nat := []
  /-- Chunks that the downstream die asked for again and that have not been read back yet (R285, R283). -/
  resend : List Nat := []
  /-- A swap: KV_DROP, COST_TABLE, whether its steps have started, and the layers replaced. -/
  kvDrop : Bool := false
  costTable : Nat := 0
  started : Bool := false
  /-- The start of the drain phase now running found R292's conditions true. -/
  clear : Bool := false
  layer : Nat := 0
  /-- The swap has copied the rotary table. -/
  rope : Bool := false
  /-- T of a received activation entry; 0 without one. -/
  act : Nat := 0
  loadCmd : Option CmdRef := none
  swapCmd : Option CmdRef := none
  abortCmd : Option CmdRef := none
  deriving DecidableEq, Repr

/-- An image in the weight region: its place, tenant and version, the element format of its weights, and its programs. -/
structure Image where
  dest : Nat
  bytes : Nat
  tenant : Nat
  version : W32
  wfmt : Nat := 1
  progs : List ProgArea := []
  deriving DecidableEq, Repr

/-- Weight engine. -/
structure WgtSt where
  slots : Tbl LoadSlot := []
  keys : Tbl KeySet := []
  /-- Images that are current or abandoned, until they are freed. -/
  images : List Image := []
  /-- Tenants whose first hot-block and rotary copy is due (R290), and damaged blocks to be copied again (R300): tenant,
  layer of the hot block or the rotary table, and the first tick whose drain phase may copy it. -/
  copies : List Nat := []
  recopies : List (Nat × Option Nat × Nat) := []
  /-- WGT_ACTIVATE commands whose record is due, by activation entry, with their tick. -/
  actCmds : List (Nat × CmdRef) := []
  /-- Activation entries received: tenant, version, activation tick. -/
  acts : List (Nat × Nat × Nat) := []
  deriving DecidableEq, Repr

end Sys2Proof.Machine
end

