-- ==== Sys2Proof/Machine/CellState.lean ====
section
/-!
DEFINITION. State of a cell (04 to 07, 10): arrays, nectar path, accumulator memory, vector engine, tile queue, lookup
tables, softmax row store and operand buffers. Every table lists only what has been written since the last END.
-/

namespace Sys2Proof.Machine

open Sys2Proof

/-- A MAC array's stationary register: elements by 64 · row + column, block scales by 2 · row + block, the scale σ of an
integer tile (R123), the GANG of the last LDS, and whether a product has run against the tile since then (R94). -/
structure ArraySt where
  tile : Tbl Nat := []
  fmt : Nat := 0
  gang : Nat := 0
  scales : Tbl Byte := []
  sigma : Option W32 := none
  ran : Bool := false
  /-- Rows of an ABSENT or DROPPED page (R221). -/
  masked : List Nat := []
  deriving DecidableEq, Repr

/-- A nectar bank: its format and elements by 256 · row + element. -/
structure BankSt where
  fmt : Nat := 0
  elems : Tbl Nat := []
  deriving DecidableEq, Repr

/-- A byte of the nectar stream: whether it belongs to a scale area delivered ahead of a page's elements (R204), and whether
it stands for an ABSENT or DROPPED page (R221). -/
structure StreamByte where
  byte : Byte
  scale : Bool := false
  masked : Bool := false
  deriving DecidableEq, Repr

/-- The nectar path: banks, accumulators with error terms by 256 · row + element, the stream FIFO, COMP of the last ACC,
and the scales in force. -/
structure NectSt where
  bank0 : BankSt := {}
  bank1 : BankSt := {}
  acc : Tbl W32 := []
  err : Tbl W32 := []
  fifo : List StreamByte := []
  comp : Bool := false
  /-- Scale area of the page whose elements are in the stream now (R204), and its tokens already taken. -/
  scales : List Byte := []
  taken : Nat := 0
  deriving DecidableEq, Repr

/-- A row of the softmax row store (R178, R179), and where CORR keeps its O values: slot, log2 E, first value word and
elements, with COMP. -/
structure SmRow where
  m : W32 := 0xFF800000
  ls : W32 := 0
  lc : W32 := 0
  alphas : List W32 := []
  empty : Bool := false
  invalid : Bool := false
  o : Option (Nat × Nat × Nat × Nat × Bool) := none
  deriving DecidableEq, Repr

/-- An RMSSTAT row state (R159): Σ x² as num · 2^e, M as the largest magnitude, the count, and a NaN or infinity. -/
structure RmsRow where
  sNum : Nat := 0
  sExp : Int := 0
  mWord : W32 := 0
  n : Nat := 0
  bad : Bool := false
  deriving DecidableEq, Repr

/-- A LOOP in progress (R86): place of its body's first instruction in the program, body length, and passes left with the
one that runs. -/
structure LoopSt where
  start : Nat
  len : Nat
  left : Nat
  deriving DecidableEq, Repr

/-- An entry of the vector engine queue (R146): the word, and the inline words of a VPROG. -/
structure VqEntry where
  word : BitVec 128
  inline : List (BitVec 128) := []
  deriving DecidableEq, Repr

/-- A transfer that waits in the mover's queue (R260): its word, and how many entries of the vector engine queue stand before it in
program order. -/
structure MqEntry where
  word : BitVec 128
  ahead : Nat
  deriving DecidableEq, Repr

/-- What a page-list entry stands for: its page, none for an empty place, its KV head, and the positions of the place it is read
at, 0 for the page's own (R248). -/
structure ListEntry where
  page : Option Nat
  head : Nat
  place : Nat := 0
  deriving DecidableEq, Repr

/-- A cell. -/
structure CellSt where
  arrays : Tbl ArraySt := []
  nect : NectSt := {}
  /-- Accumulator words with their valid bit set, by 1,024 · entry + word. -/
  acc : Tbl W32 := []
  /-- Accumulator words that hold INT32 rather than FP32. -/
  accInt : Tbl Bool := []
  /-- Vector registers by 256 · register + lane, and mask registers k1 to k7 as bit sets. -/
  regs : Tbl W32 := []
  masks : Tbl Nat := []
  /-- Tile-queue inputs 1 to 6. -/
  tq : Tbl (List W32) := []
  /-- Words that products have sent to each input since the last END (R101). -/
  tqSeen : Tbl Nat := []
  /-- TOPK running list: value and position; k, ORDER and FMT_IN of the TOPK that built it (R132, R133). -/
  topk : List (W32 × W32) := []
  topkKey : Option (Nat × Nat × Nat) := none
  /-- RMSSTAT row states, and the rows of the open sequence of segments (R159). -/
  rms : Tbl RmsRow := []
  rmsRows : Option Nat := none
  /-- Table banks: entries with their valid bit set. -/
  lut0 : Tbl W32 := []
  lut1 : Tbl W32 := []
  lutBank : Bool := false
  rows : Tbl SmRow := []
  /-- Operand buffers: bytes of valid chunks, by address. -/
  sta : Tbl Byte := []
  mov : Tbl Byte := []
  /-- 16 B chunks of the stationary-side and of the moving-side buffer that stand for an ABSENT or DROPPED page (R221). -/
  staMasked : List Nat := []
  movMasked : List Nat := []
  /-- Page-list entries written by PGWALK and SCOUT, by window offset / 16. -/
  lists : Tbl ListEntry := []
  /-- 16 B chunks of the cell-memory window that a MOV filled from an ABSENT or DROPPED page (R221). -/
  cmMasked : List Nat := []
  /-- The token's sticky SATURATED flag. -/
  saturated : Bool := false
  /-- The token's tick program, as the version's image lists it, the place of its next instruction, and the LOOPs in
  progress, innermost first (R86). -/
  prog : List (BitVec 128) := []
  pc : Nat := 0
  loops : List LoopSt := []
  /-- Places of the program whose word is damaged in HBM, with its address there (R299). -/
  badWords : Tbl Nat := []
  /-- An instruction that waits and so holds the issue of every later one (R100, R111). -/
  held : Option (BitVec 128) := none
  /-- Vector engine queue, oldest first (R146), and the mover's (R260). -/
  vq : List VqEntry := []
  mq : List MqEntry := []
  /-- SCOUT: pages selected last for a head, as LIST takes them, and extra pages found by GATHER: HEAD and page. -/
  extra : List (Nat × Nat) := []
  deriving DecidableEq, Repr

end Sys2Proof.Machine
end

