-- ==== Sys2Proof/Machine/State.lean ====
section
/-!
DEFINITION. The state of the block as plain data: the register window, every memory, table, queue, mode and pin the
spec gives the die, and the queue of waiting commands. Registers whose value no unit keeps elsewhere stand in `regs`
under their window offset, at their reset value while unlisted.
-/

namespace Sys2Proof.Machine

open Sys2Proof

/-! ### Entrance: ledgers, tables, requests and tokens (02, 03) -/

/-- The ledger of one tick (R34, R35). -/
structure Ledger where
  tick : Nat
  /-- Cycle credit offered to every ordinary cell. -/
  credit : Nat
  /-- The base of R35, against which TOO_LARGE is decided. -/
  base : Nat
  /-- The slack reserve of a cell's window: the cycles R35 withholds. -/
  slack : Nat := 0
  /-- Cycles charged, by cell. -/
  used : Tbl Nat := []
  /-- Sum of the HINT fields of the accepted requests. -/
  hint : Nat := 0
  isOpen : Bool := true
  deriving DecidableEq, Repr

/-- The entrance's entry for one sequence: DROP_LO, DROP_HI, LAST_TICK and the two status bits (R45, R60). -/
structure SeqEntry where
  dropLo : Nat := 0
  dropHi : Nat := 0
  lastTick : Nat := 0
  isOpen : Bool := false
  prefillOpen : Bool := false
  deriving DecidableEq, Repr

/-- Speculative record of a sequence (R250): candidates of the last VERIFY, their parents, next layer of the COMMIT. -/
structure SpecRec where
  ncand : Nat := 0
  parents : BitVec 64 := 0
  nextLayer : Nat := 0
  bad : Bool := false
  tenant : TenantId := 0
  /-- Request identifier of its LAYER 0 VERIFY: names the speculation (R252). -/
  uid : Nat := 0
  deriving DecidableEq, Repr

/-- Where a work token stands. -/
inductive TokState where
  /-- In the cell's token queue. -/
  | queued
  /-- Pulled by its cell; its tick program runs. -/
  | running
  /-- Its program has ended or was stopped (R396), or it has been retired or skipped. -/
  | finished
  deriving DecidableEq, Repr

/-- A work token (R21 to R23): one per cell involved of a request. -/
structure Token where
  uid : Nat
  cell : CellId
  tick : Nat
  bucket : Nat
  charge : Nat
  st : TokState := TokState.queued
  /-- A combine token of a home die (R193). -/
  combine : Bool := false
  /-- Clock count (`ccount`) at its start, and cycles used once it has ended. -/
  startCyc : Nat := 0
  cycles : Nat := 0
  /-- Its first APPEND has been checked (R216, R240, R242). -/
  checked : Bool := false
  /-- Its results and appends that have not left the cell are suppressed (R95, R215, R216, R267). -/
  suppressed : Bool := false
  deriving DecidableEq, Repr

/-- A tile row of a partial output row that a cell has sent toward the home cell (R28, R187): sender, first head index,
row of the request, 64-element tile of the row, words in FP32. -/
structure PartialRow where
  cell : CellId
  firstHead : Nat
  row : Nat
  tile : Nat
  words : List W32
  deriving DecidableEq, Repr

/-- An accepted request. -/
structure Req where
  uid : Nat
  desc : BitVec 512
  /-- Port that carried the ADMIT, and the sending die. -/
  port : PortId
  src : BitVec 9
  /-- Tick of acceptance and completion counter value reserved (R68). -/
  tick : Nat
  ctr : BitVec 32
  /-- Version pinned at the decision (R61). -/
  version : W32
  bucket : Nat
  express : Option CellId := none
  /-- Tick from which a kill applies (R82, R83). -/
  killAt : Option Nat := none
  /-- Input bytes received, by offset (R88). -/
  input : Tbl Byte := []
  /-- Outcome so far: KILLED, BANK_OFF, ECC_FAIL, and the guard record it names. -/
  killed : Bool := false
  bankOff : Bool := false
  eccFail : Bool := false
  errRef : BitVec 32 := 0
  /-- A token was skipped for want of input (R33). -/
  inputMissing : Bool := false
  /-- Completion FLAGS (Table 03-6). -/
  emptyRow : Bool := false
  saturated : Bool := false
  /-- Every cell that saves statistics for the request has saved them (R196); the cells that have. -/
  statsSaved : Bool := false
  statsBy : List CellId := []
  /-- A refill (R227). -/
  refill : Bool := false
  /-- The speculation that a VERIFY or a COMMIT belongs to: the identifier of its LAYER 0 VERIFY (R252). -/
  specUid : Nat := 0
  /-- The check of R216 and its companions: made, and failed; an APPEND found its reserve empty. -/
  appendChecked : Bool := false
  checkFailed : Bool := false
  suppressed : Bool := false
  /-- Partial rows received at the home cell. -/
  partials : List PartialRow := []
  /-- Result bytes by tile of the output: 16 rows by 64 elements. -/
  tiles : Tbl (List Byte) := []
  /-- The last result frame has left the port, or was discarded. -/
  resultDone : Bool := false
  /-- Frames of PWR trains that have not been answered yet: port and tag (R191). -/
  awaiting : List (PortId × BitVec 16) := []
  /-- A partial frame had no port toward the home die: it is never answered (R191). -/
  unrouted : Bool := false
  /-- Home die of a multi-die sequence: a combine region is held, its index in the combine area, the partial frames in it,
  and the rows combined under R194 (row, head, normalised values), once combined. -/
  region : Bool := false
  regionIx : Nat := 0
  cmb : List (List Byte) := []
  combined : Bool := false
  cmbRows : List (Nat × Nat × List W32) := []
  /-- Input buffer of an express request: port and index; cycle offset of its release. -/
  expBuf : Option (PortId × Bool) := none
  expStart : Nat := 0
  released : Bool := false
  /-- Its record has been written, while cells still skip its tokens (R33). -/
  recordWritten : Bool := false
  deriving DecidableEq, Repr

/-- A tick that ended late (R48): the cells that had work left at its drain start, and the overrun in cycles of each
that has finished since. -/
structure LateTick where
  tick : Nat
  /-- Clock count (`ccount`) at its drain start. -/
  drainCyc : Nat
  cells : List CellId
  overruns : List (CellId × Nat) := []
  /-- Stall cycles of its cells since S of the tick, by 4·cell + cause, while the cell has not finished. -/
  stalls : Tbl Nat := []
  /-- Its TIMING report has been taken (R394). -/
  taken : Bool := false
  deriving DecidableEq, Repr

/-- Entrance state beside its registers. -/
structure Entrance where
  /-- Ledgers from the oldest to the newest; a closed ledger stays until its tick has ended. -/
  ledgers : List Ledger := []
  /-- Cost entries, keyed 256·table + 16·OP + bucket (Table 02-4). -/
  cost : Tbl (BitVec 128) := []
  seqTab : Tbl SeqEntry := []
  spec : Tbl SpecRec := []
  reqs : List Req := []
  tokens : List Token := []
  nextUid : Nat := 0
  /-- Rings enabled whose buffer still awaits its wipe (R271). -/
  ringWipe : List (BitVec 12) := []
  /-- Command entries consumed in the drain phase now running (R73). -/
  cmdUsed : Nat := 0
  /-- Ring served last in this drain phase. -/
  cmdRing : Option (BitVec 12) := none
  /-- Command rings on which the reader has stopped until a later drain phase (R73). -/
  cmdBlocked : List Nat := []
  /-- The last late tick L, and the first tick at whose start the late cut no longer covers the ledgers opened (R49). -/
  lateTick : Nat := 0
  lateEnd : Nat := 0
  /-- Late ticks, each until its TIMING report has been taken and the next drain start has come (R46, R394). -/
  late : List LateTick := []
  deriving DecidableEq, Repr

/-! ### Tick unit (02, 12) -/

/-- Phase of the running tick (Table 02-13, TICK_PHASE). -/
inductive Phase where
  | execute | drain | beacon
  deriving DecidableEq, Repr

/-- Tick unit state beside its registers. -/
structure TickUnit where
  /-- The 64-bit timebase, in ns (R363). -/
  time : Nat := 0
  /-- Alignment still to be slewed, in ns (R54). -/
  slew : Int := 0
  /-- Nanoseconds since the last slew step. -/
  slewAge : Nat := 0
  /-- S(num + 1) or, before the first tick, S(num), is known. -/
  joined : Bool := false
  /-- A tick runs. -/
  running : Bool := false
  /-- Tick number, and its S. Before the first tick, the tick that starts next. -/
  num : Nat := 0
  start : Nat := 0
  phase : Phase := .execute
  admitOpen : Bool := false
  inputOpen : Bool := false
  /-- Member of the tick domain: ADMITs are decided (R57, R371, R372). -/
  member : Bool := false
  /-- Number of the last beacon that arrived in time, and consecutive misses (R56, R57). -/
  lastBeacon : Nat := 0
  misses : Nat := 0
  /-- Beacon of the next tick has missed its time (R56). -/
  missed : Bool := false
  /-- The running tick started without its beacon (R56). -/
  alone : Bool := false
  /-- Budget of this die by ledger tick, from beacons (R58). -/
  budgets : Tbl Nat := []
  /-- Last hop-delay measurements, newest first, at most eight (R53). -/
  hops : List Nat := []
  /-- Ticks since the last periodic echo, and t1 of an ECHO in flight. -/
  echoAge : Nat := 0
  echoSent : Option (BitVec 16 × Nat) := none
  /-- A join or rejoin is under way; its start (R372 to R374). -/
  joining : Bool := false
  rejoin : Bool := false
  joinStart : Nat := 0
  /-- A TICK_IN edge has been accepted in this tick (R331). -/
  edgeSeen : Bool := false
  /-- The die has been in Winter and has not rejoined its domain or restarted its ticks since (R357). -/
  fromWinter : Bool := false
  /-- A cause of R57 has been met and the die has not left yet. -/
  leaveDue : Bool := false
  /-- Cells whose next first broadcast waits for their wave slot (R112). -/
  waves : List CellId := []
  /-- Operating point in force at S of the running tick (R344). -/
  startPoint : Nat := 3
  /-- TICK_OUT level and time of its rise (R330). -/
  tickOut : Bool := false
  tickOutRise : Nat := 0
  deriving DecidableEq, Repr

/-! ### Ports (12) -/

/-- A SYNC_WAIT held by a port (R79). -/
structure Wait where
  tag : BitVec 16
  src : BitVec 16
  obj : BitVec 14
  threshold : W32
  deadline : Nat
  deriving DecidableEq, Repr

/-- An ADMIT answer kept for replay (R319). -/
structure KeptAnswer where
  src : BitVec 16
  tag : BitVec 16
  desc : List Byte
  answer : List Byte
  deriving DecidableEq, Repr

/-- An express input buffer (R50). -/
structure ExpBuf where
  bytes : Tbl Byte := []
  full : Bool := false
  busy : Bool := false
  deriving DecidableEq, Repr

/-- Link port state beside its registers. -/
structure Port where
  waits : List Wait := []
  kept : List KeptAnswer := []
  exp0 : ExpBuf := {}
  exp1 : ExpBuf := {}
  /-- Frames that have left the port, newest last (outputs of the block). -/
  tx : List Frame := []
  /-- Frames held back while the port retrains (R307). -/
  held : List Frame := []
  retraining : Bool := false
  /-- Modules or lanes beyond ERR_LIMIT (R307), retries of each in the running tick, and whether a drain phase has started
  since RETRAIN_PEND was set, so that the retrain is due. -/
  badLanes : BitVec 16 := 0
  retries : Tbl Nat := []
  retrainDue : Bool := false
  /-- Trains being received: type, tag, source and bytes by offset. -/
  asm : List (Byte × BitVec 16 × BitVec 16 × Tbl Byte) := []
  /-- Time at which the PHY came up, while no HELLO has arrived (R313). -/
  helloSince : Option Nat := none
  /-- Tag of the next transaction this port starts. -/
  nextTag : BitVec 16 := 0
  /-- Replay buffer of a spine sender: frames not yet acknowledged (R310). -/
  unacked : List Frame := []
  /-- Spine: sequence number of the next frame sent, frames received so far, which is the acknowledgement that a frame
  carries, the sequence number and acknowledgement that the link adds to each frame of `tx`, and the negative
  acknowledgements sent, by the frame they ask for (R310; outputs of the block). -/
  sent : W32 := 0
  rcvd : W32 := 0
  trailers : List (W32 × W32) := []
  nacks : List W32 := []
  deriving DecidableEq, Repr

/-! ### Power controller (13) -/

/-- A running entry attempt (R354, R355). -/
structure Attempt where
  target : Nat
  /-- A drain start has come, so that the blocks are asked in this drain phase; time of the ask whose answers are not complete
  yet; and the answers of the blocks other than the keeper: block, refusal or delay, reason. -/
  due : Bool := false
  asked : Option Nat := none
  answers : List (Nat × Bool × Nat) := []
  /-- Consecutive delays so far. -/
  delays : Nat := 0
  /-- Steps of Table 13-7 already done. -/
  step : Nat := 0
  /-- Wake source met during entry (R356). -/
  wake : Option Nat := none
  deriving DecidableEq, Repr

/-- Power controller state beside its registers. -/
structure Power where
  /-- Requested core voltage in mV and the time of the request; acknowledged or not (R340). -/
  reqMv : Nat := 0
  reqTime : Nat := 0
  acked : Bool := true
  ackMissed : Bool := false
  /-- Lowest voltage requested since the last acknowledgement. -/
  lowMv : Nat := 0
  /-- The period is doubled; time it began. The droop flag; time it last cleared (R346). -/
  stretching : Bool := false
  stretchStart : Nat := 0
  droopFlag : Bool := false
  droopClear : Nat := 0
  /-- Die-wide array halt (R347). -/
  halted : Bool := false
  /-- Point left by a down-step whose lower voltage is not acknowledged yet (R342), and the voltage held until the
  next tick start. -/
  leftPoint : Option Nat := none
  holdMv : Nat := 0
  /-- An up-step to the point upTo waits for the droop flag in this tick (R341). -/
  upPending : Bool := false
  upTo : Nat := 0
  /-- Frequency that the ledger of each tick used, by tick (R345). -/
  ledgerFreq : Tbl Nat := []
  /-- The hint queue, oldest first (PWR_HINT_FIFO). -/
  hints : List W32 := []
  /-- Ticks still to come whose ledger openings the cap cut covers (R349). -/
  capLeft : Nat := 0
  /-- Clock count at the last change of the CCLK rate, in 1/2,000 cycle, and the timebase at that change. -/
  cyc : Nat := 0
  cycMark : Nat := 0
  /-- Sum and number of the die-power samples since the last beacon start (R337). -/
  sumMw : Nat := 0
  samples : Nat := 0
  /-- Entry of the regulator map polled next. -/
  poll : Nat := 0
  attempt : Option Attempt := none
  /-- Restore steps still to do, after an exit from Idle, Doze or Winter (Table 13-8). -/
  restore : List Nat := []
  /-- Wake event met during or after the commit step (R356). -/
  pendingWake : Option Nat := none
  /-- Switched rails: VDDH and VDDL on. -/
  railsOn : Bool := false
  /-- A winter image stands in HBM (R358). -/
  imageWritten : Bool := false
  deriving DecidableEq, Repr

/-! ### Guard, keeper, telemetry (15) -/

/-- An error record (Table 15-3); a record of the queue or of the fatal slot. -/
structure Record where
  seqnum : W32
  cls : BitVec 2
  multiple : Bool
  hwEsc : Bool
  code : Byte
  unit : BitVec 7
  tick : Nat
  time : Nat
  addr : BitVec 64
  tenant : Option TenantId
  rep : BitVec 16
  seq : Option SeqId
  req : BitVec 32
  info : BitVec 160
  deriving DecidableEq, Repr

/-- Guard state beside its registers. -/
structure Guard where
  queue : List Record := []
  fatal : Option Record := none
  stopped : Bool := false
  deriving DecidableEq, Repr

/-- Keeper core and its surroundings. -/
structure Keeper where
  running : Bool := false
  /-- Writes deferred to the drain start, oldest first (R27). -/
  deferred : List (Nat × W32) := []
  /-- Tick of the last KPR_WDOG write or restart (R390). -/
  wdogTick : Nat := 0
  deriving DecidableEq, Repr

/-- Telemetry accumulators and the queen's report books. -/
structure Telemetry where
  done : Nat := 0
  late : Nat := 0
  fail : Nat := 0
  doneMaxNs : Nat := 0
  creditPm : Nat := 0
  slackPm : Nat := 0
  overrun : Nat := 0
  powerSum : Nat := 0
  span : Nat := 0
  tempMax : Nat := 0
  errCorr : Nat := 0
  errCont : Nat := 0
  /-- Stall cycles by 4·cell + cause since the last snapshot, in this report interval, and since S of the running tick. -/
  stall : Tbl Nat := []
  stallInt : Tbl Nat := []
  stallTick : Tbl Nat := []
  /-- Figures of the report interval. -/
  errCorrInt : Nat := 0
  errContInt : Nat := 0
  overrunInt : Nat := 0
  /-- Queen: intervals since the last report of a die, and the dies that reported in this interval. -/
  silent : Tbl Nat := []
  /-- Products gated under R104 by cell, modulo the counter's unit of 64. -/
  gated : Tbl Nat := []
  seen : List (BitVec 9) := []
  deriving DecidableEq, Repr

/-! ### Memories (10, 12) -/

/-- Owner tag of a 4 KiB unit (R269). -/
inductive Tag where
  /-- The unit holds zeros. -/
  | clean
  | ring
  /-- Being zero-filled; the tag it takes at the end: an owner, a ring buffer, or clean. -/
  | wipingTenant (t : TenantId) (handle : BitVec 12) (epoch : Nat)
  | wipingRing
  | wipingClean
  | tenant (t : TenantId) (handle : BitVec 12) (epoch : Nat)
  deriving DecidableEq, Repr

/-- The XTS key under which a 64 B unit of HBM was written (R232): the die key, or a tenant's. -/
inductive HbmKey where
  | die
  | tenant (xts : List Byte)
  deriving DecidableEq, Repr

/-- The memories: bytes by address, each list in strictly rising order; cell and hive memory list no zero byte. -/
structure MemSys where
  /-- Cell memories: cell[n] at 4 MiB · n. -/
  cm : List Host.Cell := []
  hive : List Host.Cell := []
  hbm : List Host.Cell := []
  /-- Key of each written 64 B unit of HBM, by address / 64: a listed byte is the plaintext under it. -/
  hbmKey : Tbl HbmKey := []
  /-- Resets since power-on: unlisted HBM bytes are undefined anew after each (Table 14-1). -/
  hbmEpoch : Nat := 0
  /-- Base of the range that holds the last winter image, or held it, and how many images have been written: its bytes are
  in no stated order (R358). -/
  imageAt : Option Nat := none
  images : Nat := 0
  /-- Owner tags that are not CLEAN: cell units at 1,024 · n + unit, hive units at 65,536 + unit. -/
  tags : Tbl Tag := []
  /-- Words left uncorrectable until written (R276): 16 B chunks of cell memory, hive memory, 64 B units of HBM. -/
  badCm : List Nat := []
  badHive : List Nat := []
  badHbm : List Nat := []
  /-- Units that a running cell diagnostic program has written, by cell and tag key (R272). -/
  diagUnits : List (Nat × Nat) := []
  /-- HBM bursts in flight, by 2 · (64 · port + cell) + write (R24). -/
  hbmOut : Tbl Nat := []
  /-- Banks (8 · cell + bank) and bands (512 + band) already counted as blocked in this drain phase (R273). -/
  gateRefused : List Nat := []
  deriving DecidableEq, Repr

/-! ### Die: resets, image, pins, access captures (00, 12, 14) -/

/-- Die state beside its registers. -/
structure Die where
  /-- PORST_N is low: the die is in power-on reset (R361). -/
  porstLow : Bool := true
  /-- Time at which the running bring-up stage started. -/
  stageStart : Nat := 0
  /-- This bring-up follows a warm reset with a verified image in keeper memory (R364). -/
  warm : Bool := false
  /-- The four fused key digests, as stage WINTER read them (14, the configuration image). -/
  fuseKeys : List (List Byte) := []
  /-- The verified image in keeper memory, and the SHA-384 digest of it that winter SRAM holds (R366, R368). -/
  keeperMem : List Byte := []
  digested : Option (List Byte) := none
  /-- Flash slot and fused key slot of that image. -/
  imgSlot : Nat := 0
  keySlot : Nat := 0
  /-- _HI values captured by reads of _LO registers, by access path (R8). -/
  capture : List (Path × Nat × W32) := []
  cfgDone : Bool := false
  /-- The xSPI pins are driven: from PORST_N release until the image has been read (R327); else they are at high impedance. -/
  xspiDriven : Bool := false
  thermTripLow : Bool := false
  /-- I3C target: offset set by the last 4-byte write, data of the last read, in-band interrupt raised. -/
  i3cOff : Option Nat := none
  i3cData : W32 := 0
  i3cIbi : Bool := false
  i3cNack : Bool := false
  /-- TAP: instruction in force. -/
  tap : TapInstr := .bypass
  tapData : W32 := 0
  /-- Value returned by the last read of the window, by access path (outputs of the block). -/
  readData : W32 := 0
  deriving DecidableEq, Repr

/-- Everything but the queue. -/
structure Dev where
  /-- Register window, by offset; an unlisted register holds its reset value. -/
  regs : Tbl W32 := []
  die : Die := {}
  mem : MemSys := {}
  tick : TickUnit := {}
  ent : Entrance := {}
  ports : Tbl Port := []
  power : Power := {}
  guard : Guard := {}
  keeper : Keeper := {}
  tel : Telemetry := {}
  cache : CacheSt := {}
  wgt : WgtSt := {}
  cells : Tbl CellSt := []
  /-- Selects the next free value (the model's own field). -/
  freeIdx : Nat := 0
  deriving DecidableEq, Repr

/-- The machine: the queue of waiting commands, first in, first out, and everything else. -/
structure State where
  pending : List Instr := []
  dev : Dev := {}
  deriving DecidableEq, Repr

/-- Reasons for which the machine stops. -/
inductive Fault where
  /-- Raised by a cell-mover transfer, a SEND of statistics or an HBM request whose HBM address lies at or above 8 × the stack
  capacity (R303): no such address exists. Safe: the machine stops where the hardware's behaviour is not described. -/
  | noHbmAddress
  deriving DecidableEq, Repr

/-- Reasons for which a command is refused. -/
inductive Refusal where
  /-- Raised by the dispatch for a command that has no meaning yet. Safe: nothing is claimed of it. -/
  | notModelled (mnemonic : String)
  deriving DecidableEq, Repr

/-- The machine right after reset is applied: PORST_N low, every register at its reset value, memories zero, no
command waiting (R361, R363). -/
def State.reset : State := {}

end Sys2Proof.Machine
end

