-- ==== Sys2Proof/Machine/Ops.lean ====
section
/-!
DEFINITION. The named operations every meaning is written with: sparse tables and memories in canonical form, bit
fields, bytes, registers and their counters, the gates that stop units, and free values.
-/

namespace Sys2Proof.Machine

open Sys2Proof

/-! ### Sparse tables -/

/-- Entry of a table at a key. -/
def tblFind {α : Type} : Tbl α → Nat → Option α
  | [], _ => none
  | (k, v) :: t, x => if k = x then some v else tblFind t x

/-- Put an entry, keeping the keys strictly rising. -/
def tblPut {α : Type} : Tbl α → Nat → α → Tbl α
  | [], x, v => [(x, v)]
  | (k, w) :: t, x, v =>
    if x < k then (x, v) :: (k, w) :: t
    else if x = k then (x, v) :: t
    else (k, w) :: tblPut t x v

/-- Remove the entry of a key. -/
def tblErase {α : Type} : Tbl α → Nat → Tbl α
  | [], _ => []
  | (k, w) :: t, x => if k = x then tblErase t x else (k, w) :: tblErase t x

/-- Entry at a key, or the default for unlisted keys. -/
def tblGet {α : Type} (d : α) (t : Tbl α) (x : Nat) : α := (tblFind t x).getD d

/-- Set the entry at a key; an entry equal to the default is not listed. -/
def tblSet {α : Type} [DecidableEq α] (d : α) (t : Tbl α) (x : Nat) (v : α) : Tbl α :=
  if v = d then tblErase t x else tblPut t x v

/-- The keys are strictly rising. -/
def tblSorted {α : Type} : Tbl α → Bool
  | [] => true
  | [_] => true
  | (k, _) :: (j, w) :: t => decide (k < j) && tblSorted ((j, w) :: t)

/-- Canonical form of a table with a default: keys strictly rising, no entry equal to the default. -/
def tblWf {α : Type} [DecidableEq α] (d : α) (t : Tbl α) : Bool :=
  tblSorted t && t.all (fun e => decide (e.2 ≠ d))

/-- Write consecutive entries from a key upward. -/
def tblSetList {α : Type} [DecidableEq α] (d : α) : Tbl α → Nat → List α → Tbl α
  | t, _, [] => t
  | t, x, v :: vs => tblSetList d (tblSet d t x v) (x + 1) vs

/-- Read consecutive entries from a key upward. -/
def tblGetList {α : Type} (d : α) (t : Tbl α) (x : Nat) : Nat → List α
  | 0 => []
  | n + 1 => tblGet d t x :: tblGetList d t (x + 1) n

/-- Put consecutive entries from a key upward, listing every one. -/
def tblPutList {α : Type} : Tbl α → Nat → List α → Tbl α
  | t, _, [] => t
  | t, x, v :: vs => tblPutList (tblPut t x v) (x + 1) vs

/-- Drop the entries with keys in a range. -/
def tblClear {α : Type} (t : Tbl α) (lo n : Nat) : Tbl α :=
  t.filter (fun e => decide (e.1 < lo) || decide (lo + n ≤ e.1))

/-! ### Bit fields and bytes -/

/-- Bits hi to lo of a word, as a number. -/
def fld {w : Nat} (x : BitVec w) (hi lo : Nat) : Nat := (x.toNat >>> lo) % 2 ^ (hi + 1 - lo)

/-- Bit i of a word. -/
def bit {w : Nat} (x : BitVec w) (i : Nat) : Bool := x.getLsbD i

/-- A word with bits hi to lo replaced by a number. -/
def setFld {w : Nat} (x : BitVec w) (hi lo v : Nat) : BitVec w :=
  let m := 2 ^ (hi + 1 - lo)
  let old := x.toNat
  BitVec.ofNat w (old - ((old >>> lo) % m) <<< lo + (v % m) <<< lo)

/-- A word with bit i set as given. -/
def setBit {w : Nat} (x : BitVec w) (i : Nat) (b : Bool) : BitVec w :=
  setFld x i i (if b then 1 else 0)

/-- The n little-endian bytes of a number. -/
def leBytes : Nat → Nat → List Byte
  | 0, _ => []
  | n + 1, v => BitVec.ofNat 8 v :: leBytes n (v / 256)

/-- The number whose little-endian bytes are given. -/
def leNat : List Byte → Nat
  | [] => 0
  | b :: bs => b.toNat + 256 * leNat bs

/-- Little-endian number in n bytes from an offset of a byte string; missing bytes read as zero. -/
def leAt (bs : List Byte) (off n : Nat) : Nat := leNat ((bs.drop off).take n)

/-- n copies of the zero byte. -/
def zeroBytes (n : Nat) : List Byte := List.replicate n 0

/-- A byte string brought to n bytes. -/
def padTo (n : Nat) (bs : List Byte) : List Byte := bs.take n ++ zeroBytes (n - bs.length)

/-- Unsigned ceiling division. -/
def ceilDiv (a b : Nat) : Nat := (a + b - 1) / b

/-- Ceiling of the base-2 logarithm, for a number below 2^64; 0 for 0 and 1. -/
def clog2 (n : Nat) : Nat := if n ≤ 1 then 0 else Nat.log2 (n - 1) + 1

/-- Positions of the set bits of a word, in ascending order. -/
def setBits {w : Nat} (x : BitVec w) : List Nat := (List.range w).filter (fun i => bit x i)

/-- Number of set bits. -/
def popCount {w : Nat} (x : BitVec w) : Nat := (setBits x).length

/-! ### Registers -/

/-- Value that a register of the window holds. -/
def getReg (d : Dev) (off : Nat) : W32 := tblGet (regReset off) d.regs off

/-- Set a register. -/
def setReg (d : Dev) (off : Nat) (v : W32) : Dev :=
  { d with regs := tblSet (regReset off) d.regs off v }

/-- Field of a register, as a number. -/
def regFld (d : Dev) (off hi lo : Nat) : Nat := fld (getReg d off) hi lo

/-- Set a field of a register. -/
def setRegFld (d : Dev) (off hi lo v : Nat) : Dev := setReg d off (setFld (getReg d off) hi lo v)

/-- Add to a saturating 32-bit counter. -/
def bumpBy (d : Dev) (off n : Nat) : Dev :=
  setReg d off (BitVec.ofNat 32 (min ((getReg d off).toNat + n) 0xFFFFFFFF))

/-- Add one to a saturating 32-bit counter. -/
def bump (d : Dev) (off : Nat) : Dev := bumpBy d off 1

/-- Add to a saturating 16-bit half of a counter register. -/
def bumpHalf (d : Dev) (off lo n : Nat) : Dev :=
  setRegFld d off (lo + 15) lo (min (regFld d off (lo + 15) lo + n) 0xFFFF)

/-- A 64-bit quantity kept as a pair _LO and _HI. -/
def getReg64 (d : Dev) (lo hi : Nat) : Nat := (getReg d lo).toNat + 2 ^ 32 * (getReg d hi).toNat

/-- Set a pair _LO and _HI. -/
def setReg64 (d : Dev) (lo hi v : Nat) : Dev :=
  setReg (setReg d lo (BitVec.ofNat 32 v)) hi (BitVec.ofNat 32 (v / 2 ^ 32))

/-- Add to a free-running 64-bit counter pair. -/
def bump64 (d : Dev) (lo hi n : Nat) : Dev := setReg64 d lo hi (getReg64 d lo hi + n)

/-! ### Gates -/

/-- Stage of bring-up (Table 14-7): 0 in reset, 1 to 8 the stages, 9 locked and running. -/
def bootStage (d : Dev) : Nat := regFld d R.ID_BOOT_STATUS 3 0

/-- Bring-up has stopped (Table 14-7, FAILED). -/
def bootFailed (d : Dev) : Bool := bit (getReg d R.ID_BOOT_STATUS) 5

/-- Structural lock (ID_LOCK). -/
def locked (d : Dev) : Bool := bit (getReg d R.ID_LOCK) 0

/-- Power state (Table 13-5): 0 Active, 1 Idle, 2 Doze, 3 Winter. -/
def powerState (d : Dev) : Nat := regFld d R.PWR_STATE 1 0

/-- The die is out of reset and bring-up has not failed. -/
def powered (d : Dev) : Bool := !d.die.porstLow && !bootFailed d

/-- Units outside the winter domain act: powered, not stopped by a fatal error, not in Winter. -/
def alive (d : Dev) : Bool :=
  powered d && !d.guard.stopped && decide (powerState d ≠ 3)

/-- Bring-up is in the given stage. -/
def inStage (d : Dev) (n : Nat) : Bool :=
  powered d && !d.guard.stopped && decide (bootStage d = n)

/-- Apply a change where a condition holds; an event whose condition does not hold does not happen. -/
def onlyIf (c : Bool) (f : Dev → Dev) (d : Dev) : Dev := if c then f d else d

/-- A meaning that always completes with a change of everything but the queue. -/
def onDev (f : Dev → Dev) (s : State) : Host.Outcome State Fault Refusal :=
  .next { s with dev := f s.dev }

/-! ### Free values -/

/-- A fresh undefined word, and the counter advanced. -/
def freshWord (d : Dev) : W32 × Dev := (Config.freeWord d.freeIdx, { d with freeIdx := d.freeIdx + 1 })

/-- A fresh undefined number, and the counter advanced. -/
def freshNat (d : Dev) : Nat × Dev := (Config.freeNat d.freeIdx, { d with freeIdx := d.freeIdx + 1 })

/-! ### Memories -/

/-- Bytes of hive memory from an address. -/
def hiveRead (d : Dev) (a n : Nat) : List Byte := tblGetList 0 d.mem.hive a n

/-- Write bytes of hive memory; damaged chunks that are written become good (R276). -/
def hiveWrite (d : Dev) (a : Nat) (bs : List Byte) : Dev :=
  { d with mem := { d.mem with
      hive := tblSetList 0 d.mem.hive a bs
      badHive := d.mem.badHive.filter (fun c => decide (c < a / 16) || decide ((a + bs.length + 15) / 16 ≤ c)) } }

/-- Base of a cell's memory in the list of all cell memories. -/
def cmBase (c : CellId) : Nat := 0x400000 * c.val

/-- Bytes of a cell's memory from an address. -/
def cmRead (d : Dev) (c : CellId) (a n : Nat) : List Byte := tblGetList 0 d.mem.cm (cmBase c + a) n

/-- Write bytes of a cell's memory. -/
def cmWrite (d : Dev) (c : CellId) (a : Nat) (bs : List Byte) : Dev :=
  let x := cmBase c + a
  { d with mem := { d.mem with
      cm := tblSetList 0 d.mem.cm x bs
      badCm := d.mem.badCm.filter (fun k => decide (k < x / 16) || decide ((x + bs.length + 15) / 16 ≤ k)) } }

/-- An address lies in the 544 MiB that the last winter image was written to (R358). -/
def inImage (d : Dev) (a : Nat) : Bool :=
  match d.mem.imageAt with
  | none => false
  | some b => decide (b ≤ a) && decide (a < b + 0x22000000)

/-- A byte of HBM: what was written; where nothing was written since, a byte of the winter image, or an undefined byte since
the last reset. -/
def hbmByteAt (d : Dev) (a : Nat) : Byte :=
  match tblFind d.mem.hbm a with
  | some b => b
  | none => if inImage d a then Config.imageByte d.mem.hbmEpoch d.mem.images a else Config.hbmByte d.mem.hbmEpoch a

/-- Bytes of a key: the die key, or a tenant's. -/
def HbmKey.bytes : HbmKey → List Nat
  | .die => (leBytes 64 Config.dieKey.toNat).map (·.toNat)
  | .tenant bs => bs.map (·.toNat)

/-- A 64 B unit of HBM, written under one key and read under another: what XTS makes of its ciphertext (R232). -/
def crossUnit (d : Dev) (old k : HbmKey) (u : Nat) : List Byte :=
  let plain := (List.range 64).map (fun i => (hbmByteAt d (64 * u + i)).toNat)
  (Crypto.xtsUnit true k.bytes u (Crypto.xtsUnit false old.bytes u plain)).map (BitVec.ofNat 8)

/-- A byte of HBM read under a key (R232). -/
def hbmByteKey (d : Dev) (k : HbmKey) (a : Nat) : Byte :=
  match tblFind d.mem.hbmKey (a / 64) with
  | none => hbmByteAt d a
  | some old => if old = k then hbmByteAt d a else (crossUnit d old k (a / 64)).getD (a % 64) 0

/-- A unit that was written under another key, as bytes under this one: a controller that writes part of a unit keeps the
rest of its ciphertext as that key reads it (DEDUCED, log 104). -/
def rekeyUnit (k : HbmKey) (u : Nat) (hbm : List Host.Cell) (d : Dev) : List Host.Cell :=
  match tblFind d.mem.hbmKey u with
  | none => hbm
  | some old => if old = k then hbm else tblPutList hbm (64 * u) (crossUnit d old k u)

/-- Bytes of HBM read under a key. -/
def hbmRead (d : Dev) (k : HbmKey) (a n : Nat) : List Byte :=
  (List.range n).map (fun i => hbmByteKey d k (a + i))

/-- Write bytes of HBM under a key; every unit touched becomes the key's and good. -/
def hbmWrite (d : Dev) (k : HbmKey) (a : Nat) (bs : List Byte) : Dev :=
  let u := a / 64
  let n := if bs.isEmpty then 0 else (a + bs.length - 1) / 64 - u + 1
  { d with mem := { d.mem with
      hbm := tblPutList (if n = 0 then d.mem.hbm else rekeyUnit k (u + n - 1) (rekeyUnit k u d.mem.hbm d) d) a bs
      hbmKey := tblPutList d.mem.hbmKey u (List.replicate n k)
      badHbm := d.mem.badHbm.filter (fun x => decide (x < u) || decide (u + n ≤ x)) } }

/-! ### Keeper memory and digests -/

/-- Bytes as the ciphers take them. -/
def plainNats (bs : List Byte) : List Nat := bs.map (·.toNat)

/-- SHA-384 of bytes. -/
def digestOf (b : List Byte) : List Byte := (Crypto.sha384 (plainNats b)).map (BitVec.ofNat 8)

/-- Keeper memory holds what a check finds in it: what was copied there, or other bytes, which its firmware wrote or an
error left (log 9). -/
def keeperFound (found : Option (List Byte)) (d : Dev) : Dev :=
  { d with die := { d.die with keeperMem := found.getD d.die.keeperMem } }

/-- The SHA-384 of keeper memory equals the digest in winter SRAM (R368, R390). -/
def keeperMemOk (d : Dev) : Bool := decide (d.die.digested = some (digestOf d.die.keeperMem))

/-- Canonical form of the memories: strictly rising addresses, and no zero byte listed in cell or hive memory. -/
def memWf (m : MemSys) : Bool :=
  tblWf 0 m.cm && tblWf 0 m.hive && tblSorted m.hbm

/-- Stack capacity in bytes of the eight ports together (Table 12-2, Table 12-10): HEIGHT × DENSITY / 8 GiB each. -/
def hbmCapacity (d : Dev) : Nat :=
  let height : Nat := match regFld d (R.HBM_CFG 0) 3 2 with | 0 => 8 | 1 => 12 | _ => 16
  let density : Nat := match regFld d (R.HBM_CFG 0) 5 4 with | 0 => 24 | 1 => 32 | _ => 48
  8 * (height * density / 8) * 0x40000000

/-- Owner tag of a cell-memory unit. -/
def cellTag (d : Dev) (c : CellId) (u : Nat) : Tag := tblGet .clean d.mem.tags (1024 * c.val + u)

/-- Owner tag of a unit of the general hive region. -/
def hiveTag (d : Dev) (u : Nat) : Tag := tblGet .clean d.mem.tags (65536 + u)

/-- Set an owner tag by its key. -/
def setTag (d : Dev) (key : Nat) (t : Tag) : Dev :=
  { d with mem := { d.mem with tags := tblSet .clean d.mem.tags key t } }

/-- A unit is being wiped. -/
def Tag.isWiping : Tag → Bool
  | .wipingTenant .. => true
  | .wipingRing => true
  | .wipingClean => true
  | _ => false

/-! ### Small accessors of the state -/

/-- State of a port. -/
def getPort (d : Dev) (p : PortId) : Port := tblGet {} d.ports p.val

/-- Set the state of a port. -/
def setPort (d : Dev) (p : PortId) (x : Port) : Dev := { d with ports := tblSet {} d.ports p.val x }

/-- Timebase value, 64 bits. -/
def now (d : Dev) : Nat := d.tick.time % 2 ^ 64

/-- Frequency in MHz of an operating point (Table 00-2). -/
def pointMhz (p : Nat) : Nat := match p with | 0 => 1250 | 1 => 1050 | 2 => 800 | _ => 500

/-- Core voltage in mV of an operating point (Table 00-2). -/
def pointMv (p : Nat) : Nat := match p with | 0 => 800 | 1 => 720 | 2 => 630 | _ => 550

/-- Operating point in force (Table 13-10, PWR_OP_SCHED). -/
def pointInForce (d : Dev) : Nat := regFld d R.PWR_OP_SCHED 1 0

/-- Frequency in force, MHz. -/
def freqMhz (d : Dev) : Nat := pointMhz (pointInForce d)

/-- CCLK periods in 2 µs at the rate in force: the period is doubled while a stretch lasts (R346). -/
def clockRate (d : Dev) : Nat := if d.power.stretching then freqMhz d else 2 * freqMhz d

/-- The CCLK cycles that have passed, in 1/2,000 cycle: each stretch of time counts at the rate in force in it. -/
def ccount (d : Dev) : Nat := d.power.cyc + (d.tick.time - d.power.cycMark) * clockRate d

/-- The rate of CCLK is about to change: what has passed so far is kept. -/
def markRate (d : Dev) : Dev := { d with power := { d.power with cyc := ccount d, cycMark := d.tick.time } }

/-- Whole CCLK cycles since a clock count. -/
def cyclesSince (d : Dev) (c : Nat) : Nat := (ccount d - c) / 2000

/-- Nanoseconds in CCLK cycles at the tick's operating point: the one in force at S(N) (R52, R344). -/
def tickCycles (d : Dev) (ns : Nat) : Nat := ns * pointMhz d.tick.startPoint / 1000

/-- A cell meets stall cycles of a cause (Table 15-5 order: 0 HBM refresh, 1 link retry, 2 droop stretch, 3 unplanned
restart): counted since the last snapshot, in the report interval and in the running tick, and in the figures of each
late tick of which the cell still has work (R48, R394). -/
def addStall (c : CellId) (cause n : Nat) (d : Dev) : Dev :=
  let put (t : Tbl Nat) : Tbl Nat := tblSet 0 t (4 * c.val + cause) (tblGet 0 t (4 * c.val + cause) + n)
  { d with
    tel := { d.tel with stall := put d.tel.stall, stallInt := put d.tel.stallInt, stallTick := put d.tel.stallTick }
    ent := { d.ent with late := d.ent.late.map (fun l =>
      if l.cells.contains c && l.overruns.all (fun o => decide (o.1 ≠ c)) then { l with stalls := put l.stalls } else l) } }

end Sys2Proof.Machine
end

