-- ==== Sys2Proof/Machine/Time.lean ====
section
/-!
DEFINITION. The timebase: how it runs, how it slews (R54), the boundaries of a tick (Table 02-1), and the idling of
the block on an empty queue.
-/

namespace Sys2Proof.Machine

open Sys2Proof

/-- Slew the timebase toward the queen's by at most 1 ns per µs after `n` ns have run (R54): the correction that
falls into these n ns, and the unit's slew state after it. -/
def slewOver (t : TickUnit) (n : Nat) : Int × TickUnit :=
  let k := (t.slewAge + n) / 1000
  let c : Int := if 0 ≤ t.slew then min t.slew k else max t.slew (-k)
  (c, { t with slew := t.slew - c, slewAge := (t.slewAge + n) % 1000 })

/-- The timebase runs by n ns of its own clock, less the slew that falls due. -/
def elapse (n : Nat) (d : Dev) : Dev :=
  let r := slewOver d.tick n
  { d with tick := { r.2 with time := (d.tick.time + n : Int).toNat - r.1.toNat + (-r.1).toNat } }

/-- The timebase has reached the value t; an earlier value changes nothing. -/
def advanceTo (t : Nat) (d : Dev) : Dev :=
  if t ≤ d.tick.time then d
  else
    let r := slewOver d.tick (t - d.tick.time)
    { d with tick := { r.2 with time := t } }

/-- The block on an empty queue: one nanosecond passes, except while PORST_N is low. -/
def idle (s : State) : State :=
  if s.dev.die.porstLow then s else { s with dev := elapse 1 s.dev }

/-- TICK_PERIOD in ns. -/
def periodNs (d : Dev) : Nat := (getReg d R.TICK_PERIOD).toNat * 1000

/-- Offset of input close from S(N), ns. -/
def inputCloseNs (d : Dev) : Nat := (getReg d R.TICK_INPUT_CLOSE).toNat * 1000

/-- Offset of admit close from S(N), ns. -/
def admitCloseNs (d : Dev) : Nat := (getReg d R.TICK_ADMIT_CLOSE).toNat * 1000

/-- Offset of the drain start from S(N), ns (Table 02-1). -/
def drainStartNs (d : Dev) : Nat :=
  periodNs d - (getReg d R.TICK_DRAIN_LEN).toNat * 1000 - (getReg d R.TICK_BEACON_LEN).toNat * 1000

/-- Offset of the beacon start from S(N), ns (Table 02-1). -/
def beaconStartNs (d : Dev) : Nat := periodNs d - (getReg d R.TICK_BEACON_LEN).toNat * 1000

/-- S of the tick after the running one. -/
def nextStart (d : Dev) : Nat := if d.tick.running then d.tick.start + periodNs d else d.tick.start

/-- Number of the tick that starts next. -/
def nextNum (d : Dev) : Nat := if d.tick.running then d.tick.num + 1 else d.tick.num

/-- The execute phase of a tick is open. -/
def inExecute (d : Dev) : Bool := d.tick.running && decide (d.tick.phase = .execute)

/-- A drain phase runs. -/
def inDrain (d : Dev) : Bool := d.tick.running && decide (d.tick.phase = .drain)

/-- A drain or beacon phase runs. -/
def inDrainOrBeacon (d : Dev) : Bool := d.tick.running && decide (d.tick.phase ≠ .execute)

/-- Role of the die (Table 02-14): 0 solo, 1 queen, 2 worker. -/
def role (d : Dev) : Nat := regFld d R.TICK_CFG 1 0

/-- The port toward the queen. -/
def parentPort (d : Dev) : Option PortId :=
  let p := regFld d R.TICK_CFG 6 4
  if h : p < 6 then some ⟨p, h⟩ else none

/-- The ports on which beacons are forwarded, in ascending order. -/
def childPorts (d : Dev) : List PortId :=
  (List.finRange 6).filter (fun p => bit (getReg d R.TICK_CFG) (8 + p.val))

/-- Index of the die in its domain. -/
def dieIndex (d : Dev) : BitVec 9 := BitVec.ofNat 9 (getReg d R.TICK_DIE_INDEX).toNat

/-- EXPRESS_EN (Table 02-15). -/
def expressEn (d : Dev) : Bool := bit (getReg d R.ENT_ADMIT_CFG) 0

/-- Nanoseconds since S of the running tick. -/
def sinceStart (d : Dev) : Nat := d.tick.time - d.tick.start

end Sys2Proof.Machine
end

