-- ==== Sys2Proof/Machine/Frames.lean ====
section
/-!
DEFINITION. Toroux frames (12): the header's checks, the CRC-32C over header and payload, sending on a port, and
answers. The polynomial and bit order of CRC-32C are the standard's (PRESUMED, log 6).
-/

namespace Sys2Proof.Machine

open Sys2Proof

/-! ### CRC-32C -/

/-- One bit of the reflected CRC-32C division. -/
def crcBit (c : Nat) : Nat := if c % 2 = 1 then (c / 2) ^^^ 0x82F63B78 else c / 2

/-- One byte of the CRC. -/
def crcByte (c : Nat) (b : Byte) : Nat :=
  crcBit (crcBit (crcBit (crcBit (crcBit (crcBit (crcBit (crcBit (c ^^^ b.toNat))))))))

/-- CRC-32C of a byte string. -/
def crc32c (bs : List Byte) : W32 := BitVec.ofNat 32 ((bs.foldl crcByte 0xFFFFFFFF) ^^^ 0xFFFFFFFF)

/-- Header bytes of a frame with the CRC field taken as zero (Table 12-3). -/
def headerBytes (f : Frame) : List Byte :=
  f.typ :: f.flags :: (leBytes 2 f.tag.toNat ++ leBytes 2 f.src.toNat ++ leBytes 2 f.dst.toNat ++
    leBytes 4 f.len.toNat ++ leBytes 2 f.tenant.toNat ++ leBytes 2 f.rsv.toNat ++ leBytes 8 f.addr.toNat ++
    leBytes 4 f.aux.toNat ++ zeroBytes 4)

/-- The CRC that a frame must carry. -/
def frameCrc (f : Frame) : W32 := crc32c (headerBytes f ++ f.payload)

/-- The frame's CRC check passes. -/
def crcPasses (f : Frame) : Bool := decide (f.crc = frameCrc f)

/-- A frame with its CRC formed. -/
def sealFrame (f : Frame) : Frame := { f with crc := frameCrc f }

/-! ### Types -/

/-- Frame types (Table 12-4). -/
def tHELLO : Byte := 0x01
def tADMIT : Byte := 0x02
def tSYNC_WAIT : Byte := 0x03
def tECHO : Byte := 0x04
def tBEACON : Byte := 0x05
def tREPORT : Byte := 0x06
def tREG_RD : Byte := 0x10
def tREG_WR : Byte := 0x11
def tMEM_RD : Byte := 0x12
def tMEM_WR : Byte := 0x13
def tINPUT : Byte := 0x14
def tEXPBUF : Byte := 0x15
def tDWR : Byte := 0x16
def tPWR : Byte := 0x17
def tWEIGHT : Byte := 0x20

/-- The type is one of Table 12-4. -/
def typeKnown (t : Byte) : Bool :=
  t ∈ [tHELLO, tADMIT, tSYNC_WAIT, tECHO, tBEACON, tREPORT, tREG_RD, tREG_WR, tMEM_RD, tMEM_WR, tINPUT, tEXPBUF,
    tDWR, tPWR, tWEIGHT]

/-- The type is available on a link at Toroux 1.0 (Table 12-4). -/
def typeAt10 (t : Byte) : Bool :=
  t ∈ [tHELLO, tADMIT, tSYNC_WAIT, tREG_RD, tREG_WR, tMEM_RD, tMEM_WR, tINPUT, tEXPBUF, tDWR]

/-- ANS flag: the frame answers TAG. -/
def isAnswer (f : Frame) : Bool := bit f.flags 0

/-- An answer to a type of which this die starts no transaction: it completes nothing here (Table 12-4). -/
def answersNothing (f : Frame) : Bool :=
  isAnswer f && decide (f.typ ∈ [tADMIT, tSYNC_WAIT, tREG_RD, tREG_WR, tMEM_RD, tMEM_WR])

/-- A type that Table 12-4 gives no answer. -/
def answerless (t : Byte) : Bool := t ∈ [tBEACON, tREPORT, tINPUT, tEXPBUF, tDWR, tWEIGHT]

/-- MORE flag: another frame of the same message follows. -/
def hasMore (f : Frame) : Bool := bit f.flags 1

/-- The fields of Table 12-3 hold what it states. -/
def headerOk (f : Frame) : Bool :=
  decide (fld f.flags 7 2 = 0) && decide (fld f.src 15 9 = 0) && decide (fld f.dst 15 9 = 0) &&
    decide (f.len.toNat = f.payload.length) && decide (f.payload.length ≤ 4096) && decide (fld f.tenant 15 12 = 0) &&
    decide (f.rsv = 0)

/-- The type's own columns of Table 12-4 hold, for a frame that is no answer. -/
def bodyOk (f : Frame) : Bool :=
  let zero := decide (f.addr = 0) && decide (f.aux = 0)
  let n := f.payload.length
  let single := !hasMore f
  if f.typ = tHELLO then zero && decide (n = 16) && single
  else if f.typ = tADMIT then zero && decide (n = 64) && single
  else if f.typ = tSYNC_WAIT then zero && decide (n = 12) && decide (leAt f.payload 0 4 < 0x4000) && single
  else if f.typ = tECHO then zero && decide (n = 8) && single
  else if f.typ = tBEACON then zero && decide (n = 1216) && single
  else if f.typ = tREPORT then zero && decide (n = 64) && single
  else if f.typ = tREG_RD then
    decide (f.aux = 0) && decide (n = 0) && decide (f.addr.toNat < 0x1000000) && decide (f.addr.toNat % 4 = 0) && single
  else if f.typ = tREG_WR then
    decide (f.aux = 0) && decide (n = 4) && decide (f.addr.toNat < 0x1000000) && decide (f.addr.toNat % 4 = 0) && single
  else if f.typ = tMEM_RD then
    decide (n = 0) && decide (f.addr.toNat % 64 = 0) && decide (f.aux.toNat % 64 = 0) && decide (f.aux.toNat ≤ 4096) &&
      decide (f.aux ≠ 0) && single
  else if f.typ = tMEM_WR then
    decide (f.aux = 0) && decide (f.addr.toNat % 64 = 0) && decide (n % 64 = 0) && decide (n ≠ 0) && single
  else if f.typ = tEXPBUF then decide (f.aux.toNat < 2)
  else if f.typ = tPWR then decide (f.aux = 0)
  else if f.typ = tWEIGHT then decide (f.aux = 0)
  else true

/-- The type's own columns of Table 12-4 hold, for an answer: its payload's length, ADDR and AUX where they are zero for the
type, and a single frame. -/
def answerOk (f : Frame) : Bool :=
  let zero := decide (f.addr = 0) && decide (f.aux = 0)
  let n := f.payload.length
  let single := !hasMore f
  if f.typ = tHELLO ∨ f.typ = tADMIT then zero && decide (n = 16) && single
  else if f.typ = tSYNC_WAIT then zero && decide (n = 8) && single
  else if f.typ = tECHO then zero && decide (n = 24) && single
  else if f.typ = tREG_RD then decide (f.aux = 0) && decide (n = 4) && single
  else if f.typ = tREG_WR ∨ f.typ = tMEM_WR ∨ f.typ = tPWR then decide (f.aux = 0) && decide (n = 0) && single
  else true

/-! ### Ports -/

/-- State of a port (Table 12-7): 0 DOWN, 1 TRAINING, 2 UP, 3 FAILED. -/
def portState (d : Dev) (p : PortId) : Nat := regFld d (R.LNK_STATUS p.val) 1 0

/-- Toroux version of a port's link: 1 for 1.0, 2 for 2.0. -/
def portVer (d : Dev) (p : PortId) : Nat := regFld d (R.LNK_STATUS p.val) 3 2

/-- The port is UP. -/
def portUp (d : Dev) (p : PortId) : Bool := decide (portState d p = 2)

/-- The port is UP at Toroux 2.0. -/
def portUp20 (d : Dev) (p : PortId) : Bool := portUp d p && decide (portVer d p = 2)

/-- The port is a spine port. -/
def isSpine (p : PortId) : Bool := decide (4 ≤ p.val)

/-- What a port does with a received frame under R315. -/
inductive Fate where
  /-- Discarded and counted; with a LINK_FRAME record. -/
  | badCrc
  /-- Discarded and counted. -/
  | discard
  | accept
  deriving DecidableEq, Repr

/-- R315 for a received frame. -/
def frameFate (d : Dev) (p : PortId) (f : Frame) : Fate :=
  if !crcPasses f then .badCrc
  else if !typeKnown f.typ || (decide (portVer d p = 1) && !typeAt10 f.typ) then .discard
  else if !headerOk f || (isAnswer f && answerless f.typ) || !(if isAnswer f then answerOk f else bodyOk f) then .discard
  else if fld f.dst 8 0 ≠ (dieIndex d).toNat ∧ fld f.dst 8 0 ≠ 0x1FF then .discard
  else .accept

/-- A frame joins the frames sent. On the spine it carries a sequence number and an acknowledgement, and is kept for
resending (R310). -/
def putOut (p : PortId) (f : Frame) (x : Port) : Port :=
  if isSpine p then { x with
    tx := x.tx ++ [f], unacked := x.unacked ++ [f], trailers := x.trailers ++ [(x.sent, x.rcvd)], sent := x.sent + 1 }
  else { x with tx := x.tx ++ [f] }

/-- A frame leaves a port, or joins the held frames while the port retrains (R307); on a port that is not UP nothing leaves,
and on a link at 1.0 only the types of 1.0 (R314). -/
def sendOn (p : PortId) (f : Frame) (d : Dev) : Dev :=
  if !portUp d p || (decide (portVer d p = 1) && !typeAt10 f.typ) then d
  else
    let x := getPort d p
    setPort d p (if x.retraining then { x with held := x.held ++ [f] } else putOut p f x)

/-- A spine port has received one more frame (R310). -/
def linkIn (p : PortId) (d : Dev) : Dev :=
  if isSpine p then setPort d p { getPort d p with rcvd := (getPort d p).rcvd + 1 } else d

/-- Traffic class of a type (Table 12-4, R317): 0 C, 1 D, 2 B. -/
def classOf (t : Byte) : Nat := if t.toNat < 0x10 then 0 else if t.toNat < 0x20 then 1 else 2

/-- Frames in the order in which a sender chooses them: class C before D before B, in order within a class (R317). -/
def byClass (fs : List Frame) : List Frame :=
  fs.filter (fun f => classOf f.typ = 0) ++ fs.filter (fun f => classOf f.typ = 1) ++ fs.filter (fun f => classOf f.typ = 2)

/-- ADMIT credits that a port's requester holds (R318): four, less one for every ADMIT whose answer has not left the port. -/
def admitCredit (d : Dev) (p : PortId) : Nat :=
  4 - ((getPort d p).held.filter (fun f => decide (f.typ = tADMIT) && isAnswer f)).length

/-- Send several frames in order. -/
def sendAll (p : PortId) (fs : List Frame) (d : Dev) : Dev := fs.foldl (fun d f => sendOn p f d) d

/-- A frame that this die originates. -/
def mkFrame (d : Dev) (typ flags : Byte) (tag : BitVec 16) (dst : Nat) (tenant : Nat) (addr aux : Nat)
    (payload : List Byte) : Frame :=
  sealFrame {
    typ := typ, flags := flags, tag := tag, src := BitVec.ofNat 16 (dieIndex d).toNat, dst := BitVec.ofNat 16 dst,
    len := BitVec.ofNat 32 payload.length, tenant := BitVec.ofNat 16 tenant, rsv := 0,
    addr := BitVec.ofNat 64 addr, aux := BitVec.ofNat 32 aux, crc := 0, payload := payload }

/-- The answer to a frame, sent through the port on which the frame arrived (R316). -/
def answerOn (p : PortId) (f : Frame) (payload : List Byte) (d : Dev) : Dev :=
  sendOn p (mkFrame d f.typ 1 f.tag f.src.toNat 0 0 0 payload) d

/-- Cut a message into pieces of at most 4,096 B. -/
def pieces : Nat → List Byte → List (List Byte)
  | 0, _ => []
  | n + 1, bs => if bs.length ≤ 4096 then [bs] else bs.take 4096 :: pieces n (bs.drop 4096)

/-- The frames of a message: one frame, or a train with MORE set on every frame but the last, ADDR giving each
frame's byte offset above a base (Table 12-3). -/
def trainFrames (d : Dev) (typ : Byte) (tag : BitVec 16) (dst tenant addr aux : Nat) (msg : List Byte) : List Frame :=
  let ps := pieces (msg.length / 4096 + 1) msg
  (List.range ps.length).map (fun i =>
    mkFrame d typ (if i + 1 = ps.length then 0 else 2) tag dst tenant (addr + 4096 * i) aux (ps.getD i []))

/-- A fresh transaction tag of a port. -/
def takeTag (p : PortId) (d : Dev) : BitVec 16 × Dev :=
  let x := getPort d p
  (x.nextTag, setPort d p { x with nextTag := x.nextTag + 1 })

/-- The port that LNK_ROUTE names for a die (R316), none where it names none. -/
def routePort (d : Dev) (die : Nat) : Option PortId :=
  let n := regFld d (R.LNK_ROUTE (die / 8)) (4 * (die % 8) + 3) (4 * (die % 8))
  if h : n < 6 then some ⟨n, h⟩ else none

/-- The die's HELLO payload: VER_MAX 2, ROLE, DIE, ID_PART, ID_REV. -/
def helloPayload (d : Dev) : List Byte :=
  leBytes 1 2 ++ leBytes 1 (role d) ++ leBytes 2 (dieIndex d).toNat ++ leBytes 4 0x59410008 ++
    leBytes 4 (0x00010000 + Config.step.toNat) ++ zeroBytes 4

/-- The PHY of a port is up: the port trains and sends its HELLO (R313), from which 100 µs run. -/
def phyUp (p : PortId) (d : Dev) : Dev :=
  let d := setReg d (R.LNK_STATUS p.val) 1
  let r := takeTag p d
  let f := mkFrame r.2 tHELLO 0 r.1 0x1FF 0 0 0 (helloPayload r.2)
  setPort r.2 p { putOut p f (getPort r.2 p) with helloSince := some d.tick.time }

end Sys2Proof.Machine
end

