-- ==== Sys2Proof/Machine/Guard.lean ====
section
/-!
DEFINITION. The guard (15): classes and addresses of the codes, the record queue and the fatal slot, STOP, and the
worker report that leaves with a fatal notice.
-/

namespace Sys2Proof.Machine

open Sys2Proof

/-- Class of an error code (Table 15-2): 0 corrected, 1 contained, 2 fatal. -/
def errClass (code : Byte) : Nat := if code.toNat < 0x20 then 0 else if code.toNat < 0x40 then 1 else 2

/-- Codes that carry an address (Table 15-2). -/
def errHasAddr (code : Byte) : Bool :=
  code ∈ ([0x20, 0x21, 0x22, 0x23, 0x24, 0x25, 0x26, 0x42, 0x43] : List Byte)

/-- UNIT codes of Table 15-4 outside the cells, slices and HBM controllers. -/
def unitEntrance : BitVec 7 := 110
def unitTick : BitVec 7 := 111
def unitKeeper : BitVec 7 := 112
def unitGuard : BitVec 7 := 113
def unitPower : BitVec 7 := 114
def unitCache : BitVec 7 := 115

/-- UNIT code of a cell. -/
def unitCell (c : CellId) : BitVec 7 := BitVec.ofNat 7 c.val

/-- UNIT code of a hive slice holding an address (R265). -/
def unitSlice (a : Nat) : BitVec 7 := BitVec.ofNat 7 (64 + a / 4096 % 32)

/-- Where an HBM address lies (R303): port, address in its stack, and which of its port's two comb routers the controller
takes. -/
def hbmPort (a : Nat) : Fin 8 := ⟨a / 1024 % 8, Nat.mod_lt _ (by decide)⟩
def stackAddr (a : Nat) : Nat := a / 8192 * 1024 + a % 1024
def hbmRouter (a : Nat) : Bool := (stackAddr a).testBit 10

/-- UNIT code of the HBM controller of an address. -/
def unitHbm (a : Nat) : BitVec 7 := BitVec.ofNat 7 (96 + (hbmPort a).val)

/-- UNIT code of a port. -/
def unitPort (p : PortId) : BitVec 7 := BitVec.ofNat 7 (104 + p.val)

/-- A plain report of a code by a unit. -/
def mkReport (code : Byte) (unit : BitVec 7) : Report :=
  { code := code, unit := unit, addr := 0, tenant := none, seq := none, req := 0, info := 0 }

/-! ### Records -/

/-- The 64 bytes of a record as a number (Table 15-3). -/
def recordBits (r : Record) : Nat :=
  r.seqnum.toNat +
  (r.cls.toNat + (if r.multiple then 4 else 0) + (if r.hwEsc then 8 else 0)) <<< 32 +
  r.code.toNat <<< 40 +
  r.unit.toNat <<< 48 +
  (r.tick % 2 ^ 64) <<< 64 +
  (r.time % 2 ^ 64) <<< 128 +
  r.addr.toNat <<< 192 +
  (match r.tenant with | some t => t.toNat + 0x8000 | none => 0) <<< 256 +
  r.rep.toNat <<< 272 +
  (match r.seq with | some q => q.toNat + 0x80000000 | none => 0) <<< 288 +
  r.req.toNat <<< 320 +
  r.info.toNat <<< 352

/-- Word w of a record. -/
def recordWord (r : Record) (w : Nat) : W32 := BitVec.ofNat 32 (recordBits r >>> (32 * w))

/-- The sequence number after one, skipping 0 on wrap (R380). -/
def nextSeq (n : W32) : W32 := if n = 0xFFFFFFFF then 1 else n + 1

/-- Set a bit of GRD_FLAGS. -/
def grdFlag (i : Nat) (d : Dev) : Dev := setReg d R.GRD_FLAGS (setBit (getReg d R.GRD_FLAGS) i true)

/-! ### Worker reports (Table 02-12, R391) -/

/-- The ledger of a tick. -/
def ledgerOf (d : Dev) (t : Nat) : Option Ledger := d.ent.ledgers.find? (fun g => g.tick = t)

/-- Cycles charged to a ledger, over all cells. -/
def ledgerCharged (g : Ledger) : Nat := (g.used.map (·.2)).sum

/-- Number of cells that receive ordinary credit (R35). -/
def ordinaryCells (d : Dev) : Nat := if expressEn d then 60 else 64

/-- A share in per mille; of nothing, a figure that the spec does not state (log 108). -/
def perMille (x whole : Nat) : Nat := if whole = 0 then Config.reportFigure x else x * 1000 / whole

/-- CREDIT_PM of a tick: credit charged over credit offered, per mille. -/
def creditPm (d : Dev) (t : Nat) : Nat :=
  match ledgerOf d t with
  | none => Config.reportFigure 0
  | some g => perMille (ledgerCharged g) (g.credit * ordinaryCells d)

/-- Stall cycles of a cell in the report interval, all causes. -/
def stallOf (t : Tbl Nat) (c : Nat) : Nat :=
  tblGet 0 t (4 * c) + tblGet 0 t (4 * c + 1) + tblGet 0 t (4 * c + 2) + tblGet 0 t (4 * c + 3)

/-- SLACK_PM: the largest share of a cell's slack reserve consumed in the interval, per mille, saturating (R391). -/
def slackPm (d : Dev) : Nat :=
  match ledgerOf d d.tick.num with
  | none => Config.reportFigure 0
  | some g => min 0xFFFF ((List.range 64).foldl (fun m c => max m (perMille (stallOf d.tel.stallInt c) g.slack)) 0)

/-- The keeper is overloaded: LEVEL is 1 or more, or TEL_RPT_DONE does not hold the tick (R391). -/
def keeperOverloaded (d : Dev) : Bool :=
  decide (1 ≤ regFld d R.KPR_LOAD 1 0) || decide ((getReg d R.TEL_RPT_DONE) ≠ BitVec.ofNat 32 d.tick.num)

/-- The 64 bytes of a worker report of the running tick; `outOfDomain` is FLAGS [3] (R392). -/
def reportBytes (d : Dev) (outOfDomain : Bool) : List Byte :=
  let flags := (if d.ent.late.any (fun e => e.tick = d.tick.num) then 1 else 0) + (if d.tick.alone then 2 else 0) +
    (if keeperOverloaded d then 4 else 0) + (if outOfDomain then 8 else 0)
  leBytes 2 (dieIndex d).toNat ++ leBytes 2 flags ++ leBytes 4 (getReg d R.PWR_TICK_MW).toNat ++
    leBytes 8 d.tick.num ++ leBytes 2 (regFld d R.PWR_TEMP_MAX 11 0) ++ leBytes 1 (pointInForce d) ++ zeroBytes 1 ++
    leBytes 2 (creditPm d d.tick.num) ++ leBytes 2 (slackPm d) ++ leBytes 4 d.tel.overrunInt ++
    leBytes 4 d.tel.errCorrInt ++
    leBytes 2 (if d.tel.errContInt < 65536 then d.tel.errContInt else Config.reportFigure d.tel.errContInt) ++ zeroBytes 30

/-- Send a report toward PARENT. -/
def sendReport (outOfDomain : Bool) (d : Dev) : Dev :=
  match parentPort d with
  | none => d
  | some p =>
    let r := takeTag p d
    bump (sendOn p (mkFrame r.2 tREPORT 0 r.1 0x1FF 0 0 0 (reportBytes d outOfDomain)) r.2) R.TEL_RPT_SENT_CNT

/-! ### STOP (R385) -/

/-- Answer of a SYNC_WAIT: the value, then [0] TIMEOUT and [1] BUSY (Table 12-4). -/
def waitAnswer (v : W32) (timeout busy : Bool) : List Byte :=
  leBytes 4 v.toNat ++ leBytes 4 ((if timeout then 1 else 0) + (if busy then 2 else 0))

/-- Answer a held SYNC_WAIT. -/
def answerWait (p : PortId) (timeout : Bool) (d : Dev) (w : Wait) : Dev :=
  sendOn p (mkFrame d tSYNC_WAIT 1 w.tag w.src.toNat 0 0 0
    (waitAnswer (getReg d (R.SYN_VALUE w.obj.toNat)) timeout false)) d

/-- Every port answers the SYNC_WAITs it holds with the value and TIMEOUT set. -/
def stopWaits (d : Dev) : Dev :=
  (List.finRange 6).foldl (fun d p =>
    let x := getPort d p
    let d' := x.waits.foldl (answerWait p true) d
    setPort d' p { getPort d' p with waits := [] }) d

/-- An entry attempt ends: PWR_STATE_REQ reads 0, and no attempt and no step of one is shown (R354, Table 13-10). -/
def endAttempt (d : Dev) : Dev :=
  let d := setReg d R.PWR_STATE_REQ 0
  let d := setReg d R.PWR_STATE (setFld (getReg d R.PWR_STATE) 5 2 0)
  { d with power := { d.power with attempt := none } }

/-- The running attempt, where there is one, ends. -/
def dropAttempt (d : Dev) : Dev := if d.power.attempt.isSome then endAttempt d else d

/-- STOP: every unit stops, the keeper core halts, the waits are answered, the in-band interrupt is raised, a running
power-state attempt ends, and a worker sends its fatal notice (R385, R392, Table 13-9). DESIGN CHOICE (log 112):
PWR_STATE_STATUS stays as it is. -/
def stopDie (d : Dev) : Dev :=
  if d.guard.stopped then d
  else
    let d1 := dropAttempt (stopWaits d)
    let d2 := { d1 with
      die := { d1.die with i3cIbi := true }
      keeper := { d1.keeper with running := false }
      guard := { d1.guard with stopped := true } }
    if role d = 2 then sendReport true d2 else d2

/-! ### Taking a report -/

/-- The unit reports the code (R397, Table 15-4). -/
def unitFits (code : Byte) (unit : BitVec 7) : Bool :=
  let u := unit.toNat
  match code.toNat with
  | 0x01 | 0x33 | 0x34 => decide (unit = unitTick)
  | 0x20 | 0x24 | 0x25 | 0x26 | 0x27 | 0x29 | 0x2A | 0x2B | 0x2C | 0x2D => decide (u < 64)
  | 0x21 => decide (u < 96)
  | 0x22 | 0x23 => decide (96 ≤ u) && decide (u < 104)
  | 0x28 | 0x2E => decide (unit = unitEntrance)
  | 0x2F | 0x30 | 0x31 => decide (104 ≤ u) && decide (u < 110)
  | 0x02 | 0x03 | 0x04 | 0x05 | 0x32 | 0x40 | 0x41 | 0x44 | 0x46 => decide (unit = unitPower)
  | 0x35 | 0x45 => decide (unit = unitKeeper)
  | 0x42 => decide (unit = unitGuard)
  | 0x43 => decide (unit = unitEntrance) || decide (unit = unitCache)
  | _ => false

/-- The stored record into which a corrected or contained report with an address merges (R381). -/
def mergesInto (d : Dev) (r : Report) : Option Record :=
  if errHasAddr r.code && decide (errClass r.code ≠ 2) then
    d.guard.queue.find? (fun q => q.unit = r.unit ∧ q.code = r.code ∧ q.addr = r.addr)
  else none

/-- A record with one more report merged into it. -/
def mergeOne (q : Record) : Record :=
  { q with multiple := true, rep := if q.rep = 0xFFFF then 0xFFFF else q.rep + 1 }

/-- Count a report of a class in the guard's counters and the telemetry figures (R379, R391). -/
def countReport (cls : Nat) (d : Dev) : Dev :=
  let d := if cls = 0 then bump d R.GRD_CORR_CNT else if cls = 1 then bump d R.GRD_CONT_CNT else d
  { d with tel := { d.tel with
      errCorr := d.tel.errCorr + (if cls = 0 then 1 else 0)
      errCorrInt := d.tel.errCorrInt + (if cls = 0 then 1 else 0)
      errCont := d.tel.errCont + (if cls = 1 then 1 else 0)
      errContInt := d.tel.errContInt + (if cls = 1 then 1 else 0) } }

/-- Errors that a code corrects: counted, and no record (R379). -/
def countCorrected (n : Nat) (d : Dev) : Dev :=
  let d := bumpBy d R.GRD_CORR_CNT n
  { d with tel := { d.tel with errCorr := d.tel.errCorr + n, errCorrInt := d.tel.errCorrInt + n } }

/-- The record of a report taken now with a sequence number; `tick` is the tick in force, or the late tick of TIMING. -/
def recordOf (d : Dev) (r : Report) (tick : Nat) (n : W32) : Record :=
  { seqnum := n, cls := BitVec.ofNat 2 (errClass r.code), multiple := false,
    hwEsc := decide (errClass r.code = 2) && decide (r.code ≠ 0x45),
    code := r.code, unit := r.unit, tick := tick, time := now d,
    addr := if errHasAddr r.code then r.addr else 0, tenant := r.tenant, rep := 0, seq := r.seq, req := r.req,
    info := r.info }

/-- Store a new record in the queue, or lose it where the queue is full (R382, R383). -/
def storeRecord (q : Record) (d : Dev) : Dev :=
  if d.guard.queue.length < 64 then { d with guard := { d.guard with queue := d.guard.queue ++ [q] } }
  else
    let d := bump (grdFlag 0 d) (R.GRD_LOST_CNT q.cls.toNat)
    if q.cls = 2 then d else setReg d R.GRD_LOST_SEQ q.seqnum

/-- The fatal slot takes the first fatal record; later ones are counted (R383). -/
def storeFatal (q : Record) (d : Dev) : Dev :=
  match d.guard.fatal with
  | none => { d with guard := { d.guard with fatal := some q } }
  | some _ => bump d R.GRD_FATAL_CNT

/-- The guard takes one report: it merges, or takes the next sequence number and is stored or lost; a fatal report
stops the die. Answers the SEQNUM given (R380 to R385). -/
def guardTakeAt (tick : Nat) (r : Report) (d : Dev) : W32 × Dev :=
  let cls := errClass r.code
  let d := countReport cls d
  match mergesInto d r with
  | some m =>
    (m.seqnum, bump (grdFlag 1 { d with guard := { d.guard with
      queue := d.guard.queue.map (fun q => if q.seqnum = m.seqnum then mergeOne q else q) } }) R.GRD_MULTI_CNT)
  | none =>
    let n := getReg d R.GRD_NEXT_SEQ
    let q := recordOf d r tick n
    let d := setReg d R.GRD_NEXT_SEQ (nextSeq n)
    let d := if q.hwEsc then grdFlag 2 d else d
    if cls = 2 then (n, stopDie (storeRecord q (storeFatal q d)))
    else (n, storeRecord q d)

/-- The guard takes a report in the tick in force. -/
def guardTake (r : Report) (d : Dev) : W32 × Dev := guardTakeAt d.tick.num r d

/-- A report whose sequence number nothing refers to. -/
def report (r : Report) (d : Dev) : Dev := (guardTake r d).2

end Sys2Proof.Machine
end

