-- ==== Sys2Proof/Machine/Wake.lean ====
section
/-!
DEFINITION. Wake events of the power states (R354, R356, R360) as the units that raise them note them: against a running
entry attempt, or against a die in Idle or Doze.
-/

namespace Sys2Proof.Machine

open Sys2Proof

/-- Sources of PWR_STATE_STATUS [27:24] (Table 13-10). -/
def wakeAdmit : Nat := 1
def wakeDoorbell : Nat := 2
def wakeReqZero : Nat := 3
def wakeFrame : Nat := 4
def wakePortWrite : Nat := 5
def wakeTime : Nat := 6
def wakeTemp : Nat := 7
def wakeI3c : Nat := 8

/-- The source counts against an entry to a target state (R356, Table 13-5). -/
def wakeCounts (target src : Nat) : Bool :=
  if target = 3 then decide (3 ≤ src) else decide (1 ≤ src) && decide (src ≤ 3)

/-- A wake event: it marks a running attempt for abort at the next abort point, or a die in Idle or Doze for its exit;
the first event counts. -/
def wakeEvent (src : Nat) (d : Dev) : Dev :=
  match d.power.attempt with
  | some a =>
    if wakeCounts a.target src && a.wake.isNone then
      { d with power := { d.power with attempt := some { a with wake := some src } } }
    else d
  | none =>
    if (powerState d = 1 ∨ powerState d = 2) ∧ 1 ≤ src ∧ src ≤ 3 ∧ d.power.pendingWake.isNone then
      { d with power := { d.power with pendingWake := some src } }
    else d

/-- An I3C transfer meets the die's address: a wake source while enabled (R356, R360). -/
def i3cMatch (d : Dev) : Dev := if bit (getReg d R.WIN_WAKE_CFG) 2 then wakeEvent wakeI3c d else d

/-- The die is in Winter. -/
def inWinter (d : Dev) : Bool := powered d && !d.guard.stopped && decide (powerState d = 3)

/-- Frames that a die serves between Winter and its rejoin: ADMIT, which it answers, and what the links and the join need
(R357, R313, R372; DEDUCED, log 114). -/
def servedAfterWinter (t : Byte) : Bool := t ∈ [tHELLO, tADMIT, tECHO, tBEACON]

/-- A received frame whose CRC fails: discarded, counted and recorded (R315). -/
def badFrame (p : PortId) (d : Dev) : Dev := bump (report (mkReport 0x30 (unitPort p)) d) (R.LNK_DISCARD_CNT p.val)

/-- The PHY of the port is up and no HELLO has arrived: it takes a HELLO alone (R313; DEDUCED, log 115). -/
def portTraining (d : Dev) (p : PortId) : Bool := decide (portState d p = 1) && (getPort d p).helloSince.isSome

/-- What a live port does with a received frame before its type's own rules: R315, and the wake of R356. From W4 on every frame
is discarded and counted (R357), ADMIT apart; so is one at a port that trains, HELLO apart. -/
def recvFrame (p : PortId) (f : Frame) (typ : Byte) (act : Dev → Dev) (d : Dev) : Dev :=
  if f.typ ≠ typ then d
  else if inWinter d then bump d (R.LNK_DISCARD_CNT p.val)
  else if !alive d then d
  else if portTraining d p then
    let d := linkIn p d
    if crcPasses f then bump d (R.LNK_DISCARD_CNT p.val) else badFrame p d
  else if !portUp d p then d
  else
    let d := linkIn p d
    match frameFate d p f with
    | .badCrc => badFrame p d
    | .discard => bump d (R.LNK_DISCARD_CNT p.val)
    | .accept =>
      let d := if typ.toNat < 0x20 then wakeEvent wakeFrame d else d
      if d.tick.fromWinter && !servedAfterWinter f.typ then bump d (R.LNK_DISCARD_CNT p.val)
      else if answersNothing f then d else act d

/-- Step D2 or W2 of an entry has been taken: cell issue and the flush and weight engines are stopped until an abort undoes it
or the state is left (Table 13-7). -/
def entryStopped (d : Dev) : Bool :=
  match d.power.attempt with
  | some a => decide (2 ≤ a.step)
  | none => false

/-- The cells' clocks run and cells issue: the die is Active, or Idle for an express cell while EXPRESS_EN is 1 (Table 13-5), and
no entry has stopped issue. -/
def cellClocked (d : Dev) (c : CellId) : Bool :=
  !entryStopped d && decide (powerState d = 0) || (decide (powerState d = 1) && expressEn d && decide (c.val < 4))

/-- The core target (R339): the voltage of the fastest point among the point in force and the two latched points, or a
voltage held under R342, plus the boost, at most 840 mV. -/
def coreTarget (d : Dev) : Nat :=
  let s := getReg d R.PWR_OP_SCHED
  let v := max (max (pointMv (fld s 1 0)) (pointMv (fld s 3 2))) (max (pointMv (fld s 5 4)) d.power.holdMv)
  min 840 (v + regFld d R.PWR_BOOST 5 0)

/-- Request the core target over AVSBus where it differs from the last request (R339, R352). -/
def requestCore (d : Dev) : Dev :=
  if coreTarget d = d.power.reqMv then d
  else { d with power := { d.power with
    reqMv := coreTarget d, reqTime := now d, acked := false, ackMissed := false
    lowMv := if d.power.acked then coreTarget d else min d.power.lowMv (coreTarget d) } }

end Sys2Proof.Machine
end

