-- ==== Sys2Proof/Machine/Rings.lean ====
section
/-!
DEFINITION. Rings and sync objects (03, R64 to R79, R271): enabling and disabling, doorbells, completion slots, the
writing of records, and the sync adds that follow them.
-/

namespace Sys2Proof.Machine

open Sys2Proof

/-! ### Fields (Table 03-4, Table 03-5) -/

/-- RNG_CFG of a ring. -/
def ringCfg (d : Dev) (r : Nat) : W32 := getReg d (R.RNG_CFG r)

/-- Ring enabled. -/
def ringEn (d : Dev) (r : Nat) : Bool := bit (ringCfg d r) 0

/-- Command ring. -/
def ringIsCmd (d : Dev) (r : Nat) : Bool := bit (ringCfg d r) 1

/-- SIZE_SHIFT. -/
def ringShift (d : Dev) (r : Nat) : Nat := fld (ringCfg d r) 6 2

/-- Number of entries. -/
def ringSize (d : Dev) (r : Nat) : Nat := 2 ^ ringShift d r

/-- Hive address of slot 0. -/
def ringBase (d : Dev) (r : Nat) : Nat := 4096 * regFld d (R.RNG_BASE r) 15 0

/-- HEAD, TAIL and PENDING. -/
def ringHead (d : Dev) (r : Nat) : Nat := (getReg d (R.RNG_HEAD r)).toNat
def ringTail (d : Dev) (r : Nat) : Nat := (getReg d (R.RNG_TAIL r)).toNat
def ringPending (d : Dev) (r : Nat) : Nat := (getReg d (R.RNG_PENDING r)).toNat

/-- The rings, by ascending index, that are enabled: those whose RNG_CFG is listed with EN set. -/
def enabledRings (d : Dev) : List Nat :=
  d.regs.filterMap (fun e =>
    if 0x40000 ≤ e.1 ∧ e.1 < 0x80000 ∧ e.1 % 64 = 0 ∧ bit e.2 0 = true then some ((e.1 - 0x40000) / 64) else none)

/-- Hive address of the slot of a counter value. -/
def slotAddr (d : Dev) (r ctr : Nat) : Nat := ringBase d r + 64 * (ctr % ringSize d r)

/-- Lap parity of a counter value. -/
def lapParity (d : Dev) (r ctr : Nat) : Bool := decide (ctr / ringSize d r % 2 = 1)

/-- The slot of a counter value holds its record: PHASE equals the lap parity (R69). -/
def slotWritten (d : Dev) (r ctr : Nat) : Bool :=
  bit (tblGet 0 d.mem.hive (slotAddr d r ctr + 6)) 7 == lapParity d r ctr

/-- The ring's buffer still awaits its wipe (R271). -/
def ringWaitsWipe (d : Dev) (r : Nat) : Bool := d.ent.ringWipe.any (fun x => x.toNat = r)

/-- Entries between HEAD and TAIL. -/
def ringUsed (d : Dev) (r : Nat) : Nat := (ringTail d r + 2 ^ 32 - ringHead d r) % 2 ^ 32

/-- Free completion slots (R70); none before the wipe of the buffer ends (R271). -/
def ringFree (d : Dev) (r : Nat) : Nat := if ringWaitsWipe d r then 0 else ringSize d r - ringUsed d r

/-- A tenant may name the ring in a descriptor (R64). -/
def ringUsable (d : Dev) (t r : Nat) : Bool :=
  ringEn d r && !ringIsCmd d r && (bit (ringCfg d r) 7 || decide (fld (ringCfg d r) 19 8 = t))

/-- An enabled completion ring. -/
def ringIsCompletion (d : Dev) (r : Nat) : Bool := ringEn d r && !ringIsCmd d r

/-! ### Enabling and disabling (R65, R66, R271) -/

/-- State of a tenant context (Table 03-10): 0 FREE, 1 ACTIVE, 2 DRAINING, 3 RELEASING. -/
def tcxState (d : Dev) (t : Nat) : Nat := regFld d (R.TCX_STATE t) 1 0

/-- Hive window of a context: base and bound in bytes. -/
def hvWindow (d : Dev) (t : Nat) : Nat × Nat :=
  (4096 * regFld d (R.TCX_HV_BASE t) 15 0, 4096 * regFld d (R.TCX_HV_BOUND t) 16 0)

/-- Contexts that are not FREE, ascending: those whose TCX_STATE is listed with a STATE other than 0. -/
def liveTenants (d : Dev) : List Nat :=
  d.regs.filterMap (fun e =>
    if 0x100000 ≤ e.1 ∧ e.1 < 0x200000 ∧ e.1 % 256 = 0 ∧ fld e.2 1 0 ≠ 0 then some ((e.1 - 0x100000) / 256) else none)

/-- Two half-open ranges overlap. -/
def rangesMeet (a b c e : Nat) : Bool := decide (a < e) && decide (c < b) && decide (a < b) && decide (c < e)

/-- Bytes of a ring's buffer for a configuration word. -/
def bufBytes (cfg : W32) : Nat := 64 * 2 ^ fld cfg 6 2

/-- Checks of R66 on a write that sets EN. -/
def ringMayEnable (d : Dev) (r : Nat) (cfg : W32) : Bool :=
  let a := ringBase d r
  let b := a + bufBytes cfg
  decide (4 ≤ fld cfg 6 2) && decide (fld cfg 6 2 ≤ 16) && decide (b ≤ 0x7000000) &&
    (enabledRings d).all (fun q => !rangesMeet a b (ringBase d q) (ringBase d q + bufBytes (ringCfg d q))) &&
    (liveTenants d).all (fun t => !rangesMeet a b (hvWindow d t).1 (hvWindow d t).2)

/-- Mark every slot of a completion ring with lap parity 1 (R66). -/
def markSlots (d : Dev) (r : Nat) : Dev :=
  if ringIsCmd d r then d
  else (List.range (ringSize d r)).foldl (fun d i =>
    let a := ringBase d r + 64 * i + 6
    hiveWrite d a [tblGet 0 d.mem.hive a ||| 0x80]) d

/-- Units of a ring's buffer. -/
def ringUnits (d : Dev) (r : Nat) : List Nat :=
  (List.range (ceilDiv (bufBytes (ringCfg d r)) 4096)).map (fun i => ringBase d r / 4096 + i)

/-- Tag a ring's buffer RING and mark its slots. -/
def ringReady (d : Dev) (r : Nat) : Dev :=
  markSlots ((ringUnits d r).foldl (fun d u => setTag d (65536 + u) .ring) d) r

/-- The ring is enabled: counters zeroed, and units that are neither CLEAN nor RING become WIPING; without such a unit
the buffer is ready at once. -/
def ringEnable (d : Dev) (r : Nat) (cfg : W32) : Dev :=
  let d := setReg d (R.RNG_CFG r) cfg
  let d := setReg (setReg (setReg d (R.RNG_HEAD r) 0) (R.RNG_TAIL r) 0) (R.RNG_PENDING r) 0
  let dirty := (ringUnits d r).filter (fun u => hiveTag d u ≠ .clean ∧ hiveTag d u ≠ .ring)
  if dirty.isEmpty then ringReady d r
  else
    let d := dirty.foldl (fun d u => setTag d (65536 + u) .wipingRing) d
    { d with ent := { d.ent with ringWipe := d.ent.ringWipe ++ [BitVec.ofNat 12 r] } }

/-- A write to RNG_CFG (R65, R66). -/
def writeRngCfg (d : Dev) (r : Nat) (v : W32) : Dev :=
  let v := v &&& 0xFFFFF
  let cur := ringCfg d r
  if ringEn d r then
    if v = setBit cur 0 false ∧ ¬(!ringIsCmd d r ∧ ringPending d r ≠ 0) then
      let d := setReg d (R.RNG_CFG r) v
      { d with ent := { d.ent with ringWipe := d.ent.ringWipe.filter (fun x => x.toNat ≠ r) } }
    else bump d (R.RNG_ERR_CNT r)
  else if bit v 0 then
    if ringMayEnable d r v then ringEnable d r v else bump d (R.RNG_ERR_CNT r)
  else setReg d (R.RNG_CFG r) v

/-- A write to RNG_BASE (R65). -/
def writeRngBase (d : Dev) (r : Nat) (v : W32) : Dev :=
  if ringEn d r then bump d (R.RNG_ERR_CNT r) else setReg d (R.RNG_BASE r) (v &&& 0xFFFF)

/-! ### Doorbells (R70, R72) -/

/-- R70 for a doorbell value on a completion ring. -/
def doorbellCompletionOk (d : Dev) (r : Nat) (v : W32) : Bool :=
  let n := (v.toNat + 2 ^ 32 - ringHead d r) % 2 ^ 32
  decide (n ≤ ringUsed d r) && (List.range n).all (fun i => slotWritten d r ((ringHead d r + i) % 2 ^ 32))

/-- R72 for a doorbell value on a command ring. -/
def doorbellCommandOk (d : Dev) (r : Nat) (v : W32) : Bool :=
  let n := (v.toNat + 2 ^ 32 - ringTail d r) % 2 ^ 32
  decide (1 ≤ n) && decide (n ≤ ringSize d r - ringUsed d r)

/-- A doorbell on a ring. An accepted command-ring doorbell is a wake event (Table 13-5). -/
def writeDoorbell (d : Dev) (r : Nat) (v : W32) : Dev :=
  if !ringEn d r then bump d (R.RNG_ERR_CNT r)
  else if ringIsCmd d r then
    if doorbellCommandOk d r v then wakeEvent wakeDoorbell (setReg d (R.RNG_TAIL r) v) else bump d (R.RNG_ERR_CNT r)
  else if doorbellCompletionOk d r v then setReg d (R.RNG_HEAD r) v
  else bump d (R.RNG_ERR_CNT r)

/-- The last unit of a ring's buffer has ended its wipe: the buffer is tagged RING and marked (R271). -/
def ringWipeEnd (r : RingId) (d : Dev) : Dev :=
  if ringWaitsWipe d r.toNat && (ringUnits d r.toNat).all (fun u => !(hiveTag d u).isWiping) then
    ringReady { d with ent := { d.ent with ringWipe := d.ent.ringWipe.filter (fun x => x ≠ r) } } r.toNat
  else d

/-! ### Sync objects (R77) -/

/-- Add to a sync object modulo 2^32. -/
def syncAdd (d : Dev) (i : Nat) (v : W32) : Dev := setReg d (R.SYN_VALUE i) (getReg d (R.SYN_VALUE i) + v)

/-- The wrapped comparison of R79. -/
def syncPasses (v t : W32) : Bool := decide ((v - t).toNat < 2 ^ 31)

/-! ### Completion slots and records (R68, R69) -/

/-- Reserve the next completion slot: its counter value, and the ring advanced (R68). -/
def reserveSlot (d : Dev) (r : Nat) : W32 × Dev :=
  let t := getReg d (R.RNG_TAIL r)
  (t, setReg (setReg d (R.RNG_TAIL r) (t + 1)) (R.RNG_PENDING r) (getReg d (R.RNG_PENDING r) + 1))

/-- A completion record as the AX8 forms it (Table 03-6), PHASE apart. -/
structure Completion where
  reqId : W32
  tenant : Nat
  status : Nat
  op : Byte
  tick : Nat
  seq : Nat
  version : W32 := 0
  length : Nat := 0
  cycles : Nat := 0
  charged : Nat := 0
  flags : Nat := 0
  result : Nat := 0
  errRef : W32 := 0
  deriving DecidableEq, Repr

/-- The 64 bytes of a record (Table 03-6). -/
def completionBytes (c : Completion) (phase : Bool) (done slot : Nat) : List Byte :=
  leBytes 4 c.reqId.toNat ++ leBytes 2 (c.tenant % 4096) ++
    leBytes 1 (c.status % 16 + (if phase then 128 else 0)) ++ [c.op] ++
    leBytes 8 c.tick ++ leBytes 8 done ++ leBytes 4 (c.seq % 2 ^ 18) ++ leBytes 4 c.version.toNat ++
    leBytes 4 c.length ++ leBytes 4 c.cycles ++ leBytes 4 c.charged ++ leBytes 2 c.flags ++
    leBytes 1 c.result ++ zeroBytes 1 ++ leBytes 4 c.errRef.toNat ++ leBytes 2 slot ++ zeroBytes 10

/-- Telemetry of a record (Table 15-9): records, records with LATE, failures, and the largest DONE_NS − S(N). -/
def countRecord (c : Completion) (d : Dev) : Dev :=
  let s := d.tick.start - (d.tick.num - c.tick) * periodNs d
  { d with tel := { d.tel with
    done := d.tel.done + 1
    late := d.tel.late + (if c.status = 1 then 1 else 0)
    fail := d.tel.fail + (if 2 ≤ c.status then 1 else 0)
    doneMaxNs := max d.tel.doneMaxNs (now d - s) } }

/-- Write the record of a reserved slot, then decrement RNG_PENDING, then apply the record's sync adds: the object and
value given, and the ring's own (R69). -/
def writeRecord (d : Dev) (r : Nat) (ctr : W32) (c : Completion) (add : Option (Nat × W32)) : Dev :=
  let n := ctr.toNat
  let d := hiveWrite d (slotAddr d r n) (completionBytes c (lapParity d r n) (now d) (n % ringSize d r))
  let d := countRecord c (setReg d (R.RNG_PENDING r) (getReg d (R.RNG_PENDING r) - 1))
  let d := match add with
    | some a => syncAdd d a.1 a.2
    | none => d
  let sync := getReg d (R.RNG_SYNC r)
  if bit sync 15 then syncAdd d (fld sync 13 0) 1 else d

/-- The record of a command: OK, with its RESULT, and the sequence's length for a sequence command (Table 03-6). -/
def cmdRecord (x : CmdRef) (result length : Nat) (d : Dev) : Dev :=
  writeRecord d x.ring x.ctr {
    reqId := x.cmdId, tenant := x.tenant, status := 0, op := BitVec.ofNat 8 (0x80 + x.code % 128), tick := x.tick,
    seq := x.seq, length := length, result := result } none

/-- Write the record of a command kept for later, where there is one. -/
def cmdRecord? (x : Option CmdRef) (result length : Nat) (d : Dev) : Dev :=
  match x with
  | some x => cmdRecord x result length d
  | none => d

end Sys2Proof.Machine
end

