-- ==== Sys2Proof/Machine/Access.lean ====
section
/-!
DEFINITION. Reading and writing the register window (00, 03, 14): alignment and reserved offsets, _LO and _HI captures,
lock and path rules, deferral of keeper writes, and the registers whose write acts as stated for them.
-/

namespace Sys2Proof.Machine

open Sys2Proof

/-! ### Registers whose write has an effect of its own -/

/-- R80: a write to a tenant context. -/
def writeTcx (d : Dev) (t o : Nat) (v : W32) : Dev :=
  let off := 0x100000 + 256 * t + o
  if tcxState d t = 0 then
    if regAccess? off = some .rw then setReg d off (v &&& regMask off) else d
  else if tcxState d t = 1 ∧ o = 4 then
    let cur := getReg d off
    let d' := setReg d off (setBit cur 0 (bit v 0))
    if setBit v 0 false ≠ setBit cur 0 false then bump d' R.ENT_TCX_IGN_CNT else d'
  else bump d R.ENT_TCX_IGN_CNT

/-- R58: a value above 256 is stored as 256. -/
def clamp256 (v : Nat) : Nat := min (v % 512) 256

/-- R58 for TICK_BUDGET[m]. -/
def writeBudget (d : Dev) (off : Nat) (v : W32) : Dev :=
  setReg d off (BitVec.ofNat 32 (clamp256 (fld v 8 0) + clamp256 (fld v 24 16) * 65536))

/-- R353, R352: the boost is clamped and the new core voltage requested at once. -/
def writeBoost (d : Dev) (v : W32) : Dev :=
  requestCore (setReg d R.PWR_BOOST (BitVec.ofNat 32 (min (fld v 5 0) 40)))

/-- R354: a target starts an entry attempt when the die is Active and none runs; zero is a wake event during an
attempt, in Idle and in Doze. -/
def writeStateReq (d : Dev) (v : W32) : Dev :=
  let t := fld v 1 0
  if t = 0 then wakeEvent wakeReqZero d
  else if powerState d = 0 ∧ d.power.attempt.isNone ∧ d.power.restore.isEmpty then
    let d := setReg d R.PWR_STATE_REQ (BitVec.ofNat 32 t)
    let d := setReg d R.PWR_STATE (setBit (getReg d R.PWR_STATE) 5 true)
    { d with power := { d.power with attempt := some { target := t } } }
  else d

/-- R386: the SEQNUM of the head record frees its place; any other value is counted. -/
def writeGrdAck (d : Dev) (v : W32) : Dev :=
  match d.guard.queue with
  | q :: rest =>
    if q.seqnum = v then { d with guard := { d.guard with queue := rest } } else bump d R.GRD_ACK_ERR_CNT
  | [] => bump d R.GRD_ACK_ERR_CNT

/-- R393. -/
def writeGrdForce (d : Dev) (v : W32) : Dev :=
  if v = 0xFA7A0001 then report (mkReport 0x45 unitKeeper) d else d

/-- A W1C register: each 1 clears its bit. -/
def writeW1c (d : Dev) (off : Nat) (v : W32) : Dev := setReg d off (getReg d off &&& ~~~v)

/-- R390: any write to KPR_WDOG restarts the watchdog. -/
def kickWatchdog (d : Dev) : Dev := { d with keeper := { d.keeper with wdogTick := d.tick.num } }

/-- The effect of a write that the path and lock rules let through (Table 00-6). -/
def writeNow (off : Nat) (v : W32) (d : Dev) : Dev :=
  if 0x40000 ≤ off ∧ off < 0x80000 then
    let r := (off - 0x40000) / 64
    match off % 64 with
    | 0x00 => writeRngCfg d r v
    | 0x04 => writeRngBase d r v
    | 0x10 => writeDoorbell d r v
    | 0x18 => setReg d off (v &&& regMask off)
    | _ => d
  else if 0x80000 ≤ off ∧ off < 0xA0000 then
    if off % 8 = 0 then setReg d off v else syncAdd d ((off - 0x80000) / 8) v
  else if 0x100000 ≤ off ∧ off < 0x200000 then writeTcx d ((off - 0x100000) / 256) (off % 256) v
  else if off = R.ENT_CREDIT_SCALE then setReg d off (BitVec.ofNat 32 (clamp256 (fld v 8 0)))
  else if R.TICK_BUDGET 0 ≤ off ∧ off < R.TICK_BUDGET 256 then writeBudget d off v
  else if off = R.PWR_BOOST then writeBoost d v
  else if off = R.PWR_STATE_REQ then writeStateReq d v
  else if off = R.GRD_ACK then writeGrdAck d v
  else if off = R.GRD_FORCE then writeGrdForce d v
  else if off = R.KPR_WDOG then kickWatchdog d
  else
    match regAccess? off with
    | some .rw => setReg d off (v &&& regMask off)
    | some .rwl => setReg d off (v &&& regMask off)
    | some .rws => setReg d off (v &&& regMask off)
    | some .w1c => writeW1c d off v
    | _ => d

/-! ### Path and lock rules -/

/-- Registers that I3C and ports may write after lock (R377). -/
def openToPorts (off : Nat) : Bool :=
  (decide (0x40000 ≤ off) && decide (off < 0xA0000)) || (decide (0x100000 ≤ off) && decide (off < 0x200000)) ||
    (decide (0x200000 ≤ off) && decide (off < 0x240000) && decide (off % 0x1000 = 0x240)) ||
    decide (off = R.HIV_BAND_CTL) || decide (off = R.PWR_STATE_REQ) || decide (off = R.ID_SCRATCH) ||
    (decide (0xF00000 ≤ off) && decide (regAccess? off = some .rw ∨ regAccess? off = some .w1c))

/-- Entrance and cell registers, whose keeper writes wait for the drain start (R27). -/
def deferredForKeeper (off : Nat) : Bool :=
  (decide (0x2000 ≤ off) && decide (off < 0x4000)) || (decide (0x200000 ≤ off) && decide (off < 0x240000))

/-- What becomes of a register write (R5 to R7, R27, R370, R377, R385). -/
inductive WriteFate where
  /-- Ignored without effect. -/
  | ignored
  /-- Ignored and counted in ID_DENY_WR_CNT. -/
  | denied
  /-- Ignored and counted in ID_LOCK_WR_CNT. -/
  | lockedOut
  /-- Deferred to the drain start. -/
  | deferred
  | applied
  deriving DecidableEq, Repr

/-- A write to a reserved offset of a context that is not FREE, which R80 counts. -/
def reservedTcx (d : Dev) (off : Nat) : Bool :=
  decide (0x100000 ≤ off) && decide (off < 0x200000) && decide (tcxState d ((off - 0x100000) / 256) ≠ 0)

/-- The fate of a write on a path. One that reaches no register (R5, R6) is still counted where I3C and ports reach nothing (R370,
R377). -/
def writeFate (d : Dev) (path : Path) (off size : Nat) : WriteFate :=
  if !alive d || (decide (path = .keeper) && !d.keeper.running) then .ignored
  else if size ≠ 4 ∨ off % 4 ≠ 0 ∨ ((regRow? off).isNone && !reservedTcx d off) = true then
    if path = .keeper ∨ (locked d && openToPorts off) = true then .ignored else .denied
  else if !locked d then (if path = .keeper then .applied else .denied)
  else if regAccess? off = some .rwl then .lockedOut
  else if path = .keeper then
    if deferredForKeeper off && inExecute d then .deferred else .applied
  else if openToPorts off then .applied
  else .denied

/-- A write that arrives through a port is a wake event (R356). -/
def portWake (path : Path) (d : Dev) : Dev :=
  match path with
  | .port _ => wakeEvent wakePortWrite d
  | _ => d

/-- A register write arriving on a path. -/
def writeAny (path : Path) (off size : Nat) (v : W32) (d : Dev) : Dev :=
  let d' := portWake path d
  match writeFate d path off size with
  | .ignored => d'
  | .denied => bump d' R.ID_DENY_WR_CNT
  | .lockedOut => bump d' R.ID_LOCK_WR_CNT
  | .deferred => bump { d' with keeper := { d'.keeper with deferred := d'.keeper.deferred ++ [(off, v)] } } R.KPR_DEFER_CNT
  | .applied => writeNow off v d'

/-- Writes deferred from the execute phase take effect at the drain start, in order (R27). -/
def applyDeferred (d : Dev) : Dev :=
  d.keeper.deferred.foldl (fun d e => writeNow e.1 e.2 d) { d with keeper := { d.keeper with deferred := [] } }

/-! ### Meanings of the rows that write registers -/

/-- REGISTER_WRITE (R377): a write from any path. -/
def execRegisterWrite (path : Path) (off : BitVec 24) (size : Nat) (val : W32) (s : State) :
    Host.Outcome State Fault Refusal :=
  onDev (writeAny path off.toNat size val) s

/-- RNG_DOORBELL_COMPLETION (R70). -/
def execRngDoorbellCompletion (path : Path) (ring : RingId) (val : W32) (s : State) :
    Host.Outcome State Fault Refusal :=
  onDev (fun d => onlyIf (!ringIsCmd d ring.toNat) (writeAny path (R.RNG_DOORBELL ring.toNat) 4 val) d) s

/-- RNG_DOORBELL_COMMAND (R72). -/
def execRngDoorbellCommand (path : Path) (ring : RingId) (val : W32) (s : State) : Host.Outcome State Fault Refusal :=
  onDev (fun d => onlyIf (ringIsCmd d ring.toNat) (writeAny path (R.RNG_DOORBELL ring.toNat) 4 val) d) s

/-- RNG_ENABLE (R66): a write of RNG_CFG with EN set. -/
def execRngEnable (path : Path) (ring : RingId) (val : W32) (s : State) : Host.Outcome State Fault Refusal :=
  onDev (onlyIf (bit val 0) (writeAny path (R.RNG_CFG ring.toNat) 4 val)) s

/-- RNG_DISABLE (R65): a write of RNG_CFG with EN clear. -/
def execRngDisable (path : Path) (ring : RingId) (val : W32) (s : State) : Host.Outcome State Fault Refusal :=
  onDev (onlyIf (!bit val 0) (writeAny path (R.RNG_CFG ring.toNat) 4 val)) s

/-- RING_WIPE_END (R271). -/
def execRingWipeEnd (ring : RingId) (s : State) : Host.Outcome State Fault Refusal :=
  onDev (fun d => onlyIf (alive d) (ringWipeEnd ring) d) s

/-- SYN_VALUE_WRITE (R77). -/
def execSynValueWrite (path : Path) (sync : BitVec 14) (val : W32) (s : State) : Host.Outcome State Fault Refusal :=
  onDev (writeAny path (R.SYN_VALUE sync.toNat) 4 val) s

/-- SYN_ADD_WRITE (R77). -/
def execSynAddWrite (path : Path) (sync : BitVec 14) (val : W32) (s : State) : Host.Outcome State Fault Refusal :=
  onDev (writeAny path (R.SYN_ADD sync.toNat) 4 val) s

/-- TCX_WRITE (R80). -/
def execTcxWrite (path : Path) (tenant : TenantId) (off : BitVec 8) (val : W32) (s : State) :
    Host.Outcome State Fault Refusal :=
  onDev (writeAny path (0x100000 + 256 * tenant.toNat + off.toNat) 4 val) s

/-- ENT_CREDIT_SCALE_WRITE (R58): a write to ENT_CREDIT_SCALE or to a TICK_BUDGET register. -/
def execEntCreditScaleWrite (path : Path) (off : BitVec 24) (val : W32) (s : State) :
    Host.Outcome State Fault Refusal :=
  onDev (onlyIf (decide (off.toNat = R.ENT_CREDIT_SCALE) ||
    (decide (R.TICK_BUDGET 0 ≤ off.toNat) && decide (off.toNat < R.TICK_BUDGET 256)))
    (writeAny path off.toNat 4 val)) s

/-- PWR_BOOST_WRITE (R352, R353). -/
def execPwrBoostWrite (path : Path) (val : W32) (s : State) : Host.Outcome State Fault Refusal :=
  onDev (writeAny path R.PWR_BOOST 4 val) s

/-- PWR_STATE_REQ_WRITE (R354). -/
def execPwrStateReqWrite (path : Path) (val : W32) (s : State) : Host.Outcome State Fault Refusal :=
  onDev (writeAny path R.PWR_STATE_REQ 4 val) s

/-- GRD_ACK (R386). -/
def execGrdAck (path : Path) (val : W32) (s : State) : Host.Outcome State Fault Refusal :=
  onDev (writeAny path R.GRD_ACK 4 val) s

/-- GRD_FORCE (R393). -/
def execGrdForce (path : Path) (val : W32) (s : State) : Host.Outcome State Fault Refusal :=
  onDev (writeAny path R.GRD_FORCE 4 val) s

/-- GRD_FLAGS_CLEAR (R382, Table 00-6). -/
def execGrdFlagsClear (path : Path) (val : W32) (s : State) : Host.Outcome State Fault Refusal :=
  onDev (writeAny path R.GRD_FLAGS 4 val) s

/-- WIN_WAKE_SRC_CLEAR (R360, Table 00-6). -/
def execWinWakeSrcClear (path : Path) (val : W32) (s : State) : Host.Outcome State Fault Refusal :=
  onDev (writeAny path R.WIN_WAKE_SRC 4 val) s

/-- KPR_WDOG (R390). -/
def execKprWdog (path : Path) (val : W32) (s : State) : Host.Outcome State Fault Refusal :=
  onDev (writeAny path R.KPR_WDOG 4 val) s

end Sys2Proof.Machine
end

