-- ==== Sys2Proof/Machine/Descriptor.lean ====
section
/-!
DEFINITION. The work descriptor (Table 03-1 to Table 03-3) and the shape of a tenant context as its fields give it
(Table 03-10), with the input length of a request (R88).
-/

namespace Sys2Proof.Machine

open Sys2Proof

/-- Field of a descriptor: n bytes at a byte offset. -/
def dField (x : BitVec 512) (off n : Nat) : Nat := (x.toNat >>> (8 * off)) % 2 ^ (8 * n)

def dReqId (x : BitVec 512) : W32 := BitVec.ofNat 32 (dField x 0 4)
def dTenant (x : BitVec 512) : Nat := dField x 4 2 % 4096
def dOp (x : BitVec 512) : Nat := dField x 6 1 % 16
def dLayer (x : BitVec 512) : Nat := dField x 7 1
def dSeq (x : BitVec 512) : Nat := dField x 8 4 % 2 ^ 18
def dPos (x : BitVec 512) : Nat := dField x 0x0C 4
def dRows (x : BitVec 512) : Nat := dField x 0x10 2
def dRing (x : BitVec 512) : Nat := dField x 0x12 2 % 4096
def dFlags (x : BitVec 512) : BitVec 16 := BitVec.ofNat 16 (dField x 0x14 2)
def dOutPort (x : BitVec 512) : Nat := dField x 0x16 1 % 8
def dHint (x : BitVec 512) : Nat := dField x 0x17 1 % 16
def dNotBefore (x : BitVec 512) : Nat := dField x 0x18 8
def dOutAddr (x : BitVec 512) : Nat := dField x 0x20 8
def dArg (x : BitVec 512) : Nat := dField x 0x28 8
def dVersion (x : BitVec 512) : Nat := dField x 0x30 4
def dSync (x : BitVec 512) : Nat := dField x 0x34 2 % 2 ^ 14
def dSyncEn (x : BitVec 512) : Bool := decide (dField x 0x34 2 / 2 ^ 15 = 1)
def dSyncAdd (x : BitVec 512) : W32 := BitVec.ofNat 32 (dField x 0x38 4)

/-- FLAGS (Table 03-2). -/
def dExact (x : BitVec 512) : Bool := bit (dFlags x) 0
def dExpress (x : BitVec 512) : Bool := bit (dFlags x) 1
def dExpBuf (x : BitVec 512) : Bool := bit (dFlags x) 2
def dSaveStats (x : BitVec 512) : Bool := bit (dFlags x) 3
def dFirstChunk (x : BitVec 512) : Bool := bit (dFlags x) 4
def dLastChunk (x : BitVec 512) : Bool := bit (dFlags x) 5
def dPacked (x : BitVec 512) : Bool := bit (dFlags x) 6

/-- Operations (Table 03-3). -/
def opDECODE : Nat := 0
def opPREFILL : Nat := 1
def opPREFIX : Nat := 2
def opVERIFY : Nat := 3
def opCOMMIT : Nat := 4
def opBACKWARD : Nat := 5
def opDECODE_U : Nat := 6
def opPREFILL_U : Nat := 7

/-- PREFILL or PREFILL_U (R398). -/
def isPrefill (op : Nat) : Bool := decide (op = opPREFILL ∨ op = opPREFILL_U)

/-! ### Cells and windows of a tenant -/

/-- Contexts in a state. -/
def tenantsIn (d : Dev) (st : Nat) : List Nat := (liveTenants d).filter (fun t => decide (tcxState d t = st))

/-- Some ACTIVE context has HOT set. -/
def someHot (d : Dev) : Bool := (tenantsIn d 1).any (fun t => bit (getReg d (R.TCX_MODE t)) 0)

/-- Head cells of a context, and its home cell. -/
def headCell (d : Dev) (t : Nat) (c : CellId) : Bool :=
  if c.val < 32 then bit (getReg d (R.TCX_HEAD_CELLS_LO t)) c.val else bit (getReg d (R.TCX_HEAD_CELLS_HI t)) (c.val - 32)
def homeCell (d : Dev) (t : Nat) : CellId := ⟨regFld d (R.TCX_SHAPE t) 29 24 % 64, Nat.mod_lt _ (by decide)⟩

/-- The context's cell-memory window maps units on the cell: head cells and the home cell. -/
def usesCell (d : Dev) (t : Nat) (c : CellId) : Bool := headCell d t c || decide (homeCell d t = c)

/-- Cell-memory window of a context in units: BASE and BOUND. -/
def cmWindow (d : Dev) (t : Nat) : Nat × Nat :=
  (regFld d (R.TCX_CM_WINDOW t) 10 0, regFld d (R.TCX_CM_WINDOW t) 26 16)

/-- The context's cell-memory window maps a bank of a cell; a bank is 128 units. -/
def mapsBank (d : Dev) (t : Nat) (c : CellId) (b : Nat) : Bool :=
  usesCell d t c && rangesMeet (cmWindow d t).1 (cmWindow d t).2 (128 * b) (128 * b + 128)

/-- RET of a cell-memory bank. -/
def bankRet (d : Dev) (c : CellId) (b : Nat) : Bool := bit (getReg d (R.CEL_BANK_CTL c.val)) (8 + b)

/-- State of a cell-memory bank and of a hive band (Table 10-7): 0 ON, 1 CLOSING, 2 OFF, 3 WAKING. -/
def bankState (d : Dev) (c : CellId) (b : Nat) : Nat := regFld d (R.CEL_BANK_STATE c.val) (2 * b + 1) (2 * b)
def bandState (d : Dev) (k : Nat) : Nat := if k < 7 then regFld d R.HIV_BAND_STATE (2 * k + 1) (2 * k) else 0
def setBankState (d : Dev) (c : CellId) (b st : Nat) : Dev := setRegFld d (R.CEL_BANK_STATE c.val) (2 * b + 1) (2 * b) st
def setBandState (d : Dev) (k st : Nat) : Dev := setRegFld d R.HIV_BAND_STATE (2 * k + 1) (2 * k) st

/-! ### Shape of a tenant -/

/-- d_model. -/
def dModel (d : Dev) (t : Nat) : Nat := 64 * regFld d (R.TCX_SHAPE t) 7 0

/-- Head dimension D_h. -/
def headDim (d : Dev) (t : Nat) : Nat := 64 * 2 ^ regFld d (R.TCX_SHAPE t) 9 8

/-- KV heads per head cell. -/
def headsPerCell (d : Dev) (t : Nat) : Nat := regFld d (R.TCX_SHAPE t) 11 10 + 1

/-- Query heads per KV head. -/
def groupOf (d : Dev) (t : Nat) : Nat := regFld d (R.TCX_SHAPE t) 15 12 + 1

/-- Layers. -/
def layersOf (d : Dev) (t : Nat) : Nat := regFld d (R.TCX_SHAPE t) 23 16 + 1

/-- The head cells, in ascending order. -/
def headCells (d : Dev) (t : Nat) : List CellId := (List.finRange 64).filter (headCell d t)

/-- Query heads that the die holds (R88, R196). -/
def queryHeads (d : Dev) (t : Nat) : Nat := (headCells d t).length * headsPerCell d t * groupOf d t

/-- Tokens of a tail page and of a prefix page. -/
def tailTokens (d : Dev) (t : Nat) : Nat := 2 ^ regFld d (R.TCX_PAGE t) 2 0
def prefixTokens (d : Dev) (t : Nat) : Nat := 2 ^ regFld d (R.TCX_PAGE t) 6 3

/-- Barrier of a tenant. -/
def tcxBarrier (d : Dev) (t : Nat) : Bool := bit (getReg d (R.TCX_STATE t)) 2

/-- Set or clear the barrier of a tenant. -/
def setBarrier (t : Nat) (b : Bool) (d : Dev) : Dev := setReg d (R.TCX_STATE t) (setBit (getReg d (R.TCX_STATE t)) 2 b)

/-- Set the STATE of a context. -/
def setTcxState (t st : Nat) (d : Dev) : Dev := setRegFld d (R.TCX_STATE t) 1 0 st

/-- Input length of a request (Table 03-18). -/
def inputLen (d : Dev) (x : BitVec 512) : Nat :=
  let t := dTenant x
  let rows := dRows x
  let hidden := rows * dModel d t * 2
  if dOp x = opCOMMIT then 0
  else if dOp x = opBACKWARD then rows * (dModel d t + queryHeads d t * headDim d t) * 2
  else if isPrefill (dOp x) && dPacked x then hidden + ceilDiv (2 * rows) 64 * 64
  else hidden

/-- Bucket of a context length (R37). -/
def bucketOf (l : Nat) : Nat := if l ≤ 16 then 0 else clog2 l - 4

/-! ### Requests and tokens -/

/-- The request of an identifier. -/
def findReq (d : Dev) (uid : Nat) : Option Req := d.ent.reqs.find? (fun r => r.uid = uid)

/-- Change a request. -/
def updReq (uid : Nat) (f : Req → Req) (d : Dev) : Dev :=
  { d with ent := { d.ent with reqs := d.ent.reqs.map (fun r => if r.uid = uid then f r else r) } }

/-- Change the token of a request on a cell: the one of its work, and once that has ended the combine token (R193). -/
def updToken (uid : Nat) (c : CellId) (f : Token → Token) (d : Dev) : Dev :=
  let mine (t : Token) : Bool := decide (t.uid = uid) && decide (t.cell = c)
  let k := (d.ent.tokens.find? (fun t => mine t && decide (t.st ≠ .finished))).map (·.combine)
  { d with ent := { d.ent with
    tokens := d.ent.tokens.map (fun t => if mine t && decide (some t.combine = k) then f t else t) } }

/-- The token that runs on a cell. -/
def cellToken (d : Dev) (c : CellId) : Option Token :=
  d.ent.tokens.find? (fun t => decide (t.cell = c) && decide (t.st = .running))

/-- Tick in which a request's work runs: one before the completion tick where it holds a combine region (R190). -/
def workTick (r : Req) : Nat := if r.region then r.tick - 1 else r.tick

/-- Input bytes of a request from an offset; a byte not received reads as zero. -/
def inputBytes (r : Req) (off n : Nat) : List Byte := tblGetList 0 r.input off n

/-- Every input byte has arrived (R33). -/
def inputComplete (d : Dev) (r : Req) : Bool := decide (inputLen d r.desc ≤ r.input.length)

/-- The cell that gives a request's result: the express cell, or the home cell. -/
def resultCell (d : Dev) (r : Req) : CellId := match r.express with | some c => c | none => homeCell d (dTenant r.desc)

/-- A cell has no work of a tick left: no token of it, and no record of a request of it to be written on the cell that
gives the result (R31, R46). -/
def cellDone (d : Dev) (c : CellId) (n : Nat) : Bool :=
  d.ent.tokens.all (fun t => decide (t.cell ≠ c) || decide (t.tick ≠ n) || decide (t.st = .finished)) &&
    d.ent.reqs.all (fun r => decide (r.tick ≠ n) || r.recordWritten || decide (resultCell d r ≠ c))

/-- Overrun of a cell past the drain start of a late tick, in cycles (R48). -/
def noteLateDone (c : CellId) (d : Dev) : Dev :=
  let upd (l : LateTick) : LateTick :=
    if c ∈ l.cells ∧ l.overruns.all (fun o => decide (o.1 ≠ c)) ∧ cellDone d c l.tick = true then
      { l with overruns := l.overruns ++ [(c, cyclesSince d l.drainCyc)] }
    else l
  { d with ent := { d.ent with late := d.ent.late.map upd } }

/-- A token's work on its cell has ended. -/
def finishToken (uid : Nat) (c : CellId) (d : Dev) : Dev :=
  noteLateDone c (updToken uid c (fun t => { t with st := .finished }) d)

/-- A frame carries a piece of the request's result: DWR names its REQ_ID in AUX (Table 12-4). -/
def carriesResult (r : Req) (f : Frame) : Bool :=
  decide (f.typ = tDWR) && decide (f.aux = dReqId r.desc) && decide (f.tenant.toNat = dTenant r.desc)

/-- A report of a request's work. -/
def tokenReport (r : Req) (code : Byte) (unit : BitVec 7) (addr info : Nat) : Report :=
  { code := code, unit := unit, addr := BitVec.ofNat 64 addr, tenant := some (BitVec.ofNat 12 (dTenant r.desc)),
    seq := some (BitVec.ofNat 18 (dSeq r.desc)), req := dReqId r.desc, info := BitVec.ofNat 160 info }

/-- Result frames of a request are discarded at a port that is not UP: ECC_FAIL, with a LINK_DOWN record (R322). -/
def resultLost (p : PortId) (r : Req) (d : Dev) : Dev :=
  let g := guardTake { tokenReport r 0x31 (unitPort p) 0 0 with addr := 0 } d
  updReq r.uid (fun r => { r with eccFail := true, errRef := if r.errRef = 0 then g.1 else r.errRef }) g.2

/-- Frames that wait at a port are discarded. -/
def dropHeld (p : PortId) (d : Dev) : Dev :=
  let x := getPort d p
  (d.ent.reqs.filter (fun r => !r.recordWritten && x.held.any (carriesResult r))).foldl (fun d r => resultLost p r d)
    (setPort d p { x with held := [] })

/-- Every token of a request has ended. -/
def tokensDone (d : Dev) (uid : Nat) : Bool :=
  d.ent.tokens.all (fun t => decide (t.uid ≠ uid) || decide (t.st = .finished))

end Sys2Proof.Machine
end

