-- ==== Sys2Proof/Machine/Fp.lean ====
section
/-!
DEFINITION. Numbers (05): element formats, exact values, rounding and casts, the tree, compensated addition, integer
saturation, stochastic seeds and block scaling. Values are formed exactly and narrowed in one place.
-/

namespace Sys2Proof.Machine

open Sys2Proof

/-! ### Exact values -/

/-- An exact value: a NaN, an infinity, or (−1)^neg · num / den · 2^e with den at least 1; num 0 is a signed zero. -/
inductive Val where
  | nan
  | inf (neg : Bool)
  | rat (neg : Bool) (num den : Nat) (e : Int)
  deriving DecidableEq, Repr

/-- Rounding modes of RND (Table 03-15). -/
inductive Rnd where
  | rne
  | rtz
  /-- Stochastic, with the seed of R119. -/
  | sr (seed : Nat)
  deriving DecidableEq, Repr

/-- A signed zero. -/
def vZero (neg : Bool) : Val := .rat neg 0 1 0

/-- An integer as a value; zero is positive. -/
def vInt (i : Int) : Val := .rat (decide (i < 0)) i.natAbs 1 0

/-- The value is a zero of either sign. -/
def Val.isZero : Val → Bool
  | .rat _ n _ _ => decide (n = 0)
  | _ => false

/-- The value is finite. -/
def Val.isFinite : Val → Bool
  | .rat .. => true
  | _ => false

/-- The value is a NaN. -/
def Val.isNan : Val → Bool
  | .nan => true
  | _ => false

/-- Sign of a value; a NaN counts as positive. -/
def Val.sign : Val → Bool
  | .nan => false
  | .inf s => s
  | .rat s .. => s

/-- Negation. -/
def vNeg : Val → Val
  | .nan => .nan
  | .inf s => .inf !s
  | .rat s n d e => .rat (!s) n d e

/-- Magnitude. -/
def vAbs : Val → Val
  | .nan => .nan
  | .inf _ => .inf false
  | .rat _ n d e => .rat false n d e

/-- Exact product. -/
def vMul : Val → Val → Val
  | .nan, _ => .nan
  | _, .nan => .nan
  | .inf s, .inf t => .inf (s != t)
  | .inf s, .rat t n _ _ => if n = 0 then .nan else .inf (s != t)
  | .rat s n _ _, .inf t => if n = 0 then .nan else .inf (s != t)
  | .rat s n d e, .rat t m c f => .rat (s != t) (n * m) (d * c) (e + f)

/-- Exact sum; a zero that arises is positive unless both terms are negative zeros. -/
def vAdd : Val → Val → Val
  | .nan, _ => .nan
  | _, .nan => .nan
  | .inf s, .inf t => if s = t then .inf s else .nan
  | .inf s, .rat .. => .inf s
  | .rat .., .inf t => .inf t
  | .rat s n d e, .rat t m c f =>
    if n = 0 ∧ m = 0 then vZero (s && t)
    else if n = 0 then .rat t m c f
    else if m = 0 then .rat s n d e
    else
      let g := min e f
      let a : Int := (n <<< (e - g).toNat * c : Nat)
      let b : Int := (m <<< (f - g).toNat * d : Nat)
      let x := (if s then -a else a) + (if t then -b else b)
      if x = 0 then vZero false else .rat (decide (x < 0)) x.natAbs (d * c) g

/-- Exact difference. -/
def vSub (a b : Val) : Val := vAdd a (vNeg b)

/-- Exact scaling by a power of two. -/
def vScale (k : Int) : Val → Val
  | .rat s n d e => .rat s n d (e + k)
  | v => v

/-- Exact division by a positive integer. -/
def vDiv (v : Val) (k : Nat) : Val :=
  match v with
  | .rat s n d e => .rat s n (d * k) e
  | v => v

/-- A value is below another; false with a NaN; zeros are equal. -/
def vLt (a b : Val) : Bool :=
  match a, b with
  | .nan, _ => false
  | _, .nan => false
  | .inf s, .inf t => s && !t
  | .inf s, .rat .. => s
  | .rat .., .inf t => !t
  | .rat .., .rat .. =>
    match vSub a b with
    | .rat s n _ _ => s && decide (n ≠ 0)
    | _ => false

/-- Values are equal; false with a NaN; zeros are equal. -/
def vEq (a b : Val) : Bool := !a.isNan && !b.isNan && !vLt a b && !vLt b a

/-- Floor of the base-2 logarithm of num / den · 2^e, for a positive num. -/
def floorLog2 (num den : Nat) (e : Int) : Int :=
  let l : Int := (Nat.log2 num : Int) - (Nat.log2 den : Int)
  let ge := if 0 ≤ l then decide (den <<< l.toNat ≤ num) else decide (den ≤ num <<< (-l).toNat)
  (if ge then l else l - 1) + e

/-! ### Rounding -/

/-- Quotient of num / den · 2^e by 2^u, rounded; `st` is a non-zero part below every discarded bit (R124). -/
def roundQ (num den : Nat) (e u : Int) (r : Rnd) (st : Bool) : Nat :=
  let a := if u ≤ e then num <<< (e - u).toNat else num
  let b := if u ≤ e then den else den <<< (u - e).toNat
  let q := a / b
  let m := a % b
  match r with
  | .rtz => q
  | .rne => if b < 2 * m ∨ (2 * m = b ∧ (st = true ∨ q % 2 = 1)) then q + 1 else q
  | .sr seed => if 65536 ≤ m * 65536 / b + seed % 65536 then q + 1 else q

/-- Shape of a floating format: exponent bits, fraction bits, bias, and its special encodings: 0 infinities and NaNs, 1
the one NaN magnitude of E4M3, 2 neither. -/
structure FpShape where
  eb : Nat
  mb : Nat
  bias : Nat
  kind : Nat
  deriving DecidableEq, Repr

/-- Shape of a format code; the MX codes name their elements (Table 05-1). -/
def fpShape (fmt : Nat) : FpShape :=
  match fmt with
  | 0 => { eb := 8, mb := 23, bias := 127, kind := 0 }
  | 1 => { eb := 8, mb := 7, bias := 127, kind := 0 }
  | 2 => { eb := 4, mb := 3, bias := 7, kind := 1 }
  | 3 => { eb := 5, mb := 2, bias := 15, kind := 0 }
  | 4 => { eb := 4, mb := 3, bias := 7, kind := 1 }
  | 5 => { eb := 5, mb := 2, bias := 15, kind := 0 }
  | _ => { eb := 2, mb := 1, bias := 1, kind := 2 }

/-- Width of an element in bits (Table 05-1). -/
def fmtBits (fmt : Nat) : Nat :=
  match fmt with
  | 0 => 32 | 1 => 16 | 2 => 8 | 3 => 8 | 4 => 8 | 5 => 8 | 6 => 4 | 7 => 8 | 8 => 4 | 9 => 32 | _ => 32

/-- The format is an integer format. -/
def fmtIsInt (fmt : Nat) : Bool := decide (fmt = 7 ∨ fmt = 8 ∨ fmt = 9)

/-- The format is an MX format. -/
def fmtIsMx (fmt : Nat) : Bool := decide (fmt = 4 ∨ fmt = 5 ∨ fmt = 6)

/-- Encoding of the largest finite magnitude. -/
def fpMax (s : FpShape) : Nat :=
  match s.kind with
  | 0 => ((2 ^ s.eb - 1) <<< s.mb) - 1
  | 1 => 2 ^ (s.eb + s.mb) - 2
  | _ => 2 ^ (s.eb + s.mb) - 1

/-- Sign bit of an encoding. -/
def fpSign (s : FpShape) (neg : Bool) : Nat := if neg then 2 ^ (s.eb + s.mb) else 0

/-- Canonical NaN of a format (Table 05-1); a format without one gives zero. -/
def fpNan (s : FpShape) : Nat :=
  match s.kind with
  | 0 => if s.eb = 5 then 0x7F else ((2 ^ s.eb - 1) <<< s.mb) + 2 ^ (s.mb - 1)
  | 1 => 2 ^ (s.eb + s.mb) - 1
  | _ => 0

/-- Cast of a value to a floating format (R118, Table 05-2); `st` as for roundQ. MX elements never become infinite. -/
def castFp (fmt : Nat) (r : Rnd) (st : Bool) (v : Val) : Nat :=
  let s := fpShape fmt
  let top := (2 ^ s.eb - 1) <<< s.mb
  match v with
  | .nan => fpNan s
  | .inf neg => if s.kind = 0 then fpSign s neg + top else fpNan s
  | .rat neg num den e =>
    if num = 0 then fpSign s neg
    else
      let l := floorLog2 num den e
      let uMin : Int := 1 - (s.bias : Int) - s.mb
      if l < uMin - 20 then fpSign s neg
      else
        let u := max (l - s.mb) uMin
        let bits := if l > 2 ^ s.eb then fpMax s + 1
          else ((u - uMin).toNat <<< s.mb) + roundQ num den e u r st
        if bits ≤ fpMax s then fpSign s neg + bits
        else if (fmt = 0 ∨ fmt = 1) ∧ r = .rne then fpSign s neg + top
        else fpSign s neg + fpMax s

/-- Cast of a value to a two's-complement integer of a width: the result and whether it saturates or takes a NaN. -/
def castInt (w : Nat) (r : Rnd) (v : Val) : Int × Bool :=
  let hi : Int := 2 ^ (w - 1) - 1
  let lo : Int := -(2 ^ (w - 1))
  match v with
  | .nan => (0, true)
  | .inf neg => (if neg then lo else hi, true)
  | .rat neg num den e =>
    if num = 0 then (0, false)
    else
      let l := floorLog2 num den e
      if l > 40 then (if neg then lo else hi, true)
      else if l < -20 then (0, false)
      else
        let q : Int := roundQ num den e 0 r false
        let x := if neg then -q else q
        if x < lo then (lo, true) else if hi < x then (hi, true) else (x, false)

/-- Cast of a value to a format: the element's bits, and SATURATED (R118). -/
def castTo (fmt : Nat) (r : Rnd) (v : Val) : Nat × Bool :=
  if fmtIsInt fmt then
    let x := castInt (fmtBits fmt) r v
    ((BitVec.ofInt (fmtBits fmt) x.1).toNat, x.2)
  else (castFp fmt r false v, false)

/-- Value of an element's bits in a format; an MX element without its scale. -/
def decodeElem (fmt bits : Nat) : Val :=
  if fmtIsInt fmt then vInt (BitVec.ofNat (fmtBits fmt) bits).toInt
  else
    let s := fpShape fmt
    let neg := decide (bits >>> (s.eb + s.mb) % 2 = 1)
    let ef := bits >>> s.mb % 2 ^ s.eb
    let mf := bits % 2 ^ s.mb
    if s.kind = 0 ∧ ef = 2 ^ s.eb - 1 then (if mf = 0 then .inf neg else .nan)
    else if s.kind = 1 ∧ ef = 2 ^ s.eb - 1 ∧ mf = 2 ^ s.mb - 1 then .nan
    else if ef = 0 then .rat neg mf 1 (1 - (s.bias : Int) - s.mb)
    else .rat neg (2 ^ s.mb + mf) 1 ((ef : Int) - s.bias - s.mb)

/-- Value of an MX block scale byte as a power of two; none for the NaN scale. -/
def mxScale (x : Byte) : Option Int := if x = 0xFF then none else some ((x.toNat : Int) - 127)

/-- An element under its block scale. -/
def scaled (v : Val) (x : Byte) : Val :=
  match mxScale x with
  | none => .nan
  | some k => vScale k v

/-! ### FP32 arithmetic -/

/-- Value of an FP32 word. -/
def f32 (w : W32) : Val := decodeElem 0 w.toNat

/-- Rounding to FP32 to nearest even. -/
def rn32 (v : Val) : W32 := BitVec.ofNat 32 (castFp 0 .rne false v)

/-- Rounding to FP32 in a mode. -/
def to32 (r : Rnd) (v : Val) : W32 := BitVec.ofNat 32 (castFp 0 r false v)

/-- FP32 words named in the rules. -/
def f32Zero : W32 := 0
def f32One : W32 := 0x3F800000
def f32NegInf : W32 := 0xFF800000
def f32PosInf : W32 := 0x7F800000
def f32Nan : W32 := 0x7FC00000

/-- FP32 operations to nearest even. -/
def fAdd (a b : W32) : W32 := rn32 (vAdd (f32 a) (f32 b))
def fSub (a b : W32) : W32 := rn32 (vSub (f32 a) (f32 b))
def fMul (a b : W32) : W32 := rn32 (vMul (f32 a) (f32 b))
def fFma (a b c : W32) : W32 := rn32 (vAdd (vMul (f32 a) (f32 b)) (f32 c))

/-- (a − b) · c with one rounding (Table 06-3, FSS). -/
def fFss (a b c : W32) : W32 := rn32 (vMul (vSub (f32 a) (f32 b)) (f32 c))

/-- Larger of two; NaN if either is; MAX(−0, +0) is +0. -/
def fMax (a b : W32) : W32 :=
  let x := f32 a
  let y := f32 b
  if x.isNan || y.isNan then f32Nan
  else if x.isZero && y.isZero then (if x.sign && y.sign then 0x80000000 else 0)
  else if vLt x y then b else a

/-- Smaller of two; NaN if either is; MIN(−0, +0) is −0. -/
def fMin (a b : W32) : W32 :=
  let x := f32 a
  let y := f32 b
  if x.isNan || y.isNan then f32Nan
  else if x.isZero && y.isZero then (if x.sign || y.sign then 0x80000000 else 0)
  else if vLt y x then b else a

/-- A BF16 element as an FP32 word: the widening is exact. -/
def bf16to32 (b : Nat) : W32 := rn32 (decodeElem 1 b)

/-- Cast of an FP32 word to BF16, RNE. -/
def toBf16 (w : W32) : Nat := castFp 1 .rne false (f32 w)

/-! ### INT32 with saturation (R125) -/

/-- Exact sum of two INT32 saturated to the bound of its sign, and whether it saturated. -/
def satAdd32 (a b : W32) : W32 × Bool :=
  let x := a.toInt + b.toInt
  if 2 ^ 31 ≤ x then (0x7FFFFFFF, true) else if x < -(2 ^ 31) then (0x80000000, true) else (BitVec.ofInt 32 x, false)

/-! ### The tree (R123 to R125) -/

/-- Sum of a tree before its one rounding. -/
inductive TreeSum where
  | nan
  | inf (neg : Bool)
  | zero (neg : Bool)
  /-- (−1)^neg · v · 2^e, with the sticky bit. -/
  | win (neg : Bool) (v : Nat) (e : Int) (sticky : Bool)
  deriving DecidableEq, Repr

/-- Floor of the base-2 logarithm of a finite non-zero value. -/
def vLog2 : Val → Int
  | .rat _ n d e => floorLog2 n d e
  | _ => 0

/-- A product truncated toward zero to a multiple of g = 2^e, in units of g, and whether a part was lost. -/
def windowTerm (e : Int) (v : Val) : Int × Bool :=
  match v with
  | .rat neg n d f =>
    let q := roundQ n d f e .rtz false
    let exact := vEq (.rat false q 1 e) (.rat false n d f)
    (if neg then -(q : Int) else q, !exact)
  | _ => (0, false)

/-- R124 up to its rounding, for the unmasked terms. -/
def treeSum (ps : List Val) : TreeSum :=
  let someInf (s : Bool) := ps.any (fun p => decide (p = .inf s))
  if ps.any Val.isNan || (someInf true && someInf false) then .nan
  else if someInf true then .inf true
  else if someInf false then .inf false
  else
    let z := ps.filter (fun p => !p.isZero)
    match z with
    | [] => .zero (!ps.isEmpty && ps.all Val.sign)
    | p :: rest =>
      let e := rest.foldl (fun m x => max m (vLog2 x)) (vLog2 p)
      let ts := z.map (windowTerm (e - 40))
      let v := (ts.map (·.1)).sum
      if v = 0 then .zero false else .win (decide (v < 0)) v.natAbs (e - 40) (ts.any (·.2))

/-- round32 of R124. -/
def treeRound : TreeSum → W32
  | .nan => f32Nan
  | .inf s => if s then f32NegInf else f32PosInf
  | .zero s => if s then 0x80000000 else 0
  | .win neg v e st => BitVec.ofNat 32 (castFp 0 .rne st (.rat neg v 1 e))

/-- Tree result of the unmasked terms. -/
def tree (ps : List Val) : W32 := treeRound (treeSum ps)

/-- Tree result under a page or tile scale σ (R123). -/
def treeSigma (sigma : Val) (ps : List Val) : W32 :=
  let plain := sigma.isFinite && !sigma.isZero
  match treeSum ps with
  | .nan => f32Nan
  | .inf s => rn32 (vMul sigma (.inf s))
  | .zero s => if plain then 0 else rn32 (vMul sigma (vZero s))
  | .win neg v e st => BitVec.ofNat 32 (castFp 0 .rne (st && plain) (vMul sigma (.rat neg v 1 e)))

/-! ### Compensated addition (R129) -/

/-- Add x to the pair (s, c). -/
def compAdd (s c x : W32) : W32 × W32 :=
  let t := fAdd s x
  if !(f32 t).isFinite then (t, 0)
  else
    let z := fSub t s
    let e := fAdd (fSub s (fSub t z)) (fSub x z)
    (t, fAdd c e)

/-! ### Stochastic seeds (R119) -/

/-- mix of R119. -/
def mix32 (a b : W32) : W32 :=
  let x := a ^^^ (b * 0x9E3779B9)
  let x := x ^^^ (x >>> 16)
  let x := x * 0x7FEB352D
  let x := x ^^^ (x >>> 15)
  let x := x * 0x846CA68B
  x ^^^ (x >>> 16)

/-- The seed of an element. -/
def srSeed (tenant layer stage position element : Nat) : Nat :=
  (mix32 (mix32 (mix32 (BitVec.ofNat 32 tenant) (BitVec.ofNat 32 (layer * 32 + stage)))
    (BitVec.ofNat 32 position)) (BitVec.ofNat 32 element)).toNat

/-- Rounding named by an RND code, given the seed it would use. -/
def rndOf (code seed : Nat) : Rnd := match code with | 0 => .rne | 1 => .rtz | _ => .sr seed

/-! ### Block quantisation (R120) -/

/-- e_max of an MX element format. -/
def mxEmax (fmt : Nat) : Int := match fmt with | 4 => 8 | 5 => 15 | _ => 2

/-- Quantise a block of 32 values: the scale byte and the elements' bits; `rs i` is the rounding of element i. -/
def quantBlock (fmt : Nat) (rs : Nat → Rnd) (xs : List Val) : Byte × List Nat :=
  if xs.any (fun x => !x.isFinite) then (0xFF, xs.map (fun _ => 0))
  else if xs.all Val.isZero then (0, xs.map (fun _ => 0))
  else
    let mx := (xs.filter (fun x => !x.isZero)).foldl (fun m x => max m (vLog2 x)) (-100000)
    let k := max (-127) (min 127 (mx - mxEmax fmt))
    (BitVec.ofInt 8 (k + 127), xs.mapIdx (fun i x => castFp fmt (rs i) false (vScale (-k) x)))

/-! ### Packing (R203, Table 05-1) -/

/-- Elements of a width packed little-endian into bytes, the lower-indexed four-bit element in the low bits. -/
def packElems (w : Nat) (xs : List Nat) : List Byte :=
  if w = 4 then
    (List.range ((xs.length + 1) / 2)).map (fun i =>
      BitVec.ofNat 8 (xs.getD (2 * i) 0 % 16 + 16 * (xs.getD (2 * i + 1) 0 % 16)))
  else xs.flatMap (leBytes (w / 8))

/-- Element i of a packed byte string. -/
def elemAt (w : Nat) (bs : List Byte) (i : Nat) : Nat :=
  if w = 4 then ((bs.getD (i / 2) 0).toNat >>> (4 * (i % 2))) % 16 else leAt bs (i * (w / 8)) (w / 8)

end Sys2Proof.Machine
end

