-- ==== Sys2Proof/Machine/Sfu.lean ====
section
/-!
DEFINITION. The special-function unit (Table 06-7, R141, R156 to R158). Each function is formed to some 240 bits, and
the result is one of the FP32 values that the accuracy of Table 06-7 permits; which one, the configuration leaves open.
-/

namespace Sys2Proof.Machine

open Sys2Proof

/-! ### Functions to 256 fractional bits -/

/-- ln 2 and log2 e in units of 2^-256. -/
def ln2Fix : Nat := 80260960185991308862233904206310070533990667611589946606122867505419956976171
def log2eFix : Nat := 167052672916848388242985626561247531987276682633131050150846402744536260568207

/-- Terms of the exponential series from term k on, all in units of 2^-256. -/
def expTail (y : Nat) : Nat → Nat → Nat → Nat
  | 0, _, _ => 0
  | n + 1, k, t => t + expTail y n (k + 1) (((t * y) >>> 256) / k)

/-- 2^f for f in [0, 1), both in units of 2^-256. -/
def exp2Frac (f : Nat) : Nat := expTail ((f * ln2Fix) >>> 256) 70 1 (2 ^ 256)

/-- A finite value in units of 2^-256, rounded down. -/
def toFix (v : Val) : Int :=
  match v with
  | .rat neg n d e =>
    let q : Nat := if 0 ≤ e + 256 then n <<< (e + 256).toNat / d else n / (d <<< (-(e + 256)).toNat)
    let exact := if 0 ≤ e + 256 then decide (q * d = n <<< (e + 256).toNat) else decide (q * (d <<< (-(e + 256)).toNat) = n)
    if neg then (if exact then -(q : Int) else -(q : Int) - 1) else q
  | _ => 0

/-- 2^x for x in units of 2^-256. -/
def exp2Fix (x : Int) : Val :=
  let n := x / (2 ^ 256 : Nat)
  .rat false (exp2Frac (x % (2 ^ 256 : Nat)).toNat) 1 (n - 256)

/-- Bounds for arguments beyond which no result changes. -/
def clampFix (x : Int) : Int := max (-(1000 * 2 ^ 256)) (min (1000 * 2 ^ 256) x)

/-- e^x for x in units of 2^-256. -/
def expFix (x : Int) : Val := exp2Fix (clampFix (clampFix x * log2eFix / (2 ^ 256 : Nat)))

/-- Fractional bits of log2 z for z in [1, 2), in units of 2^-256. -/
def log2Bits : Nat → Nat → Nat
  | 0, _ => 0
  | n + 1, z =>
    let w := (z * z) >>> 256
    if 2 ^ 257 ≤ w then 2 ^ n + log2Bits n (w / 2) else log2Bits n w

/-- log2 of a positive finite value: exact at powers of two, else to 120 fractional bits. -/
def log2Val (v : Val) : Val :=
  match v with
  | .rat _ n d e =>
    let l := floorLog2 n d e
    let k := e - l + 256
    let z := if 0 ≤ k then n <<< k.toNat / d else n / (d <<< (-k).toNat)
    let x : Int := l * (2 ^ 120 : Nat) + log2Bits 120 z
    .rat (decide (x < 0)) x.natAbs 1 (-120)
  | v => v

/-- Integer square root, from bit i down. -/
def isqrtFrom (n : Nat) : Nat → Nat → Nat
  | 0, r => r
  | i + 1, r => if (r + 2 ^ i) * (r + 2 ^ i) ≤ n then isqrtFrom n i (r + 2 ^ i) else isqrtFrom n i r

/-- 1 / √v for a positive finite value. -/
def rsqrtVal (v : Val) : Val :=
  match v with
  | .rat _ n d e =>
    let f := e % 2
    let m := n <<< f.toNat
    .rat false (isqrtFrom (d <<< 512 / m) 300 0) 1 (-256 - (e - f) / 2)
  | v => v

/-- Quotient of two finite values, the second not zero. -/
def vQuot (a b : Val) : Val :=
  match a, b with
  | .rat s n d e, .rat t m c f => .rat (s != t) (n * c) (d * m) (e - f)
  | _, _ => .nan

/-- 1 / (1 + e^(−x)). -/
def sigmoidVal (x : Int) : Val := vQuot (vInt 1) (vAdd (vInt 1) (expFix (-x)))

/-- tanh of a finite non-zero value: by its series below 2^-20, else by exponentials. -/
def tanhVal (v : Val) : Val :=
  if vLog2 v < -20 then
    let c := vMul v (vMul v v)
    vAdd (vSub v (vDiv c 3)) (vDiv (vMul (vInt 2) (vMul c (vMul v v))) 15)
  else
    let e := expFix (clampFix (toFix (vScale 1 v)))
    vQuot (vSub e (vInt 1)) (vAdd e (vInt 1))

/-! ### Permitted results -/

/-- FP32 magnitudes within k ulp of a positive exact magnitude, strictly within for k = 1; the largest finite value is
the upper end. -/
def nearMags (k : Nat) (y : Val) : List Nat :=
  match y with
  | .rat _ n d e =>
    let lo := castFp 0 .rtz false (.rat false n d e)
    let u : Val := .rat false 1 1 (max (floorLog2 n d e) (-126) - 23)
    let lim := vMul (vInt k) u
    ((List.range (2 * k + 2)).map (fun i => lo + i - k)).eraseDups.filter (fun r =>
      let dist := vAbs (vSub (decodeElem 0 r) (.rat false n d e))
      decide (r < 0x7F800000) && (vLt dist lim || (decide (1 < k) && vEq dist lim)))
  | _ => []

/-- The result for a finite exact value: zero and overflow as a cast gives them, else one of the permitted values. -/
def sfuPick (fn : Nat) (x : W32) (k : Nat) (y : Val) : W32 :=
  let rne := castFp 0 .rne false y
  if y.isZero ∨ rne % 2 ^ 31 = 0x7F800000 then BitVec.ofNat 32 rne
  else
    let c := nearMags k y
    BitVec.ofNat 32 (fpSign (fpShape 0) y.sign + c.getD (Config.sfuChoice fn x % c.length) (rne % 2 ^ 31))

/-- The reciprocal: the lower neighbour, or the upper from a threshold on, so that it is monotonic. -/
def rcpPick (x : W32) : W32 :=
  let y := vQuot (vInt 1) (f32 x)
  let rne := castFp 0 .rne false y
  if rne % 2 ^ 31 = 0x7F800000 then BitVec.ofNat 32 rne
  else
    let lo := castFp 0 .rtz false (vAbs y)
    let a := decodeElem 0 lo
    let w := vSub (decodeElem 0 (lo + 1)) a
    let part := vSub (vAbs y) a
    let up := !part.isZero && decide (lo + 1 < 0x7F800000) &&
      !vLt (vScale 64 (vQuot part w)) (vInt (Config.rcpThreshold y.sign lo))
    BitVec.ofNat 32 (fpSign (fpShape 0) y.sign + if up then lo + 1 else lo)

/-- 2^x under an accuracy of k ulp; exact at integers (R157). -/
def exp2Pick (fn k : Nat) (x : W32) : W32 :=
  match f32 x with
  | .nan => f32Nan
  | .inf neg => if neg then 0 else f32PosInf
  | v =>
    if !vLt v (vInt 128) then f32PosInf
    else
      let t := clampFix (toFix v)
      let y := exp2Fix t
      if t % (2 ^ 256 : Nat) = 0 then rn32 y else sfuPick fn x k y

/-- 2^x for −126 ≤ x within 4 ulp and monotonic (Table 06-7): exact at an integer, and between two integers the greatest of the
permitted values of that binade whose threshold the argument has reached, or the least of them. -/
def fastExp2 (x : W32) : W32 :=
  let v := f32 x
  if !vLt v (vInt 128) then f32PosInf
  else
    let t := toFix v
    let n := t / (2 ^ 256 : Nat)
    let lo := castFp 0 .rtz false (.rat false 1 1 n)
    if t % (2 ^ 256 : Nat) = 0 then BitVec.ofNat 32 lo
    else
      let c := (nearMags 4 (exp2Fix t)).filter (fun m => decide (lo ≤ m) && decide (m ≤ lo + 2 ^ 23))
      BitVec.ofNat 32 ((c.filter (fun m => decide (m = c.headD lo) || decide (Config.fastThreshold m ≤ t))).getLastD lo)

/-- The softmax exponents: 2^x from −126 up, +0 below (R158). -/
def smexp (fast : Bool) (x : W32) : W32 :=
  let v := f32 x
  if v.isNan then f32Nan
  else if vLt v (vInt (-126)) then 0
  else if fast then fastExp2 x else exp2Pick 7 1 x

/-- exp2 and the softmax exponent in AX4 numerics mode (R141). -/
def ax4Exp2 (x : W32) : W32 :=
  let v := f32 x
  if v.isNan then f32Nan
  else if !vLt v (vInt 128) then f32PosInf
  else if vLt v (vInt (-126)) then 0
  else
    let t := toFix v
    let n := t / (2 ^ 256 : Nat)
    let f := t % (2 ^ 256 : Nat)
    let i := f / (2 ^ 248 : Nat)
    let r := vSub v (vAdd (vInt n) (.rat false i.toNat 1 (-8)))
    let tab := rn32 (exp2Fix (i * (2 ^ 248 : Nat)))
    let h := fAdd f32One (rn32 (vMul r (f32 0x3F317218)))
    let y := vScale n (f32 (fMul tab h))
    if vLt y (.rat false 1 1 (-126)) then 0 else rn32 y

/-- The exponent of the softmax: AX4 mode, the fast exponent, or SMEXP. -/
def expf (ax4 fast : Bool) (x : W32) : W32 := if ax4 then ax4Exp2 x else smexp fast x

/-- RCP of an FP32 word. -/
def rcp (x : W32) : W32 :=
  match f32 x with
  | .nan => f32Nan
  | .inf neg => if neg then 0x80000000 else 0
  | .rat neg n _ _ => if n = 0 then (if neg then f32NegInf else f32PosInf) else rcpPick x

/-- RSQRT of an FP32 word; exact at powers of four (R157). -/
def rsqrt (x : W32) : W32 :=
  match f32 x with
  | .nan => f32Nan
  | .inf neg => if neg then f32Nan else 0
  | .rat neg n d e =>
    if n = 0 then (if neg then f32NegInf else f32PosInf)
    else if neg then f32Nan
    else
      let l := floorLog2 n d e
      if l % 2 = 0 ∧ vEq (.rat false n d e) (.rat false 1 1 l) then rn32 (.rat false 1 1 (-(l / 2)))
      else sfuPick 3 x 1 (rsqrtVal (.rat false n d e))

/-- LOG2 of an FP32 word; exact at powers of two (R157). -/
def log2f (x : W32) : W32 :=
  match f32 x with
  | .nan => f32Nan
  | .inf neg => if neg then f32Nan else f32PosInf
  | .rat neg n d e =>
    if n = 0 then f32NegInf
    else if neg then f32Nan
    else
      let l := floorLog2 n d e
      if vEq (.rat false n d e) (.rat false 1 1 l) then rn32 (vInt l)
      else sfuPick 1 x 1 (log2Val (.rat false n d e))

/-- SIGMOID of an FP32 word. -/
def sigmoidf (x : W32) : W32 :=
  match f32 x with
  | .nan => f32Nan
  | .inf neg => if neg then 0 else f32One
  | v => sfuPick 4 x 1 (sigmoidVal (clampFix (toFix v)))

/-- TANH of an FP32 word. -/
def tanhf (x : W32) : W32 :=
  match f32 x with
  | .nan => f32Nan
  | .inf neg => if neg then 0xBF800000 else f32One
  | v => if v.isZero then x else sfuPick 5 x 1 (tanhVal v)

/-- SILU of an FP32 word. -/
def siluf (x : W32) : W32 :=
  match f32 x with
  | .nan => f32Nan
  | .inf neg => if neg then 0x80000000 else f32PosInf
  | v => if v.isZero then x else sfuPick 6 x 1 (vMul v (sigmoidVal (clampFix (toFix v))))

/-- One function of Table 06-7; `ax4` selects R141 for EXP2 and SMEXP. -/
def sfuApply (ax4 : Bool) (fn : Nat) (x : W32) : W32 :=
  match fn with
  | 0 => if ax4 then ax4Exp2 x else exp2Pick 0 1 x
  | 1 => log2f x
  | 2 => rcp x
  | 3 => rsqrt x
  | 4 => sigmoidf x
  | 5 => tanhf x
  | 6 => siluf x
  | 7 => if ax4 then ax4Exp2 x else smexp false x
  | _ => smexp true x

end Sys2Proof.Machine
end

