-- ==== Sys2Proof/Machine/Cache.lean ====
section
/-!
DEFINITION. The paged cache's structures (08): page geometry, the buddy allocators, frames and references, directories,
page heads, staged groups, flushes and drops.
-/

namespace Sys2Proof.Machine

open Sys2Proof

/-- Change cache control's state. -/
def updCache (f : CacheSt → CacheSt) (d : Dev) : Dev := { d with cache := f d.cache }

/-! ### Geometry (R201, R203, R204, Table 08-5) -/

/-- KV_FMT of a tenant. -/
def kvFmt (d : Dev) (t : Nat) : Nat := regFld d (R.TCX_PAGE t) 11 8

/-- KVH: KV heads of a layer that the die holds. -/
def kvHeads (d : Dev) (t : Nat) : Nat := (headCells d t).length * headsPerCell d t

/-- R201: index of the page that holds a local position, given the length of the prefix region. -/
def pageIdx (d : Dev) (t prefixLen q : Nat) : Nat :=
  if q < prefixLen then q / prefixTokens d t
  else prefixLen / prefixTokens d t + (q - prefixLen) / tailTokens d t

/-- Positions of a page. -/
def pageTokens (d : Dev) (t prefixLen i : Nat) : Nat :=
  if i < prefixLen / prefixTokens d t then prefixTokens d t else tailTokens d t

/-- First local position of a page. -/
def pageStart (d : Dev) (t prefixLen i : Nat) : Nat :=
  let n := prefixLen / prefixTokens d t
  if i < n then i * prefixTokens d t else prefixLen + (i - n) * tailTokens d t

/-- S: bytes of one scale area. -/
def scaleArea (fmt p dd : Nat) : Nat := if fmtIsMx fmt then p * dd / 32 else 0

/-- H′ of a page. -/
def headBytes (fmt p dd : Nat) : Nat := 2 ^ clog2 (128 + 2 * scaleArea fmt p dd + 2 * dd)

/-- H′_L of a tenant. -/
def leafStride (d : Dev) (t : Nat) : Nat :=
  max (headBytes (kvFmt d t) (prefixTokens d t) (headDim d t)) (headBytes (kvFmt d t) (tailTokens d t) (headDim d t))

/-- Order of the smallest frame that holds a number of bytes. -/
def frameOrder (bytes : Nat) : Nat := clog2 (ceilDiv bytes 2048)

/-- Orders of a leaf, a layer directory, a body and a staging frame. -/
def leafOrder (d : Dev) (t : Nat) : Nat := frameOrder (16 * leafStride d t)
def dirOrder (d : Dev) (t : Nat) : Nat := frameOrder (kvHeads d t * 64)
def bodyOrder (fmt p dd : Nat) : Nat := frameOrder (2 * p * dd * fmtBits fmt / 8)
def spillOrder (p dd : Nat) : Nat := frameOrder (4 * p * dd)

/-- log2 of the slots of a group. -/
def groupOrder (p dd : Nat) : Nat := clog2 (p * dd / 1024)

/-- HBM address of a 2 KiB unit of the cache region. -/
def unitAddr (d : Dev) (u : Nat) : Nat := getReg64 d R.KVC_REGION_BASE_LO R.KVC_REGION_BASE_HI + 2048 * u

/-- Hive address of a brood slot (Table 10-6). -/
def slotHive (s : Nat) : Nat := 0x8000000 + 0x1000 * s

/-! ### Buddy allocation (R206) -/

/-- Lowest free block of an order. -/
def buddyFind (t : Tbl Nat) (k : Nat) : Option Nat := (t.find? (fun e => e.2 = k)).map (·.1)

/-- Give back the upper halves as a block is halved n times down to order k. -/
def buddySplit (t : Tbl Nat) (a k : Nat) : Nat → Tbl Nat
  | 0 => t
  | n + 1 => buddySplit (tblPut t (a + 2 ^ (k + n)) (k + n)) a k n

/-- Take a block: the lowest of its order, else the lower part of the lowest block of the next order that has one. -/
def buddyAlloc (top : Nat) (t : Tbl Nat) (k : Nat) : Option (Nat × Tbl Nat) :=
  match (List.range (top + 1 - k)).findSome? (fun i => (buddyFind t (k + i)).map (fun a => (a, i))) with
  | none => none
  | some (a, i) => some (a, buddySplit (tblErase t a) a k i)

/-- Free a block, merging it with its buddy while that is free. -/
def buddyFree (top : Nat) (t : Tbl Nat) (a k : Nat) : Nat → Tbl Nat
  | 0 => tblPut t a k
  | n + 1 =>
    let b := a ^^^ 2 ^ k
    if k < top ∧ tblFind t b = some k then buddyFree top (tblErase t b) (min a b) (k + 1) n else tblPut t a k

/-! ### Frames (Table 08-3, Table 08-4, R207) -/

/-- Frame table entry of a unit. -/
def frameOf (d : Dev) (u : Nat) : Option FrameEnt := tblFind d.cache.frames u

/-- Where an allocation takes its frame: the FREE frames of a drain phase, or a cell's reserve. -/
inductive FrameSrc where
  | free
  | cell (c : CellId)
  deriving DecidableEq, Repr

/-- The frame of an order that an allocation takes. -/
def pickFrame (d : Dev) (src : FrameSrc) (k : Nat) : Option (Nat × Tbl Nat) :=
  match src with
  | .free => buddyAlloc 10 d.cache.freeFrames k
  | .cell c => (d.cache.frames.find? (fun e => e.2.st = .reserved c ∧ e.2.order = k)).map (fun e => (e.1, d.cache.freeFrames))

/-- Allocate a frame: USED with REFCNT 1. -/
def allocFrame (src : FrameSrc) (t k : Nat) (kind : FrameKind) (d : Dev) : Option (Nat × Dev) :=
  (pickFrame d src k).map (fun r => (r.1, updCache (fun c => { c with
    freeFrames := r.2
    frames := tblPut c.frames r.1 { refcnt := 1, tenant := t, order := k, st := .used, kind := kind } }) d))

/-- Increment a frame's REFCNT; 65,535 pins it. -/
def incRef (u : Nat) (d : Dev) : Dev :=
  match frameOf d u with
  | none => d
  | some e =>
    if e.st ≠ .used then d
    else if e.refcnt = 65534 then
      bump (updCache (fun c => { c with frames := tblPut c.frames u { e with refcnt := 65535, st := .pinned } }) d) R.KVC_PIN_CNT
    else updCache (fun c => { c with frames := tblPut c.frames u { e with refcnt := e.refcnt + 1 } }) d

/-- A frame becomes FREE. -/
def freeFrame (u k : Nat) (d : Dev) : Dev :=
  updCache (fun c => { c with frames := tblErase c.frames u, freeFrames := buddyFree 10 c.freeFrames u k 10 }) d

/-- Decrement a frame's REFCNT; at 0 it is FREE in a drain phase and FREEING in an execute or beacon phase. Answers
whether it reached 0. -/
def decRefRaw (u : Nat) (d : Dev) : Bool × Dev :=
  match frameOf d u with
  | none => (false, d)
  | some e =>
    if e.st ≠ .used then (false, d)
    else if 1 < e.refcnt then
      (false, updCache (fun c => { c with frames := tblPut c.frames u { e with refcnt := e.refcnt - 1 } }) d)
    else if inDrain d then (true, freeFrame u e.order d)
    else (true, updCache (fun c => { c with frames := tblPut c.frames u { e with refcnt := 0, st := .freeing } }) d)

/-- Decrement a frame that names no other frame. -/
def decRef (u : Nat) (d : Dev) : Dev := (decRefRaw u d).2

/-- A frame is shared: a change of what it holds needs a copy first (R211). -/
def frameShared (d : Dev) (u : Nat) : Bool :=
  match frameOf d u with
  | some e => decide (e.st = .pinned) || decide (1 < e.refcnt)
  | none => false

/-- KVC_FREE. -/
def freeUnits (d : Dev) : Nat := (d.cache.freeFrames.map (fun e => 2 ^ e.2)).sum

/-- Free brood slots. -/
def freeSlotCount (d : Dev) : Nat := (d.cache.freeSlots.map (fun e => 2 ^ e.2)).sum

/-! ### Sequences -/

/-- Descriptor of a sequence. -/
def seqDesc (d : Dev) (q : Nat) : SeqDesc := tblGet {} d.cache.seqs q

/-- Change a descriptor. -/
def updSeq (q : Nat) (f : SeqDesc → SeqDesc) (d : Dev) : Dev :=
  updCache (fun c => { c with seqs := tblSet {} c.seqs q (f (tblGet {} c.seqs q)) }) d

/-- The entrance's entry of a sequence, with the dropped range. -/
def seqEntry (d : Dev) (q : Nat) : SeqEntry := tblGet {} d.ent.seqTab q

/-- Change the entrance's entry of a sequence. -/
def updEntry (q : Nat) (f : SeqEntry → SeqEntry) (d : Dev) : Dev :=
  { d with ent := { d.ent with seqTab := tblSet {} d.ent.seqTab q (f (tblGet {} d.ent.seqTab q)) } }

/-! ### Directories (R210) -/

/-- Frame named by a directory pointer. -/
def ptrOf (d : Dev) (u e : Nat) : Option Nat := tblFind d.cache.ptrs (4096 * u + e)

/-- Set a directory pointer. -/
def setPtr (u e v : Nat) (d : Dev) : Dev := updCache (fun c => { c with ptrs := tblPut c.ptrs (4096 * u + e) v }) d

/-- Clear the V bit of a directory pointer. -/
def clearPtr (u e : Nat) (d : Dev) : Dev := updCache (fun c => { c with ptrs := tblErase c.ptrs (4096 * u + e) }) d

/-- Layer directory of a sequence. -/
def layerDir (d : Dev) (q l : Nat) : Option Nat := (seqDesc d q).root.bind (fun r => ptrOf d r l)

/-- Index block over a page of a sequence, layer and KV head. -/
def indexBlock (d : Dev) (q l h i : Nat) : Option Nat :=
  (layerDir d q l).bind (fun x => ptrOf d x (8 * h + i / 4096))

/-- Leaf over a page. -/
def leafOf (d : Dev) (q l h i : Nat) : Option Nat := (indexBlock d q l h i).bind (fun x => ptrOf d x (i / 16 % 256))

/-- Page head by its key: 16 times the unit of its leaf, plus the index. -/
def headAt (d : Dev) (key : Nat) : PageHead := tblGet {} d.cache.heads key

/-- Set a page head. -/
def setHead (key : Nat) (x : PageHead) (d : Dev) : Dev :=
  updCache (fun c => { c with heads := tblSet {} c.heads key x }) d

/-- Page head of a page: ABSENT where no leaf is over it. -/
def pageHead (d : Dev) (q l h i : Nat) : PageHead :=
  match leafOf d q l h i with
  | some u => headAt d (16 * u + i % 16)
  | none => {}

/-- Index blocks of a layer and KV head. -/
def indexBlocks (d : Dev) (q l h : Nat) : List Nat :=
  match layerDir d q l with
  | some x => (List.range 8).filterMap (fun j => ptrOf d x (8 * h + j))
  | none => []

/-- Leaves of an index block: entry and unit. -/
def blockLeaves (d : Dev) (x : Nat) : List (Nat × Nat) :=
  (List.range 256).filterMap (fun j => (ptrOf d x j).map (fun u => (j, u)))

/-- Leaves of a layer and KV head: index of the first page, and unit. -/
def headLeaves (d : Dev) (q l h : Nat) : List (Nat × Nat) :=
  match layerDir d q l with
  | some x => (List.range 8).flatMap (fun j =>
      match ptrOf d x (8 * h + j) with
      | some b => (blockLeaves d b).map (fun e => (4096 * j + 16 * e.1, e.2))
      | none => [])
  | none => []

/-- Every layer and KV head of a tenant, ascending. -/
def layerHeads (d : Dev) (t : Nat) : List (Nat × Nat) :=
  (List.range (layersOf d t)).flatMap (fun l => (List.range (kvHeads d t)).map (fun h => (l, h)))

/-- Leaves of a sequence: layer, head, first page and unit. -/
def seqLeaves (d : Dev) (q : Nat) : List (Nat × Nat × Nat × Nat) :=
  (layerHeads d (seqDesc d q).tenant).flatMap (fun x =>
    (headLeaves d q x.1 x.2).map (fun e => (x.1, x.2, e.1, e.2)))

/-- The sequence that holds a leaf privately. -/
def leafOwner (d : Dev) (u : Nat) : Option (Nat × Nat × Nat × Nat) :=
  d.cache.seqs.findSome? (fun e =>
    ((seqLeaves d e.1).find? (fun x => x.2.2.2 = u)).map (fun x => (e.1, x.1, x.2.1, x.2.2.1)))

/-- HELD: frames that the directory names, in 2 KiB units, shared frames counted in full (Table 08-10). -/
def heldUnits (d : Dev) (q : Nat) : Nat :=
  let unit (u : Nat) : Nat := match frameOf d u with | some e => 2 ^ e.order | none => 0
  let t := (seqDesc d q).tenant
  let dirs := (List.range (layersOf d t)).filterMap (layerDir d q)
  let blocks := (layerHeads d t).flatMap (fun x => indexBlocks d q x.1 x.2)
  let leaves := (seqLeaves d q).map (fun x => x.2.2.2)
  let bodies := leaves.flatMap (fun u => (List.range 16).filterMap (fun j =>
    let p := headAt d (16 * u + j)
    if p.st = .flushed ∨ (p.st = .staged ∧ p.spill = true) then some p.loc else none))
  (((seqDesc d q).root.toList ++ dirs ++ blocks ++ leaves ++ bodies).map unit).sum

/-! ### Staged groups -/

/-- A staged group or staging frame is freed. -/
def freeGroup (x : PageHead) (dd : Nat) (d : Dev) : Dev :=
  if x.spill then decRef x.loc d
  else
    let k := groupOrder (2 ^ x.pshift) dd
    updCache (fun c => { c with freeSlots := buddyFree 15 c.freeSlots x.loc k 15 }) d

/-- A group for a page: slots, else a staging frame (R212). Answers SPILL, the location and the state. -/
def takeGroup (src : FrameSrc) (t p dd : Nat) (d : Dev) : Option (Bool × Nat × Dev) :=
  match buddyAlloc 15 d.cache.freeSlots (groupOrder p dd) with
  | some (s, rest) => some (false, s, updCache (fun c => { c with freeSlots := rest }) d)
  | none => (allocFrame src t (spillOrder p dd) .staging d).map (fun r => (true, r.1, r.2))

/-- The key of a tenant's HBM data (R232). -/
def tenantKey (d : Dev) (t : Nat) : HbmKey :=
  .tenant ((tblGet {} d.wgt.keys (regFld d (R.TCX_KEYS t) 11 0)).bytes.take 64)

/-- Bytes of a staged group from an offset. -/
def groupRead (x : PageHead) (off n : Nat) (d : Dev) : List Byte :=
  if x.spill then hbmRead d (tenantKey d x.tenant) (unitAddr d x.loc + off) n
  else hiveRead d (slotHive x.loc + off) n

/-- Write bytes of a staged group. -/
def groupWrite (x : PageHead) (off : Nat) (bs : List Byte) (d : Dev) : Dev :=
  if x.spill then hbmWrite d (tenantKey d x.tenant) (unitAddr d x.loc + off) bs
  else hiveWrite d (slotHive x.loc + off) bs

/-- BF16 elements of row r of the K area (v false) or V area of a staged group. -/
def groupRow (x : PageHead) (dd : Nat) (v : Bool) (r : Nat) (d : Dev) : List Nat :=
  let base := (if v then 2 ^ x.pshift * dd * 2 else 0) + r * dd * 2
  let bs := groupRead x base (2 * dd) d
  (List.range dd).map (elemAt 16 bs)

/-- Write row r of a staged group: its K and V elements. -/
def groupPut (x : PageHead) (dd r : Nat) (k v : List Nat) (d : Dev) : Dev :=
  let d := groupWrite x (r * dd * 2) (packElems 16 k) d
  groupWrite x (2 ^ x.pshift * dd * 2 + r * dd * 2) (packElems 16 v) d

/-! ### References of leaves -/

/-- What a leaf names is given up, its last reference having gone: bodies are decremented, groups freed. -/
def emptyLeaf (u : Nat) (d : Dev) : Dev :=
  let heads := (List.range 16).map (fun j => headAt d (16 * u + j))
  let d := heads.foldl (fun d x =>
    match x.st with
    | .flushed => decRef x.loc d
    | .staged => freeGroup x (headDim d x.tenant) d
    | _ => d) d
  updCache (fun c => { c with heads := tblClear c.heads (16 * u) 16 }) d

/-- Decrement a leaf; the last reference gives up what it names (R207). -/
def decLeaf (u : Nat) (d : Dev) : Dev :=
  match frameOf d u with
  | some e =>
    if e.st = .used ∧ e.refcnt ≤ 1 then decRef u (emptyLeaf u d) else decRef u d
  | none => d

/-- Copy a leaf into a new frame: its heads, with one more reference to every body named (R211). -/
def copyLeaf (src : FrameSrc) (t u : Nat) (d : Dev) : Option (Nat × Dev) :=
  (allocFrame src t (leafOrder d t) .leaf d).map (fun r =>
    (r.1, (List.range 16).foldl (fun d j =>
      let x := headAt d (16 * u + j)
      let d := setHead (16 * r.1 + j) x d
      if x.st = .flushed then incRef x.loc d else d) r.2))

/-- The leaf over a page, private to the sequence and allocated where absent (R211, R213). -/
def privateLeaf (src : FrameSrc) (q l h i : Nat) (d : Dev) : Option (Nat × Dev) :=
  let t := (seqDesc d q).tenant
  match layerDir d q l with
  | none => none
  | some dir =>
    let blk : Option (Nat × Dev) := match ptrOf d dir (8 * h + i / 4096) with
      | some b => some (b, d)
      | none => (allocFrame src t 0 .index d).map (fun r => (r.1, setPtr dir (8 * h + i / 4096) r.1 r.2))
    match blk with
    | none => none
    | some (b, d) =>
      let e := i / 16 % 256
      match ptrOf d b e with
      | none => (allocFrame src t (leafOrder d t) .leaf d).map (fun r => (r.1, setPtr b e r.1 r.2))
      | some u =>
        if frameShared d u then
          (copyLeaf src t u d).map (fun r => (r.1, bump (decRef u (setPtr b e r.1 r.2)) R.KVC_COW_CNT))
        else some (u, d)

/-! ### Flush (R217) -/

/-- σ of an integer page: the largest magnitude over Q; 1.0 for zeros; NaN where an element is not finite. -/
def areaSigma (fmt : Nat) (xs : List Val) : W32 :=
  if xs.any (fun x => !x.isFinite) then f32Nan
  else
    let a := xs.foldl (fun m x => if vLt m (vAbs x) then vAbs x else m) (vZero false)
    if a.isZero then f32One else rn32 (vQuot a (vInt (if fmt = 7 then 127 else 7)))

/-- Cut a list into runs of n. -/
def runsOf {α : Type} (n : Nat) : Nat → List α → List (List α)
  | 0, _ => []
  | k + 1, xs => if xs.isEmpty then [] else xs.take n :: runsOf n k (xs.drop n)

/-- Quantise the K or V area of a page: elements, scale bytes and σ. -/
def quantArea (fmt : Nat) (xs : List Val) : List Nat × List Byte × W32 :=
  if fmtIsMx fmt then
    let bs := (runsOf 32 xs.length xs).map (quantBlock fmt (fun _ => .rne))
    (bs.flatMap (·.2), bs.map (·.1), 0)
  else if fmtIsInt fmt then
    let s := areaSigma fmt xs
    let el (x : Val) : Nat :=
      if s = f32Nan then 0 else (BitVec.ofInt (fmtBits fmt) (castInt (fmtBits fmt) .rne (vQuot x (f32 s))).1).toNat
    (xs.map el, [], s)
  else (xs.map (castFp fmt .rne false), [], 0)

/-- The mean key: per dimension, the exact sum of the keys over P, rounded once to BF16. -/
def meanKey (p dd : Nat) (ks : List (List Nat)) : List Nat :=
  (List.range dd).map (fun j =>
    castFp 1 .rne false (vDiv (ks.foldl (fun s r => vAdd s (decodeElem 1 (r.getD j 0)))
      (vZero (ks.all (fun r => (decodeElem 1 (r.getD j 0)).sign)))) p))

/-- Body bytes and head of a page of P rows of BF16 keys and values, for a body frame. -/
def flushPage (x : PageHead) (fmt dd unit : Nat) (ks vs : List (List Nat)) : List Byte × PageHead :=
  let kq := quantArea fmt (ks.flatten.map (decodeElem 1))
  let vq := quantArea fmt (vs.flatten.map (decodeElem 1))
  let p := 2 ^ x.pshift
  (packElems (fmtBits fmt) (kq.1 ++ vq.1),
    { x with st := .flushed, spill := false, fmt := fmt, sumValid := true, loc := unit, valid := p, fillTick := 0,
             kSigma := kq.2.2, vSigma := vq.2.2, kScales := kq.2.1, vScales := vq.2.1,
             summary := meanKey p dd ks })

/-- Rows of a page's K or V area as BF16 elements. -/
def groupRows (x : PageHead) (dd : Nat) (v : Bool) (d : Dev) : List (List Nat) :=
  (List.range (2 ^ x.pshift)).map (fun r => groupRow x dd v r d)

/-- A row of a flushed body widened to BF16, with the page's scales applied (R213, step 2). -/
def widenRow (x : PageHead) (dd : Nat) (v : Bool) (r : Nat) (d : Dev) : List Nat :=
  let w := fmtBits x.fmt
  let row := if v then 2 ^ x.pshift + r else r
  let bs := hbmRead d (tenantKey d x.tenant) (unitAddr d x.loc + row * dd * w / 8) (dd * w / 8)
  let scales := if v then x.vScales else x.kScales
  let sigma := if v then x.vSigma else x.kSigma
  (List.range dd).map (fun j =>
    let e := decodeElem x.fmt (elemAt w bs j)
    let e := if fmtIsMx x.fmt then scaled e (scales.getD (r * (dd / 32) + j / 32) 0)
      else if fmtIsInt x.fmt then vMul e (f32 sigma) else e
    castFp 1 .rne false e)

/-- A FULL page: STAGED with every position valid. -/
def pageFull (x : PageHead) : Bool := decide (x.st = .staged) && decide (x.valid = 2 ^ x.pshift)

/-- FULL pages in the order of R219: FILL_TICK, slotted before spilled, location; answers their head keys. -/
def fullPages (d : Dev) : List Nat :=
  let rank (x : PageHead) : Nat := (x.fillTick * 2 + (if x.spill then 1 else 0)) * 2 ^ 32 + x.loc
  ((d.cache.heads.filter (fun e => pageFull e.2)).mergeSort (fun a b => rank a.2 ≤ rank b.2)).map (·.1)

/-! ### Drops (08, Drops and recompute) -/

/-- Page indices that meet the local positions [a, b). -/
def pagesIn (d : Dev) (t prefixLen a b : Nat) : List Nat :=
  if a < b then
    let i := pageIdx d t prefixLen a
    (List.range (pageIdx d t prefixLen (b - 1) + 1 - i)).map (· + i)
  else []

/-- A head as its page is dropped. -/
def droppedHead (x : PageHead) : PageHead :=
  { x with st := .dropped, spill := false, loc := 0, fillTick := 0, sumValid := false, prov := [] }

/-- Drop one page of a layer and head: its head becomes DROPPED, its body is decremented, its group freed. A shared leaf
is copied first from the FREE frames in a drain phase; where none is free, or outside a drain phase, the head write
waits (R229). -/
def dropPage (q l h i : Nat) (d : Dev) : Dev :=
  let x := pageHead d q l h i
  if x.st = .absent ∨ x.st = .dropped then d
  else
    let wait (d : Dev) : Dev := updCache (fun c =>
      if (q, l, h, i) ∈ c.waiting then c else { c with waiting := c.waiting ++ [(q, l, h, i)] }) d
    match leafOf d q l h i with
    | none => d
    | some u =>
      if frameShared d u && !inDrain d then wait d
      else
        match privateLeaf .free q l h i d with
        | none => wait d
        | some (u', d) =>
          let d := setHead (16 * u' + i % 16) (droppedHead x) d
          let d := updCache (fun c => { c with waiting := c.waiting.filter (fun w => w ≠ (q, l, h, i)) }) d
          match x.st with
          | .flushed => decRef x.loc d
          | .staged => freeGroup x (headDim d x.tenant) d
          | _ => d

/-- PREFIX_LEN under which the pages of a sequence are mapped now: POS + ROWS of a PREFIX from its first APPEND until it
completes (R242). -/
def livePrefix (d : Dev) (q : Nat) : Nat :=
  match d.ent.reqs.find? (fun r => decide (dOp r.desc = opPREFIX) && decide (dSeq r.desc = q) && r.appendChecked &&
      !r.checkFailed && !r.recordWritten) with
  | some r => dPos r.desc + dRows r.desc
  | none => (seqDesc d q).prefixLen

/-- Drop the absolute positions [a, b) of a sequence: clipped, widened to whole pages, joined to the range in the
entrance's table, and every page that meets the range dropped. `ref` is the guard record of the error (R221). -/
def dropRange (q a b : Nat) (ref : Option W32) (d : Dev) : Dev :=
  let x := seqDesc d q
  let t := x.tenant
  let pl := livePrefix d q
  let a := max a x.posLo - x.posLo
  let b := min b (x.posLo + x.length) - x.posLo
  if b ≤ a then d
  else
    let a := pageStart d t pl (pageIdx d t pl a)
    let j := pageIdx d t pl (b - 1)
    let b := min (pageStart d t pl j + pageTokens d t pl j) x.length
    let e := seqEntry d q
    let none' := decide (e.dropLo = 0 ∧ e.dropHi = 0)
    let lo := if none' then x.posLo + a else min e.dropLo (x.posLo + a)
    let hi := if none' then x.posLo + b else max e.dropHi (x.posLo + b)
    let d := updEntry q (fun e => { e with dropLo := lo, dropHi := hi }) d
    let d := match ref with
      | some r => updCache (fun c => { c with
          notes := c.notes ++ [{ seq := q, lo := x.posLo + a, hi := x.posLo + b, ref := r, uid := d.ent.nextUid }] }) d
      | none => d
    let pages := pagesIn d t pl (lo - x.posLo) (hi - x.posLo)
    (layerHeads d t).foldl (fun d lh => pages.foldl (fun d i => dropPage q lh.1 lh.2 i d) d) d

/-- The page meets the sequence's dropped range, wholly or in part (R220). -/
def inDropped (d : Dev) (q prefixLen i : Nat) : Bool :=
  let x := seqDesc d q
  let e := seqEntry d q
  let a := x.posLo + pageStart d x.tenant prefixLen i
  rangesMeet a (a + pageTokens d x.tenant prefixLen i) e.dropLo e.dropHi

/-- State of a page as a cell reads it (R220). -/
def pageState (d : Dev) (q prefixLen l h i : Nat) : PgState :=
  if inDropped d q prefixLen i then .dropped else (pageHead d q l h i).st

/-- Lowest STAGED page index of a sequence, over every layer and head. -/
def lowestStaged (d : Dev) (q : Nat) : Option Nat :=
  ((seqLeaves d q).flatMap (fun x => (List.range 16).filterMap (fun j =>
    if (headAt d (16 * x.2.2.2 + j)).st = .staged then some (x.2.2.1 + j) else none))).min?

/-! ### Errors in the cache (R224, R225) -/

/-- What lies at an HBM address of the cache region, as a sequence names it. -/
inductive CacheSpot where
  | page (l h i : Nat)
  | leaf (l h i block entry unit : Nat)
  | index (l h j dir entry unit : Nat)
  | directory
  deriving DecidableEq, Repr

/-- The first unit of the frame that holds an address. -/
def frameAtAddr (d : Dev) (a : Nat) : Option Nat :=
  let base := unitAddr d 0
  if a < base then none
  else
    let u := (a - base) / 2048
    (d.cache.frames.find? (fun e => decide (e.1 ≤ u) && decide (u < e.1 + 2 ^ e.2.order))).map (·.1)

/-- Directory entries of a sequence: layer, head, first-level index, directory unit, entry, index block. -/
def seqBlocks (d : Dev) (q : Nat) : List (Nat × Nat × Nat × Nat × Nat × Nat) :=
  (layerHeads d (seqDesc d q).tenant).flatMap (fun x =>
    match layerDir d q x.1 with
    | some dir => (List.range 8).filterMap (fun j =>
        (ptrOf d dir (8 * x.2 + j)).map (fun b => (x.1, x.2, j, dir, 8 * x.2 + j, b)))
    | none => [])

/-- The structure of a sequence that a frame holds, or that a brood slot holds. -/
def cacheSpot (d : Dev) (q : Nat) (isSlot : Bool) (u : Nat) : Option CacheSpot :=
  let x := seqDesc d q
  let hit (p : PageHead) : Bool :=
    if isSlot then decide (p.st = .staged) && !p.spill && decide (p.loc ≤ u) &&
      decide (u < p.loc + 2 ^ groupOrder (2 ^ p.pshift) (headDim d p.tenant))
    else (decide (p.st = .flushed) || (decide (p.st = .staged) && p.spill)) && decide (p.loc = u)
  if !isSlot ∧ (x.root = some u ∨ (List.range (layersOf d x.tenant)).any (fun l => decide (layerDir d q l = some u))) then
    some .directory
  else
    let blk := (seqBlocks d q).find? (fun e => decide (e.2.2.2.2.2 = u))
    match (if isSlot then none else blk) with
    | some (l, h, j, dir, e, b) => some (.index l h j dir e b)
    | none =>
      match (if isSlot then none else (seqLeaves d q).find? (fun e => decide (e.2.2.2 = u))) with
      | some (l, h, i, u) =>
        (indexBlock d q l h i).map (fun b => .leaf l h i b (i / 16 % 256) u)
      | none =>
        (seqLeaves d q).findSome? (fun e => (List.range 16).findSome? (fun j =>
          if hit (headAt d (16 * e.2.2.2 + j)) then some (.page e.1 e.2.1 (e.2.2.1 + j)) else none))

/-- R224: the drop for an uncorrectable error in a structure of the cache, for the sequence whose request met it. -/
def cacheError (q : Nat) (spot : CacheSpot) (ref : W32) (d : Dev) : Dev :=
  let x := seqDesc d q
  let t := x.tenant
  let pl := livePrefix d q
  let first (i : Nat) : Nat := x.posLo + pageStart d t pl i
  let past (i : Nat) : Nat := first i + pageTokens d t pl i
  let d := bump d R.KVC_ECC_DROP_CNT
  match spot with
  | .page _ _ i => dropRange q (first i) (past i) (some ref) d
  | .leaf _ _ i b e u => dropRange q (first i) (past (i + 15)) (some ref) (decLeaf u (clearPtr b e d))
  | .index _ _ j dir e b =>
    let d := (blockLeaves d b).foldl (fun d x => decLeaf x.2 d) (clearPtr dir e d)
    let d := decRef b (updCache (fun c => { c with ptrs := tblClear c.ptrs (4096 * b) 4096 }) d)
    dropRange q (first (4096 * j)) (past (4096 * j + 4095)) (some ref) d
  | .directory => dropRange q x.posLo (x.posLo + x.length) (some ref) d

/-- R225: an uncorrectable error in a sequence descriptor. -/
def descError (q : Nat) (d : Dev) : Dev :=
  updSeq q (fun x => { x with damaged := true })
    (updEntry q (fun e => { e with dropLo := 0, dropHi := 0xFFFFFFFF }) d)

end Sys2Proof.Machine
end

