-- ==== Sys2Proof/Machine/Drain.lean ====
section
/-!
DEFINITION. Cache control's drain work (08, R229): freed frames, flushes, releases and forks, waiting head writes, eviction
and top-up, one operation at a time in the order of the rule; opening, forking and releasing sequences; and what the
drain start begins (R84).
-/

namespace Sys2Proof.Machine

open Sys2Proof

/-! ### Opening a sequence (R209) -/

/-- Allocate the root and one layer directory per layer from the FREE frames, or none of them. -/
def openDirs (t : Nat) (d : Dev) : Option (Nat × Dev) :=
  match allocFrame .free t 0 .root d with
  | none => none
  | some (root, d) =>
    ((List.range (layersOf d t)).foldl (fun (o : Option Dev) l => o.bind (fun d =>
      (allocFrame .free t (dirOrder d t) .dir d).map (fun r => setPtr root l r.1 r.2))) (some d)).map (fun d => (root, d))

/-! ### Release (R228) -/

/-- Give up every leaf and index block of one layer and KV head. -/
def releaseHead (q l h : Nat) (d : Dev) : Dev :=
  (indexBlocks d q l h).foldl (fun d b =>
    let d := (blockLeaves d b).foldl (fun d e => decLeaf e.2 d) d
    decRef b (updCache (fun c => { c with ptrs := tblClear c.ptrs (4096 * b) 4096 }) d)) d

/-- Free the layer directories and the root. -/
def releaseRoot (q : Nat) (d : Dev) : Dev :=
  match (seqDesc d q).root with
  | none => d
  | some r =>
    let d := (List.range 256).foldl (fun d l =>
      match ptrOf d r l with
      | some x => decRef x (updCache (fun c => { c with ptrs := tblClear c.ptrs (4096 * x) 4096 }) d)
      | none => d) d
    decRef r (updCache (fun c => { c with ptrs := tblClear c.ptrs (4096 * r) 4096 }) d)

/-- Number of (layer, head) steps of a tenant. -/
def cursorEnd (d : Dev) (t : Nat) : Nat := layersOf d t * kvHeads d t

/-- One step of release work: the next layer and head, and after the last the directories. -/
def releaseStep (q : Nat) (d : Dev) : Dev :=
  let x := seqDesc d q
  let k := kvHeads d x.tenant
  if x.cursor < cursorEnd d x.tenant then
    updSeq q (fun x => { x with cursor := x.cursor + 1 }) (releaseHead q (x.cursor / k) (x.cursor % k) d)
  else updSeq q (fun x => { x with root := none, workDone := true }) (releaseRoot q d)

/-- The sequence is RELEASING: OPEN is cleared, the speculative record and its waiting head writes go (R228, R250). A
damaged descriptor is not walked: its frames are lost (R225). -/
def startRelease (q : Nat) (cmd : Option CmdRef) (d : Dev) : Dev :=
  let d := updEntry q (fun e => { e with isOpen := false, prefillOpen := false }) d
  let d := { d with ent := { d.ent with spec := tblErase d.ent.spec q } }
  let d := updCache (fun c => { c with waiting := c.waiting.filter (fun w => w.1 ≠ q) }) d
  let x := seqDesc d q
  let put (d : Dev) : Dev := updSeq q (fun x => { x with
    st := .releasing, cursor := 0, workDone := x.damaged, cmd := if x.forkChild then x.cmd else cmd }) d
  if x.damaged then
    let n := heldUnits d q
    put (bumpBy d R.KVC_LOST n)
  else put d

/-- The context becomes FREE when its last release is done (R84); its images, its quarantine and BARRIER go with it
(R298, R299). -/
def freeContext (t : Nat) (d : Dev) : Dev :=
  if tcxState d t = 3 ∧ d.cache.seqs.all (fun e => decide (e.2.tenant ≠ t) || decide (e.2.st = .free)) then
    let d := setBarrier t false (setTcxState t 0 d)
    let d := setReg d (R.ENT_WQ (t % 4096 / 32)) (setBit (getReg d (R.ENT_WQ (t % 4096 / 32))) (t % 32) false)
    { d with wgt := { d.wgt with
      images := d.wgt.images.filter (fun i => i.tenant ≠ t)
      copies := d.wgt.copies.filter (fun x => x ≠ t)
      recopies := d.wgt.recopies.filter (fun e => e.1 ≠ t) } }
  else d

/-- RELEASE_END: release work done, the sequence is FREE in cache control and in the entrance, and its record written. -/
def releaseEnd (q : Nat) (d : Dev) : Dev :=
  let x := seqDesc d q
  let d := updCache (fun c => { c with
    seqs := tblErase c.seqs q, notes := c.notes.filter (fun n => n.seq ≠ q) }) d
  let d := { d with ent := { d.ent with seqTab := tblErase d.ent.seqTab q } }
  freeContext x.tenant (cmdRecord? x.cmd 0 0 d)

/-! ### Forks (R223) -/

/-- Copy of a parent's page head into a child's copy of its leaf: ABSENT at or above n, the page of n − 1 shortened. -/
def forkHead (x : PageHead) (start n : Nat) : PageHead :=
  if n ≤ start then {}
  else if x.st = .absent then x
  else
    let v := min x.valid (n - start)
    { x with valid := v, sumValid := x.sumValid && !(decide (x.st = .flushed) && decide (v < 2 ^ x.pshift)),
             fillTick := if v < 2 ^ x.pshift then 0 else x.fillTick }

/-- Move a copied STAGED head to a group of the child, row for row. -/
def forkGroup (x : PageHead) (t dd : Nat) (d : Dev) : Option (PageHead × Dev) :=
  (takeGroup .free t (2 ^ x.pshift) dd d).map (fun r =>
    let y := { x with spill := r.1, loc := r.2.1 }
    (y, (List.range x.valid).foldl (fun d i =>
      groupPut y dd i (groupRow x dd false i d) (groupRow x dd true i d) d) r.2.2))

/-- Copy a parent's leaf for the child: heads, references, groups. -/
def forkLeaf (t prefixLen n first u : Nat) (d : Dev) : Option (Nat × Dev) :=
  match allocFrame .free t (leafOrder d t) .leaf d with
  | none => none
  | some (u', d) =>
    ((List.range 16).foldl (fun (o : Option Dev) j => o.bind (fun d =>
      let x := forkHead (headAt d (16 * u + j)) (pageStart d t prefixLen (first + j)) n
      match x.st with
      | .staged => (forkGroup x t (headDim d t) d).map (fun r => setHead (16 * u' + j) r.1 r.2)
      | .flushed => some (setHead (16 * u' + j) x (incRef x.loc d))
      | _ => some (setHead (16 * u' + j) x d))) (some d)).map (fun d => (u', bump d R.KVC_COW_CNT))

/-- Point the child's index entry for a leaf at a unit, allocating the index block where absent. -/
def forkPoint (q l h first u t : Nat) (d : Dev) : Option Dev :=
  match layerDir d q l with
  | none => none
  | some dir =>
    match ptrOf d dir (8 * h + first / 4096) with
    | some b => some (setPtr b (first / 16 % 256) u d)
    | none => (allocFrame .free t 0 .index d).map (fun r =>
        setPtr r.1 (first / 16 % 256) u (setPtr dir (8 * h + first / 4096) r.1 r.2))

/-- Fork work of one layer and KV head: leaves wholly below n without a STAGED page are shared, the others with a page
below n are copied. None where an allocation finds no frame. -/
def forkHeadWork (child parent l h n : Nat) (d : Dev) : Option Dev :=
  let p := seqDesc d parent
  let t := p.tenant
  (headLeaves d parent l h).foldl (fun (o : Option Dev) e => o.bind (fun d =>
    let start := pageStart d t p.prefixLen e.1
    let last := pageStart d t p.prefixLen (e.1 + 15) + pageTokens d t p.prefixLen (e.1 + 15)
    let staged := (List.range 16).any (fun j => decide ((headAt d (16 * e.2 + j)).st = .staged))
    if n ≤ start then some d
    else if last ≤ n ∧ staged = false then forkPoint child l h e.1 e.2 t (incRef e.2 d)
    else (forkLeaf t p.prefixLen n e.1 e.2 d).bind (fun r => forkPoint child l h e.1 r.1 t r.2))) (some d)

/-- One step of fork work of a child: the next layer and head, and after the last the work is done. -/
def forkStep (q : Nat) (d : Dev) : Option Dev :=
  let x := seqDesc d q
  let k := kvHeads d x.tenant
  if x.cursor < cursorEnd d x.tenant then
    (forkHeadWork q x.forkPeer (x.cursor / k) (x.cursor % k) x.forkLen d).map
      (updSeq q (fun x => { x with cursor := x.cursor + 1 }))
  else some (updSeq q (fun x => { x with workDone := true }) d)

/-- FORK_END: the child takes the parent's length, range and attributes, is OPEN, its record is written, and the fork
flags go. A child whose context is being released goes on to its release. -/
def forkEnd (q : Nat) (d : Dev) : Dev :=
  let x := seqDesc d q
  let p := seqDesc d x.forkPeer
  let e := seqEntry d x.forkPeer
  let n := x.forkLen
  let lo := max e.dropLo p.posLo
  let hi := min e.dropHi (p.posLo + n)
  let r : Nat × Nat := if e.dropLo < e.dropHi ∧ lo < hi then (lo, hi) else (0, 0)
  let live := decide (x.st = .live)
  let d := updSeq x.forkPeer (fun p => { p with forkParent := false, forkPeer := 0 }) d
  let d := updSeq q (fun x => { x with
    length := n, prefixLen := min n p.prefixLen, parent := x.forkPeer, pinVersion := p.pinVersion,
    evictable := p.evictable, posLo := p.posLo, posHi := p.posHi, splitPos := p.splitPos, homeDie := p.homeDie,
    parts := p.parts, lruTick := p.lruTick, cursor := 0, workDone := false, forkChild := false, forkPeer := 0,
    cmd := none }) d
  let d := updEntry q (fun _ => { dropLo := r.1, dropHi := r.2, isOpen := live }) d
  cmdRecord? x.cmd 0 n d

/-! ### Operations of a drain phase (R229) -/

/-- Free every FREEING frame (step 1). -/
def freeFreeing (d : Dev) : Dev :=
  (d.cache.frames.filter (fun e => e.2.st = .freeing)).foldl (fun d e => freeFrame e.1 e.2.order d) d

/-- Head keys of the leaves of sequences that are RELEASING, whose pages the flush skips (Table 08-9). -/
def releasingLeaves (d : Dev) : List Nat :=
  (d.cache.seqs.filter (fun e => e.2.st = .releasing ∧ e.2.forkParent = false)).flatMap (fun e =>
    (seqLeaves d e.1).map (fun x => x.2.2.2))

/-- A staged group holds a word left uncorrectable. -/
def groupBad (d : Dev) (x : PageHead) : Bool :=
  let n := 4 * 2 ^ x.pshift * headDim d x.tenant
  if x.spill then
    let a := unitAddr d x.loc
    d.mem.badHbm.any (fun b => decide (a / 64 ≤ b) && decide (b < (a + n) / 64))
  else
    let a := slotHive x.loc
    d.mem.badHive.any (fun b => decide (a / 16 ≤ b) && decide (b < (a + n) / 16))

/-- Flush the page of a head key (R217, R219): skipped without a frame of its body order; a group with an uncorrectable
word is dropped instead, and no frame is used (Table 08-9). -/
def flushOne (key : Nat) (d : Dev) : Dev :=
  let x := headAt d key
  let dd := headDim d x.tenant
  let fmt := kvFmt d x.tenant
  if groupBad d x then
    match leafOwner d (key / 16) with
    | some (q, l, h, i) =>
      let r := guardTake (if x.spill then { mkReport 0x22 (unitHbm (unitAddr d x.loc)) with
                            addr := BitVec.ofNat 64 (unitAddr d x.loc), tenant := some (BitVec.ofNat 12 x.tenant), seq := some (BitVec.ofNat 18 q) }
                          else { mkReport 0x21 (unitSlice (slotHive x.loc)) with
                            addr := BitVec.ofNat 64 (slotHive x.loc), tenant := some (BitVec.ofNat 12 x.tenant), seq := some (BitVec.ofNat 18 q) }) d
      cacheError q (.page l h (i + key % 16)) r.1 r.2
    | none => d
  else
    match allocFrame .free x.tenant (bodyOrder fmt (2 ^ x.pshift) dd) .body d with
    | none => updCache (fun c => { c with skipped := key :: c.skipped }) d
    | some (u, d') =>
      let p := flushPage x fmt dd u (groupRows x dd false d) (groupRows x dd true d)
      let d' := hbmWrite d' (tenantKey d x.tenant) (unitAddr d u) p.1
      bump (freeGroup x dd (setHead key p.2 d')) R.KVC_FLUSH_CNT

/-- The next FULL page of step 2. -/
def nextFlush (d : Dev) : Option Nat :=
  let gone := releasingLeaves d
  (fullPages d).find? (fun k => decide (k ∉ d.cache.skipped) && decide (k / 16 ∉ gone))

/-- The sequence whose release goes on next, and the child whose fork does. -/
def nextRelease (d : Dev) : Option Nat :=
  (d.cache.seqs.find? (fun e => e.2.st = .releasing ∧ e.2.workDone = false ∧ e.2.forkParent = false ∧
    e.2.forkChild = false)).map (·.1)
def nextFork (d : Dev) : Option Nat :=
  (d.cache.seqs.find? (fun e => e.2.forkChild = true ∧ e.2.workDone = false ∧ e.1 ∉ d.cache.blocked)).map (·.1)

/-- The next waiting head write whose leaf copy finds a frame. -/
def nextWaiting (d : Dev) : Option (Nat × Nat × Nat × Nat) :=
  d.cache.waiting.find? (fun w => (privateLeaf .free w.1 w.2.1 w.2.2.1 w.2.2.2 d).isSome)

/-- A request of a tick, or of an earlier one, has no record yet: then no page is dropped (R45). -/
def workOpen (d : Dev) (n : Nat) : Bool := d.ent.reqs.any (fun r => decide (r.tick ≤ n) && !r.recordWritten)

/-- Sequences that eviction considers, by LRU_TICK and then SEQ (R226, R45). -/
def evictOrder (d : Dev) : List Nat :=
  let ok (e : Nat × SeqDesc) : Bool :=
    e.2.evictable && (seqEntry d e.1).isOpen && !e.2.forkParent && !e.2.forkChild && !e.2.damaged &&
      decide ((seqEntry d e.1).lastTick ≤ d.tick.num) && !workOpen d d.tick.num
  ((d.cache.seqs.filter ok).mergeSort (fun a b => a.2.lruTick < b.2.lruTick ∨ (a.2.lruTick = b.2.lruTick ∧ a.1 ≤ b.1))).map (·.1)

/-- The positions of the column that eviction would drop from a sequence. -/
def evictColumn (d : Dev) (q : Nat) : Option (Nat × Nat) :=
  let x := seqDesc d q
  let e := seqEntry d q
  let at' := if e.dropLo < e.dropHi then e.dropHi - x.posLo else 0
  let i := pageIdx d x.tenant x.prefixLen at'
  let a := pageStart d x.tenant x.prefixLen i
  let b := a + pageTokens d x.tenant x.prefixLen i
  let staged := match lowestStaged d q with
    | some j => decide (j ≤ i)
    | none => false
  if b ≤ x.length ∧ staged = false then some (x.posLo + a, x.posLo + b) else none

/-- Drop a column, where every leaf copy it needs finds a frame (R226). -/
def evictFrom (d : Dev) (q : Nat) : Option Dev :=
  match evictColumn d q with
  | none => none
  | some (a, b) =>
    let d' := dropRange q a b none d
    if d'.cache.waiting = d.cache.waiting then
      let freed := d.cache.frames.any (fun e => (tblFind d'.cache.frames e.1).isNone)
      some (updCache (fun c => { c with evicted := c.evicted + 1 }) (if freed then bump d' R.KVC_DROP_CNT else d'))
    else none

/-- Reserve frames that a cell holds of an order. -/
def reserveCount (d : Dev) (c : CellId) (k : Nat) : Nat :=
  (d.cache.frames.filter (fun e => e.2.st = .reserved c ∧ e.2.order = k)).length

/-- Reserve n more frames of an order for a cell; frames missing are counted (R208). -/
def reserveMore (c : CellId) (k : Nat) : Nat → Dev → Dev
  | 0, d => d
  | n + 1, d =>
    match buddyAlloc 10 d.cache.freeFrames k with
    | none => bumpBy d R.KVC_TOPUP_SHORT_CNT (n + 1)
    | some (u, rest) => reserveMore c k n (updCache (fun s => { s with
        freeFrames := rest
        frames := tblPut s.frames u { refcnt := 0, tenant := 0, order := k, st := .reserved c, kind := .body } }) d)

/-- Top up one cell's reserve, orders ascending. -/
def topUpCell (c : CellId) (d : Dev) : Dev :=
  (List.range 11).foldl (fun d k => reserveMore c k (regFld d (R.KVC_RESERVE k) 15 0 - reserveCount d c k) d) d

/-- A DRAINING context none of whose tokens remains becomes RELEASING, and the release of its sequences begins (R84). -/
def contextReleasing (t : Nat) (d : Dev) : Dev :=
  if d.ent.tokens.any (fun k => decide (k.st ≠ .finished) && (match findReq d k.uid with
        | some r => decide (dTenant r.desc = t)
        | none => false)) then d
  else
    let d := setTcxState t 3 d
    let qs := (d.cache.seqs.filter (fun e => e.2.tenant = t ∧ e.2.st = .live)).map (·.1)
    freeContext t (qs.foldl (fun d q => startRelease q none d) d)

/-- Every DRAINING context is looked at (R84). -/
def contextsReleasing (d : Dev) : Dev := (tenantsIn d 2).foldl (fun d t => contextReleasing t d) d

/-- Set the step of R229. -/
def setDrainStep (n : Nat) (d : Dev) : Dev := updCache (fun c => { c with step := n }) d

/-- Step 3 of R229: the next release, fork or waiting head write; none where there is none left. A fork whose
allocation finds no frame is left for a later drain phase. -/
def releaseForkDrop (d : Dev) : Option Dev :=
  match nextRelease d, nextFork d, nextWaiting d with
  | some q, _, _ => some (releaseStep q d)
  | none, some q, _ => some ((forkStep q d).getD (updCache (fun c => { c with blocked := q :: c.blocked }) d))
  | none, none, some w => some (dropPage w.1 w.2.1 w.2.2.1 w.2.2.2 d)
  | none, none, none => none

/-- One operation of cache control in the order of R229: 1 FREEING frames, 2 flushes, 3 releases, forks and waiting head
writes, 4 and 5 eviction (5 once it runs), 6 top-up, 7 done, when only work of step 3 that a command has added since is
left (Table 08-12). An entry that has stopped the flush engines holds the flushes (Table 13-7). -/
def drainOp (d : Dev) : Dev :=
  match d.cache.step with
  | 0 => d
  | 1 => setDrainStep 2 (freeFreeing d)
  | 2 => match nextFlush d with
    | some k => if entryStopped d then d else flushOne k d
    | none => setDrainStep 3 (contextsReleasing d)
  | 3 => (releaseForkDrop d).getD (setDrainStep 4 d)
  | 4 =>
    if freeUnits d < regFld d R.KVC_WATERMARK 19 0 * 1024 then setDrainStep 5 d else setDrainStep 6 d
  | 5 =>
    if regFld d R.KVC_WATERMARK_HI 19 0 * 1024 ≤ freeUnits d ∨ regFld d R.KVC_EVICT_BUDGET 15 0 ≤ d.cache.evicted then
      setDrainStep 6 d
    else
      match (evictOrder d).findSome? (evictFrom d) with
      | some d' => d'
      | none => setDrainStep 6 d
  | 6 =>
    if h : d.cache.topCell < 64 then
      updCache (fun c => { c with topCell := c.topCell + 1 }) (topUpCell ⟨d.cache.topCell, h⟩ d)
    else setDrainStep 7 d
  | _ => (releaseForkDrop d).getD d

/-- A number of operations. -/
def drainOps : Nat → Dev → Dev
  | 0, d => d
  | n + 1, d => drainOps n (drainOp d)

/-- CACHE_DRAIN_WORK (R229): operations that cache control carries out before something else happens. -/
def execCacheDrainWork (ops : Nat) (s : State) : Host.Outcome State Fault Refusal :=
  onDev (fun d => onlyIf (alive d && inDrain d) (fun d => drainOps ops (contextsReleasing d)) d) s

/-- FORK_END (R223). -/
def execForkEnd (seq : SeqId) (s : State) : Host.Outcome State Fault Refusal :=
  onDev (fun d => onlyIf (alive d && inDrain d && (seqDesc d seq.toNat).forkChild && (seqDesc d seq.toNat).workDone)
    (forkEnd seq.toNat) d) s

/-- RELEASE_END (R228). -/
def execReleaseEnd (seq : SeqId) (s : State) : Host.Outcome State Fault Refusal :=
  onDev (fun d => onlyIf (alive d && inDrain d && decide ((seqDesc d seq.toNat).st = .releasing) &&
    !(seqDesc d seq.toNat).forkChild && !(seqDesc d seq.toNat).forkParent && (seqDesc d seq.toNat).workDone)
    (releaseEnd seq.toNat) d) s

/-- Frame table with every frame FREE (Table 14-7, stage HBM): the cache region as frames of order 10. -/
def cacheBuild (d : Dev) : Dev :=
  { d with cache := { freeFrames := (List.range (regFld d R.KVC_REGION_SIZE 19 0)).map (fun i => (1024 * i, 10)) } }

/-- A FULL page awaits its flush, or fork or release work is in progress (Table 13-6). -/
def cacheBusy (d : Dev) : Bool :=
  !(fullPages d).isEmpty || d.cache.seqs.any (fun e => decide (e.2.st = .releasing) || e.2.forkChild)

/-- Pages left FULL at the end of a drain phase are counted, and cache control stops (R219, R229); a context whose last
token has ended in the phase has become RELEASING in it (R84). -/
def drainEnds (d : Dev) : Dev :=
  setDrainStep 0 (bumpBy (contextsReleasing d) R.KVC_FLUSH_DEFER_CNT (fullPages d).length)

/-- What cache control begins at a drain start. -/
def cacheDrainBegins (d : Dev) : Dev :=
  contextsReleasing (updCache (fun c => { c with
    step := 1, topCell := 0, evicted := 0, skipped := [], blocked := [] }) d)

end Sys2Proof.Machine
end

