-- ==== Sys2Proof/Machine/Weights.lean ====
section
/-!
DEFINITION. Weight loading (11): load slots, images and their headers, the relay's messages, verification, the swap and its
revert, activation, and quarantine.
-/

namespace Sys2Proof.Machine

open Sys2Proof

/-! ### Slots -/

/-- A load slot. -/
def wSlot (d : Dev) (i : Nat) : LoadSlot := tblGet {} d.wgt.slots i

/-- Change a load slot. -/
def updSlot (i : Nat) (f : LoadSlot → LoadSlot) (d : Dev) : Dev :=
  { d with wgt := { d.wgt with slots := tblSet {} d.wgt.slots i (f (tblGet {} d.wgt.slots i)) } }

/-- Slots that are not IDLE and meet a test, ascending. -/
def slotsWith (d : Dev) (f : LoadSlot → Bool) : List Nat :=
  (List.range 8).filter (fun i => decide ((wSlot d i).st ≠ .idle) && f (wSlot d i))

/-- The slot of a tenant's version. -/
def slotOf (d : Dev) (t : Nat) (v : W32) : Option Nat :=
  (slotsWith d (fun s => decide (s.tenant = t) && decide (s.version = v))).head?

/-- Every load slot is IDLE. -/
def wgtAllIdle (d : Dev) : Bool := (slotsWith d (fun _ => true)).isEmpty

/-- Key set of a handle. -/
def keySet (d : Dev) (h : Nat) : KeySet := tblGet {} d.wgt.keys h

/-- KEY_HANDLE and COST_TABLE of a context. -/
def keyHandle (d : Dev) (t : Nat) : Nat := regFld d (R.TCX_KEYS t) 11 0
def costTable (d : Dev) (t : Nat) : Nat := regFld d (R.TCX_KEYS t) 24 16

/-- Cost table installed (ENT_CT_VALID). -/
def costTableValid (d : Dev) (i : Nat) : Bool := bit (getReg d (R.ENT_CT_VALID (i / 32))) (i % 32)

/-- The tenant is quarantined (ENT_WQ). -/
def quarantined (d : Dev) (t : Nat) : Bool := bit (getReg d (R.ENT_WQ (t % 4096 / 32))) (t % 32)

/-- Set or clear the quarantine bit. -/
def setQuarantine (t : Nat) (b : Bool) (d : Dev) : Dev :=
  setReg d (R.ENT_WQ (t % 4096 / 32)) (setBit (getReg d (R.ENT_WQ (t % 4096 / 32))) (t % 32) b)

/-- R299: the tenant's bit in ENT_WQ and BARRIER are set. -/
def quarantine (t : Nat) (d : Dev) : Dev := setBarrier t true (setQuarantine t true d)

/-- BARRIER clears unless the tenant is quarantined or a swap, a revert or a copy still holds it. -/
def releaseBarrier (t : Nat) (d : Dev) : Dev :=
  let live := slotsWith d (fun s => decide (s.tenant = t) &&
    (decide (s.st = .swapping) || decide (s.st = .ready) || decide (s.st = .reverting)))
  if quarantined d t || !live.isEmpty || d.wgt.copies.contains t || d.wgt.recopies.any (fun e => decide (e.1 = t)) then d
  else setBarrier t false d

/-! ### Places (R279, R282, R284) -/

/-- Base and end of the weight region. -/
def wgtRegion (d : Dev) : Nat × Nat :=
  let b := getReg64 d R.ENT_WGT_REGION_BASE_LO R.ENT_WGT_REGION_BASE_HI
  (b, b + regFld d R.ENT_WGT_REGION_SIZE 19 0 * 0x200000)

/-- Bytes rounded up to 2 MiB. -/
def up2M (n : Nat) : Nat := ceilDiv n 0x200000 * 0x200000

/-- Extents of the images that are current or abandoned, and of the other load slots; a slot whose manifest has not
verified holds its first byte where `unknown` counts. -/
def imageExtents (d : Dev) (skip : Option Nat) (unknown : Bool) : List (Nat × Nat) :=
  d.wgt.images.map (fun i => (i.dest, i.dest + up2M i.bytes)) ++
  (slotsWith d (fun _ => true)).filterMap (fun i =>
    let s := wSlot d i
    if skip = some i then none
    else if s.imageBytes ≠ 0 then some (s.dest, s.dest + up2M s.imageBytes)
    else if unknown then some (s.dest, s.dest + 1) else none)

/-- PLACE at WGT_LOAD (R282). -/
def destBad (d : Dev) (dest : Nat) : Bool :=
  let r := wgtRegion d
  decide (dest % 0x200000 ≠ 0) || decide (dest < r.1) || decide (r.2 ≤ dest) ||
    (imageExtents d none true).any (fun e => decide (e.1 ≤ dest) && decide (dest < e.2))

/-- PLACE when the manifest verifies (R284). -/
def extentBad (d : Dev) (i dest bytes : Nat) : Bool :=
  let r := wgtRegion d
  let e := dest + up2M bytes
  decide (dest < r.1) || decide (r.2 < e) || (imageExtents d (some i) false).any (fun x => rangesMeet dest e x.1 x.2)

/-! ### Image header (Table 11-4, Table 07-4) -/

/-- Little-endian field of an image at an offset, read under the tenant's key. -/
def imgField (d : Dev) (t dest off n : Nat) : Nat := leNat (hbmRead d (tenantKey d t) (dest + off) n)

/-- Layer table entry: OFF, BYTES, HOT and HV_OFF in bytes. -/
def layerEntry (d : Dev) (t dest l : Nat) : Nat × Nat × Bool × Nat :=
  let a := imgField d t dest 0x40 8 + 32 * l
  (imgField d t dest a 8, imgField d t dest (a + 8) 4, decide (imgField d t dest (a + 12) 4 % 2 = 1),
    4096 * imgField d t dest (a + 16) 4)

/-- Rotary table of an image: offset and bytes. -/
def ropeEntry (d : Dev) (t dest : Nat) : Nat × Nat := (imgField d t dest 0x50 8, imgField d t dest 0x58 4)

/-- The chain header of the version at an address. -/
structure ChainHdr where
  scaleC : W32
  pvFmt : Nat
  pvRnd : Nat
  fast : Bool
  comp : Bool
  pcomp : Bool
  ax4 : Bool
  block : Nat
  passHeads : Nat
  cmbOff : Nat
  cmbRegions : Nat
  cmbParts : Nat
  cmbBytes : Nat
  cmbRows : Nat
  reserved : Bool
  deriving DecidableEq, Repr

/-- The image that a load slot becomes. -/
def slotImage (s : LoadSlot) : Image :=
  { dest := s.dest, bytes := s.imageBytes, tenant := s.tenant, version := s.version, wfmt := s.wfmt, progs := s.progs }

/-- Read a chain header. -/
def chainHdr (d : Dev) (t dest : Nat) : ChainHdr :=
  let f (off n : Nat) : Nat := imgField d t dest (0x20 + off) n
  { scaleC := BitVec.ofNat 32 (f 0 4), pvFmt := f 4 1 % 16, pvRnd := f 4 1 / 16 % 4, fast := decide (f 4 1 / 64 % 2 = 1),
    comp := decide (f 5 1 % 2 = 1), pcomp := decide (f 5 1 / 2 % 2 = 1), ax4 := decide (f 5 1 / 4 % 2 = 1),
    block := f 6 1 % 8, passHeads := f 7 1, cmbOff := f 8 4, cmbRegions := f 0x0C 2, cmbParts := f 0x0E 2,
    cmbBytes := f 0x10 4, cmbRows := f 0x14 1,
    reserved := decide (f 4 1 / 128 ≠ 0) || decide (f 5 1 / 8 ≠ 0) || decide (f 6 1 / 8 ≠ 0) || decide (f 0x15 11 ≠ 0) }

/-- R174: every header field lies within its range. -/
def chainOk (h : ChainHdr) : Bool :=
  (f32 h.scaleC).isFinite && !(f32 h.scaleC).isZero && !(f32 h.scaleC).sign &&
    decide (h.pvFmt = 1 ∨ h.pvFmt = 2 ∨ h.pvFmt = 3) && decide (h.pvRnd ≤ 2) && decide (h.block ≤ 4) &&
    decide (1 ≤ h.passHeads) && decide (h.passHeads ≤ 4) && decide (h.cmbRegions ≤ 1024) && decide (1 ≤ h.cmbParts) &&
    decide (h.cmbParts ≤ 512) && decide (h.cmbBytes % 4096 = 0) && decide (1 ≤ h.cmbRows) && decide (h.cmbRows ≤ 16) &&
    !h.reserved

/-- The chain header of a context's current version. -/
def tenantChain (d : Dev) (t : Nat) : ChainHdr := chainHdr d t (getReg64 d (R.TCX_WEIGHT_BASE_LO t) (R.TCX_WEIGHT_BASE_HI t))

/-- Stage words of an image header. -/
def imageStages (d : Dev) (t dest : Nat) : List (BitVec 64) :=
  (List.range 16).map (fun s => BitVec.ofNat 64 (imgField d t dest (0x60 + 8 * s) 8))

/-- ROPE_BYTES that the header must hold (Table 11-4): by the largest PAIRS of its ROPE stages. -/
def ropeBytes (ws : List (BitVec 64)) : Nat :=
  8 * 2304 * ((ws.filter (fun w => decide (fld w 7 0 = 4))).map (fun w => fld w 25 18 + 1)).foldl max 0

/-- R289 for the image of a slot, the version-load check of its programs apart. -/
def imageOk (d : Dev) (i : Nat) : Bool :=
  let s := wSlot d i
  let t := s.tenant
  let f (off n : Nat) : Nat := imgField d t s.dest off n
  let n := s.imageBytes
  let foot := 4096 * f 0x1C 4
  let layers := f 0x0C 4 / 2 ^ 16 % 256 + 1
  let rope := ropeEntry d t s.dest
  decide (f 0 4 = 0x57594D58) && decide (f 4 4 = s.version.toNat) && decide (f 9 1 = 1) && decide (f 8 1 = 0) &&
    decide (f 0x0A 2 < 2) && decide (f 0x0F 1 = 0) && decide (f 0x12 2 = 0) && decide (f 0x5C 4 = 0) &&
    decide (f 0xE0 8 = n) && decide (f 0xE8 3864 = 0) && chainOk (chainHdr d t s.dest) &&
    decide (f 0x40 8 + 32 * layers ≤ n) && decide (f 0x48 8 ≤ n) && decide (rope.1 + rope.2 ≤ n) &&
    decide (rope.2 = ropeBytes (imageStages d t s.dest)) &&
    (List.range layers).all (fun l =>
      let e := layerEntry d t s.dest l
      let a := f 0x40 8 + 32 * l
      decide (e.1 + e.2.1 ≤ n) && (!e.2.2.1 || decide (e.2.2.2 + e.2.1 ≤ foot)) &&
        decide (f (a + 12) 4 < 2) && decide (f (a + 20) 12 = 0))

/-! ### Messages (Table 11-6) -/

/-- A weight message without data. -/
def wgtMsg (kind reason t : Nat) (v : W32) (index : Nat) : List Byte :=
  leBytes 1 kind ++ leBytes 1 reason ++ leBytes 2 t ++ leBytes 4 v.toNat ++ leBytes 4 index ++ leBytes 4 0 ++ zeroBytes 16

/-- A WCHUNK message of sealed bytes: ciphertext, then tag. -/
def wgtChunk (t : Nat) (v : W32) (index : Nat) (data : List Byte) : List Byte :=
  leBytes 1 1 ++ leBytes 1 0 ++ leBytes 2 t ++ leBytes 4 v.toNat ++ leBytes 4 index ++ leBytes 4 (data.length - 16) ++
    zeroBytes 16 ++ data

/-- Port of a three-bit port code. -/
def portOfCode (n : Nat) : Option PortId := if h : n < 6 then some ⟨n, h⟩ else none

/-- Send a weight message on a port. -/
def sendWgt (p : Option PortId) (t : Nat) (msg : List Byte) (d : Dev) : Dev :=
  match p with
  | none => d
  | some p =>
    let r := takeTag p d
    sendAll p (trainFrames r.2 tWEIGHT r.1 0x1FF t 0 0 msg) r.2

/-- Send a WNACK and count it. -/
def sendNack (p : Option PortId) (reason t : Nat) (v : W32) (index : Nat) (d : Dev) : Dev :=
  bump (sendWgt p t (wgtMsg 3 reason t v index) d) R.ENT_WGT_NACK_CNT

/-- Set TCX_VERSION_NEXT. -/
def setNext (t : Nat) (v : W32) (d : Dev) : Dev := setReg d (R.TCX_VERSION_NEXT t) v

/-- The slot becomes IDLE and keeps its REASON; TCX_VERSION_NEXT becomes 0. -/
def slotIdle (i reason : Nat) (d : Dev) : Dev :=
  let t := (wSlot d i).tenant
  setNext t 0 (updSlot i (fun _ => { reason := reason, tenant := t }) d)

/-- R288: a load fails or is ended. -/
def failLoad (i reason : Nat) (d : Dev) : Dev :=
  let s := wSlot d i
  let d := sendWgt s.down s.tenant (wgtMsg 4 0 s.tenant s.version 0) d
  cmdRecord? s.loadCmd 5 0 (slotIdle i reason d)

/-- Count a WNACK for a chunk and send it, or fail the load where the count would exceed ENT_WGT_RETRY (R287). -/
def nackChunk (i reason index : Nat) (d : Dev) : Dev :=
  let s := wSlot d i
  if s.st ≠ .loading then d
  else if regFld d R.ENT_WGT_RETRY 7 0 < tblGet 0 s.nacks index + 1 then failLoad i 2 d
  else
    sendNack (portOfCode s.up) reason s.tenant s.version index
      (updSlot i (fun s => { s with nacks := tblPut s.nacks index (tblGet 0 s.nacks index + 1) }) d)

/-! ### Trains of frames -/

/-- Put a frame into the train it belongs to: the whole message once a frame without MORE has arrived. -/
def takeTrain (p : PortId) (f : Frame) (d : Dev) : Option (List Byte) × Dev :=
  let x := getPort d p
  let mine (e : Byte × BitVec 16 × BitVec 16 × Tbl Byte) : Bool :=
    decide (e.1 = f.typ) && decide (e.2.1 = f.tag) && decide (e.2.2.1 = f.src)
  let old := match x.asm.find? mine with | some e => e.2.2.2 | none => []
  let bytes := tblPutList old f.addr.toNat f.payload
  let rest := x.asm.filter (fun e => !mine e)
  if hasMore f then (none, setPort d p { x with asm := rest ++ [(f.typ, f.tag, f.src, bytes)] })
  else (some (tblGetList 0 bytes 0 (f.addr.toNat + f.payload.length)), setPort d p { x with asm := rest })

/-- Fields of a weight message. -/
def mKind (m : List Byte) : Nat := leAt m 0 1
def mReason (m : List Byte) : Nat := leAt m 1 1
def mTenant (m : List Byte) : Nat := leAt m 2 2 % 4096
def mVersion (m : List Byte) : W32 := BitVec.ofNat 32 (leAt m 4 4)
def mIndex (m : List Byte) : Nat := leAt m 8 4
def mLength (m : List Byte) : Nat := leAt m 12 4

/-- KIND of the message that a frame belongs to: of its first bytes, or of those that have arrived. -/
def frameKind (d : Dev) (p : PortId) (f : Frame) : Nat :=
  if f.addr = 0 then leAt f.payload 0 1
  else match (getPort d p).asm.find? (fun e => decide (e.1 = f.typ) && decide (e.2.1 = f.tag) && decide (e.2.2.1 = f.src)) with
    | some e => (tblGet 0 e.2.2.2 0).toNat
    | none => 0

/-- A weight frame of a kind: the train goes on, or its message acts. -/
def wgtFrame (kind : Nat) (p : PortId) (f : Frame) (act : List Byte → Dev → Dev) (d : Dev) : Dev :=
  onlyIf (decide (frameKind d p f = kind)) (fun d =>
    match takeTrain p f d with
    | (none, d) => d
    | (some m, d) => act m d) d

/-! ### Relay (R283 to R288) -/

/-- Data credit for weight chunks at a port: in drain and beacon phases, to the UP port of a LOADING slot with a free relay
entry (R283). -/
def chunkCredit (d : Dev) (p : PortId) : Bool :=
  inDrainOrBeacon d &&
    (slotsWith d (fun s => decide (s.st = .loading) && decide (s.up = p.val) && decide (s.relays.length < 32))).length ≠ 0

/-- A flush engine waits for a controller that the weight engine would use for an HBM range: writes of a cell are outstanding
there (R24, R283). -/
def flushWaits (d : Dev) (a n : Nat) : Bool :=
  d.mem.hbmOut.any (fun e => decide (e.1 % 2 = 1) && decide ((e.1 / 128 + 8 - a / 1024 % 8) % 8 < ceilDiv (a % 1024 + n) 1024))

/-- Some 64 B unit of an HBM range is left uncorrectable. -/
def hbmRangeBad (d : Dev) (a n : Nat) : Bool :=
  d.mem.badHbm.any (fun u => decide (a / 64 ≤ u) && decide (u * 64 < a + n))

/-- Base of the relay buffer, whose entries are whole MiB: an access of a part of one takes the controllers from the base on. -/
def relayBase (d : Dev) : Nat := getReg64 d R.ENT_WGT_RELAY_BASE_LO R.ENT_WGT_RELAY_BASE_HI

/-- The weight engine may use HBM for a range: in drain and beacon phases, no flush engine waiting for a controller of it (R283),
and not stopped by an entry to a power state (Table 13-7). -/
def weightTurn (d : Dev) (a n : Nat) : Bool := inDrainOrBeacon d && !flushWaits d a n && !entryStopped d

/-- A WCHUNK message (R283). -/
def takeChunk (p : PortId) (m : List Byte) (d : Dev) : Dev :=
  let t := mTenant m
  let v := mVersion m
  let slot := (slotsWith d (fun s => decide (s.st = .loading) && decide (s.tenant = t) && decide (s.version = v) &&
    decide (s.up = p.val))).head?
  match slot with
  | none => bump (sendNack (some p) 3 t v (mIndex m) d) R.ENT_WGT_DISCARD_CNT
  | some i =>
    let s := wSlot d i
    let n := mLength m
    if chunkCredit d p = true ∧ s.relays.length < 32 ∧ 64 ≤ n ∧ n ≤ 0x100000 ∧ n % 64 = 0 ∧ m.length = 0x20 + n + 16 then
      updSlot i (fun s => { s with
        relays := s.relays.filter (fun r => r.index ≠ mIndex m ∨ r.verified = true) ++ [{ index := mIndex m, bytes := m.drop 0x20 }]
        arrived := max s.arrived (mIndex m + 1), lastAt := d.tick.time }) d
    else bump d R.ENT_WGT_DISCARD_CNT

/-- WCHUNK (R283). -/
def execWchunk (port : PortId) (frame : Frame) (s : State) : Host.Outcome State Fault Refusal :=
  onDev (recvFrame port frame tWEIGHT (wgtFrame 1 port frame (takeChunk port))) s

/-- Remove a relay entry that has not been verified. -/
def dropRelay (i index : Nat) (d : Dev) : Dev :=
  updSlot i (fun s => { s with relays := s.relays.filter (fun r => r.index ≠ index ∨ r.verified = true) }) d

/-- The manifest's fields lie within Table 11-5 for a version. Table 11-6 gives every chunk a length in whole 64 B, so a
manifest may be followed by fewer than 64 bytes more (DEDUCED, log 55). -/
def manifestOk (m : List Byte) (v : W32) : Bool :=
  let n := leAt m 8 8
  let c := leAt m 0x10 4
  decide (leAt m 0 4 = 0x464E4D58) && decide (leAt m 4 4 = v.toNat) && decide (n % 64 = 0) && decide (4096 ≤ n) &&
    decide (n ≤ 0x400000000) && decide (c = ceilDiv n 0x100000) && decide (1 ≤ c) && decide (c ≤ 16384) &&
    decide (leAt m 0x14 44 = 0) && decide (0x40 + 48 * c ≤ m.length) && decide (m.length < 0x80 + 48 * c)

/-- A chunk has been verified: WACK upstream, the chunk downstream, and its relay entry kept until the downstream WACK
(R285). -/
def chunkDone (i index : Nat) (bytes : List Byte) (d : Dev) : Dev :=
  let s := wSlot d i
  let d := updSlot i (fun s => { s with
    done := if index ∈ s.done then s.done else index :: s.done
    sealed := tblPut s.sealed index bytes
    relays := s.relays.filterMap (fun r => if r.index ≠ index then some r
      else if s.down.isSome then some { r with verified := true } else none) }) d
  let d := sendWgt (portOfCode s.up) s.tenant (wgtMsg 2 0 s.tenant s.version index) d
  sendWgt s.down s.tenant (wgtChunk s.tenant s.version index bytes) d

/-- A sealed chunk opened by GCM under the tenant's shard key, the last 32 bytes of its key set (R280). -/
def openChunk (d : Dev) (s : LoadSlot) (index : Nat) (bytes : List Byte) : Option (List Byte) :=
  let id := leBytes 4 s.version.toNat ++ leBytes 4 index
  (Crypto.gcmOpen (plainNats ((keySet d (keyHandle d s.tenant)).bytes.drop 64)) (plainNats (id ++ zeroBytes 4))
    (plainNats (id ++ leBytes 4 (bytes.length - 16) ++ zeroBytes 4)) (plainNats bytes)).map (fun p => p.map (BitVec.ofNat 8))

/-- DIGEST of a chunk in the slot's manifest, and whether the sealed bytes, tag included, have it (R284). -/
def digestOk (s : LoadSlot) (index : Nat) (bytes : List Byte) : Bool :=
  decide (Crypto.sha384 (plainNats bytes) = plainNats ((s.manifest.drop (0x40 + 48 * (index - 1))).take 48))

/-- The plaintext of a chunk that passes R284: by GCM for the manifest; by its digest, then by GCM, and of the length of its
part of the image, for any other. -/
def checkedChunk (d : Dev) (s : LoadSlot) (index : Nat) (bytes : List Byte) : Option (List Byte) :=
  if index = 0 then (openChunk d s 0 bytes).filter (fun m => manifestOk m s.version)
  else if digestOk s index bytes then
    (openChunk d s index bytes).filter (fun p => decide (p.length = min 0x100000 (s.imageBytes - (index - 1) * 0x100000)))
  else none

/-- R284: a chunk in a relay entry is verified. -/
def verifyChunk (i index : Nat) (d : Dev) : Dev :=
  let s := wSlot d i
  match s.relays.find? (fun r => decide (r.index = index) && !r.verified) with
  | none => d
  | some r =>
    if index ≠ 0 ∧ s.chunks < index then d
    else
      match checkedChunk d s index r.bytes with
      | none => if index = 0 then failLoad i 1 d else nackChunk i 1 index (dropRelay i index d)
      | some plain =>
        if index = 0 then
          if extentBad d i s.dest (leAt plain 8 8) then failLoad i 4 d
          else chunkDone i 0 r.bytes (updSlot i (fun s => { s with
            manifest := plain, imageBytes := leAt plain 8 8, chunks := leAt plain 0x10 4 }) d)
        else chunkDone i index r.bytes
          (hbmWrite d (tenantKey d s.tenant) (s.dest + (index - 1) * 0x100000) plain)

/-- The weight engine may verify a chunk: it reads the relay entry, and writes any chunk but the manifest into the image. -/
def verifyTurn (d : Dev) (s : LoadSlot) (index : Nat) : Bool :=
  weightTurn d (relayBase d) 0x100000 && (decide (index = 0) || weightTurn d (s.dest + (index - 1) * 0x100000) 0x100000)

/-- CHUNK_VERIFY (R283, R284): in drain and beacon phases, once no flush engine waits for a controller that it needs; the manifest
before any other chunk. -/
def execChunkVerify (slot : Fin 8) (tenant : TenantId) (version : W32) (index : Nat) (s : State) :
    Host.Outcome State Fault Refusal :=
  onDev (fun d => onlyIf (alive d && verifyTurn d (wSlot d slot.val) index && decide ((wSlot d slot.val).st = .loading) &&
    decide ((wSlot d slot.val).tenant = tenant.toNat) && decide ((wSlot d slot.val).version = version) &&
    (decide (index = 0) || decide ((wSlot d slot.val).chunks ≠ 0))) (verifyChunk slot.val index) d) s

/-- The slot that relays a version toward a port. -/
def slotToward (d : Dev) (p : PortId) (m : List Byte) : Option Nat :=
  (slotsWith d (fun s => decide (s.tenant = mTenant m) && decide (s.version = mVersion m) && decide (s.down = some p))).head?

/-- WACK (R285): the downstream die has verified a chunk. -/
def execWack (port : PortId) (frame : Frame) (s : State) : Host.Outcome State Fault Refusal :=
  onDev (recvFrame port frame tWEIGHT (wgtFrame 2 port frame (fun m d =>
    match slotToward d port m with
    | none => d
    | some i => updSlot i (fun s => { s with
        relays := s.relays.filter (fun r => r.index ≠ mIndex m ∨ r.verified = false) }) d))) s

/-- A chunk that was verified is sent again, from its relay entry or from the image that is read back (R285), once the weight engine
may read it (R283); one that cannot be read back counts as corrupt (Table 11-7). -/
def resendChunk (i : Nat) (d : Dev) (k : Nat) : Dev :=
  let s := wSlot d i
  match tblFind s.sealed k with
  | none => updSlot i (fun s => { s with resend := s.resend.erase k }) d
  | some bs =>
    let kept := s.relays.any (fun r => decide (r.index = k))
    let a := if kept then relayBase d else s.dest + (k - 1) * 0x100000
    if weightTurn d a bs.length then
      let d' := updSlot i (fun s => { s with resend := s.resend.erase k }) d
      if !kept && hbmRangeBad d a (bs.length - 16) then nackChunk i 1 k d'
      else sendWgt s.down s.tenant (wgtChunk s.tenant s.version k bs) d'
    else d

/-- Every chunk asked for again whose turn has come is sent. -/
def serveResends (d : Dev) : Dev :=
  (List.range 8).foldl (fun d i => (wSlot d i).resend.foldl (resendChunk i) d) d

/-- WNACK (R285): the chunk is sent again, or forwarding to the port stops. -/
def execWnack (port : PortId) (frame : Frame) (s : State) : Host.Outcome State Fault Refusal :=
  onDev (recvFrame port frame tWEIGHT (wgtFrame 3 port frame (fun m d =>
    match slotToward d port m with
    | none => d
    | some i =>
      let s := wSlot d i
      if mReason m = 3 then
        updSlot i (fun s => { s with down := none, resend := [], relays := s.relays.filter (fun r => r.verified = false) }) d
      else if (mReason m = 1 ∨ mReason m = 2) ∧ (tblFind s.sealed (mIndex m)).isSome then
        resendChunk i (updSlot i (fun s => { s with resend := mIndex m :: s.resend }) d) (mIndex m)
      else d))) s

/-- WFAIL (R288): from upstream, the load fails with reason UPSTREAM. -/
def execWfail (port : PortId) (frame : Frame) (s : State) : Host.Outcome State Fault Refusal :=
  onDev (recvFrame port frame tWEIGHT (wgtFrame 4 port frame (fun m d =>
    match (slotsWith d (fun s => decide (s.st = .loading) && decide (s.tenant = mTenant m) &&
        decide (s.version = mVersion m) && decide (s.up = port.val))).head? with
    | none => d
    | some i => failLoad i 7 d))) s

/-- Chunks of a slot that have not been verified and may be missing, below a bound. -/
def unverified (s : LoadSlot) (bound : Nat) : List Nat := (List.range bound).filter (fun k => decide (k ∉ s.done))

/-- Chunks missing by a gap of 32 indices. -/
def gapMissing (s : LoadSlot) : List Nat := unverified s (s.arrived - 32)

/-- CHUNK_MISSING (R287): by a gap, and all that is not verified once the timeout has passed. -/
def execChunkMissing (slot : Fin 8) (s : State) : Host.Outcome State Fault Refusal :=
  onDev (fun d =>
    let x := wSlot d slot.val
    let gap := gapMissing x
    let all := unverified x (max x.arrived (x.chunks + 1))
    onlyIf (alive d && decide (x.st = .loading)) (fun d =>
      let due := x.lastAt + 1000 * regFld d R.ENT_WGT_TIMEOUT 15 0
      let d := if gap.isEmpty then advanceTo due d else d
      let ms := (if gap.isEmpty ∨ due ≤ d.tick.time then all else gap).take 4
      updSlot slot.val (fun s => if s.st = .loading then { s with lastAt := d.tick.time } else s)
        (ms.foldl (fun d k => nackChunk slot.val 2 k d) d)) d) s

/-- LOAD_FAIL (R288): a LOADING slot fails for a reason of Table 11-3. -/
def execLoadFail (slot : Fin 8) (reason : BitVec 4) (s : State) : Host.Outcome State Fault Refusal :=
  onDev (fun d => onlyIf (alive d && decide ((wSlot d slot.val).st = .loading) && decide (1 ≤ reason.toNat) &&
    decide (reason.toNat ≤ 9)) (failLoad slot.val reason.toNat) d) s

/-! ### Hot blocks and the rotary table (R290, R293, R297, R300) -/

/-- Base of the hive window of a context. -/
def hvBase (d : Dev) (t : Nat) : Nat := (hvWindow d t).1

/-- Copy bytes of an image into hive memory; an uncorrectable unit of the image quarantines the tenant (R299). -/
def copyToHive (t src n dst : Nat) (d : Dev) : Dev :=
  let d := hiveWrite d dst (hbmRead d (tenantKey d t) src n)
  match d.mem.badHbm.find? (fun u => decide (src / 64 ≤ u) && decide (u * 64 < src + n)) with
  | some u => quarantine t (report { mkReport 0x23 (unitHbm (64 * u)) with
      addr := BitVec.ofNat 64 (64 * u), tenant := some (BitVec.ofNat 12 t) } d)
  | none => d

/-- Copy a layer's hot block of an image into the hive window, where it has one. -/
def copyHotLayer (t dest l : Nat) (d : Dev) : Dev :=
  let e := layerEntry d t dest l
  if e.2.2.1 then copyToHive t (dest + e.1) e.2.1 (hvBase d t + e.2.2.2) d else d

/-- Copy the rotary table of an image to TCX_ROPE_BASE. -/
def copyRope (t dest : Nat) (d : Dev) : Dev :=
  let r := ropeEntry d t dest
  copyToHive t (dest + r.1) r.2 (4096 * regFld d (R.TCX_ROPE_BASE t) 15 0) d

/-- Copy every hot block and the rotary table of an image. -/
def copyImage (t dest : Nat) (d : Dev) : Dev :=
  copyRope t dest ((List.range (layersOf d t)).foldl (fun d l => copyHotLayer t dest l d) d)

/-- The current image's base. -/
def weightBase (d : Dev) (t : Nat) : Nat := getReg64 d (R.TCX_WEIGHT_BASE_LO t) (R.TCX_WEIGHT_BASE_HI t)

/-- The swap of a tenant that has replaced what a test asks for. -/
def swapWith (d : Dev) (t : Nat) (f : LoadSlot → Bool) : Option Nat :=
  (slotsWith d (fun s => decide (s.tenant = t) && (decide (s.st = .swapping) || decide (s.st = .ready) || decide (s.st = .reverting)) &&
    f s)).head?.map (fun i => (wSlot d i).dest)

/-- The image that a layer's hot block, and the rotary table, were copied from: a swap's for what it has replaced, else the
current one (R293). -/
def layerImage (d : Dev) (t l : Nat) : Nat := (swapWith d t (fun s => decide (l < s.layer))).getD (weightBase d t)
def ropeImage (d : Dev) (t : Nat) : Nat := (swapWith d t (·.rope)).getD (weightBase d t)

/-- The hot block of a layer, or the rotary table (none), that holds an address of hive memory. -/
def hotBlockAt (d : Dev) (t a : Nat) : Option (Option Nat) :=
  let rope := 4096 * regFld d (R.TCX_ROPE_BASE t) 15 0
  if rope ≤ a ∧ a < rope + (ropeEntry d t (ropeImage d t)).2 then some none
  else ((List.range (layersOf d t)).find? (fun l =>
    let e := layerEntry d t (layerImage d t l) l
    e.2.2.1 && decide (hvBase d t + e.2.2.2 ≤ a) && decide (a < hvBase d t + e.2.2.2 + e.2.1))).map some

/-- R300: BARRIER, and the affected block is copied again in the next drain phase. -/
def askRecopy (t : Nat) (b : Option Nat) (d : Dev) : Dev :=
  let n := if d.tick.phase = .execute then d.tick.num else d.tick.num + 1
  setBarrier t true (if d.wgt.recopies.any (fun e => decide (e.1 = t ∧ e.2.1 = b)) then d
    else { d with wgt := { d.wgt with recopies := d.wgt.recopies ++ [(t, b, n)] } })

/-- Copy one block again from its image. -/
def recopy (t : Nat) (b : Option Nat) (d : Dev) : Dev :=
  match b with
  | some l => copyHotLayer t (layerImage d t l) l d
  | none => copyRope t (ropeImage d t) d

/-- The current image of a tenant. -/
def currentImage (d : Dev) (t : Nat) : Option Image :=
  d.wgt.images.find? (fun i => decide (i.tenant = t) && decide (i.dest = weightBase d t))

/-- The words of a tick program of an image. -/
def progWords (d : Dev) (t dest : Nat) (p : ProgArea) : List (BitVec 128) :=
  let bs := hbmRead d (tenantKey d t) (dest + p.off) (16 * p.count)
  (runsOf 16 bs.length bs).map (fun b => BitVec.ofNat 128 (leNat b))

/-- The image's DEST and the area of the tick program that a tenant's current image lists for an OP and a bucket. -/
def tickArea (d : Dev) (t op bucket : Nat) : Option (Nat × ProgArea) :=
  (currentImage d t).bind (fun i =>
    (i.progs.find? (fun p => decide (p.op = op) && decide (p.bucket = bucket))).map (fun p => (i.dest, p)))

/-- The tick program that a tenant's current image lists for an OP and a bucket (R86). -/
def tickProgram (d : Dev) (t op bucket : Nat) : Option (List (BitVec 128)) :=
  (tickArea d t op bucket).map (fun p => progWords d t p.1 p.2)

/-- The places of a tick program whose word is damaged in HBM, with its address there (R299). -/
def progBad (d : Dev) (dest : Nat) (p : ProgArea) : Tbl Nat :=
  (List.range p.count).filterMap (fun i =>
    let a := dest + p.off + 16 * i
    if hbmRangeBad d a 16 then some (i, a) else none)

/-- A unit of the context's windows, in hive memory or on its cells, is WIPING. -/
def windowWiping (d : Dev) (t : Nat) : Bool :=
  let h := hvWindow d t
  let w := cmWindow d t
  d.mem.tags.any (fun e => e.2.isWiping &&
    (if e.1 < 65536 then usesCell d t ⟨e.1 / 1024 % 64, Nat.mod_lt _ (by decide)⟩ && decide (w.1 ≤ e.1 % 1024) && decide (e.1 % 1024 < w.2)
     else decide (65536 + h.1 / 4096 ≤ e.1) && decide (e.1 < 65536 + h.2 / 4096)))

/-- The weight engine may copy blocks of an image: blocks lie on every controller (R283). -/
def copyTurn (d : Dev) : Bool := weightTurn d 0 0x2000

/-- HOT_COPY_END (R290): after the wipe of R269, the copy of a first activation ends. -/
def execHotCopyEnd (tenant : TenantId) (s : State) : Host.Outcome State Fault Refusal :=
  let t := tenant.toNat
  onDev (fun d => onlyIf (alive d && inDrain d && copyTurn d && d.wgt.copies.contains t && !windowWiping d t) (fun d =>
    let d := copyImage t (weightBase d t) d
    releaseBarrier t { d with wgt := { d.wgt with copies := d.wgt.copies.filter (fun x => x ≠ t) } }) d) s

/-- The damaged blocks of a tenant whose copy is due. -/
def recopiesDue (d : Dev) (t : Nat) : List (Nat × Option Nat × Nat) :=
  d.wgt.recopies.filter (fun e => decide (e.1 = t) && decide (e.2.2 ≤ d.tick.num))

/-- HOT_BLOCK_RECOPY (R300): the affected blocks, and no other. -/
def execHotBlockRecopy (tenant : TenantId) (s : State) : Host.Outcome State Fault Refusal :=
  let t := tenant.toNat
  onDev (fun d => onlyIf (alive d && inDrain d && copyTurn d && !(recopiesDue d t).isEmpty) (fun d =>
    let due := recopiesDue d t
    let d := due.foldl (fun d e => recopy t e.2.1 d) d
    releaseBarrier t { d with wgt := { d.wgt with recopies := d.wgt.recopies.filter (fun e => !due.contains e) } }) d) s

/-! ### The swap (R291 to R293, R297) -/

/-- The slot of a tenant in a state. -/
def slotIn (d : Dev) (t : Nat) (st : SlotState) : Option Nat :=
  (slotsWith d (fun s => decide (s.tenant = t) && decide (s.st = st))).head?

/-- Tokens of a tenant remain in a ledger or cell queue. -/
def tenantTokens (d : Dev) (t : Nat) : Bool :=
  d.ent.tokens.any (fun k => decide (k.st ≠ .finished) && (match findReq d k.uid with
    | some r => decide (dTenant r.desc = t)
    | none => false))

/-- R292 for a tenant. -/
def swapClear (d : Dev) (t : Nat) : Bool :=
  !tenantTokens d t && d.cache.seqs.all (fun e => decide (e.2.tenant ≠ t) || !(seqEntry d e.1).prefillOpen) &&
    d.ent.reqs.all (fun r => decide (dTenant r.desc ≠ t) || !r.region || r.recordWritten)

/-- Provisional rows of a sequence are discarded and counted: groups that hold no row of VALID are freed, and the SPEC field
goes (R254). -/
def discardSpec (q : Nat) (d : Dev) : Dev :=
  match (seqDesc d q).spec with
  | none => d
  | some sp =>
    let x := seqDesc d q
    let lo := sp.base - x.posLo
    let pages := pagesIn d x.tenant x.prefixLen lo (lo + sp.n)
    let d := (layerHeads d x.tenant).foldl (fun d lh => pages.foldl (fun d i =>
      let p := pageHead d q lh.1 lh.2 i
      if p.st = .staged then
        let d := bumpBy d R.KVC_SPEC_DISCARD_CNT p.prov.length
        match leafOf d q lh.1 lh.2 i with
        | some u =>
          if p.valid = 0 then setHead (16 * u + i % 16) {} (freeGroup p (headDim d p.tenant) d)
          else setHead (16 * u + i % 16) { p with prov := [] } d
        | none => d
      else d) d) d
    updSeq q (fun x => { x with spec := none }) d

/-- Sequences of a tenant that KV_DROP drops for a version (R293). -/
def kvDropped (d : Dev) (t : Nat) (v : W32) : List Nat :=
  ((d.cache.seqs.filter (fun e => e.2.tenant = t)).map (·.1)).filter (fun q =>
    (seqEntry d q).isOpen && decide (0 < (seqDesc d q).length) && decide ((seqDesc d q).pinVersion ≠ v))

/-- Cache control may drop these sequences in this drain phase: no LAST_TICK lies beyond the tick, and no request of it is open
(R45). -/
def dropsAllowed (d : Dev) (qs : List Nat) : Bool :=
  qs.isEmpty || (qs.all (fun q => decide ((seqEntry d q).lastTick ≤ d.tick.num)) && !workOpen d d.tick.num)

/-- SWAP_START (R292, R293 steps 1 and 2): with KV_DROP it waits until R45 lets the drops happen. -/
def execSwapStart (tenant : TenantId) (s : State) : Host.Outcome State Fault Refusal :=
  let t := tenant.toNat
  onDev (fun d =>
    match slotIn d t .swapping with
    | none => d
    | some i =>
      let x := wSlot d i
      let drops := if x.kvDrop then kvDropped d t x.version else []
      onlyIf (alive d && inDrain d && x.clear && !x.started && dropsAllowed d drops) (fun d =>
        let qs := (d.cache.seqs.filter (fun e => e.2.tenant = t)).map (·.1)
        let d := qs.foldl (fun d q =>
          discardSpec q { d with ent := { d.ent with spec := tblErase d.ent.spec q } }) d
        let d := drops.foldl (fun d q =>
          let y := seqDesc d q
          dropRange q y.posLo (y.posLo + y.length) none d) d
        updSlot i (fun s => { s with started := true }) d) d) s

/-- Head writes of the tenant's drops are done. -/
def dropsDone (d : Dev) (t : Nat) : Bool :=
  d.cache.waiting.all (fun w => decide ((seqDesc d w.1).tenant ≠ t))

/-- SWAP_LAYER (R293 step 3). -/
def execSwapLayer (tenant : TenantId) (s : State) : Host.Outcome State Fault Refusal :=
  let t := tenant.toNat
  onDev (fun d =>
    match slotIn d t .swapping with
    | none => d
    | some i =>
      let x := wSlot d i
      onlyIf (alive d && inDrain d && copyTurn d && x.started && dropsDone d t && decide (x.layer < layersOf d t)) (fun d =>
        updSlot i (fun s => { s with layer := s.layer + 1 }) (copyHotLayer t x.dest x.layer d)) d) s

/-- SWAP_END (R293 step 4). -/
def execSwapEnd (tenant : TenantId) (s : State) : Host.Outcome State Fault Refusal :=
  let t := tenant.toNat
  onDev (fun d =>
    match slotIn d t .swapping with
    | none => d
    | some i =>
      let x := wSlot d i
      onlyIf (alive d && inDrain d && copyTurn d && x.started && decide (x.layer = layersOf d t)) (fun d =>
        cmdRecord? x.swapCmd 0 0
          (updSlot i (fun s => { s with st := .ready, rope := true, swapCmd := none }) (copyRope t x.dest d))) d) s

/-- REVERT_END (R297): the old hot blocks, highest layer first, and the old rotary table are back: every old hot block, for a
new one may have been copied over any of them. -/
def execRevertEnd (tenant : TenantId) (s : State) : Host.Outcome State Fault Refusal :=
  let t := tenant.toNat
  onDev (fun d =>
    match slotIn d t .reverting with
    | none => d
    | some i =>
      let x := wSlot d i
      onlyIf (alive d && inDrain d && copyTurn d) (fun d =>
        let old := weightBase d t
        let d := (List.range (layersOf d t)).reverse.foldl (fun d l => copyHotLayer t old l d) d
        let d := releaseBarrier t (slotIdle i x.reason (copyRope t old d))
        cmdRecord? x.abortCmd 0 0 d) d) s

/-! ### Activation (R294, R296) -/

/-- Free the activation entries whose T has been reached. -/
def retireActs (k : Nat) (d : Dev) : Dev :=
  (List.range 8).foldl (fun d j =>
    if bit (getReg d (R.ENT_WACT_ID j)) 31 ∧ getReg64 d (R.ENT_WACT_TICK_LO j) (R.ENT_WACT_TICK_HI j) ≤ k then
      setReg64 (setReg (setReg d (R.ENT_WACT_ID j) 0) (R.ENT_WACT_VERSION j) 0)
        (R.ENT_WACT_TICK_LO j) (R.ENT_WACT_TICK_HI j) 0
    else d) d

/-- Activation entries received in a beacon: kept until their tick, and shown at the slot they name. -/
def wgtReceiveActs (k : Nat) (acts : List (Nat × Nat × Nat)) (d : Dev) : Dev :=
  acts.foldl (fun d a =>
    let d := if d.wgt.acts.contains a ∨ a.2.2 < k then d
      else { d with wgt := { d.wgt with acts := d.wgt.acts ++ [a] } }
    match slotOf d a.1 (BitVec.ofNat 32 a.2.1) with
    | some i => updSlot i (fun s => { s with act := a.2.2 }) d
    | none => d) d

/-- R296 for one entry. -/
def actOne (a : Nat × Nat × Nat) (d : Dev) : Dev :=
  let t := a.1
  match slotOf d t (BitVec.ofNat 32 a.2.1) with
  | none => d
  | some i =>
    let s := wSlot d i
    if s.st = .ready then
      let prog := s.dest + imgField d t s.dest 0x48 8
      let d := setReg d (R.TCX_VERSION t) s.version
      let d := setReg64 d (R.TCX_WEIGHT_BASE_LO t) (R.TCX_WEIGHT_BASE_HI t) s.dest
      let d := setReg64 d (R.TCX_PROG_BASE_LO t) (R.TCX_PROG_BASE_HI t) prog
      let d := setRegFld d (R.TCX_KEYS t) 24 16 s.costTable
      let d := (List.range 16).foldl (fun d k =>
        setReg64 d (R.TCX_STAGE_LO t k) (R.TCX_STAGE_HI t k) (imgField d t s.dest (0x60 + 8 * k) 8)) d
      let d := { d with wgt := { d.wgt with
        images := d.wgt.images.filter (fun x => x.tenant ≠ t) ++
          [slotImage s] } }
      releaseBarrier t (setQuarantine t false (slotIdle i 0 d))
    else
      report { mkReport 0x2E unitEntrance with tenant := some (BitVec.ofNat 12 t) } (bump d R.ENT_WGT_ACT_IGN_CNT)

/-- Activation at S(n). -/
def wgtActivate (n : Nat) (d : Dev) : Dev :=
  let due := d.wgt.acts.filter (fun a => a.2.2 = n)
  let d := due.foldl (fun d a => actOne a d) d
  retireActs n { d with wgt := { d.wgt with acts := d.wgt.acts.filter (fun a => n < a.2.2) } }

/-- R298: CTX_KILL ends loads and abandons swaps of the tenant. -/
def wgtKill (t : Nat) (d : Dev) : Dev :=
  (slotsWith d (fun s => decide (s.tenant = t))).foldl (fun d i =>
    let s := wSlot d i
    match s.st with
    | .loading => failLoad i 8 d
    | .verified => failLoad i 8 d
    | .swapping =>
      cmdRecord? s.swapCmd 5 0 (slotIdle i 8 { d with wgt := { d.wgt with
        images := d.wgt.images ++ [slotImage s] } })
    | .ready => slotIdle i 8 { d with wgt := { d.wgt with
        images := d.wgt.images ++ [slotImage s] } }
    | _ => d) d

/-! ### Drain start -/

/-- What the weight engine and cache control begin at a drain start: R292 is looked at, the records of activations whose
tick this is are written, cache control starts its order, and chunks asked for again are read back. -/
def drainBegins (d : Dev) : Dev :=
  let d := (slotsWith d (fun s => decide (s.st = .swapping) && !s.started)).foldl (fun d i =>
    updSlot i (fun s => { s with clear := swapClear d s.tenant }) d) d
  let due := d.wgt.actCmds.filter (fun e => e.1 ≤ d.tick.num)
  let d := { d with wgt := { d.wgt with actCmds := d.wgt.actCmds.filter (fun e => d.tick.num < e.1) } }
  serveResends (cacheDrainBegins (due.foldl (fun d e => cmdRecord e.2 0 0 d) d))

/-- Bursts of HBM in flight (Table 13-6). -/
def hbmBusy (d : Dev) : Bool := !d.mem.hbmOut.isEmpty

/-- The cells' work and memories other than cell memory are lost (Doze and Winter). -/
def cellsLost (d : Dev) : Dev := { d with cells := [] }

end Sys2Proof.Machine
end

