-- ==== Sys2Proof/Machine/Domain.lean ====
section
/-!
DEFINITION. The tick domain (02, R53 to R58; 12, R312, R331; 14, R371 to R374; 15, R392): hop-delay echoes, beacons,
alignment, leaving and joining, worker reports at the queen.
-/

namespace Sys2Proof.Machine

open Sys2Proof

/-! ### Hop delay (R53, R312) -/

/-- Mean of the kept hop-delay measurements. -/
def hopMean (d : Dev) : Nat := if d.tick.hops.isEmpty then 0 else d.tick.hops.sum / d.tick.hops.length

/-- Send an ECHO to the parent. -/
def sendEcho (d : Dev) : Dev :=
  match parentPort d with
  | none => d
  | some p =>
    let r := takeTag p d
    let d' := sendOn p (mkFrame r.2 tECHO 0 r.1 0x1FF 0 0 0 (leBytes 8 (now d))) r.2
    { d' with tick := { d'.tick with echoSent := some (r.1, now d), echoAge := 0 } }

/-- A measurement is taken: the mean of the last eight, and the LINK_LATENCY check of R312. DESIGN CHOICE (log 120): d and the mean are
rounded down to whole ns, and TICK_HOP_DELAY shows at most 65,535. -/
def takeHop (p : PortId) (h : Nat) (d : Dev) : Dev :=
  let d := { d with tick := { d.tick with hops := (h :: d.tick.hops).take 8, echoSent := none } }
  let d := setReg d R.TICK_HOP_DELAY (BitVec.ofNat 32 (min (hopMean d) 0xFFFF))
  if hopMean d > regFld d (R.LNK_DECL_LAT p.val) 15 0 then report (mkReport 0x2F (unitPort p)) d else d

/-- An ECHO frame: a request is answered with t1, t2, t3; the parent's answer gives one measurement, and while a join
lacks measurements the next echo goes out (R53, R372). -/
def echoFrame (p : PortId) (f : Frame) (d : Dev) : Dev :=
  if isAnswer f then
    match d.tick.echoSent with
    | none => d
    | some (tag, t1) =>
      if parentPort d = some p ∧ f.tag = tag ∧ f.payload.length = 24 then
        let t2 := leAt f.payload 8 8
        let t3 := leAt f.payload 16 8
        let d := takeHop p (((now d - t1) - (t3 - t2)) / 2) d
        if d.tick.joining ∧ d.tick.hops.length < 8 then sendEcho d else d
      else d
  else answerOn p f (f.payload ++ leBytes 8 (now d) ++ leBytes 8 (now d)) d

/-! ### Beacons (Table 02-11) -/

/-- TICK_NUM, START_NS, SENT_NS, PERIOD_US, DOMAIN_SIZE and FULL_ECHO of a beacon. -/
def bcnTick (bs : List Byte) : Nat := leAt bs 0 8
def bcnStart (bs : List Byte) : Nat := leAt bs 8 8
def bcnSent (bs : List Byte) : Nat := leAt bs 16 8
def bcnPeriod (bs : List Byte) : Nat := leAt bs 24 4
def bcnSize (bs : List Byte) : Nat := leAt bs 28 2
def bcnFullEcho (bs : List Byte) : Bool := decide (leAt bs 30 2 % 2 = 1)

/-- Activation entries of a beacon: tenant, version, activation tick. -/
def bcnActs (bs : List Byte) : List (Nat × Nat × Nat) :=
  (List.range (min (leAt bs 0x20 1) 8)).map (fun j =>
    (leAt bs (0x40 + 16 * j) 2 % 4096, leAt bs (0x42 + 16 * j) 4, leAt bs (0x48 + 16 * j) 8))

/-- Budget of a die in a beacon; above 256 it counts as 256 (R58). -/
def bcnBudget (bs : List Byte) (die : Nat) : Nat := min (leAt bs (0xC0 + 2 * die) 2 % 512) 256

/-- Budget of a die in the TICK_BUDGET registers. -/
def regBudget (d : Dev) (die : Nat) : Nat :=
  if die % 2 = 0 then regFld d (R.TICK_BUDGET (die / 2)) 8 0 else regFld d (R.TICK_BUDGET (die / 2)) 24 16

/-- Valid activation entries of ENT_WACT. -/
def wactEntries (d : Dev) : List (Nat × Nat × Nat) :=
  (List.range 8).filterMap (fun j =>
    if bit (getReg d (R.ENT_WACT_ID j)) 31 then
      some (regFld d (R.ENT_WACT_ID j) 11 0, (getReg d (R.ENT_WACT_VERSION j)).toNat,
        getReg64 d (R.ENT_WACT_TICK_LO j) (R.ENT_WACT_TICK_HI j))
    else none)

/-- The beacon for tick K that the queen sends at the beacon start of K − 1. DESIGN CHOICE (log 89): its FLAGS are 0; nothing
says when a queen sets FULL_ECHO (R53, Table 02-11). -/
def beaconBytes (d : Dev) (k start : Nat) : List Byte :=
  let acts := wactEntries d
  leBytes 8 k ++ leBytes 8 start ++ leBytes 8 (now d) ++ leBytes 4 (getReg d R.TICK_PERIOD).toNat ++
    leBytes 2 (getReg d R.TICK_DOMAIN_SIZE).toNat ++ leBytes 2 0 ++ leBytes 1 acts.length ++ zeroBytes 31 ++
    padTo 128 (acts.flatMap (fun a => leBytes 2 a.1 ++ leBytes 4 a.2.1 ++ zeroBytes 2 ++ leBytes 8 a.2.2)) ++
    (List.range 512).flatMap (fun i => leBytes 2 (regBudget d i))

/-- A beacon with the sender's timebase at departure. -/
def withSent (bs : List Byte) (t : Nat) : List Byte := bs.take 16 ++ leBytes 8 t ++ bs.drop 24

/-- Send a beacon to every child. -/
def forwardBeacon (bs : List Byte) (d : Dev) : Dev :=
  (childPorts d).foldl (fun d p =>
    let r := takeTag p d
    sendOn p (mkFrame r.2 tBEACON 0 r.1 0x1FF 0 0 0 (withSent bs (now d))) r.2) d

/-- An alignment error in ns: shown, and slewed out (R54). -/
def alignBy (e : Int) (d : Dev) : Dev :=
  let d := setReg d R.TICK_ALIGN_ERR (BitVec.ofInt 32 e)
  let d := setReg d R.TICK_RATE_TRIM (Config.rateTrim (getReg d R.TICK_RATE_TRIM) e (periodNs d))
  { d with tick := { d.tick with slew := e } }

/-- Alignment by a beacon's receive time, unless TICK_IN is the source; an error above 1 µs is a cause to leave. -/
def alignBeacon (bs : List Byte) (d : Dev) : Dev :=
  if bit (getReg d R.TICK_CFG) 2 then d
  else
    let e : Int := (now d : Int) - ((bcnSent bs + hopMean d : Nat) : Int)
    let d := alignBy e d
    if e.natAbs > 1000 then { d with tick := { d.tick with leaveDue := true } } else d

/-- A beacon at a member of the domain (R54, R56, R57, R58). DEDUCED (log 90): a late beacon serves alignment only, so it
is not forwarded to the children. DESIGN CHOICE (log 120): a beacon whose tick number or period makes the worker leave does not
align it. -/
def memberBeacon (bs : List Byte) (d : Dev) : Dev :=
  let k := bcnTick bs
  if d.tick.alone ∧ k = d.tick.num ∧ d.tick.lastBeacon ≠ k then
    alignBeacon bs { d with tick := { d.tick with lastBeacon := k } }
  else if k ≠ nextNum d ∨ bcnPeriod bs ≠ (getReg d R.TICK_PERIOD).toNat then
    { d with tick := { d.tick with leaveDue := true } }
  else if d.tick.missed ∨ nextStart d < d.tick.time + 1000 then alignBeacon bs d
  else
    let d := { d with tick := { d.tick with
      lastBeacon := k, misses := 0,
      budgets := tblPut d.tick.budgets (k + 2) (bcnBudget bs (dieIndex d).toNat) } }
    let d := wgtReceiveActs k (bcnActs bs) d
    let d := alignBeacon bs d
    let d := forwardBeacon bs d
    if bcnFullEcho bs then sendEcho d else d

/-- The die takes tick K as its next. A late cut of a tick that K does not follow belongs to the numbering of a domain that its
queen has restarted: no ledger of the new numbering is one of R49's (DEDUCED, log 113). -/
def renumber (k : Nat) (d : Dev) : Dev :=
  if k ≤ d.ent.lateTick then { d with ent := { d.ent with lateTick := 0, lateEnd := 0 } } else d

/-- A worker's join on an acceptable beacon (R372): the timebase steps to the queen's, and S(K) is the queen's. DESIGN
CHOICE (log 120): a beacon on which it joins starts no measurement, whatever its FULL_ECHO. -/
def joinOn (bs : List Byte) (d : Dev) : Dev :=
  if d.tick.joining ∧ d.tick.hops.length = 8 ∧ bcnPeriod bs = (getReg d R.TICK_PERIOD).toNat ∧
      bcnSize bs = (getReg d R.TICK_DOMAIN_SIZE).toNat then
    let e : Int := (now d : Int) - ((bcnSent bs + hopMean d : Nat) : Int)
    let d := setReg d R.TICK_ALIGN_ERR (BitVec.ofInt 32 e)
    let d := if d.tick.rejoin then bump d R.TICK_JOIN_CNT else d
    let k := bcnTick bs
    let d := renumber k (markRate d)
    let d := { d with tick := { d.tick with
      time := bcnSent bs + hopMean d, slew := 0, joined := true, running := false, num := k, start := bcnStart bs,
      joining := false, rejoin := false, lastBeacon := k, misses := 0, missed := false, alone := false,
      leaveDue := false, member := false, admitOpen := false, inputOpen := false,
      budgets := [(k + 2, bcnBudget bs (dieIndex d).toNat)] } }
    forwardBeacon bs (wgtReceiveActs k (bcnActs bs)
      { d with power := { d.power with cycMark := d.tick.time } })
  else d

/-- S(0) of a solo or queen die: the timebase rounded up to a whole microsecond, plus two periods (R371). -/
def queenStart (d : Dev) : Dev :=
  { d with tick := { d.tick with
    joined := true, running := false, start := ceilDiv d.tick.time 1000 * 1000 + 2 * periodNs d } }

/-- Start of a join (R372, R374): a worker measures its hop delay anew; a solo or queen die sets its start. -/
def startJoin (rejoin : Bool) (d : Dev) : Dev :=
  if role d = 2 then
    sendEcho { d with tick := { d.tick with
      joining := true, rejoin := rejoin, joinStart := d.tick.time, hops := [] } }
  else queenStart d

/-- The die leaves its domain (R57, R392). -/
def leaveDomain (d : Dev) : Dev :=
  let d := { d with tick := { d.tick with member := false, leaveDue := false, misses := 0 } }
  sendReport true (report (mkReport 0x33 unitTick) d)

/-! ### Reports at the queen (R392) -/

/-- The TEL_RPT_OUT bit of a die. -/
def rptOut (d : Dev) (die : Nat) : Bool := bit (getReg d (R.TEL_RPT_OUT (die / 32))) (die % 32)

/-- Set the TEL_RPT_OUT bit of a die. -/
def setRptOut (d : Dev) (die : Nat) (b : Bool) : Dev :=
  setReg d (R.TEL_RPT_OUT (die / 32)) (setBit (getReg d (R.TEL_RPT_OUT (die / 32))) (die % 32) b)

/-- DIE_LOST for a die, by an out-of-domain flag or by silence (Table 15-5). -/
def dieLost (die : Nat) (silence : Bool) (d : Dev) : Dev :=
  report { mkReport 0x34 unitTick with info := BitVec.ofNat 160 (die + (if silence then 512 else 0)) }
    (setRptOut d die true)

/-- A worker report: a worker forwards it up the tree; the queen takes it. -/
def takeReport (f : Frame) (d : Dev) : Dev :=
  if role d = 2 then
    match parentPort d with
    | none => d
    | some p => bump (sendOn p (sealFrame { f with dst := 0x1FF }) d) R.TEL_RPT_SENT_CNT
  else
    let die := leAt f.payload 0 2 % 512
    let out := decide (leAt f.payload 2 2 / 8 % 2 = 1)
    let d := { d with tel := { d.tel with
      silent := tblSet 0 d.tel.silent die 0, seen := BitVec.ofNat 9 die :: d.tel.seen } }
    if out then (if rptOut d die then d else dieLost die false d) else setRptOut d die false

/-! ### Meanings -/

/-- ECHO (R53, R312). -/
def execEcho (port : PortId) (frame : Frame) (s : State) : Host.Outcome State Fault Refusal :=
  onDev (recvFrame port frame tECHO (echoFrame port frame)) s

/-- ECHO_INTERVAL_EXPIRY (R53). -/
def execEchoIntervalExpiry (s : State) : Host.Outcome State Fault Refusal :=
  onDev (fun d => onlyIf (alive d && decide (role d = 2) && d.tick.running && d.tick.member &&
    decide ((getReg d R.TICK_ECHO_INTERVAL).toNat ≤ d.tick.echoAge)) sendEcho d) s

/-- BEACON (R54, R56 to R58): only a frame from the PARENT port of a worker counts. -/
def execBeacon (port : PortId) (frame : Frame) (s : State) : Host.Outcome State Fault Refusal :=
  onDev (recvFrame port frame tBEACON (fun d =>
    onlyIf (decide (role d = 2) && decide (parentPort d = some port) && d.tick.joined && !d.tick.joining &&
      !d.tick.leaveDue) (memberBeacon frame.payload) d)) s

/-- BEACON_MISSING (R56): 1 µs before S(K) beacon K has not arrived. DESIGN CHOICE (log 120): a worker that is out of its domain counts
none in TICK_MISS_CNT. -/
def execBeaconMissing (s : State) : Host.Outcome State Fault Refusal :=
  onDev (fun d => onlyIf (alive d && decide (role d = 2) && d.tick.running && d.tick.member && !d.tick.missed &&
      decide (d.tick.lastBeacon ≠ nextNum d)) (fun d =>
    let d := advanceTo (nextStart d - 1000) d
    bump { d with tick := { d.tick with missed := true, misses := d.tick.misses + 1 } } R.TICK_MISS_CNT) d) s

/-- DOMAIN_LEAVE (R57). -/
def execDomainLeave (s : State) : Host.Outcome State Fault Refusal :=
  onDev (fun d => onlyIf (alive d && decide (role d = 2) && d.tick.member &&
    (d.tick.leaveDue || decide (regFld d R.TICK_MISS_LIMIT 7 0 ≤ d.tick.misses))) leaveDomain d) s

/-- TICK_IN_EDGE (R331): an edge at a timebase value, after a high time. -/
def execTickInEdge (edgeNs highNs : Nat) (s : State) : Host.Outcome State Fault Refusal :=
  onDev (fun d =>
    let e (k : Nat) : Int := (edgeNs : Int) - (getReg d R.LNK_TICKIN_DELAY).toInt - (k : Int)
    let err := if (e d.tick.start).natAbs ≤ (e (nextStart d)).natAbs then e d.tick.start else e (nextStart d)
    onlyIf (alive d && d.tick.joined && bit (getReg d R.TICK_CFG) 2 && decide (10 ≤ highNs) &&
      decide (err.natAbs ≤ 1000)) (fun d =>
        alignBy err { advanceTo edgeNs d with tick := { (advanceTo edgeNs d).tick with edgeSeen := true } }) d) s

/-- REPORT (R392): taken from a child port. -/
def execReport (port : PortId) (frame : Frame) (s : State) : Host.Outcome State Fault Refusal :=
  onDev (recvFrame port frame tREPORT (fun d =>
    onlyIf (decide (port ∈ childPorts d)) (takeReport frame) d)) s

/-- REPORT_SILENCE (R392). -/
def execReportSilence (die : Fin 512) (s : State) : Host.Outcome State Fault Refusal :=
  onDev (fun d => onlyIf (alive d && decide (role d = 1) && d.tick.running && !rptOut d die.val &&
    decide (die.val < (getReg d R.TICK_DOMAIN_SIZE).toNat) &&
    decide (regFld d R.TICK_MISS_LIMIT 7 0 ≤ tblGet 0 d.tel.silent die.val)) (dieLost die.val true) d) s

/-- REJOIN_START (R374): no token queued or running, no open ledger holding a charge. -/
def execRejoinStart (s : State) : Host.Outcome State Fault Refusal :=
  onDev (fun d => onlyIf (alive d && locked d && !d.tick.member && !d.tick.joining &&
      (decide (role d = 2) || !d.tick.running) &&
      d.ent.tokens.all (fun t => decide (t.st = .finished)) &&
      d.ent.ledgers.all (fun g => !g.isOpen || decide (ledgerCharged g = 0))) (startJoin true) d) s

/-- WORKER_JOIN (R372). -/
def execWorkerJoin (port : PortId) (frame : Frame) (s : State) : Host.Outcome State Fault Refusal :=
  onDev (recvFrame port frame tBEACON (fun d =>
    onlyIf (decide (role d = 2) && decide (parentPort d = some port)) (joinOn frame.payload) d)) s

/-- TICK_OUT_FALL (R330). -/
def execTickOutFall (s : State) : Host.Outcome State Fault Refusal :=
  onDev (fun d => onlyIf (alive d && d.tick.tickOut) (fun d =>
    let d := advanceTo (d.tick.tickOutRise + 1000) d
    { d with tick := { d.tick with tickOut := false } }) d) s

end Sys2Proof.Machine
end

