-- ==== Sys2Proof/Machine/Dvfs.lean ====
section
/-!
DEFINITION. Operating points (13, R336 to R345): the switch up and down at S(T), and the records of a deferral, an
abandonment and a shortfall.
-/

namespace Sys2Proof.Machine

open Sys2Proof

/-- The droop flag has been clear for 2 µs. -/
def droopQuiet (d : Dev) : Bool := !d.power.droopFlag && decide (d.power.droopClear + 2000 ≤ d.tick.time ∨ d.power.droopClear = 0)

/-- The voltage of a point has been acknowledged (R340): the rail holds at least the lower of the last voltage acknowledged
and every voltage requested since. -/
def pointAcked (d : Dev) (r : Nat) : Bool :=
  decide (pointMv r ≤ regFld d R.PWR_VDDC_MV 11 0) && (d.power.acked || decide (pointMv r ≤ d.power.lowMv))

/-- The fastest point r with q < r ≤ p, in speed, whose voltage is acknowledged (R341); points count down in speed. -/
def upTarget (d : Dev) (q p : Nat) : Option Nat :=
  (List.range 4).find? (fun r => decide (p ≤ r) && decide (r < q) && pointAcked d r)

/-- INFO of DVFS_DROOP and DVFS_SHORT (Table 15-5). -/
def dvfsInfo (inForce target : Nat) (abandoned : Bool) : BitVec 160 :=
  BitVec.ofNat 160 (inForce + 4 * target + (if abandoned then 16 else 0))

/-- Put a point in force: CCLK changes its rate. -/
def setPoint (r : Nat) (d : Dev) : Dev := setRegFld (markRate d) R.PWR_OP_SCHED 1 0 r

/-- Mark an up-step pending or not (PWR_OP_SCHED [6]). -/
def setUpPending (b : Bool) (p : Nat) (d : Dev) : Dev :=
  let d := setReg d R.PWR_OP_SCHED (setBit (getReg d R.PWR_OP_SCHED) 6 b)
  { d with power := { d.power with upPending := b, upTo := p } }

/-- A step that did not take place at S(T): counted and recorded (R341 to R343). -/
def dvfsMiss (target : Nat) (abandoned : Bool) (d : Dev) : Dev :=
  let d := bump d (if abandoned then R.PWR_DVFS_ABANDON_CNT else R.PWR_DVFS_DEFER_CNT)
  report { mkReport 0x02 unitPower with info := dvfsInfo (pointInForce d) target abandoned } d

/-- The voltage held beside the points of R339. -/
def holdVolt (mv : Nat) (d : Dev) : Dev := { d with power := { d.power with holdMv := mv } }

/-- The switch due at S(T) toward p(T) (R341, R342). The core target follows once the switch is decided (R339); DEDUCED (log
110): while an up-step waits for the droop flag, the voltage of p(T) stays requested. -/
def switchAt (p : Nat) (d : Dev) : Dev :=
  let q := pointInForce d
  let d := holdVolt 0 { d with power := { d.power with leftPoint := none } }
  if p < q then
    match upTarget d q p with
    | some r =>
      if droopQuiet d then requestCore (setPoint r d)
      else requestCore (holdVolt (pointMv p) (setUpPending true p (dvfsMiss p false d)))
    | none => requestCore (dvfsMiss p false d)
  else if q < p then
    if droopQuiet d then
      let d := setPoint p d
      requestCore { d with power := { d.power with leftPoint := some q } }
    else requestCore (dvfsMiss p true d)
  else requestCore d

/-- The pending up-step takes place once the droop flag has been clear for 2 µs (R341). -/
def upStep (d : Dev) : Dev :=
  match upTarget d (pointInForce d) d.power.upTo with
  | some r => requestCore (holdVolt 0 (setUpPending false 0 (setPoint r d)))
  | none => d

/-- The first instant from now on at which the droop flag has been clear for 2 µs. -/
def upStepAt (d : Dev) : Nat := max d.tick.time (d.power.droopClear + 2000)

/-- DVFS_UP_STEP (R341): the first cycle in which the droop flag has been clear for 2 µs lies before input close; where it does
not, the point in force stays for the tick. -/
def execDvfsUpStep (s : State) : Host.Outcome State Fault Refusal :=
  onDev (fun d => onlyIf (alive d && d.power.upPending && d.tick.inputOpen && !d.power.droopFlag &&
      decide (upStepAt d < d.tick.start + inputCloseNs d))
    (fun d => upStep (advanceTo (upStepAt d) d)) d) s

/-- At input close no up-step is pending any longer, and the voltage held for one is no longer needed (R341, R339). -/
def dropUpStep (d : Dev) : Dev :=
  if d.power.upPending then requestCore (holdVolt 0 (setUpPending false 0 d)) else d

end Sys2Proof.Machine
end

