-- ==== Sys2Proof/Machine/Tick.lean ====
section
/-!
DEFINITION. The phases of a tick (02, Table 02-1) and what each boundary does: ledgers and credit (R34 to R36), late
ticks (R46 to R49), deferred keeper writes, the cap cut (R349), keeper load (R388), worker reports (R391) and the
telemetry snapshot (R395).
-/

namespace Sys2Proof.Machine

open Sys2Proof

/-! ### Ledgers (R35, R36, R49, R349) -/

/-- f_mhz of the ledger of a tick whose point is p2 while the tick before it has p1 (R36). -/
def ledgerFreqOf (p1 p2 : Nat) : Nat := if p2 < p1 then pointMhz p1 else pointMhz p2

/-- Cycles of the window of R35 after the fixed 176. -/
def ledgerRaw (d : Dev) (f : Nat) : Nat :=
  ((getReg d R.TICK_PERIOD).toNat - (getReg d R.TICK_DRAIN_LEN).toNat - (getReg d R.TICK_BEACON_LEN).toNat -
    (getReg d R.TICK_INPUT_CLOSE).toNat) * 1000 * f / 1000 - 176

/-- The base of R35. -/
def ledgerBase (d : Dev) (f : Nat) : Nat := ledgerRaw d f * (1000 - regFld d R.ENT_SLACK_CFG 9 0) / 1000

/-- The scale of R35 for a ledger opened at S(n), after the late cut and then the cap cut. -/
def ledgerScale (d : Dev) (n : Nat) : Nat :=
  let s := regFld d R.ENT_CREDIT_SCALE 8 0
  let s := if d.ent.lateTick < n ∧ n < d.ent.lateEnd then s * (256 - regFld d R.ENT_LATE_CFG 8 0) / 256 else s
  if 0 < d.power.capLeft then s * (256 - regFld d R.PWR_CAP_CFG 8 0) / 256 else s

/-- The credit of R35. -/
def ledgerCredit (d : Dev) (f n budget : Nat) : Nat := ledgerBase d f * budget * ledgerScale d n / 65536

/-- Budget of the ledger of a tick: the queen's for this die by beacon, or the TICK_BUDGET register of a queen or
solo die; zero where no beacon brought one or the die is out of its domain (R56). -/
def budgetFor (d : Dev) (t : Nat) : Nat :=
  match tblFind d.tick.budgets t with
  | some b => b
  | none => if role d = 2 then 0 else regBudget d (dieIndex d).toNat

/-- Open the ledger of a tick at S(n). -/
def openLedger (t n : Nat) (budget : Nat) (d : Dev) : Dev :=
  let s := getReg d R.PWR_OP_SCHED
  let f := ledgerFreqOf (fld s 3 2) (fld s 5 4)
  let g : Ledger := {
    tick := t, credit := ledgerCredit d f n budget, base := ledgerBase d f, slack := ledgerRaw d f - ledgerBase d f }
  let d := setReg d R.ENT_OP_FREQ (BitVec.ofNat 32 f)
  { d with
    ent := { d.ent with ledgers := d.ent.ledgers ++ [g] }
    power := { d.power with ledgerFreq := tblPut (d.power.ledgerFreq.filter (fun e => decide (n ≤ e.1))) t f } }

/-- Ledgers opened at S(n): the ledger of n + 2, and at a worker's first tick that of n + 1 at zero credit (R371,
R372). Ledgers of a domain that the die has left hold no charge (R374) and are gone at the first tick. -/
def openLedgers (first : Bool) (n : Nat) (d : Dev) : Dev :=
  let d := { d with ent := { d.ent with
    ledgers := if first then [] else d.ent.ledgers.filter (fun g => decide (n ≤ g.tick)) } }
  let d := if first ∧ role d = 2 then openLedger (n + 1) n 0 d else d
  openLedger (n + 2) n (budgetFor d (n + 2)) d

/-! ### Tick start -/

/-- p(N + 2) is latched from PWR_OP_NEXT (R338). -/
def latchPoint (d : Dev) : Dev :=
  let s := getReg d R.PWR_OP_SCHED
  let s' := setFld (setFld s 3 2 (fld s 5 4)) 5 4 (regFld d R.PWR_OP_NEXT 1 0)
  setReg d R.PWR_OP_SCHED s'

/-- TICK_OUT rises at S(N) when OUT_EN is set (R330). -/
def tickOutRise (d : Dev) : Dev :=
  if bit (getReg d R.LNK_TICK_CFG) 0 then
    { d with tick := { d.tick with tickOut := true, tickOutRise := d.tick.start } }
  else d

/-- A tick without an accepted TICK_IN edge is counted (R331). -/
def countEdge (d : Dev) : Dev :=
  if d.tick.running ∧ bit (getReg d R.TICK_CFG) 2 ∧ ¬d.tick.edgeSeen then bump d R.LNK_TICKIN_MISS_CNT else d

/-- free_at of every express cell is reset to 176 (R52). -/
def expressReset (d : Dev) : Dev := (List.range 4).foldl (fun d e => setReg d (R.ENT_EXPRESS_FREE e) 176) d

/-- Cells whose arrays wait for their wave slot after the start of an execute phase: not the express lane's (R112, R114). -/
def waveCells (d : Dev) : List CellId := (List.finRange 64).filter (fun c => !(expressEn d && decide (c.val < 4)))

/-- The cells whose arrays wait for their wave slot from S(N) on: those of the start, and those that still wait, as the express
lane's do after a halt (R112, R114, R347). -/
def startWaves (d : Dev) : List CellId :=
  (List.finRange 64).filter (fun c => (waveCells d).contains c || d.tick.waves.contains c)

/-- One of the ticks that a cap cut covers has opened its ledgers (R349). -/
def capTick (d : Dev) : Dev := { d with power := { d.power with capLeft := d.power.capLeft - 1 } }

/-- The retries of each module and lane count anew in a tick (R307). -/
def retriesAnew (d : Dev) : Dev :=
  (List.finRange 6).foldl (fun d p => setPort d p { getPort d p with retries := [] }) d

/-- Ports with RETRAIN_PEND retrain in a drain phase that starts now (R307). -/
def retrainsDue (d : Dev) : Dev :=
  (List.finRange 6).foldl (fun d p =>
    if bit (getReg d (R.LNK_STATUS p.val)) 4 then setPort d p { getPort d p with retrainDue := true } else d) d

/-- TICK_START at S(N). -/
def tickStart (d : Dev) : Dev :=
  let n := nextNum d
  let first := !d.tick.running
  let alone := d.tick.missed || (decide (role d = 2) && decide (d.tick.lastBeacon ≠ n))
  let d := countEdge (advanceTo (nextStart d) d)
  let p := regFld d R.PWR_OP_SCHED 3 2
  let d := { d with tick := { d.tick with
    running := true, start := nextStart d, num := n, phase := .execute, admitOpen := true, inputOpen := true,
    member := d.tick.member || first, missed := false, alone := alone, edgeSeen := false,
    echoAge := d.tick.echoAge + 1,
    budgets := d.tick.budgets.filter (fun e => decide (n + 2 ≤ e.1)) } }
  let d := setUpPending false 0 (latchPoint d)
  let d := capTick (openLedgers first n d)
  let d := switchAt p d
  let d := { d with
    tick := { d.tick with startPoint := pointInForce d, waves := startWaves d, fromWinter := false }
    tel := { d.tel with stallTick := [] } }
  tickOutRise (wgtActivate n (expressReset (retriesAnew d)))

/-- TICK_START (R35): the die is locked (R375), S(N) is known and the previous tick's beacon phase has run. -/
def execTickStart (s : State) : Host.Outcome State Fault Refusal :=
  onDev (fun d => onlyIf (alive d && d.tick.joined && !d.tick.joining && locked d &&
    (!d.tick.running || decide (d.tick.phase = .beacon))) tickStart d) s

/-! ### Input close and admit close -/

/-- Ordinary work of the tick starts below the frequency of its ledger (R345). -/
def dvfsShort (d : Dev) : Dev :=
  let f := tblGet 0 d.power.ledgerFreq d.tick.num
  if freqMhz d < f ∧ d.ent.tokens.any (fun t => decide (t.tick = d.tick.num) &&
      !(expressEn d && decide (t.cell.val < 4))) then
    report { mkReport 0x03 unitPower with
        info := dvfsInfo (pointInForce d) ((List.range 4).find? (fun p => decide (pointMhz p = f)) |>.getD 0) false }
      (bump d R.PWR_DVFS_SHORT_CNT)
  else d

/-- INPUT_CLOSE (R33, R341, R345). -/
def execInputClose (s : State) : Host.Outcome State Fault Refusal :=
  onDev (fun d => onlyIf (alive d && inExecute d && d.tick.inputOpen) (fun d =>
    let d := advanceTo (d.tick.start + inputCloseNs d) d
    dvfsShort (dropUpStep { d with tick := { d.tick with inputOpen := false } })) d) s

/-- The ledger of tick N + 1 closes (R34). -/
def closeLedger (t : Nat) (d : Dev) : Dev :=
  { d with ent := { d.ent with
    ledgers := d.ent.ledgers.map (fun g => if g.tick ≤ t then { g with isOpen := false } else g) } }

/-- ADMIT_CLOSE (R34). -/
def execAdmitClose (s : State) : Host.Outcome State Fault Refusal :=
  onDev (fun d => onlyIf (alive d && inExecute d && d.tick.admitOpen && !d.tick.inputOpen) (fun d =>
    let d := advanceTo (d.tick.start + admitCloseNs d) d
    closeLedger (d.tick.num + 1) { d with tick := { d.tick with admitOpen := false } }) d) s

/-! ### Drain start (R46 to R49, R27, R84) -/

/-- Cells that have work of a tick unfinished: a token of it, or on the cell that gives the result the record of a request
of it (R31, R46). -/
def lateCells (d : Dev) (n : Nat) : List CellId :=
  (List.finRange 64).filter (fun c => !cellDone d c n)

/-- The tick becomes late where some cell still has work of it (R48, R49). -/
def markLate (d : Dev) : Dev :=
  let n := d.tick.num
  let cells := lateCells d n
  let d := { d with ent := { d.ent with late := d.ent.late.filter (fun l => !l.taken) } }
  if cells.isEmpty then d
  else
    let d := bump d R.TICK_LATE_CNT
    { d with ent := { d.ent with
      late := d.ent.late ++ [{ tick := n, drainCyc := ccount d - (d.tick.time - (d.tick.start + drainStartNs d)) * clockRate d,
                                cells := cells, stalls := d.tel.stallTick }]
      lateTick := n
      lateEnd := n + regFld d R.ENT_LATE_CFG 23 16 + 1 } }

/-- A drain start has come for a running entry attempt whose blocks have not granted yet (R354, R355). -/
def attemptDue (d : Dev) : Dev :=
  { d with power := { d.power with attempt := d.power.attempt.map (fun a => { a with due := true }) } }

/-- DRAIN_START (R27, R46, R49, R73, R84, R354). -/
def execDrainStart (s : State) : Host.Outcome State Fault Refusal :=
  onDev (fun d => onlyIf (alive d && inExecute d && !d.tick.admitOpen) (fun d =>
    let d := advanceTo (d.tick.start + drainStartNs d) d
    let d := markLate { d with tick := { d.tick with phase := .drain } }
    let d := retrainsDue (applyDeferred d)
    let d := { d with
      ent := { d.ent with cmdUsed := 0, cmdRing := none, cmdBlocked := [] }, mem := { d.mem with gateRefused := [] } }
    drainBegins (attemptDue d)) d) s

/-! ### Beacon start (R388, R349, R391, R395) -/

/-- RAIL and MEAS of a regulator map entry (Table 13-2). -/
def rmapRail (d : Dev) (i : Nat) : Nat := regFld d (R.PWR_RMAP i) 2 0
def rmapMeas (d : Dev) (i : Nat) : Bool := bit (getReg d (R.PWR_RMAP i)) 24
def rmapAvs (d : Dev) (i : Nat) : Bool := bit (getReg d (R.PWR_RMAP i)) 3

/-- Die power: the latest power of every MEAS entry (R337). -/
def diePower (d : Dev) : Nat :=
  ((List.range 16).filter (rmapMeas d)).foldl (fun x i => x + (getReg d (R.PWR_RMAP_MW i)).toNat) 0

/-- Mean die power since the last beacon start (R337); with no sample since, the die power has stayed as it is. -/
def takeTickPower (d : Dev) : Dev :=
  let mean := if d.power.samples = 0 then diePower d else d.power.sumMw / d.power.samples
  let d := setReg d R.PWR_TICK_MW (BitVec.ofNat 32 mean)
  { d with power := { d.power with sumMw := 0, samples := 0 } }

/-- A trigger of the cap cut (R349): the ledgers opened during the next HOLD ticks. -/
def capCut (d : Dev) : Dev :=
  let d := bump d R.PWR_CAP_CUT_CNT
  { d with power := { d.power with capLeft := regFld d R.PWR_CAP_CFG 23 16 } }

/-- R349 at the beacon start. -/
def capCheck (d : Dev) : Dev :=
  if (getReg d R.PWR_TICK_MW).toNat > (getReg d R.PWR_CAP_MW).toNat ∨
      regFld d R.PWR_TEMP_MAX 11 0 ≥ regFld d R.PWR_THERM_CFG 11 0 then capCut d
  else d

/-- KPR_BUSY and KPR_LOAD at the beacon start (R388); `busy` is the measured share, per mille. -/
def keeperLoad (busy : Nat) (d : Dev) : Dev :=
  let b := min busy 1000
  let d := setReg d R.KPR_BUSY (BitVec.ofNat 32 b)
  let level := regFld d R.KPR_LOAD 1 0
  let good := regFld d R.KPR_LOAD 11 8
  if b > regFld d R.KPR_DUTY_CFG 9 0 ∨ getReg d R.TEL_RPT_DONE ≠ BitVec.ofNat 32 d.tick.num then
    setReg (bump d R.KPR_OVERRUN_CNT) R.KPR_LOAD (BitVec.ofNat 32 (min 3 (level + 1)))
  else if good + 1 ≥ regFld d R.KPR_DUTY_CFG 19 16 then setReg d R.KPR_LOAD (BitVec.ofNat 32 (level - 1))
  else setReg d R.KPR_LOAD (BitVec.ofNat 32 (level + (good + 1) * 256))

/-- The interval's figures join the telemetry accumulators. -/
def accumulate (d : Dev) : Dev :=
  { d with tel := { d.tel with
    creditPm := max d.tel.creditPm (creditPm d d.tick.num)
    slackPm := max d.tel.slackPm (slackPm d)
    overrun := max d.tel.overrun d.tel.overrunInt
    powerSum := d.tel.powerSum + (getReg d R.PWR_TICK_MW).toNat
    span := d.tel.span + 1
    tempMax := max d.tel.tempMax (regFld d R.PWR_TEMP_MAX 11 0) } }

/-- A new report interval begins. -/
def newInterval (d : Dev) : Dev :=
  { d with tel := { d.tel with stallInt := [], errCorrInt := 0, errContInt := 0, overrunInt := 0 } }

/-- The snapshot of R395: the accumulators are copied to the TEL registers and cleared. -/
def snapshot (d : Dev) : Dev :=
  let t := d.tel
  let w (off v : Nat) (d : Dev) : Dev := setReg d off (BitVec.ofNat 32 (min v 0xFFFFFFFF))
  let d := setReg64 d R.TEL_SNAP_TICK_LO R.TEL_SNAP_TICK_HI d.tick.num
  let d := setReg d R.TEL_SNAP_SPAN (BitVec.ofNat 32 (min t.span 255))
  let d := w R.TEL_DONE_CNT t.done (w R.TEL_LATE_CNT t.late (w R.TEL_FAIL_CNT t.fail d))
  let d := w R.TEL_DONE_MAX_NS t.doneMaxNs (w R.TEL_CREDIT_PM t.creditPm (w R.TEL_SLACK_PM t.slackPm d))
  let d := w R.TEL_OVERRUN t.overrun (w R.TEL_POWER_MW (t.powerSum / t.span) (w R.TEL_TEMP_MAX t.tempMax d))
  let d := w R.TEL_ERR_CORR t.errCorr (w R.TEL_ERR_CONT t.errCont d)
  let d := (List.range 256).foldl (fun d i => w (R.TEL_STALL (i / 4) (i % 4)) (tblGet 0 t.stall i) d) d
  { d with tel := { d.tel with
      done := 0, late := 0, fail := 0, doneMaxNs := 0, creditPm := 0, slackPm := 0, overrun := 0, powerSum := 0, span := 0,
      tempMax := 0, errCorr := 0, errCont := 0, stall := [] } }

/-- The snapshot is due at this tick: every 2^(SHIFT + LEVEL)-th (R395). -/
def snapshotDue (d : Dev) : Bool :=
  decide (d.tick.num % 2 ^ (regFld d R.TEL_CFG 2 0 + regFld d R.KPR_LOAD 1 0) = 0)

/-- The queen's books of an interval: TEL_RPT_SEEN, and the silence of each other die of the domain (R392). -/
def queenBooks (d : Dev) : Dev :=
  if role d ≠ 1 then d
  else
    let size := (getReg d R.TICK_DOMAIN_SIZE).toNat
    let saw (i : Nat) : Bool := d.tel.seen.any (fun x => decide (x.toNat = i))
    let silent := (List.range size).foldl (fun t i =>
      if i = (dieIndex d).toNat then t else tblSet 0 t i (if saw i then 0 else tblGet 0 t i + 1)) d.tel.silent
    let d := (List.range 16).foldl (fun d m =>
      setReg d (R.TEL_RPT_SEEN m) ((List.range 32).foldl (fun w b => setBit w b (saw (32 * m + b))) 0)) d
    { d with tel := { d.tel with silent := silent, seen := [] } }

/-- The queen sends the beacon of the next tick and keeps its own budget of it (Table 02-10). -/
def queenBeacon (d : Dev) : Dev :=
  let k := d.tick.num + 1
  let d := { d with tick := { d.tick with
    budgets := tblPut d.tick.budgets (k + 2) (regBudget d (dieIndex d).toNat) } }
  let d := wgtReceiveActs k (wactEntries d) d
  retireActs k (forwardBeacon (beaconBytes d k (nextStart d)) d)

/-- BEACON_START (R349, R388, R391, R395). -/
def execBeaconStart (busyPm : Nat) (s : State) : Host.Outcome State Fault Refusal :=
  onDev (fun d => onlyIf (alive d && inDrain d) (fun d =>
    let d := advanceTo (d.tick.start + beaconStartNs d) d
    let d := serveResends (drainEnds { d with tick := { d.tick with phase := .beacon } })
    let d := capCheck (takeTickPower d)
    let d := keeperLoad busyPm d
    let d := if role d = 2 then sendReport (!d.tick.member) d else queenBeacon d
    let d := newInterval (queenBooks (accumulate d))
    if snapshotDue d then snapshot d else d) d) s

end Sys2Proof.Machine
end

