-- ==== Sys2Proof/Machine/Power.lean ====
section
/-!
DEFINITION. The power controller (13): droop, voltage acknowledgement, regulators, measurement, and the power states
with their entry and exit.
-/

namespace Sys2Proof.Machine

open Sys2Proof

/-! ### Droop (R342, R346, R347) -/

/-- Add stall cycles of a cause to every cell with a running token (Table 15-5 order: 0 HBM refresh, 1 link retry,
2 droop stretch, 3 unplanned restart). -/
def stallRunning (cause cycles : Nat) (d : Dev) : Dev :=
  ((List.finRange 64).filter (fun c =>
    d.ent.tokens.any (fun t => decide (t.cell = c) && decide (t.st = .running)))).foldl (fun d c =>
      addStall c cause cycles d) d

/-- The droop flag rises after a down-step whose lower voltage is not acknowledged: the voltage of the point left is
requested again and held until the next tick start (R342). DESIGN CHOICE (log 110): the record's target point is the point
left. -/
def abandonDown (d : Dev) : Dev :=
  match d.power.leftPoint with
  | none => d
  | some q =>
    if d.power.acked then d
    else
      let d := dvfsMiss q true d
      requestCore { d with power := { d.power with leftPoint := none, holdMv := pointMv q } }

/-- DROOP_CROSSING (R346). -/
def execDroopCrossing (s : State) : Host.Outcome State Fault Refusal :=
  onDev (fun d => onlyIf (alive d && !d.power.stretching) (fun d =>
    let d := markRate d
    let d := bump { d with power := { d.power with
      stretching := true, stretchStart := d.tick.time, droopFlag := true } } R.PWR_DROOP_CNT
    abandonDown d) d) s

/-- STRETCH_END (R346): every detector has stayed above the threshold for HOLD of the stretched cycles. -/
def execStretchEnd (cycles : Nat) (s : State) : Host.Outcome State Fault Refusal :=
  onDev (fun d => onlyIf (alive d && d.power.stretching && decide (regFld d R.PWR_DROOP_CFG 27 16 ≤ cycles)) (fun d =>
    let d := markRate (advanceTo (d.power.stretchStart + 2 * cycles * 1000 / freqMhz d) d)
    let d := stallRunning 2 cycles (bump64 d R.PWR_STRETCH_LO R.PWR_STRETCH_HI cycles)
    { d with power := { d.power with
      stretching := false, droopFlag := false, droopClear := d.tick.time } }) d) s

/-- ARRAY_HALT (R347): every array's next first broadcast waits for its wave slot (R112, R114). -/
def execArrayHalt (s : State) : Host.Outcome State Fault Refusal :=
  onDev (fun d => onlyIf (alive d && !d.power.halted) (fun d =>
    report (mkReport 0x04 unitPower)
      (bump { d with power := { d.power with halted := true }, tick := { d.tick with waves := List.finRange 64 } }
        R.PWR_HALT_CNT)) d) s

/-- HALT_END (R347, R112): the droop flag has been clear for 2 µs; the restart is staggered by wave slot. -/
def execHaltEnd (s : State) : Host.Outcome State Fault Refusal :=
  onDev (fun d => onlyIf (alive d && d.power.halted && !d.power.droopFlag) (fun d =>
    let d := if d.power.droopClear = 0 then d else advanceTo (d.power.droopClear + 2000) d
    stallRunning 3 128 { d with power := { d.power with halted := false } }) d) s

/-! ### Voltage (R340) -/

/-- VOLTAGE_ACK (R340): transition complete and a voltage read within 10 mV of the request. -/
def execVoltageAck (mv : Nat) (s : State) : Host.Outcome State Fault Refusal :=
  onDev (fun d => onlyIf (alive d && !d.power.acked && decide (mv ≤ d.power.reqMv + 10) &&
      decide (d.power.reqMv ≤ mv + 10)) (fun d =>
    setReg { d with power := { d.power with acked := true, leftPoint := none } } R.PWR_VDDC_MV
      (BitVec.ofNat 32 d.power.reqMv)) d) s

/-- VOLT_ACK_TIMEOUT (R340). -/
def execVoltAckTimeout (s : State) : Host.Outcome State Fault Refusal :=
  onDev (fun d => onlyIf (alive d && !d.power.acked && !d.power.ackMissed) (fun d =>
    let d := advanceTo (d.power.reqTime + 1000 * regFld d R.PWR_ACK_TIMEOUT 15 0) d
    report (mkReport 0x32 unitPower) { d with power := { d.power with ackMissed := true } }) d) s

/-! ### Regulators and measurement (R337, R350) -/

/-- STATUS_WORD bits that report a fault (PRESUMED from PMBus 1.3, log 8). -/
def statusFault (w : BitVec 16) : Bool := decide (w &&& 0x0078 ≠ 0)

/-- The STATUS_WORD bit of a lost power-good (PRESUMED from PMBus 1.3, log 8). -/
def powerGoodLost (w : BitVec 16) : Bool := w.getLsbD 11

/-- STATUS_WORD bits that report a warning of voltage, current, temperature or input power (PRESUMED, log 8). -/
def statusWarn (w : BitVec 16) : Bool := decide (w &&& 0xE004 ≠ 0)

/-- An alert that is fatal (R350): no answer, a fault bit, or power-good lost on a rail of the die; the input converter feeds
no rail of its own. -/
def regulatorFault (d : Dev) (i : Nat) (w : BitVec 16) (answered : Bool) : Bool :=
  !answered || statusFault w || (powerGoodLost w && decide (1 ≤ rmapRail d i) && decide (rmapRail d i ≤ 5))

/-- INFO of REG_WARN and REG_FAULT (Table 15-5). -/
def regInfo (i : Fin 16) (w : BitVec 16) : BitVec 160 := BitVec.ofNat 160 (i.val + w.toNat * 2 ^ 32)

/-- A warning bit: counted, recorded, and a trigger of the cap cut (R349, R350). -/
def regulatorWarns (index : Fin 16) (status : BitVec 16) (d : Dev) : Dev :=
  capCut (report { mkReport 0x05 unitPower with info := regInfo index status } (bump d R.PWR_ALERT_CNT))

/-- PM_ALERT (R350): the alerting entry of the regulator map, its STATUS_WORD, and whether it answered. A word with both kinds
of bit has both effects; DESIGN CHOICE (log 111): the warning's come first. -/
def execPmAlert (index : Fin 16) (status : BitVec 16) (answered : Bool) (s : State) :
    Host.Outcome State Fault Refusal :=
  onDev (fun d => onlyIf (alive d) (fun d =>
    let d := if answered && statusWarn status then regulatorWarns index status d else d
    if regulatorFault d index.val status answered then
      report { mkReport 0x40 unitPower with info := regInfo index (if answered then status else 0) } d
    else d) d) s

/-- The AVSBus entry of VDDC (R334, R337). -/
def rmapCore (d : Dev) (i : Nat) : Bool := rmapAvs d i && decide (rmapRail d i = 1)

/-- The next entry, after `poll`, whose READ_POUT is polled: a MEAS entry other than VDDC's. -/
def nextPolled (d : Dev) : Option Nat :=
  (List.range 16).map (fun k => (d.power.poll + 1 + k) % 16)
    |>.find? (fun i => rmapMeas d i && !rmapCore d i && decide (rmapRail d i ≠ 0))

/-- Hottest of the 32 sensors. -/
def hottest (d : Dev) : Nat := (List.range 32).foldl (fun m i => max m (regFld d (R.PWR_TEMP i) 11 0)) 0

/-- A sensor reading. -/
def readSensor (i temp : Nat) (d : Dev) : Dev :=
  let d := setReg d (R.PWR_TEMP i) (BitVec.ofNat 32 (temp % 4096))
  setReg d R.PWR_TEMP_MAX (BitVec.ofNat 32 (hottest d))

/-- THERM_TRIP_N goes low and stays so until power-on reset, and the die escalates THERM_TRIP (R332). -/
def thermTrip (d : Dev) : Dev := report (mkReport 0x41 unitPower) { d with die := { d.die with thermTripLow := true } }

/-- A sensor reads 115 °C or more, in units of 0.125 °C (R332). -/
def tripTemp : Nat := 920

/-- POWER_SAMPLE (R337): an AVSBus current and voltage read, READ_POUT of the entry polled, READ_PIN of a BUS entry,
and one sensor, whose reading may trip (R332). -/
def execPowerSample (ma mv pout pin : Nat) (sensor : Fin 32) (temp : BitVec 12) (s : State) :
    Host.Outcome State Fault Refusal :=
  onDev (fun d => onlyIf (alive d) (fun d =>
    let d := match (List.range 16).find? (rmapCore d) with
      | some i => setReg d (R.PWR_RMAP_MW i) (BitVec.ofNat 32 (ma * mv / 1000))
      | none => d
    let d := match nextPolled d with
      | some i => { setReg d (R.PWR_RMAP_MW i) (BitVec.ofNat 32 pout) with power := { d.power with poll := i } }
      | none => d
    let d := match (List.range 16).find? (fun i => decide (rmapRail d i = 6)) with
      | some i => setReg (setReg d (R.PWR_RMAP_MW i) (BitVec.ofNat 32 pin)) R.PWR_BUS_MW (BitVec.ofNat 32 pin)
      | none => d
    let d := readSensor sensor.val temp.toNat d
    let d := { d with power := { d.power with sumMw := d.power.sumMw + diePower d, samples := d.power.samples + 1 } }
    if tripTemp ≤ temp.toNat then thermTrip d else d) d) s

/-- THERM_TRIP (R332): in hardware, whether or not the pin is low already. -/
def execThermTrip (sensor : Fin 32) (s : State) : Host.Outcome State Fault Refusal :=
  onDev (fun d => onlyIf (!d.die.porstLow && decide (powerState d ≠ 3)) (fun d =>
    thermTrip (readSensor sensor.val (max tripTemp (regFld d (R.PWR_TEMP sensor.val) 11 0)) d)) d) s

/-- CLOCK_LOSS (Table 15-2, R385): REFCLK absent for 1 µs, or a PLL out of lock after structural lock. -/
def execClockLoss (refclk : Bool) (s : State) : Host.Outcome State Fault Refusal :=
  onDev (fun d => onlyIf (alive d && (refclk || locked d)) (report (mkReport 0x46 unitPower)) d) s

/-! ### Entry to a power state (R355, Table 13-6, Table 13-7) -/

/-- A unit of cell memory, or of hive memory, is WIPING. -/
def cellWiping (d : Dev) : Bool := d.mem.tags.any (fun e => decide (e.1 < 65536) && e.2.isWiping)
def hiveWiping (d : Dev) : Bool := d.mem.tags.any (fun e => decide (65536 ≤ e.1) && e.2.isWiping)

/-- Ports whose RETRAIN_PEND is set. -/
def somePend (d : Dev) : Bool := (List.range 6).any (fun p => bit (getReg d (R.LNK_STATUS p)) 4)

/-- Every block's refusal under Table 13-6, in ascending block index, keeper apart: block and reason. -/
def blockRefusals (d : Dev) (t : Nat) : List (Nat × Nat) :=
  (if d.ent.ledgers.any (fun g => g.isOpen && decide (ledgerCharged g ≠ 0)) then [(0, 0x01)]
   else if t ≥ 2 ∧ expressEn d ∧ someHot d then [(0, 0x02)]
   else if t ≥ 2 ∧ !wgtAllIdle d then [(0, 0x03)]
   else if t = 3 ∧ (enabledRings d).any (fun r => !ringIsCmd d r && decide (ringPending d r ≠ 0)) then [(0, 0x04)]
   else []) ++
  (if t = 2 ∧ (List.finRange 64).any (fun c => (List.range 8).any (fun b =>
      !bankRet d c b && (tenantsIn d 1).any (fun x => mapsBank d x c b))) then [(1, 0x08)] else []) ++
  (if t = 3 ∧ (List.finRange 6).any (fun p => !(getPort d p).waits.isEmpty) then [(5, 0x0B)] else []) ++
  (if t = 3 ∧ role d = 1 ∧ (getReg d R.TICK_DOMAIN_SIZE).toNat > 1 then [(6, 0x0D)] else []) ++
  (if t = 3 ∧ !d.guard.queue.isEmpty then [(8, 0x0F)] else [])

/-- Every block's delay under Table 13-6, keeper apart. -/
def blockDelays (d : Dev) (t : Nat) : List (Nat × Nat) :=
  (if (enabledRings d).any (fun r => ringIsCmd d r && decide (ringUsed d r ≠ 0)) then [(0, 0x05)] else []) ++
  (if d.ent.tokens.any (fun k => decide (k.st ≠ .finished)) then [(1, 0x06)]
   else if cellWiping d then [(1, 0x07)] else []) ++
  (if t ≥ 2 ∧ cacheBusy d then [(2, 0x09)] else []) ++
  (if t ≥ 2 ∧ hiveWiping d then [(3, 0x07)] else []) ++
  (if t ≥ 2 ∧ hbmBusy d then [(4, 0x0A)] else []) ++
  (if t ≥ 2 ∧ somePend d then [(5, 0x0C)] else [])

/-- Record the outcome of an attempt (PWR_STATE_STATUS). -/
def setStateStatus (outcome block reason ap src : Nat) (d : Dev) : Dev :=
  setReg d R.PWR_STATE_STATUS
    (BitVec.ofNat 32 (outcome + block * 16 + reason * 256 + ap * 65536 + src * 16777216))

/-- The attempt ends refused by a block. -/
def refuseEntry (b reason : Nat) (d : Dev) : Dev := setStateStatus 2 b reason 0 0 (endAttempt d)

/-- All answers are in, the keeper's being its vote (none and DELAY: a delay): R355. -/
def concludeAsk (a : Attempt) (d : Dev) : Dev :=
  let vote := regFld d R.PWR_KPR_VOTE 1 0
  let refusals := a.answers.filter (fun x => x.2.1) ++ (if vote = 3 then [(7, true, 0x0E)] else [])
  let delays := a.answers.filter (fun x => !x.2.1) ++ (if vote = 0 ∨ vote = 2 then [(7, false, 0x0E)] else [])
  let first (l : List (Nat × Bool × Nat)) : Option (Nat × Bool × Nat) := l.find? (fun x => l.all (fun y => decide (x.1 ≤ y.1)))
  match first refusals with
  | some (b, _, reason) => bump (refuseEntry b reason d) (R.PWR_REFUSE_CNT b)
  | none =>
    match first delays with
    | some (b, _, _) =>
      if a.delays + 1 ≥ regFld d R.PWR_ENTRY_CFG 3 0 then refuseEntry b 0x10 d
      else { d with power := { d.power with attempt := some { a with
        asked := none, answers := [], delays := a.delays + 1 } } }
    | none =>
      let d := setReg d R.PWR_STATE (setFld (getReg d R.PWR_STATE) 4 2 1)
      { d with power := { d.power with attempt := some { a with asked := none, answers := [], step := 1 } } }

/-- POWER_ENTRY_ATTEMPT (R355): the blocks are asked at a drain start, once per drain phase; the vote is cleared. -/
def execPowerEntryAttempt (s : State) : Host.Outcome State Fault Refusal :=
  onDev (fun d =>
    match d.power.attempt with
    | none => d
    | some a => onlyIf (alive d && inDrain d && decide (a.step = 0) && a.asked.isNone &&
        a.due) (fun d =>
      let d := setReg d R.PWR_KPR_VOTE 0
      let ans := (blockRefusals d a.target).map (fun x => (x.1, true, x.2)) ++
        (blockDelays d a.target).map (fun x => (x.1, false, x.2))
      { d with power := { d.power with attempt := some { a with
        due := false, asked := some d.tick.time, answers := ans } } }) d) s

/-- The keeper's vote has been written while the power controller waits for it. -/
def voteArrived (d : Dev) : Dev :=
  match d.power.attempt with
  | none => d
  | some a => if a.asked.isSome && decide (regFld d R.PWR_KPR_VOTE 1 0 ≠ 0) then concludeAsk a d else d

/-- PWR_KPR_VOTE_WRITE (R355): the keeper block's answer to a running attempt. -/
def execPwrKprVoteWrite (path : Path) (val : W32) (s : State) : Host.Outcome State Fault Refusal :=
  onDev (fun d => voteArrived (writeAny path R.PWR_KPR_VOTE 4 val d)) s

/-- KPR_WAIT_EXPIRY (R355): no vote within KPR_WAIT counts as a delay. -/
def execKprWaitExpiry (s : State) : Host.Outcome State Fault Refusal :=
  onDev (fun d =>
    match d.power.attempt with
    | none => d
    | some a =>
      match a.asked with
      | none => d
      | some t => onlyIf (alive d && decide (regFld d R.PWR_KPR_VOTE 1 0 = 0)) (fun d =>
          concludeAsk a (advanceTo (t + 1000 * regFld d R.PWR_ENTRY_CFG 15 8) d)) d) s

/-- Set the entry step shown and kept. -/
def setStep (a : Attempt) (k : Nat) (d : Dev) : Dev :=
  let d := setReg d R.PWR_STATE (setFld (getReg d R.PWR_STATE) 4 2 k)
  { d with power := { d.power with attempt := some { a with step := k } } }

/-- The state is reached: the attempt ends with outcome entered. -/
def reachState (st : Nat) (d : Dev) : Dev :=
  let d := setStateStatus 1 0 0 0 0 (endAttempt d)
  setReg d R.PWR_STATE (setFld (getReg d R.PWR_STATE) 1 0 st)

/-- Every stack in self-refresh or out of it (HBM_STATUS [4]). -/
def selfRefresh (b : Bool) (d : Dev) : Dev :=
  (List.range 8).foldl (fun d k => setReg d (R.HBM_STATUS k) (setBit (getReg d (R.HBM_STATUS k)) 4 b)) d

/-- A bank's contents are lost: its units hold zeros and are CLEAN (R274). -/
def loseBank (c : CellId) (b : Nat) (d : Dev) : Dev :=
  { d with mem := { d.mem with
    cm := tblClear d.mem.cm (cmBase c + 0x80000 * b) 0x80000
    tags := tblClear d.mem.tags (1024 * c.val + 128 * b) 128
    badCm := d.mem.badCm.filter (fun x => decide (x / 0x8000 ≠ 8 * c.val + b)) } }

/-- A band's contents are lost. -/
def loseBand (k : Nat) (d : Dev) : Dev :=
  { d with mem := { d.mem with
    hive := tblClear d.mem.hive (0x1000000 * k) 0x1000000
    tags := tblClear d.mem.tags (65536 + 4096 * k) 4096
    badHive := d.mem.badHive.filter (fun x => decide (x / 0x100000 ≠ k)) } }

/-- No bank or band is CLOSING or WAKING. -/
def banksSettled (d : Dev) : Bool :=
  (List.finRange 64).all (fun c => (List.range 8).all (fun b => decide (bankState d c b % 2 = 0))) &&
    (List.range 7).all (fun k => decide (bandState d k % 2 = 0))

/-- D3: cells power-gated; the banks with RET 0 lose their contents and are off; stacks into self-refresh. -/
def enterDoze (d : Dev) : Dev :=
  let d := (List.finRange 64).foldl (fun d c => (List.range 8).foldl (fun d b =>
    if bankRet d c b then d else setBankState (loseBank c b d) c b 2) d) d
  reachState 2 (selfRefresh true (cellsLost d))

/-- W4: the die leaves its domain, links go down, stacks into self-refresh and the switched rails off. -/
def enterWinter (d : Dev) : Dev :=
  let d := if role d = 2 ∧ d.tick.member then sendReport true d else d
  let d := { d with tick := { d.tick with
    member := false, joined := false, running := false, joining := false, fromWinter := true, admitOpen := false, inputOpen := false,
    phase := .execute, num := d.tick.num + 1, leaveDue := false, tickOut := false } }
  let d := (List.finRange 6).foldl (fun d p =>
    let x := (byClass (getPort d p).held).foldl (fun x f => putOut p f x) (getPort d p)
    setPort (setReg d (R.LNK_STATUS p.val) 0) p
      { tx := x.tx, trailers := x.trailers, nacks := x.nacks, sent := x.sent, rcvd := x.rcvd, nextTag := x.nextTag }) d
  let d := bump (selfRefresh true (cellsLost d)) R.WIN_ENTRY_CNT
  reachState 3 { d with
    power := { d.power with railsOn := false, stretching := false, droopFlag := false, halted := false,
                            upPending := false }
    keeper := { d.keeper with running := false } }

/-- POWER_ENTRY_STEP (R355, Table 13-7): the next step after the handshake, W3 apart; a wake event met before it makes
the abort point act instead. -/
def execPowerEntryStep (s : State) : Host.Outcome State Fault Refusal :=
  onDev (fun d =>
    match d.power.attempt with
    | none => d
    | some a => onlyIf (alive d && a.wake.isNone && decide (1 ≤ a.step)) (fun d =>
      match a.target, a.step with
      | 1, _ => reachState 1 d
      | 2, 1 => if banksSettled d then setStep a 2 d else d
      | 2, _ => enterDoze d
      | _, 1 => if banksSettled d then setStep a 2 d else d
      | _, 3 => enterWinter d
      | _, _ => d) d) s

/-- Base of the range of the winter image, a multiple of 2 MiB (R358). -/
def imageBase (d : Dev) : Nat := getReg64 d R.WIN_SAVE_BASE_LO R.WIN_SAVE_BASE_HI / 0x200000 * 0x200000

/-- The winter image fills its range of HBM: the range's bytes are the image's, each of its units written and good. The spec
gives the image's content and no order of it, so each byte is free (log 107). -/
def writeImage (d : Dev) : Dev :=
  let base := imageBase d
  { d with mem := { d.mem with
      hbm := tblClear d.mem.hbm base 0x22000000
      hbmKey := tblClear d.mem.hbmKey (base / 64) 0x880000
      badHbm := d.mem.badHbm.filter (fun x => decide (x < base / 64) || decide (base / 64 + 0x880000 ≤ x))
      imageAt := some base
      images := d.mem.images + 1 } }

/-- WINTER_IMAGE_WRITE (R358): entry step W3. -/
def execWinterImageWrite (s : State) : Host.Outcome State Fault Refusal :=
  onDev (fun d =>
    match d.power.attempt with
    | none => d
    | some a => onlyIf (alive d && a.wake.isNone && decide (a.target = 3) && decide (a.step = 2)) (fun d =>
        setStep a 3 (writeImage { d with power := { d.power with imageWritten := true } })) d) s

/-- ENTRY_ABORT (R356): at the abort point after the step that a wake event found running. -/
def execEntryAbort (s : State) : Host.Outcome State Fault Refusal :=
  onDev (fun d =>
    match d.power.attempt with
    | none => d
    | some a =>
      match a.wake with
      | none => d
      | some src => onlyIf (alive d && decide (1 ≤ a.step)) (fun d =>
          let d := bump (setStateStatus 3 0 0 a.step src (endAttempt d)) R.PWR_ABORT_CNT
          { d with power := { d.power with imageWritten := false } }) d) s

/-! ### Exit (R359, R360, Table 13-8) -/

/-- Leave Winter by an enabled source: recorded in WIN_WAKE_SRC, the six restore steps begin. -/
def leaveWinter (b : Nat) (d : Dev) : Dev :=
  let d := setReg d R.WIN_WAKE_SRC (setBit (getReg d R.WIN_WAKE_SRC) b true)
  { d with power := { d.power with restore := [10, 11, 12, 13, 14, 15] } }

/-- In Winter with no exit under way. -/
def asleep (d : Dev) : Bool := powered d && !d.guard.stopped && decide (powerState d = 3) && d.power.restore.isEmpty

/-- An enabled comparator or address match meets its condition: its bit of WIN_WAKE_SRC, and the die at that moment (R360). -/
def wakeMatch (src : Nat) (d : Dev) : Option (Nat × Dev) :=
  let cfg := getReg d R.WIN_WAKE_CFG
  let t := getReg64 d R.WIN_WAKE_TIME_LO R.WIN_WAKE_TIME_HI
  if src = wakeTime ∧ bit cfg 0 ∧ d.tick.time ≤ t then some (0, advanceTo t d)
  else if src = wakeTemp ∧ bit cfg 1 then some (1, d)
  else if src = wakeI3c ∧ bit cfg 2 then some (2, d)
  else none

/-- POWER_WAKE (R356, R360): from Winter on an enabled source, which during an entry to Winter is a wake event; from Idle or
Doze on the wake event met. -/
def execPowerWake (src : Fin 9) (s : State) : Host.Outcome State Fault Refusal :=
  onDev (fun d =>
    match wakeMatch src.val d with
    | some (b, d') =>
      if asleep d then leaveWinter b d'
      else if alive d ∧ d.power.attempt.isSome then wakeEvent src.val d' else d
    | none => onlyIf (alive d && d.power.restore.isEmpty && decide (d.power.pendingWake = some src.val)) (fun d =>
      { d with power := { d.power with
        pendingWake := none, restore := if powerState d = 1 then [0] else if powerState d = 2 then [1, 2] else [] } }) d) s

/-- Fixed delay of a restore step in ns. -/
def restoreDelay (d : Dev) (k : Nat) : Nat :=
  match k with
  | 0 => 64 * 1000 / freqMhz d
  | 1 => 2000
  | 2 => 2000
  | 10 => 1000000
  | 11 => 20000
  | 12 => 5000
  | 13 => 100000
  | 14 => 80000
  | _ => 500000

end Sys2Proof.Machine
end

