-- ==== Sys2Proof/Machine/RegRead.lean ====
section
/-!
DEFINITION. Reads of the register window (R5, R6, R8): registers whose value a unit derives from its own state, _LO
captures, and the hint queue that a read pops.
-/

namespace Sys2Proof.Machine

open Sys2Proof

/-- Low or high word of a 64-bit value. -/
def loWord (v : Nat) : W32 := BitVec.ofNat 32 v
def hiWord (v : Nat) : W32 := BitVec.ofNat 32 (v / 2 ^ 32)

/-- Open ledgers, oldest first. -/
def openLedgersOf (d : Dev) : List Ledger := d.ent.ledgers.filter (·.isOpen)

/-- Remaining credit of a cell in a ledger; the express cells get none while the lane is enabled (R35). -/
def creditLeft (d : Dev) (g : Ledger) (c : Nat) : Nat :=
  (if expressEn d ∧ c < 4 then 0 else g.credit) - tblGet 0 g.used c

/-- TICK_PHASE (Table 02-13). -/
def phaseWord (d : Dev) : W32 :=
  BitVec.ofNat 32 ((if d.tick.admitOpen then 1 else 0) + (if d.tick.inputOpen then 2 else 0) +
    4 * (match d.tick.phase with | .execute => 0 | .drain => 1 | .beacon => 2))

/-- GRD_STATUS (Table 15-7). -/
def grdStatus (d : Dev) : W32 :=
  BitVec.ofNat 32 (d.guard.queue.length + (if d.guard.fatal.isSome then 128 else 0) + (if d.guard.stopped then 256 else 0))

/-- Code of a load slot's state (Table 11-1). -/
def slotCode : SlotState → Nat
  | .idle => 0
  | .loading => 1
  | .verified => 2
  | .swapping => 3
  | .ready => 4
  | .reverting => 5

/-- ENT_WSLOT registers (Table 11-8): the word of a slot at an offset within it. -/
def wslotWord (x : LoadSlot) (o : Nat) : W32 :=
  match o with
  | 0x00 => BitVec.ofNat 32 (slotCode x.st + 256 * x.reason + 65536 * x.tenant)
  | 0x04 => x.version
  | 0x08 => BitVec.ofNat 32 (x.done.length + 65536 * x.chunks)
  | 0x0C => BitVec.ofNat 32 x.layer
  | 0x10 => loWord x.dest
  | 0x14 => hiWord x.dest
  | 0x18 => loWord x.act
  | 0x1C => hiWord x.act
  | _ => 0

/-- ENT_KEY_VALID: one bit for each of 32 handles. -/
def keyValidWord (d : Dev) (k : Nat) : W32 :=
  (List.range 32).foldl (fun w b => setBit w b (keySet d (32 * k + b)).valid) 0

/-- Units WIPING among the tags with keys from lo (n keys). -/
def wipingUnits (d : Dev) (lo n : Nat) : Nat :=
  (d.mem.tags.filter (fun e => decide (lo ≤ e.1) && decide (e.1 < lo + n) && e.2.isWiping)).length

/-- Derived registers of the KVC window (Table 08-11). -/
def viewKvc (d : Dev) (off : Nat) : Option W32 :=
  if off = R.KVC_FREE then some (BitVec.ofNat 32 (freeUnits d))
  else if off = R.KVC_SLOT_FREE then some (BitVec.ofNat 32 (freeSlotCount d))
  else if off = R.KVC_STAGED_PAGES then
    some (BitVec.ofNat 32 (d.cache.heads.filter (fun e => decide (e.2.st = .staged))).length)
  else if R.KVC_FREE_ORD 0 ≤ off ∧ off < R.KVC_FREE_ORD 11 then
    some (BitVec.ofNat 32
      (d.cache.freeFrames.filter (fun e => decide (e.2 = (off - R.KVC_FREE_ORD 0) / 4))).length)
  else none

/-- Derived registers of the entrance's weight, key, combine and speculation fields. -/
def viewEnt (d : Dev) (off : Nat) : Option W32 :=
  if off = R.ENT_CMB_INUSE then some (BitVec.ofNat 32 (d.ent.reqs.filter (·.region)).length)
  else if off = R.ENT_SPEC_OPEN then
    some (BitVec.ofNat 32 (d.ent.spec.filter (fun e => decide (e.2.ncand ≠ 0))).length)
  else if R.ENT_WSLOT_STATE 0 ≤ off ∧ off < R.ENT_WSLOT_STATE 8 then
    some (wslotWord (wSlot d ((off - R.ENT_WSLOT_STATE 0) / 0x20)) (off % 0x20))
  else if R.ENT_KEY_VALID 0 ≤ off ∧ off < R.ENT_KEY_VALID 128 then
    some (keyValidWord d ((off - R.ENT_KEY_VALID 0) / 4))
  else none

/-- The register's value where a unit derives it from its own state. -/
def viewReg (d : Dev) (off : Nat) : Option W32 :=
  if off < 0x1000 then
    if off = R.ID_REV then some (0x00010000 + (Config.step.zeroExtend 32))
    else if off = R.ID_SERIAL_LO then some (Config.serial.truncate 32)
    else if off = R.ID_SERIAL_HI then some ((Config.serial >>> 32).truncate 32)
    else none
  else if off < 0x2000 then
    if off = R.TICK_TIME_LO then some (loWord (now d))
    else if off = R.TICK_TIME_HI then some (hiWord (now d))
    else if off = R.TICK_NUM_LO then some (loWord d.tick.num)
    else if off = R.TICK_NUM_HI then some (hiWord d.tick.num)
    else if off = R.TICK_PHASE then some (phaseWord d)
    else none
  else if off < 0x4000 then
    if off = R.ENT_LEDGER_LO then some (match (openLedgersOf d).getLast? with | some g => loWord g.tick | none => 0)
    else if off = R.ENT_LEDGER_HI then some (match (openLedgersOf d).getLast? with | some g => hiWord g.tick | none => 0)
    else if R.ENT_CREDIT_LEFT 0 ≤ off ∧ off < R.ENT_CREDIT_LEFT 64 then
      some (match (openLedgersOf d).head? with
        | some g => BitVec.ofNat 32 (creditLeft d g ((off - R.ENT_CREDIT_LEFT 0) / 4))
        | none => 0)
    else viewEnt d off
  else if off < 0x5000 then
    if off = R.PWR_HINT_NEXT then
      some (match openLedgersOf d with | g :: _ :: _ => BitVec.ofNat 32 g.hint | _ => 0)
    else if off = R.PWR_HINT_NEWEST then
      some (match (openLedgersOf d).getLast? with | some g => BitVec.ofNat 32 g.hint | none => 0)
    else if off = R.PWR_HINT_FIFO then some (d.power.hints.headD 0)
    else none
  else if off < 0x6000 then
    if off = R.GRD_STATUS then some (grdStatus d)
    else if R.GRD_REC 0 ≤ off ∧ off < R.GRD_REC 16 then
      some (match d.guard.queue[regFld d R.GRD_REC_SEL 5 0]? with
        | some q => recordWord q ((off - R.GRD_REC 0) / 4)
        | none => 0)
    else if R.GRD_FATAL_REC 0 ≤ off ∧ off < R.GRD_FATAL_REC 16 then
      some (match d.guard.fatal with
        | some q => recordWord q ((off - R.GRD_FATAL_REC 0) / 4)
        | none => 0)
    else none
  else if 0x8000 ≤ off ∧ off < 0xA000 ∧ off % 0x400 = 0x2C then
    some (BitVec.ofNat 32 (tblGet {} d.ports ((off - 0x8000) / 0x400)).waits.length)
  else if 0x20000 ≤ off ∧ off < 0x30000 then viewKvc d off
  else if off = R.HIV_WIPE_PEND then some (BitVec.ofNat 32 (wipingUnits d 65536 65536))
  else if 0x200000 ≤ off ∧ off < 0x240000 then
    let n := (off - 0x200000) / 0x1000
    if off = R.CEL_WIPE_PEND n then some (BitVec.ofNat 32 (wipingUnits d (1024 * n) 1024))
    else if off = R.CEL_LUT_EPOCH n then some (if (tblGet {} d.cells n).lutBank then 1 else 0)
    else none
  else none

/-- Value of a register of the window (Table 00-6). -/
def regValue (d : Dev) (off : Nat) : W32 :=
  match regAccess? off with
  | none => 0
  | some .wo => 0
  | some _ => ((viewReg d off).getD (getReg d off)) &&& regMask off

/-- Put the capture of a _HI register on a path. -/
def putCapture (p : Path) (off : Nat) (v : W32) (d : Dev) : Dev :=
  { d with die := { d.die with
    capture := (p, off, v) :: d.die.capture.filter (fun c => decide (¬(c.1 = p ∧ c.2.1 = off))) } }

/-- A read answers on a path: out of reset; after a failed bring-up only on I3C, in Winter on none; the keeper's path
while its core runs. -/
def readAnswers (d : Dev) (path : Path) : Bool :=
  !d.die.porstLow && decide (powerState d ≠ 3) && (!bootFailed d || decide (path = .i3c)) &&
    (decide (path ≠ .keeper) || d.keeper.running)

/-- A read of the window: the value, and the state after it (R5, R6, R8, R351). -/
def regRead (path : Path) (off size : Nat) (d : Dev) : W32 × Dev :=
  if !readAnswers d path || decide (size ≠ 4) || decide (off % 4 ≠ 0) then (0, d)
  else
    match d.die.capture.find? (fun c => decide (c.1 = path ∧ c.2.1 = off)) with
    | some c => (c.2.2, { d with die := { d.die with
        capture := d.die.capture.filter (fun c => decide (¬(c.1 = path ∧ c.2.1 = off))) } })
    | none =>
      let v := regValue d off
      let d := if regIsLo off then putCapture path (off + 4) (regValue d (off + 4)) d else d
      if off = R.PWR_HINT_FIFO then (v, { d with power := { d.power with hints := d.power.hints.drop 1 } })
      else (v, d)

end Sys2Proof.Machine
end

