-- ==== Sys2Proof/Machine/Ports.lean ====
section
/-!
DEFINITION. Frames on the ports (12): input data, express buffers, SYNC_WAITs, HELLO, register and memory access,
discarded frames, retrains and link loss; and the sideband (I3C, JTAG).
-/

namespace Sys2Proof.Machine

open Sys2Proof

/-! ### INPUT and EXPBUF (R320, R321) -/

/-- The ordinary request that an INPUT frame on a port serves. -/
def inputReq (d : Dev) (p : PortId) (f : Frame) : Option Req :=
  d.ent.reqs.find? (fun r => decide (dReqId r.desc = f.aux) && decide (dTenant r.desc = f.tenant.toNat) &&
    decide (r.port = p) && r.express.isNone && !r.recordWritten && decide (workTick r = d.tick.num))

/-- Data credit for the inputs of the running tick: a port withholds it until S(N), and inputs are accepted to input close
(R32, R320). -/
def inputCredit (d : Dev) : Bool := d.tick.running && d.tick.inputOpen

/-- R320. -/
def inputFrame (p : PortId) (f : Frame) (d : Dev) : Dev :=
  match inputReq d p f with
  | some r =>
    if inputCredit d ∧ f.addr.toNat + f.payload.length ≤ inputLen d r.desc then
      updReq r.uid (fun r => { r with input := tblPutList r.input f.addr.toNat f.payload }) d
    else bump d (R.LNK_DISCARD_CNT p.val)
  | none => bump d (R.LNK_DISCARD_CNT p.val)

/-- INPUT (R320). -/
def execInput (port : PortId) (frame : Frame) (s : State) : Host.Outcome State Fault Refusal :=
  onDev (recvFrame port frame tINPUT (inputFrame port frame)) s

/-- Express buffer of a port. -/
def expBufOf (x : Port) (b : Bool) : ExpBuf := if b then x.exp1 else x.exp0

/-- Set an express buffer of a port. -/
def setExpBuf (p : PortId) (b : Bool) (e : ExpBuf) (d : Dev) : Dev :=
  let x := getPort d p
  setPort d p (if b then { x with exp1 := e } else { x with exp0 := e })

/-- R321. -/
def expbufFrame (p : PortId) (f : Frame) (d : Dev) : Dev :=
  let b := decide (f.aux = 1)
  let e := expBufOf (getPort d p) b
  if isSpine p ∨ e.busy then bump d (R.LNK_EXP_DISCARD_CNT p.val)
  else if f.addr.toNat + f.payload.length > 16384 then bump d (R.LNK_DISCARD_CNT p.val)
  else setExpBuf p b { e with
    bytes := tblPutList e.bytes f.addr.toNat f.payload, full := e.full || !hasMore f } d

/-- EXPBUF (R321). -/
def execExpbuf (port : PortId) (frame : Frame) (s : State) : Host.Outcome State Fault Refusal :=
  onDev (recvFrame port frame tEXPBUF (expbufFrame port frame)) s

/-! ### SYNC_WAIT (R79, R385) -/

/-- R79 for a SYNC_WAIT as it arrives. -/
def syncWaitFrame (p : PortId) (f : Frame) (d : Dev) : Dev :=
  let obj := leAt f.payload 0 4 % 2 ^ 14
  let v := getReg d (R.SYN_VALUE obj)
  let t : W32 := BitVec.ofNat 32 (leAt f.payload 4 4)
  let x := getPort d p
  if d.guard.stopped then answerOn p f (waitAnswer v true false) d
  else if syncPasses v t then answerOn p f (waitAnswer v false false) d
  else if 64 ≤ x.waits.length then answerOn p f (waitAnswer v false true) d
  else setPort d p { x with waits := x.waits ++ [{
    tag := f.tag, src := f.src, obj := BitVec.ofNat 14 obj, threshold := t,
    deadline := d.tick.time + 1000 * leAt f.payload 8 4 }] }

/-- SYNC_WAIT (R79); a stopped die still answers (R385). -/
def execSyncWait (port : PortId) (frame : Frame) (s : State) : Host.Outcome State Fault Refusal :=
  onDev (fun d =>
    if d.guard.stopped then
      onlyIf (powered d && portUp d port && decide (frame.typ = tSYNC_WAIT) && !answersNothing frame &&
        decide (frameFate d port frame = .accept))
        (fun d => syncWaitFrame port frame (linkIn port d)) d
    else recvFrame port frame tSYNC_WAIT (syncWaitFrame port frame) d) s

/-- Remove a held wait. -/
def dropWait (p : PortId) (w : Wait) (d : Dev) : Dev :=
  let x := getPort d p
  setPort d p { x with waits := x.waits.erase w }

/-- The first wait of a port with a tag that satisfies a condition. -/
def heldWait (d : Dev) (p : PortId) (tag : BitVec 16) (ok : Wait → Bool) : Option Wait :=
  (getPort d p).waits.find? (fun w => decide (w.tag = tag) && ok w)

/-- The wait's comparison passes. -/
def waitPasses (d : Dev) (w : Wait) : Bool := syncPasses (getReg d (R.SYN_VALUE w.obj.toNat)) w.threshold

/-- SYNC_WAIT_ANSWER (R79). -/
def execSyncWaitAnswer (port : PortId) (tag : BitVec 16) (s : State) : Host.Outcome State Fault Refusal :=
  onDev (fun d =>
    match heldWait d port tag (waitPasses d) with
    | some w => onlyIf (alive d) (fun d => answerWait port false (dropWait port w d) w) d
    | none => d) s

/-- SYNC_WAIT_TIMEOUT (R79). -/
def execSyncWaitTimeout (port : PortId) (tag : BitVec 16) (s : State) : Host.Outcome State Fault Refusal :=
  onDev (fun d =>
    match heldWait d port tag (fun w => !waitPasses d w) with
    | some w => onlyIf (alive d) (fun d => answerWait port true (dropWait port w (advanceTo w.deadline d)) w) d
    | none => d) s

/-! ### HELLO (R313) -/

/-- A partner's VER_MAX settles the link's version, or fails the port. -/
def settleHello (p : PortId) (verMax : Nat) (d : Dev) : Dev :=
  let v := min 2 verMax
  let d := setPort d p { getPort d p with helloSince := none }
  if v < regFld d (R.LNK_CFG p.val) 3 2 ∨ v = 0 then setRegFld d (R.LNK_STATUS p.val) 3 0 3
  else setRegFld d (R.LNK_STATUS p.val) 3 0 (2 + 4 * v)

/-- A HELLO that arrives at a port whose PHY is up: it settles the link, and one that is no answer is answered. -/
def takeHello (port : PortId) (frame : Frame) (d : Dev) : Dev :=
  let d := linkIn port d
  match frameFate d port frame with
  | .badCrc => badFrame port d
  | .discard => bump d (R.LNK_DISCARD_CNT port.val)
  | .accept =>
    if frame.payload.length ≠ 16 then bump d (R.LNK_DISCARD_CNT port.val)
    else
      let d := settleHello port (leAt frame.payload 0 1) (wakeEvent wakeFrame d)
      if isAnswer frame then d else answerOn port frame (helloPayload d) d

/-- HELLO (R313): while the port trains, or UP; a HELLO that is no answer is answered. -/
def execHello (port : PortId) (frame : Frame) (s : State) : Host.Outcome State Fault Refusal :=
  onDev (fun d =>
    if decide (frame.typ = tHELLO) && inWinter d then bump d (R.LNK_DISCARD_CNT port.val)
    else onlyIf (alive d && decide (frame.typ = tHELLO) && (portUp d port || portTraining d port)) (takeHello port frame) d) s

/-- HELLO_TIMEOUT (R313). -/
def execHelloTimeout (port : PortId) (s : State) : Host.Outcome State Fault Refusal :=
  onDev (fun d =>
    match (getPort d port).helloSince with
    | none => d
    | some t => onlyIf (alive d) (fun d =>
        setRegFld (setPort (advanceTo (t + 100000) d) port { getPort d port with helloSince := none })
          (R.LNK_STATUS port.val) 3 0 3) d) s

/-! ### Register access by frame (R324, R385) -/

/-- REG_RD (R8, R324): a stopped die still answers. -/
def execRegRd (port : PortId) (frame : Frame) (s : State) : Host.Outcome State Fault Refusal :=
  let act (d : Dev) : Dev :=
    let r := regRead (.port port) frame.addr.toNat 4 d
    answerOn port frame (leBytes 4 r.1.toNat) r.2
  onDev (fun d =>
    if d.guard.stopped then
      onlyIf (powered d && portUp d port && decide (frame.typ = tREG_RD) && !answersNothing frame &&
        decide (frameFate d port frame = .accept)) (fun d => act (linkIn port d)) d
    else recvFrame port frame tREG_RD act d) s

/-- REG_WR (R324). -/
def execRegWr (port : PortId) (frame : Frame) (s : State) : Host.Outcome State Fault Refusal :=
  onDev (recvFrame port frame tREG_WR (fun d =>
    answerOn port frame [] (writeAny (.port port) frame.addr.toNat 4 (BitVec.ofNat 32 (leAt frame.payload 0 4)) d))) s

/-! ### Hive memory by frame (R67, R271) -/

/-- Every 64 B block of a range lies within an enabled ring that a test admits. -/
def inRings (d : Dev) (ok : Nat → Bool) (a n : Nat) : Bool :=
  (List.range (n / 64)).all (fun i => (enabledRings d).any (fun r =>
    ok r && decide (ringBase d r ≤ a + 64 * i) && decide (a + 64 * i < ringBase d r + bufBytes (ringCfg d r))))

/-- Some ring that awaits its wipe holds the block. -/
def blockWaitsWipe (d : Dev) (a : Nat) : Bool :=
  d.ent.ringWipe.any (fun r => decide (ringBase d r.toNat ≤ a) &&
    decide (a < ringBase d r.toNat + bufBytes (ringCfg d r.toNat)))

/-- Bytes that a served read returns: zeros from a buffer that awaits its wipe. -/
def ringRead (d : Dev) (a n : Nat) : List Byte :=
  (List.range (n / 64)).flatMap (fun i =>
    if blockWaitsWipe d (a + 64 * i) then zeroBytes 64 else hiveRead d (a + 64 * i) 64)

/-- MEM_RD (R67). -/
def execMemRd (port : PortId) (frame : Frame) (s : State) : Host.Outcome State Fault Refusal :=
  onDev (recvFrame port frame tMEM_RD (fun d =>
    let a := frame.addr.toNat
    let n := frame.aux.toNat
    if inRings d (fun _ => true) a n then answerOn port frame (ringRead d a n) d
    else answerOn port frame (zeroBytes n) (bump d R.ENT_HIVE_DENY_CNT))) s

/-- MEM_WR (R67). -/
def execMemWr (port : PortId) (frame : Frame) (s : State) : Host.Outcome State Fault Refusal :=
  onDev (recvFrame port frame tMEM_WR (fun d =>
    let a := frame.addr.toNat
    if inRings d (ringIsCmd d) a frame.payload.length then answerOn port frame [] (hiveWrite d a frame.payload)
    else answerOn port frame [] (bump d R.ENT_HIVE_DENY_CNT))) s

/-! ### Discarded frames, retrains, link loss (R307, R309, R310, R315, R322) -/

/-- RESERVED_FRAME (R315): a frame whose TYPE is reserved or unavailable, a field wrong, or whose CRC fails. -/
def execReservedFrame (port : PortId) (frame : Frame) (s : State) : Host.Outcome State Fault Refusal :=
  onDev (fun d => onlyIf (decide (frameFate d port frame ≠ .accept)) (recvFrame port frame frame.typ id) d) s

/-- LINK_RETRAIN_PENDING (R307): more retries of one module or lane, and RETRAIN_PEND where those of the running tick pass
ERR_LIMIT. -/
def execLinkRetrainPending (port : PortId) (lane : Fin 16) (retries : Nat) (s : State) :
    Host.Outcome State Fault Refusal :=
  onDev (fun d => onlyIf (alive d && portUp d port && bit (getReg d (R.LNK_WIDTH port.val)) lane.val) (fun d =>
    let d := stallRunning 1 retries (bumpBy d (R.LNK_RETRY_CNT port.val) retries)
    let x := getPort d port
    let n := tblGet 0 x.retries lane.val + retries
    let x := { x with retries := tblSet 0 x.retries lane.val n }
    if regFld d (R.LNK_CFG port.val) 31 16 < n then
      setPort (setReg d (R.LNK_STATUS port.val) (setBit (getReg d (R.LNK_STATUS port.val)) 4 true)) port
        { x with badLanes := setBit x.badLanes lane.val true }
    else setPort d port x) d) s

/-- LINK_RETRAIN (R307): in the first drain phase that starts with RETRAIN_PEND set. -/
def execLinkRetrain (port : PortId) (s : State) : Host.Outcome State Fault Refusal :=
  onDev (fun d => onlyIf (alive d && inDrain d && (getPort d port).retrainDue && !(getPort d port).retraining) (fun d =>
    setPort (bump d (R.LNK_RETRAIN_CNT port.val)) port
      { getPort d port with retraining := true, retrainDue := false }) d) s

/-- The link layer of the ports runs: out of reset, not in Winter; STOP leaves it running (R385). -/
def portsRun (d : Dev) : Bool := powered d && decide (powerState d ≠ 3)

/-- Modules or lanes that work after some are lost: on a spine port the half without a bad lane, or none (R309). -/
def remainingWidth (d : Dev) (p : PortId) (bad : BitVec 16) : BitVec 16 :=
  let w : BitVec 16 := BitVec.ofNat 16 (getReg d (R.LNK_WIDTH p.val)).toNat
  if isSpine p then
    if w &&& bad = 0 then w
    else if w &&& 0x00FF = 0x00FF ∧ bad &&& 0x00FF = 0 then 0x00FF
    else if w &&& 0xFF00 = 0xFF00 ∧ bad &&& 0xFF00 = 0 then 0xFF00
    else 0
  else w &&& ~~~bad

/-- LINK_RETRAIN_END (R307, R317, R322): the held frames leave by class, or are discarded where the port fails. A retrain that
runs at STOP ends too: its port still answers (R385). -/
def execLinkRetrainEnd (port : PortId) (s : State) : Host.Outcome State Fault Refusal :=
  onDev (fun d => onlyIf (portsRun d && (getPort d port).retraining) (fun d =>
    let x := getPort d port
    let w := remainingWidth d port x.badLanes
    let d := setReg d (R.LNK_WIDTH port.val) (BitVec.ofNat 32 w.toNat)
    let d := setReg d (R.LNK_STATUS port.val) (setBit (getReg d (R.LNK_STATUS port.val)) 4 false)
    let x := { x with retraining := false, badLanes := 0 }
    if popCount w < regFld d (R.LNK_CFG port.val) 12 8 then
      dropHeld port (setRegFld (setPort d port x) (R.LNK_STATUS port.val) 1 0 3)
    else sendAll port (byClass x.held) (setPort d port { x with held := [] })) d) s

/-- SPINE_RESEND (R310): the frames up to the acknowledgement are gone, the others are sent again under their sequence numbers
and counted; the codewords the FEC corrected (R379) and could not correct since the last such event are counted. Frames that touch
one it could not correct are discarded: they reach no other rule, and a negative acknowledgement asks for them again. -/
def execSpineResend (port : PortId) (acked corrected uncorrectable : Nat) (s : State) :
    Host.Outcome State Fault Refusal :=
  onDev (fun d => onlyIf (portsRun d && isSpine port && portUp d port) (fun d =>
    let x := getPort d port
    let rest := x.unacked.drop acked
    let d := setPort d port { x with
      unacked := rest, tx := x.tx ++ rest
      trailers := x.trailers ++ (List.range rest.length).map (fun i => (x.sent - BitVec.ofNat 32 (rest.length - i), x.rcvd))
      nacks := if uncorrectable = 0 then x.nacks else x.nacks ++ [x.rcvd] }
    let d := countCorrected corrected (bump64 d (R.LNK_FEC_CORR_LO port.val) (R.LNK_FEC_CORR_HI port.val) corrected)
    bumpBy (bumpBy d (R.LNK_FEC_UNC_CNT port.val) uncorrectable) (R.LNK_RETRY_CNT port.val) rest.length) d) s

/-- LINK_DOWN (R322): the PHY or the partner of a port is lost at run time. -/
def execLinkDown (port : PortId) (s : State) : Host.Outcome State Fault Refusal :=
  onDev (fun d => onlyIf (alive d && portUp d port) (fun d =>
    dropHeld port (setPort (setReg (setReg d (R.LNK_STATUS port.val) 0) (R.LNK_WIDTH port.val) 0) port
      { getPort d port with retraining := false, badLanes := 0, retrainDue := false })) d) s

/-- PWR_ANSWER (R191): the answer to the last frame of a train. -/
def execPwrAnswer (port : PortId) (frame : Frame) (s : State) : Host.Outcome State Fault Refusal :=
  onDev (recvFrame port frame tPWR (fun d => onlyIf (isAnswer frame) (fun d =>
    { d with ent := { d.ent with
      reqs := d.ent.reqs.map (fun r => { r with awaiting := r.awaiting.erase (port, frame.tag) }) } }) d)) s

/-! ### Sideband (R325 to R328) -/

/-- The die answers on I3C: out of reset and not in Winter; a failed bring-up answers reads only (R369). -/
def i3cAnswers (d : Dev) : Bool := !d.die.porstLow && decide (powerState d ≠ 3)

/-- I3C_PRIVATE_WRITE (R325): 8 bytes write a register, 4 set the offset of a read, any other length is NACKed. -/
def execI3cPrivateWrite (bytes : List Byte) (s : State) : Host.Outcome State Fault Refusal :=
  onDev (fun d => onlyIf (i3cAnswers d) (fun d =>
    let d := i3cMatch d
    let off := leAt bytes 0 3
    if leAt bytes 3 1 ≠ 0 ∨ (bytes.length ≠ 8 ∧ bytes.length ≠ 4) then { d with die := { d.die with i3cNack := true } }
    else if bytes.length = 8 then
      writeAny .i3c off 4 (BitVec.ofNat 32 (leAt bytes 4 4)) { d with die := { d.die with i3cNack := false } }
    else { d with die := { d.die with i3cOff := some off, i3cNack := false } }) d) s

/-- I3C_PRIVATE_READ (R325). -/
def execI3cPrivateRead (s : State) : Host.Outcome State Fault Refusal :=
  onDev (fun d => onlyIf (i3cAnswers d) (fun d =>
    let d := i3cMatch d
    match d.die.i3cOff with
    | none => { d with die := { d.die with i3cNack := true } }
    | some off =>
      let r := regRead .i3c off 4 d
      { r.2 with die := { r.2.die with i3cOff := none, i3cData := r.1, i3cNack := false } }) d) s

/-- The I3C address in force (R325). -/
def i3cAddress (d : Dev) : BitVec 7 :=
  let r := getReg d R.LNK_I3C_ADDR
  if bit r 15 then BitVec.ofNat 7 (fld r 14 8) else BitVec.ofNat 7 (fld r 6 0)

/-- I3C_WINTER_WAKE (R326, R356): a transfer to the die's address in Winter is NACKed, and wakes it while enabled; during an entry
to Winter the match alone counts. -/
def execI3cWinterWake (addr : BitVec 7) (s : State) : Host.Outcome State Fault Refusal :=
  onDev (fun d => onlyIf (powered d && !d.guard.stopped && decide (addr = i3cAddress d)) (fun d =>
    if powerState d ≠ 3 then i3cMatch d
    else
      let d := { d with die := { d.die with i3cNack := true } }
      if asleep d ∧ bit (getReg d R.WIN_WAKE_CFG) 2 then leaveWinter 2 d else d) d) s

/-- I3C_DYNAMIC_ADDRESS (R325). -/
def execI3cDynamicAddress (addr : BitVec 7) (s : State) : Host.Outcome State Fault Refusal :=
  onDev (fun d => onlyIf (!d.die.porstLow) (fun d =>
    setReg d R.LNK_I3C_ADDR (setFld (setFld (getReg d R.LNK_I3C_ADDR) 14 8 addr.toNat) 15 15 1)) d) s

/-- IDCODE (R328). -/
def idcode : W32 := 0x10008D65

/-- Levels of the sideband pins that the boundary-scan chain covers and the model holds: PORST_N released, THERM_TRIP_N low,
CFG_DONE, TICK_OUT, xSPI driven, in-band interrupt raised (R328). -/
def sidebandPins (d : Dev) : List Bool :=
  [!d.die.porstLow, d.die.thermTripLow, d.die.cfgDone, d.tick.tickOut, d.die.xspiDriven, d.die.i3cIbi]

/-- What the TAP's data register captures: IDCODE; the sideband pins, in an order that the spec does not give (log 116); or
BYPASS's zero. -/
def tapCapture (t : TapInstr) (d : Dev) : W32 :=
  match t with
  | .idcode => idcode
  | .samplePreload | .extest => Config.boundaryScan (sidebandPins d)
  | _ => 0

/-- JTAG_INSTRUCTION (R328): after lock only BYPASS, IDCODE and SAMPLE/PRELOAD act; every other acts as BYPASS. -/
def execJtagInstruction (code : TapInstr) (s : State) : Host.Outcome State Fault Refusal :=
  onDev (fun d => onlyIf (!d.die.porstLow) (fun d =>
    let t := match code with
      | .extest => if locked d then .bypass else .extest
      | .other => .bypass
      | c => c
    { d with die := { d.die with tap := t, tapData := tapCapture t d } }) d) s

/-- KEEPER_LO_READ (R5, R6, R8): a keeper read of the window: of a _LO register, of the _HI register whose capture it holds, or
of any other; of another size or alignment it returns zero. -/
def execKeeperLoRead (access : WindowRead) (s : State) : Host.Outcome State Fault Refusal :=
  onDev (fun d => onlyIf (alive d && d.keeper.running) (fun d =>
    let r := regRead .keeper access.off.toNat access.size d
    { r.2 with die := { r.2.die with readData := r.1 } }) d) s

/-- PWR_HINT_FIFO_READ (R351): a read pops one entry. -/
def execPwrHintFifoRead (path : Path) (s : State) : Host.Outcome State Fault Refusal :=
  onDev (fun d =>
    let r := regRead path R.PWR_HINT_FIFO 4 d
    { r.2 with die := { r.2.die with readData := r.1 } }) s

end Sys2Proof.Machine
end

