-- ==== Sys2Proof/Machine/Commands.lean ====
section
/-!
DEFINITION. Ring commands (03, 11): the command reader (R73, R74, R76), activation of a context (R81), kills, sequence
commands (R85), cost tables, sync objects, and the weight commands.
-/

namespace Sys2Proof.Machine

open Sys2Proof

/-! ### Command entries (Table 03-7, Table 03-8) -/

/-- A command entry as it stands in its ring. -/
structure CmdEntry where
  cmdId : W32
  code : Nat
  ring : Nat
  tenant : Nat
  seq : Nat
  /-- ARGS, 384 bits. -/
  args : Nat
  /-- A reserved bit outside ARGS is set. -/
  reserved : Bool
  deriving DecidableEq, Repr

/-- Decode the 64 bytes of an entry. -/
def cmdEntryOf (b : List Byte) : CmdEntry :=
  { cmdId := BitVec.ofNat 32 (leAt b 0 4), code := leAt b 4 1, ring := leAt b 6 2 % 4096, tenant := leAt b 8 2 % 4096,
    seq := leAt b 0x0C 4 % 2 ^ 18, args := leAt b 0x10 48,
    reserved := decide (leAt b 5 1 ≠ 0) || decide (4096 ≤ leAt b 6 2) || decide (4096 ≤ leAt b 8 2) ||
      decide (leAt b 0x0A 2 ≠ 0) || decide (2 ^ 18 ≤ leAt b 0x0C 4) }

/-- Bits hi to lo of ARGS. -/
def CmdEntry.arg (e : CmdEntry) (hi lo : Nat) : Nat := e.args / 2 ^ lo % 2 ^ (hi + 1 - lo)

/-- ARGS without the fields given as (hi, lo) pairs. -/
def argsWithout (a : Nat) : List (Nat × Nat) → Nat
  | [] => a
  | (hi, lo) :: fs => argsWithout (a - a / 2 ^ lo % 2 ^ (hi + 1 - lo) * 2 ^ lo) fs

/-- Fields of ARGS that a code uses. -/
def argFields (code : Nat) : List (Nat × Nat) :=
  match code with
  | 0x03 => [(31, 0)]
  | 0x05 => [(1, 0), (31, 16), (63, 32), (95, 64), (111, 96), (255, 192)]
  | 0x06 => [(17, 0), (63, 32)]
  | 0x08 => [(0, 0)]
  | 0x09 => [(8, 0)]
  | 0x0A => [(13, 0), (63, 32)]
  | 0x10 => [(11, 0)]
  | 0x11 => [(11, 0)]
  | 0x12 => [(31, 0), (34, 32), (38, 36), (127, 64)]
  | 0x13 => [(31, 0)]
  | 0x14 => [(32, 0), (48, 40)]
  | 0x15 => [(31, 0), (127, 64)]
  | 0x16 => [(31, 0)]
  | _ => []

/-- Some reserved bit of the entry is set (RESULT BAD_CMD). -/
def CmdEntry.bad (e : CmdEntry) : Bool := e.reserved || decide (argsWithout e.args (argFields e.code) ≠ 0)

/-- Entries that a command consumes, itself included (R74, R277). -/
def cmdSize (code : Nat) : Nat := if code = 0x09 then 65 else if code = 0x10 then 3 else 1

/-- RESULT codes (Table 03-8). -/
def resDone : Nat := 0
def resBadCmd : Nat := 1
def resBadState : Nat := 2
def resBusy : Nat := 3
def resNotFound : Nat := 4
def resCheckFail : Nat := 5
def resNoSpace : Nat := 6

/-! ### The command reader (R73, R74, R76) -/

/-- Entry k places above HEAD of a command ring. -/
def cmdEntryAt (d : Dev) (r k : Nat) : List Byte := hiveRead d (slotAddr d r ((ringHead d r + k) % 2 ^ 32)) 64

/-- The enabled command rings in the order in which the reader looks at them: ascending from the ring served last in
this drain phase, or from ENT_CMD_NEXT, wrapping. DESIGN CHOICE (log 40): the reader consumes what a ring holds before it
goes on with the next one; R73 does not say how many entries it takes from a ring at a time. -/
def cmdOrder (d : Dev) : List Nat :=
  let rs := (enabledRings d).filter (ringIsCmd d)
  let cur : Nat := match d.ent.cmdRing with
    | some r => r.toNat
    | none => regFld d R.ENT_CMD_NEXT 11 0
  rs.filter (fun r => cur ≤ r) ++ rs.filter (fun r => r < cur)

/-- What the reader finds on a ring. -/
inductive RingLook where
  /-- Nothing to consume now. -/
  | pass
  /-- The command's completion ring has no free slot: the reader stops on this ring. -/
  | blocked
  /-- The command does not fit into the rest of the budget: consumption ends. -/
  | full
  | take
  deriving DecidableEq, Repr

/-- R73, R74 for one ring. -/
def lookAt (d : Dev) (r : Nat) : RingLook :=
  if ringWaitsWipe d r || d.ent.cmdBlocked.contains r then .pass
  else
    let e := cmdEntryOf (cmdEntryAt d r 0)
    let n := cmdSize e.code
    if ringUsed d r < n ∨ ringUsed d r = 0 then .pass
    else if regFld d R.ENT_CMD_BUDGET 11 0 < d.ent.cmdUsed + n then .full
    else if ringIsCompletion d e.ring && decide (ringFree d e.ring = 0) then .blocked
    else .take

/-- The ring from which the next command is consumed, and the rings on which the reader stops on its way. DESIGN CHOICE (log 40): a
command that does not fit the rest of ENT_CMD_BUDGET ends consumption on every ring for the drain phase. -/
def pickCmd (d : Dev) : List Nat → Option Nat × List Nat
  | [] => (none, [])
  | r :: rs =>
    match lookAt d r with
    | .take => (some r, [])
    | .full => (none, [])
    | .pass => pickCmd d rs
    | .blocked => ((pickCmd d rs).1, r :: (pickCmd d rs).2)

/-- Advance HEAD and the reader's books over a command of n entries. -/
def consumeEntries (r n : Nat) (blocked : List Nat) (d : Dev) : Dev :=
  let d := setReg d (R.RNG_HEAD r) (getReg d (R.RNG_HEAD r) + BitVec.ofNat 32 n)
  let d := setReg (bumpBy d R.ENT_CMD_CNT n) R.ENT_CMD_NEXT (BitVec.ofNat 32 ((r + 1) % 4096))
  { d with ent := { d.ent with
    cmdUsed := d.ent.cmdUsed + n, cmdRing := some (BitVec.ofNat 12 r), cmdBlocked := d.ent.cmdBlocked ++ blocked } }

/-- LENGTH of a command's record: the sequence's length after a sequence command, else 0 (Table 03-6, DEDUCED). -/
def cmdLength (d : Dev) (e : CmdEntry) : Nat := if 4 ≤ e.code ∧ e.code ≤ 8 then (seqDesc d e.seq).length else 0

/-- The first damaged chunk of hive memory in the n entries of a command (R276). -/
def badEntry (d : Dev) (r n : Nat) : Option Nat :=
  (List.range n).findSome? (fun k =>
    let a := slotAddr d r ((ringHead d r + k) % 2 ^ 32)
    d.mem.badHive.find? (fun c => decide (a / 16 ≤ c) && decide (c < a / 16 + 4)))

/-- The record of a command that an uncorrectable error stopped: ECC_FAIL and the number of the guard record (Table 03-6);
nothing states its RESULT. -/
def cmdStopped (x : CmdRef) (ref : W32) (d : Dev) : Dev :=
  let v := freshWord d
  writeRecord v.2 x.ring x.ctr {
    reqId := x.cmdId, tenant := x.tenant, status := 6, op := BitVec.ofNat 8 (0x80 + x.code % 128), tick := x.tick,
    seq := x.seq, result := v.1.toNat % 256, errRef := ref } none

/-- An uncorrectable error in an entry stops the command (Table 03-6, R276). -/
def stopCommand (x : CmdRef) (chunk : Nat) (d : Dev) : Dev :=
  let g := guardTake { mkReport 0x21 (unitSlice (16 * chunk)) with addr := BitVec.ofNat 64 (16 * chunk) } d
  cmdStopped x g.1 g.2

/-- The reader consumes the command at the front of a ring, where it is that ring's turn and the command's code is one
the meaning serves; the action answers the RESULT, or none where the record is written later. -/
def readCommand (ring : RingId) (code : Nat → Bool) (act : CmdEntry → List (List Byte) → CmdRef → Dev → Option Nat × Dev)
    (d : Dev) : Dev :=
  let r := ring.toNat
  let pick := pickCmd d (cmdOrder d)
  let e := cmdEntryOf (cmdEntryAt d r 0)
  if !alive d || !inDrain d || pick.1 ≠ some r || !code e.code then d
  else
    let n := cmdSize e.code
    let payload := (List.range (n - 1)).map (fun k => cmdEntryAt d r (k + 1))
    let bad := badEntry d r n
    let d := consumeEntries r n pick.2 d
    if !ringIsCompletion d e.ring then bump d (R.RNG_ERR_CNT r)
    else
      let s := reserveSlot d e.ring
      let x : CmdRef := {
        ring := e.ring, ctr := s.1, cmdId := e.cmdId, code := e.code, tenant := e.tenant, seq := e.seq,
        tick := d.tick.num }
      match bad with
      | some c => stopCommand x c s.2
      | none =>
        let out := if e.bad then (some resBadCmd, s.2) else act e payload x s.2
        match out.1 with
        | some res => cmdRecord x res (cmdLength out.2 e) out.2
        | none => out.2

/-- BAD_CMD (R85): a reserved code. -/
def execBadCmd (ring : RingId) (s : State) : Host.Outcome State Fault Refusal :=
  onDev (readCommand ring (fun c => !((decide (1 ≤ c) && decide (c ≤ 0x0A)) || (decide (0x10 ≤ c) && decide (c ≤ 0x16))))
    (fun _ _ _ d => (some resBadCmd, d))) s

/-! ### Activation (R81, R169, R188, R202, R234, R268, R290, Table 03-12) -/

/-- Stage word s of a context. -/
def stageWord (d : Dev) (t s : Nat) : BitVec 64 :=
  BitVec.ofNat 64 (getReg64 d (R.TCX_STAGE_LO t s) (R.TCX_STAGE_HI t s))

def stKind (w : BitVec 64) : Nat := fld w 7 0
def stTarget (w : BitVec 64) : Nat := fld w 10 8
def stFmt (w : BitVec 64) : Nat := fld w 15 12
def stRnd (w : BitVec 64) : Nat := fld w 17 16
def stArgA (w : BitVec 64) : Nat := fld w 31 18
def stArgB (w : BitVec 64) : W32 := BitVec.ofNat 32 (fld w 63 32)

/-- Arguments of a stage, by kind (Table 07-3). -/
def stageArgsOk (dh : Nat) (w : BitVec 64) : Bool :=
  let a := stArgA w
  let v := f32 (stArgB w)
  let none := decide (a = 0) && decide (stArgB w = 0)
  match stKind w with
  | 0x01 => decide (a = 0) && v.isFinite && !v.isZero
  | 0x02 => none
  | 0x03 => decide (a ≤ 1) && v.isFinite && (v.isZero || !v.sign)
  | 0x04 => decide (a < 512) && decide (2 * (a % 256 + 1) ≤ dh) && decide (stArgB w = 0)
  | 0x05 => none
  | 0x06 =>
    let lo := decodeElem 1 (fld w 47 32)
    let hi := decodeElem 1 (fld w 63 48)
    decide (a = 0) && !lo.isNan && !hi.isNan && !vLt hi lo
  | 0x07 => none
  | 0x10 => none
  | 0x11 => none && decide (stFmt w = 0) && decide (stRnd w = 0)
  | 0x12 => none && decide (stRnd w = 0)
  | _ => false

/-- Fields of a non-empty stage word. -/
def stageOk (dh : Nat) (w : BitVec 64) : Bool :=
  !bit w 11 && decide (stFmt w ≤ 3) && decide (stRnd w ≤ 2) && stageArgsOk dh w

/-- Non-empty prologue stages, and epilogue stages, in ascending s. -/
def prologue (d : Dev) (t : Nat) : List (BitVec 64) := ((List.range 8).map (stageWord d t)).filter (fun w => stKind w ≠ 0)
def epilogue (d : Dev) (t : Nat) : List (BitVec 64) :=
  ((List.range 8).map (fun s => stageWord d t (s + 8))).filter (fun w => stKind w ≠ 0)

/-- Prologue stages with TARGET X stand before the others. -/
def xStagesFirst (ws : List (BitVec 64)) : Bool := (ws.dropWhile (fun w => stTarget w = 0)).all (fun w => stTarget w ≠ 0)

/-- A prologue stage's kind and target (Table 07-3). -/
def prologueStageOk (w : BitVec 64) : Bool :=
  decide (stTarget w ≤ 4) && decide (stKind w < 0x10) &&
    (decide (stKind w ≠ 4) || decide (stTarget w = 1 ∨ stTarget w = 2 ∨ stTarget w = 4)) &&
    (decide (stKind w ≠ 7) || decide (stTarget w = 0))

/-- Order of the epilogue: an optional SEND, NORMALISE, an optional RMSNORM, per-tile stages, OPROJ, home segment. -/
def epilogueOk (split : Bool) (ws : List (BitVec 64)) : Bool :=
  let ks := ws.map stKind
  let head := ks.takeWhile (fun k => k ≠ 0x10)
  let rest := ks.dropWhile (fun k => k ≠ 0x10)
  let mid := (rest.drop 1).takeWhile (fun k => k ≠ 0x12)
  let home := (rest.drop 1).dropWhile (fun k => k ≠ 0x12)
  let tile (k : Nat) : Bool := decide (k = 1 ∨ k = 2 ∨ k = 5 ∨ k = 6)
  ws.all (fun w => stTarget w = 0) && decide (head = if split then [0x11] else []) && !rest.isEmpty && !home.isEmpty &&
    (match mid with
      | [] => true
      | k :: ks => (decide (k = 3) || tile k) && ks.all tile) &&
    (home.drop 1).all (fun k => tile k || decide (k = 7)) &&
    ws.all (fun w => stKind w ≠ 0x12 ∨ stFmt w = 0)

/-- R169. -/
def stagesOk (d : Dev) (t : Nat) : Bool :=
  let p := prologue d t
  (p ++ epilogue d t).all (stageOk (headDim d t)) && p.all prologueStageOk && xStagesFirst p &&
    epilogueOk (bit (getReg d (R.TCX_MODE t)) 2) (epilogue d t)

/-- R202: formats of pages and queries. -/
def pageFmtOk (f : Nat) : Bool := decide (1 ≤ f) && decide (f ≤ 8)

/-- R234, the test of the chain's rounding apart. -/
def patternOk (d : Dev) (t : Nat) : Bool :=
  let p := getReg d (R.TCX_PATTERN t)
  match fld p 1 0 with
  | 0 => decide (fld p 29 2 = 0)
  | 1 => decide (fld p 13 2 ≠ 0) && decide (fld p 29 21 = 0) && decide (fld p 20 14 ≤ 64)
  | 2 => decide (fld p 13 2 ≠ 0) && !bit (getReg d (R.TCX_MODE t)) 2 && decide (fld p 20 14 ≤ 64)
  | _ => false

/-- Largest PAIRS of the chain's ROPE stages, 0 without one. -/
def ropePairs (d : Dev) (t : Nat) : Nat :=
  ((prologue d t).filter (fun w => stKind w = 4)).foldl (fun m w => max m (stArgA w % 256 + 1)) 0

/-- R268: the rotary table lies within the hive window. -/
def ropeFits (d : Dev) (t : Nat) : Bool :=
  let n := 8 * 2304 * ropePairs d t
  let a := 4096 * regFld d (R.TCX_ROPE_BASE t) 15 0
  decide (n = 0) || (decide ((hvWindow d t).1 ≤ a) && decide (a + n ≤ (hvWindow d t).2))

/-- Formats that AX4 numerics mode takes (R143). -/
def ax4Fmt (f : Nat) : Bool := decide (f = 1 ∨ f = 2 ∨ f = 3 ∨ f = 7)

/-- FIELD checks that need no image. -/
def ctxFieldsOk (d : Dev) (t : Nat) : Bool :=
  let u := regFld d (R.TCX_SHAPE t) 7 0
  let w := cmWindow d t
  (!bit (getReg d (R.TCX_MODE t)) 1 || (ax4Fmt (kvFmt d t) && ax4Fmt (regFld d (R.TCX_PAGE t) 15 12))) &&
  decide ((getReg d (R.TCX_VERSION t)) ≠ 0) && decide (1 ≤ u) && decide (u ≤ 128) &&
    decide (regFld d (R.TCX_SHAPE t) 9 8 ≤ 2) && decide (4 ≤ regFld d (R.TCX_PAGE t) 2 0) &&
    decide (8 ≤ regFld d (R.TCX_PAGE t) 6 3) && decide (regFld d (R.TCX_PAGE t) 6 3 ≤ 11) &&
    decide (regFld d (R.TCX_PAGE t) 2 0 ≤ 7) && pageFmtOk (kvFmt d t) && pageFmtOk (regFld d (R.TCX_PAGE t) 15 12) &&
    decide (regFld d (R.TCX_SEQ_FIRST t) 17 0 + regFld d (R.TCX_SEQ_COUNT t) 18 0 ≤ 262144) &&
    decide (w.1 < w.2) && decide (w.2 ≤ 1024) && decide ((hvWindow d t).1 ≤ (hvWindow d t).2) &&
    decide ((hvWindow d t).2 ≤ 0x7000000) && stagesOk d t && patternOk d t && ropeFits d t

/-- FIELD checks against the image of the version (R143, R174, R188, R234). -/
def ctxImageFieldsOk (d : Dev) (t dest : Nat) : Bool :=
  let h := chainHdr d t dest
  let ax4 := bit (getReg d (R.TCX_MODE t)) 1
  (!ax4 || (ax4Fmt h.pvFmt && !h.fast && h.ax4 &&
      decide (imgField d t dest 0x0A 2 % 2 = 1) && !h.comp)) &&
    (decide (regFld d (R.TCX_PATTERN t) 1 0 ≠ 2) || decide (h.pvRnd ≠ 2)) &&
    decide (h.passHeads ≤ groupOf d t * headsPerCell d t) &&
    decide ((hvWindow d t).1 + 4096 * h.cmbOff + h.cmbRegions * h.cmbBytes ≤ (hvWindow d t).2)

/-- R188: accumulator entries that the chain holds; in AX4 numerics mode those without COMP (R142). -/
def chainHold (d : Dev) (t dest : Nat) : Nat :=
  let h := chainHdr d t dest
  max (2 * h.passHeads * 2 ^ regFld d (R.TCX_SHAPE t) 9 8 * (if h.comp then 2 else 1))
    (2 * (if h.pcomp && !bit (getReg d (R.TCX_MODE t)) 1 then 2 else 1))

/-- Slot of the context's version where that version has verified on this die. -/
def verifiedSlot (d : Dev) (t : Nat) : Option Nat :=
  (slotOf d t (getReg d (R.TCX_VERSION t))).filter (fun i => decide ((wSlot d i).st = .verified))

/-- CELLS: express cells, and the head-cell count. -/
def ctxCellsOk (d : Dev) (t : Nat) : Bool :=
  (!expressEn d || (decide (4 ≤ (homeCell d t).val) && (headCells d t).all (fun c => 4 ≤ c.val))) &&
    (match verifiedSlot d t with
      | none => true
      | some i => decide (kvHeads d t = (wSlot d i).kvHeads))

/-- WINDOW: overlaps, footprints, and banks and bands that are not ON (R268). -/
def ctxWindowOk (d : Dev) (t : Nat) (img : Option Nat) : Bool :=
  let h := hvWindow d t
  let w := cmWindow d t
  (enabledRings d).all (fun r => !rangesMeet h.1 h.2 (ringBase d r) (ringBase d r + bufBytes (ringCfg d r))) &&
    (liveTenants d).all (fun o => !rangesMeet h.1 h.2 (hvWindow d o).1 (hvWindow d o).2 &&
      ((List.finRange 64).all (fun c => !(usesCell d t c && usesCell d o c)) ||
        !rangesMeet w.1 w.2 (cmWindow d o).1 (cmWindow d o).2)) &&
    (match img with
      | none => true
      | some dest => decide (imgField d t dest 0x18 4 ≤ w.2 - w.1) && decide (4096 * imgField d t dest 0x1C 4 ≤ h.2 - h.1)) &&
    (List.finRange 64).all (fun c => (List.range 8).all (fun b => !mapsBank d t c b || decide (bankState d c b = 0))) &&
    (List.range 7).all (fun k => !rangesMeet h.1 h.2 (0x1000000 * k) (0x1000000 * (k + 1)) || decide (bandState d k = 0))

/-- SHAPE, PAGE and PATTERN of the context equal the image's. -/
def shapeMatches (d : Dev) (t dest : Nat) : Bool :=
  decide (imgField d t dest 0x0C 3 = regFld d (R.TCX_SHAPE t) 23 0) &&
    decide (imgField d t dest 0x10 2 = regFld d (R.TCX_PAGE t) 15 0) &&
    decide (imgField d t dest 0x14 4 = (getReg d (R.TCX_PATTERN t)).toNat)

/-- WEIGHTS (R290). -/
def ctxWeightsOk (d : Dev) (t : Nat) (img : Option Nat) : Bool :=
  match img with
  | none => false
  | some dest => decide (getReg d (R.TCX_VERSION t) = getReg d (R.TCX_VERSION_NEXT t)) && shapeMatches d t dest &&
      (List.range 16).all (fun s => imgField d t dest (0x60 + 8 * s) 8 = (stageWord d t s).toNat)

/-- SEQ_RANGE. -/
def ctxSeqsOk (d : Dev) (t : Nat) : Bool :=
  let r (x : Nat) : Nat × Nat :=
    (regFld d (R.TCX_SEQ_FIRST x) 17 0, regFld d (R.TCX_SEQ_FIRST x) 17 0 + regFld d (R.TCX_SEQ_COUNT x) 18 0)
  (liveTenants d).all (fun o => !rangesMeet (r t).1 (r t).2 (r o).1 (r o).2)

/-- The lowest failing code of Table 03-12, 0 where every check passes. -/
def activationReason (d : Dev) (t : Nat) : Nat :=
  let img := (verifiedSlot d t).map (fun i => (wSlot d i).dest)
  let withImage (f : Nat → Bool) : Bool := match img with | none => true | some x => f x
  if !(ctxFieldsOk d t && withImage (ctxImageFieldsOk d t)) then 1
  else if !costTableValid d (costTable d t) then 2
  else if !ctxCellsOk d t then 3
  else if !withImage (fun x => chainHold d t x ≤ 32) then 4
  else if !ctxWindowOk d t img then 5
  else if !ctxWeightsOk d t img then 6
  else if !(keySet d (keyHandle d t)).valid then 7
  else if !ctxSeqsOk d t then 8
  else 0

/-- Owner tag of a context (R269). -/
def ownerTag (d : Dev) (t : Nat) : Tag :=
  .tenant (BitVec.ofNat 12 t) (BitVec.ofNat 12 (keyHandle d t)) (keySet d (keyHandle d t)).epoch

/-- R269 for one unit. -/
def grantUnit (t key : Nat) (d : Dev) : Dev :=
  let cur := tblGet .clean d.mem.tags key
  if cur = .clean ∨ cur = ownerTag d t then setTag d key (ownerTag d t)
  else setTag d key (.wipingTenant (BitVec.ofNat 12 t) (BitVec.ofNat 12 (keyHandle d t)) (keySet d (keyHandle d t)).epoch)

/-- R269 for every unit of the context's windows. -/
def grantWindows (t : Nat) (d : Dev) : Dev :=
  let w := cmWindow d t
  let h := hvWindow d t
  let cells := (List.finRange 64).filter (usesCell d t)
  let d := cells.foldl (fun d c => (List.range (w.2 - w.1)).foldl (fun d i => grantUnit t (1024 * c.val + w.1 + i) d) d) d
  (List.range ((h.2 - h.1) / 4096)).foldl (fun d i => grantUnit t (65536 + h.1 / 4096 + i) d) d

/-- A successful activation (R81, R269, R290). -/
def activate (t i : Nat) (d : Dev) : Dev :=
  let s := wSlot d i
  let prog := s.dest + imgField d t s.dest 0x48 8
  let d := grantWindows t (setTcxState t 1 d)
  let d := setReg64 d (R.TCX_WEIGHT_BASE_LO t) (R.TCX_WEIGHT_BASE_HI t) s.dest
  let d := setReg64 d (R.TCX_PROG_BASE_LO t) (R.TCX_PROG_BASE_HI t) prog
  let d := { d with wgt := { d.wgt with
    images := d.wgt.images ++ [slotImage s]
    copies := d.wgt.copies ++ [t] } }
  setBarrier t true (slotIdle i 0 d)

/-- R81. -/
def ctxActivateCmd (e : CmdEntry) (d : Dev) : Option Nat × Dev :=
  let t := e.tenant
  if tcxState d t ≠ 0 then (some resBadState, d)
  else
    match activationReason d t, verifiedSlot d t with
    | 0, some i => (some resDone, activate t i d)
    | n, _ => (some resCheckFail, setRegFld d (R.TCX_STATE t) 15 8 n)

/-- CTX_ACTIVATE (R81, R290). -/
def execCtxActivate (ring : RingId) (s : State) : Host.Outcome State Fault Refusal :=
  onDev (readCommand ring (fun c => c = 0x01) (fun e _ _ d => ctxActivateCmd e d)) s

/-! ### Kills (R82, R83) -/

/-- Mark requests killed from the next tick. -/
def killReqs (p : Req → Bool) (d : Dev) : Dev :=
  let k := d.tick.num + 1
  { d with ent := { d.ent with reqs := d.ent.reqs.map (fun r =>
    if p r && !r.recordWritten then { r with killAt := some (match r.killAt with | some j => min j k | none => k) } else r) } }

/-- CTX_KILL (R82, R298). -/
def ctxKillCmd (e : CmdEntry) (d : Dev) : Option Nat × Dev :=
  let t := e.tenant
  if tcxState d t ≠ 1 then (some resBadState, d)
  else
    let d := killReqs (fun r => decide (dTenant r.desc = t)) (setTcxState t 2 d)
    (some resDone, contextReleasing t (wgtKill t d))

/-- CTX_KILL. -/
def execCtxKill (ring : RingId) (s : State) : Host.Outcome State Fault Refusal :=
  onDev (readCommand ring (fun c => c = 0x02) (fun e _ _ d => ctxKillCmd e d)) s

/-- REQ_KILL (R83, R85). -/
def reqKillCmd (e : CmdEntry) (d : Dev) : Option Nat × Dev :=
  let hit (r : Req) : Bool := decide (dTenant r.desc = e.tenant) && decide ((dReqId r.desc).toNat = e.arg 31 0)
  if tcxState d e.tenant ≠ 1 then (some resBadState, d)
  else if d.ent.reqs.any (fun r => hit r && !r.recordWritten && decide (d.tick.num + 1 ≤ r.tick)) then
    (some resDone, killReqs hit d)
  else (some resNotFound, d)

/-- REQ_KILL. -/
def execReqKill (ring : RingId) (s : State) : Host.Outcome State Fault Refusal :=
  onDev (readCommand ring (fun c => c = 0x03) (fun e _ _ d => reqKillCmd e d)) s

/-! ### Sequence commands (R85) -/

/-- SEQ lies in the tenant's range. -/
def seqInRange (d : Dev) (t q : Nat) : Bool :=
  let a := regFld d (R.TCX_SEQ_FIRST t) 17 0
  decide (a ≤ q) && decide (q < a + regFld d (R.TCX_SEQ_COUNT t) 18 0)

/-- The sequence is OPEN. -/
def seqOpen (d : Dev) (q : Nat) : Bool := decide ((seqDesc d q).st = .live) && !(seqDesc d q).forkChild

/-- LAST_TICK makes the sequence busy (R85). -/
def seqBusy (d : Dev) (q : Nat) : Bool :=
  decide ((seqEntry d q).lastTick ≠ 0) && decide (d.tick.num ≤ (seqEntry d q).lastTick)

/-- SEQ_KILL (R83, R250). DESIGN CHOICE (log 88): it kills the requests whose SEQ field names the sequence; R83 does not
say whether it kills a PACKED request of which the sequence is a later part (R239), and the model does not. -/
def seqKillCmd (e : CmdEntry) (d : Dev) : Option Nat × Dev :=
  if !seqInRange d e.tenant e.seq then (some resBadCmd, d)
  else if tcxState d e.tenant ≠ 1 ∨ seqOpen d e.seq = false then (some resBadState, d)
  else
    let d := killReqs (fun r => decide (dTenant r.desc = e.tenant) && decide (dSeq r.desc = e.seq)) d
    let d := updEntry e.seq (fun x => { x with prefillOpen := false }) d
    (some resDone, { d with ent := { d.ent with spec := tblErase d.ent.spec e.seq } })

/-- SEQ_KILL. -/
def execSeqKill (ring : RingId) (s : State) : Host.Outcome State Fault Refusal :=
  onDev (readCommand ring (fun c => c = 0x04) (fun e _ _ d => seqKillCmd e d)) s

/-- BAD_CMD cases of SEQ_OPEN (R85, R190, R230, R231). -/
def seqOpenBad (e : CmdEntry) (d : Dev) : Bool :=
  let t := e.tenant
  let split := decide (e.arg 1 1 = 1)
  let parts := e.arg 31 16
  let lo := e.arg 63 32
  let hi := e.arg 95 64
  let home := e.arg 111 96
  let p := prefixTokens d t
  !seqInRange d t e.seq || (split != bit (getReg d (R.TCX_MODE t)) 2) || decide (parts = 0) || decide (512 < parts) ||
    decide (regFld d R.TICK_DOMAIN_SIZE 9 0 ≤ home) || (decide (parts = 1) && decide (home ≠ (dieIndex d).toNat)) ||
    (!split && decide (lo ≠ 0 ∨ hi ≠ 0)) ||
    (split && (decide (hi ≤ lo) || decide (lo % p ≠ 0) || decide (hi ≠ 0xFFFFFFFF ∧ hi % p ≠ 0))) ||
    (decide (tcxState d t = 1) && decide ((tenantChain d t).cmbParts < parts))

/-- SEQ_OPEN (R209, R231, R85). -/
def seqOpenCmd (e : CmdEntry) (d : Dev) : Option Nat × Dev :=
  let t := e.tenant
  if seqOpenBad e d then (some resBadCmd, d)
  else if tcxState d t ≠ 1 ∨ (seqDesc d e.seq).st ≠ .free then (some resBadState, d)
  else
    match openDirs t d with
    | none => (some resNoSpace, d)
    | some (root, d) =>
      let split := decide (e.arg 1 1 = 1)
      let d := updSeq e.seq (fun _ => {
        tenant := t, st := .live, evictable := decide (e.arg 0 0 = 1), splitPos := split,
        posLo := if split then e.arg 63 32 else 0, posHi := if split then e.arg 95 64 else 0xFFFFFFFF,
        homeDie := e.arg 111 96, parts := e.arg 31 16, root := some root, statsBase := e.arg 255 192 }) d
      let d := updEntry e.seq (fun _ => { isOpen := true }) d
      (some resDone, { d with ent := { d.ent with spec := tblErase d.ent.spec e.seq } })

/-- SEQ_OPEN. -/
def execSeqOpen (ring : RingId) (s : State) : Host.Outcome State Fault Refusal :=
  onDev (readCommand ring (fun c => c = 0x05) (fun e _ _ d => seqOpenCmd e d)) s

/-- SEQ_FORK (R222, R223, R85): the child's directories are built, and the heads follow in the fork step of the drain
order; the record is written at FORK_END. -/
def seqForkCmd (e : CmdEntry) (x : CmdRef) (d : Dev) : Option Nat × Dev :=
  let t := e.tenant
  let parent := e.arg 17 0
  let p := seqDesc d parent
  let n := e.arg 63 32
  if !seqInRange d t e.seq || !seqInRange d t parent || decide (n = 0) || decide (p.length < n) || decide (1 < p.parts) ||
      (decide (n < p.prefixLen) && decide (n % prefixTokens d t ≠ 0)) then (some resBadCmd, d)
  else if tcxState d t ≠ 1 ∨ (seqDesc d e.seq).st ≠ .free ∨ seqOpen d parent = false ∨ p.forkParent then
    (some resBadState, d)
  else if seqBusy d parent then (some resBusy, d)
  else
    match openDirs t d with
    | none => (some resNoSpace, d)
    | some (root, d) =>
      let d := updSeq e.seq (fun _ => {
        tenant := t, st := .live, root := some root, forkChild := true, forkPeer := parent, forkLen := n,
        cmd := some x }) d
      (none, updSeq parent (fun p => { p with forkParent := true, forkPeer := e.seq }) d)

/-- SEQ_FORK. -/
def execSeqFork (ring : RingId) (s : State) : Host.Outcome State Fault Refusal :=
  onDev (readCommand ring (fun c => c = 0x06) (fun e _ x d => seqForkCmd e x d)) s

/-- SEQ_RELEASE (R228, R85): the record is written at RELEASE_END. -/
def seqReleaseCmd (e : CmdEntry) (x : CmdRef) (d : Dev) : Option Nat × Dev :=
  if !seqInRange d e.tenant e.seq then (some resBadCmd, d)
  else if tcxState d e.tenant ≠ 1 ∨ seqOpen d e.seq = false then (some resBadState, d)
  else if seqBusy d e.seq then (some resBusy, d)
  else (none, startRelease e.seq (some x) d)

/-- SEQ_RELEASE. -/
def execSeqRelease (ring : RingId) (s : State) : Host.Outcome State Fault Refusal :=
  onDev (readCommand ring (fun c => c = 0x07) (fun e _ x d => seqReleaseCmd e x d)) s

/-- SEQ_SET (R85). -/
def seqSetCmd (e : CmdEntry) (d : Dev) : Option Nat × Dev :=
  if !seqInRange d e.tenant e.seq then (some resBadCmd, d)
  else if tcxState d e.tenant ≠ 1 ∨ seqOpen d e.seq = false then (some resBadState, d)
  else (some resDone, updSeq e.seq (fun q => { q with evictable := decide (e.arg 0 0 = 1) }) d)

/-- SEQ_SET. -/
def execSeqSet (ring : RingId) (s : State) : Host.Outcome State Fault Refusal :=
  onDev (readCommand ring (fun c => c = 0x08) (fun e _ _ d => seqSetCmd e d)) s

/-! ### Cost tables and sync objects (R74, R77) -/

/-- The 256 cost entries of a payload, in row order. -/
def ctEntries (payload : List (List Byte)) : List (BitVec 128) :=
  payload.flatMap (fun b => (List.range 4).map (fun i => BitVec.ofNat 128 (leAt b (16 * i) 16)))

/-- Install a cost table. -/
def installTable (i : Nat) (es : List (BitVec 128)) (d : Dev) : Dev :=
  let d := { d with ent := { d.ent with cost := tblPutList d.ent.cost (256 * i) es } }
  setReg d (R.ENT_CT_VALID (i / 32)) (setBit (getReg d (R.ENT_CT_VALID (i / 32))) (i % 32) true)

/-- CT_LOAD (R74, Table 02-4). -/
def ctLoadCmd (e : CmdEntry) (payload : List (List Byte)) (d : Dev) : Option Nat × Dev :=
  let es := ctEntries payload
  if es.any (fun c => fld c 127 96 ≠ 0) then (some resBadCmd, d) else (some resDone, installTable (e.arg 8 0) es d)

/-- CT_LOAD. -/
def execCtLoad (ring : RingId) (s : State) : Host.Outcome State Fault Refusal :=
  onDev (readCommand ring (fun c => c = 0x09) (fun e p _ d => ctLoadCmd e p d)) s

/-- SYNC_SET (R77). -/
def execSyncSet (ring : RingId) (s : State) : Host.Outcome State Fault Refusal :=
  onDev (readCommand ring (fun c => c = 0x0A) (fun e _ _ d =>
    (some resDone, setReg d (R.SYN_VALUE (e.arg 13 0)) (BitVec.ofNat 32 (e.arg 63 32))))) s

/-! ### Weight commands (Table 11-2) -/

/-- R278: a handle in use. -/
def handleBusy (d : Dev) (h : Nat) : Bool :=
  (liveTenants d).any (fun t => keyHandle d t = h) ||
    (slotsWith d (fun s => decide (s.st ≠ .idle))).any (fun i => keyHandle d (wSlot d i).tenant = h)

/-- Replace the key set of a handle, incrementing its key epoch. -/
def setKeys (h : Nat) (bytes : List Byte) (valid : Bool) (d : Dev) : Dev :=
  let k := keySet d h
  { d with wgt := { d.wgt with keys := tblSet {} d.wgt.keys h { bytes := bytes, valid := valid, epoch := k.epoch + 1 } } }

/-- The key set that wrapped bytes carry under the key-encryption key, where the unwrap succeeds and the two XTS halves
differ (R277). -/
def unwrapKeys (wrapped : List Byte) : Option (List Byte) :=
  ((Crypto.keyUnwrap (plainNats (leBytes 32 Config.kek.toNat)) (plainNats wrapped)).map (fun k => k.map (BitVec.ofNat 8))).filter
    (fun k => decide (k.length = 96) && decide (k.take 32 ≠ (k.drop 32).take 32))

/-- WGT_KEY_LOAD (R277, R278). -/
def keyLoadCmd (e : CmdEntry) (payload : List (List Byte)) (d : Dev) : Option Nat × Dev :=
  let h := e.arg 11 0
  if (payload.flatten.drop 104).any (fun b => b ≠ 0) then (some resBadCmd, d)
  else if handleBusy d h then (some resBadState, d)
  else
    match unwrapKeys (payload.flatten.take 104) with
    | some keys => (some resDone, setKeys h keys true d)
    | none => (some resCheckFail, setRegFld d R.ENT_KEY_REASON 7 0 5)

/-- The command at the front of a ring is the WGT_KEY_LOAD that the row names, by CMD_ID and handle (log 19). -/
def isKeyLoad (d : Dev) (ring : RingId) (cmdId : W32) (handle : BitVec 12) : Bool :=
  let e := cmdEntryOf (cmdEntryAt d ring.toNat 0)
  decide (e.cmdId = cmdId) && decide (e.arg 11 0 = handle.toNat)

/-- WGT_KEY_LOAD. -/
def execWgtKeyLoad (ring : RingId) (cmdId : W32) (handle : BitVec 12) (s : State) : Host.Outcome State Fault Refusal :=
  onDev (fun d => onlyIf (isKeyLoad d ring cmdId handle)
    (readCommand ring (fun c => c = 0x10) (fun e p _ d => keyLoadCmd e p d)) d) s

/-- WGT_KEY_CLEAR (R278). -/
def keyClearCmd (e : CmdEntry) (d : Dev) : Option Nat × Dev :=
  if handleBusy d (e.arg 11 0) then (some resBadState, d) else (some resDone, setKeys (e.arg 11 0) [] false d)

/-- WGT_KEY_CLEAR. -/
def execWgtKeyClear (ring : RingId) (s : State) : Host.Outcome State Fault Refusal :=
  onDev (readCommand ring (fun c => c = 0x11) (fun e _ _ d => keyClearCmd e d)) s

/-- Version argument of a weight command. -/
def CmdEntry.version (e : CmdEntry) : W32 := BitVec.ofNat 32 (e.arg 31 0)

/-- A port argument that R314 admits: UP at Toroux 2.0. -/
def wgtPortOk (d : Dev) (n : Nat) : Bool :=
  match portOfCode n with
  | some p => portUp20 d p
  | none => false

/-- WGT_LOAD (R282, R314): the record of a load that takes a slot is written when the load ends. -/
def wgtLoadCmd (e : CmdEntry) (x : CmdRef) (d : Dev) : Option Nat × Dev :=
  let t := e.tenant
  let up := e.arg 34 32
  let down := e.arg 38 36
  let dest := e.arg 127 64
  if e.version = 0 ∨ wgtPortOk d up = false ∨ (down ≠ 7 ∧ wgtPortOk d down = false) then (some resBadCmd, d)
  else if 2 ≤ tcxState d t ∨ getReg d (R.TCX_VERSION_NEXT t) ≠ 0 ∨
      (tcxState d t = 1 ∧ e.version = getReg d (R.TCX_VERSION t) ∧ quarantined d t = false) then (some resBadState, d)
  else
    match (List.range 8).find? (fun i => decide ((wSlot d i).st = .idle)) with
    | none => (some resBusy, d)
    | some i =>
      if !(keySet d (keyHandle d t)).valid then (some resCheckFail, setRegFld d R.ENT_WGT_CMD_REASON 7 0 5)
      else if destBad d dest then (some resCheckFail, setRegFld d R.ENT_WGT_CMD_REASON 7 0 4)
      else
        let d := updSlot i (fun _ => {
          st := .loading, tenant := t, version := e.version, dest := dest, up := up, down := portOfCode down,
          lastAt := now d, loadCmd := some x }) d
        (none, setNext t e.version d)

/-- WGT_LOAD. -/
def execWgtLoad (ring : RingId) (s : State) : Host.Outcome State Fault Refusal :=
  onDev (readCommand ring (fun c => c = 0x12) (fun e _ x d => wgtLoadCmd e x d)) s

/-- Slot of the version in one of the given states. -/
def slotIn? (d : Dev) (t : Nat) (v : W32) (ok : SlotState → Bool) : Option Nat :=
  (slotOf d t v).filter (fun i => ok (wSlot d i).st)

/-- WGT_CANCEL (R297, R288). -/
def wgtCancelCmd (e : CmdEntry) (d : Dev) : Option Nat × Dev :=
  match slotIn? d e.tenant e.version (fun s => decide (s = .loading ∨ s = .verified)) with
  | some i => (some resDone, failLoad i 8 d)
  | none => (some resBadState, d)

/-- WGT_CANCEL. -/
def execWgtCancel (ring : RingId) (s : State) : Host.Outcome State Fault Refusal :=
  onDev (readCommand ring (fun c => c = 0x13) (fun e _ _ d => wgtCancelCmd e d)) s

/-- Footprints of an image fit the context's windows. -/
def footprintFits (d : Dev) (t dest : Nat) : Bool :=
  decide (imgField d t dest 0x18 4 ≤ (cmWindow d t).2 - (cmWindow d t).1) &&
    decide (4096 * imgField d t dest 0x1C 4 ≤ (hvWindow d t).2 - (hvWindow d t).1)

/-- WGT_SWAP (R291): the record is written when the swap is READY or ends early. -/
def wgtSwapCmd (e : CmdEntry) (x : CmdRef) (d : Dev) : Option Nat × Dev :=
  let t := e.tenant
  match slotIn? d t e.version (fun s => decide (s = .verified)) with
  | none => (some resBadState, d)
  | some i =>
    if tcxState d t ≠ 1 then (some resBadState, d)
    else
      let dest := (wSlot d i).dest
      if !(shapeMatches d t dest && footprintFits d t dest) then
        (some resCheckFail, updSlot i (fun s => { s with reason := 6 }) d)
      else if !costTableValid d (e.arg 48 40) then (some resCheckFail, updSlot i (fun s => { s with reason := 9 }) d)
      else
        let d := updSlot i (fun s => { s with
          st := .swapping, kvDrop := decide (e.arg 32 32 = 1), costTable := e.arg 48 40, started := false,
          clear := false, layer := 0, rope := false, swapCmd := some x }) d
        (none, setBarrier t true d)

/-- WGT_SWAP. -/
def execWgtSwap (ring : RingId) (s : State) : Host.Outcome State Fault Refusal :=
  onDev (readCommand ring (fun c => c = 0x14) (fun e _ x d => wgtSwapCmd e x d)) s

/-- The activation entry that is free. -/
def freeAct (d : Dev) : Option Nat := (List.range 8).find? (fun j => !bit (getReg d (R.ENT_WACT_ID j)) 31)

/-- WGT_ACTIVATE (R294): the record is written in the drain phase of tick T. -/
def wgtActivateCmd (e : CmdEntry) (x : CmdRef) (d : Dev) : Option Nat × Dev :=
  if role d ≠ 0 ∧ role d ≠ 1 then (some resBadState, d)
  else
    match freeAct d with
    | none => (some resBusy, d)
    | some j =>
      let n := d.tick.num
      let k0 := n + 1
      let nb := e.arg 127 64
      let t := if role d = 0 then max nb (n + 2) else max nb (k0 + regFld d R.TICK_MISS_LIMIT 7 0)
      let d := setReg d (R.ENT_WACT_ID j) (BitVec.ofNat 32 (e.tenant + 2 ^ 31))
      let d := setReg d (R.ENT_WACT_VERSION j) e.version
      let d := setReg64 d (R.ENT_WACT_TICK_LO j) (R.ENT_WACT_TICK_HI j) t
      let d := { d with wgt := { d.wgt with actCmds := d.wgt.actCmds ++ [(t, x)] } }
      (none, if role d = 0 then wgtReceiveActs n [(e.tenant, e.version.toNat, t)] d else d)

/-- WGT_ACTIVATE. -/
def execWgtActivate (ring : RingId) (s : State) : Host.Outcome State Fault Refusal :=
  onDev (readCommand ring (fun c => c = 0x15) (fun e _ x d => wgtActivateCmd e x d)) s

/-- WGT_ABORT (R297): the record is written when the revert has ended. -/
def wgtAbortCmd (e : CmdEntry) (x : CmdRef) (d : Dev) : Option Nat × Dev :=
  match slotIn? d e.tenant e.version (fun s => decide (s = .swapping ∨ s = .ready)) with
  | none => (some resBadState, d)
  | some i =>
    let s := wSlot d i
    if s.act ≠ 0 then (some resBadState, d)
    else
      let d := cmdRecord? s.swapCmd resCheckFail 0 d
      (none, updSlot i (fun s => { s with st := .reverting, reason := 8, swapCmd := none, abortCmd := some x }) d)

/-- WGT_ABORT. -/
def execWgtAbort (ring : RingId) (s : State) : Host.Outcome State Fault Refusal :=
  onDev (readCommand ring (fun c => c = 0x16) (fun e _ x d => wgtAbortCmd e x d)) s

end Sys2Proof.Machine
end

