-- ==== Sys2Proof/Machine/Banks.lean ====
section
/-!
DEFINITION. Memories (10, 12): the end of a wipe (R270), power-down and wake of cell-memory banks and hive bands (R273,
R274), HBM credit (R24) and refresh (R305).
-/

namespace Sys2Proof.Machine

open Sys2Proof

/-! ### Wipes (R270) -/

/-- Tag that a WIPING unit takes at its end; units of a ring buffer stay CLEAN until the last of them is done (R271). -/
def wipedTag : Tag → Tag
  | .wipingTenant t h e => .tenant t h e
  | _ => .clean

/-- Key of a unit's tag, and zero-filling it. -/
def placeKey : MemPlace → Nat
  | .cell c u => 1024 * c.val + u.toNat
  | .hive u => 65536 + u.toNat
def zeroPlace : MemPlace → Dev → Dev
  | .cell c u, d => cmWrite d c (4096 * u.toNat) (zeroBytes 4096)
  | .hive u, d => hiveWrite d (4096 * u.toNat) (zeroBytes 4096)
def countWipe : MemPlace → Dev → Dev
  | .cell c _, d => bump d (R.CEL_WIPE_CNT c.val)
  | .hive _, d => bump d R.HIV_WIPE_CNT

/-- The wipe of one unit ends. -/
def endWipe (p : MemPlace) (d : Dev) : Dev :=
  let tag := tblGet .clean d.mem.tags (placeKey p)
  countWipe p (setTag (zeroPlace p d) (placeKey p) (wipedTag tag))

/-- WIPE_END (R270): wipes run in drain and beacon phases. -/
def execWipeEnd (place : MemPlace) (s : State) : Host.Outcome State Fault Refusal :=
  onDev (fun d => onlyIf (alive d && inDrainOrBeacon d && (tblGet .clean d.mem.tags (placeKey place)).isWiping)
    (endWipe place) d) s

/-! ### Banks and bands (R273, R274, Table 10-7) -/

/-- State, requested OFF, and key of a bank or band. -/
def gateState (d : Dev) : BankId → Nat
  | .cell c b => bankState d c b.val
  | .hive k => bandState d k.val
def setGate (d : Dev) (b : BankId) (st : Nat) : Dev :=
  match b with
  | .cell c b => setBankState d c b.val st
  | .hive k => setBandState d k.val st
def offReq (d : Dev) : BankId → Bool
  | .cell c b => bit (getReg d (R.CEL_BANK_CTL c.val)) b.val
  | .hive k => bit (getReg d R.HIV_BAND_CTL) k.val
def gateKey : BankId → Nat
  | .cell c b => 8 * c.val + b.val
  | .hive k => 512 + k.val
def countRefused : BankId → Dev → Dev
  | .cell c _, d => bump d (R.CEL_BANK_REFUSE_CNT c.val)
  | .hive _, d => bump d R.HIV_BAND_REFUSE_CNT

/-- A unit in a range of tag keys is WIPING. -/
def wipingIn (d : Dev) (lo n : Nat) : Bool :=
  d.mem.tags.any (fun e => decide (lo ≤ e.1) && decide (e.1 < lo + n) && e.2.isWiping)

/-- Blocking conditions of R273. -/
def gateBlocked (d : Dev) : BankId → Bool
  | .cell c b =>
    (tenantsIn d 1).any (fun t => mapsBank d t c b.val) || wipingIn d (1024 * c.val + 128 * b.val) 128 ||
      (expressEn d && decide (c.val < 4) && someHot d)
  | .hive k =>
    let lo := 0x1000000 * k.val
    (tenantsIn d 1).any (fun t => rangesMeet (hvWindow d t).1 (hvWindow d t).2 lo (lo + 0x1000000)) ||
      (enabledRings d).any (fun r => rangesMeet (ringBase d r) (ringBase d r + bufBytes (ringCfg d r)) lo (lo + 0x1000000)) ||
      wipingIn d (65536 + 4096 * k.val) 4096

/-- The power controller looks at a gate in a drain-phase cycle. -/
def closeGate (b : BankId) (d : Dev) : Dev :=
  if !gateBlocked d b then setGate d b 1
  else if d.mem.gateRefused.contains (gateKey b) then d
  else countRefused b { d with mem := { d.mem with gateRefused := gateKey b :: d.mem.gateRefused } }

/-- BANK_GATE_CLOSE (R273). -/
def execBankGateClose (bank : BankId) (s : State) : Host.Outcome State Fault Refusal :=
  onDev (fun d => onlyIf (alive d && inDrain d && offReq d bank && decide (gateState d bank = 0)) (closeGate bank) d) s

/-- Contents and tags of a bank or band are gone. -/
def loseGate : BankId → Dev → Dev
  | .cell c b, d => loseBank c b.val d
  | .hive k, d => loseBand k.val d

/-- BANK_OFF_REACHED (R274). -/
def execBankOffReached (bank : BankId) (s : State) : Host.Outcome State Fault Refusal :=
  onDev (fun d => onlyIf (alive d && decide (gateState d bank = 1)) (fun d => setGate (loseGate bank d) bank 2) d) s

/-- BANK_WAKE_START (R273, Table 10-7). -/
def execBankWakeStart (bank : BankId) (s : State) : Host.Outcome State Fault Refusal :=
  onDev (fun d => onlyIf (alive d && inDrain d && !offReq d bank && decide (gateState d bank = 2))
    (fun d => setGate d bank 3) d) s

/-- BANK_WAKE_END (R274): the bank or band holds zeros with valid ECC and its units are CLEAN. -/
def execBankWakeEnd (bank : BankId) (s : State) : Host.Outcome State Fault Refusal :=
  onDev (fun d => onlyIf (alive d && decide (gateState d bank = 3)) (fun d => setGate (loseGate bank d) bank 0) d) s

/-! ### HBM (R24, R305) -/

/-- The port is trained and out of self-refresh. -/
def hbmReady (d : Dev) (p : Fin 8) : Bool :=
  decide (regFld d (R.HBM_STATUS p.val) 1 0 = 2) && !bit (getReg d (R.HBM_STATUS p.val)) 4

/-- Bursts of 1 KiB that a request takes, by its bytes alone: the spec does not say that one whose address is not a multiple of
1 KiB takes more (DESIGN CHOICE, log 117), and the credit of a cell for a controller. -/
def burstsOf (bytes : Nat) : Nat := ceilDiv bytes 1024
def hbmCredit (write : Bool) : Nat := if write then 32 else 64
def hbmOutKey (c : CellId) (p : Fin 8) (write : Bool) : Nat := 2 * (64 * p.val + c.val) + (if write then 1 else 0)

/-- R24: a request is accepted against credit that the cell holds, and credit returns on delivery. -/
def hbmRequest (c : CellId) (p : Fin 8) (write : Bool) (bytes : Nat) (delivered : Bool) (d : Dev) : Dev :=
  let k := hbmOutKey c p write
  let n := burstsOf bytes
  let out := tblGet 0 d.mem.hbmOut k
  if delivered then
    if n ≤ out then { d with mem := { d.mem with hbmOut := tblSet 0 d.mem.hbmOut k (out - n) } } else d
  else if out + n ≤ hbmCredit write then { d with mem := { d.mem with hbmOut := tblSet 0 d.mem.hbmOut k (out + n) } }
  else d

/-- HBM_REQUEST (R24, R303): for bytes of one port from an address; an address beyond the stacks does not exist, and nothing is
delivered from one. The bursts issued still complete after STOP, and while an entry has stopped issue (R385, Table 13-7). -/
def execHbmRequest (cell : CellId) (addr : Nat) (write : Bool) (bytes : Nat) (delivered : Bool) (s : State) :
    Host.Outcome State Fault Refusal :=
  let beyond := decide (hbmCapacity s.dev ≤ addr)
  let ok := (if delivered then portsRun s.dev && !beyond else alive s.dev && cellClocked s.dev cell) &&
    hbmReady s.dev (hbmPort addr)
  if ok && beyond then .fault .noHbmAddress
  else onDev (onlyIf ok (fun d =>
    let d := hbmRequest cell (hbmPort addr) write bytes delivered d
    if delivered && alive d then serveResends d else d)) s

/-- Stall cycles that a refresh costs a cell with a running token: a free number. -/
def stallCell (d : Dev) (c : CellId) : Dev :=
  if !d.guard.stopped ∧ d.ent.tokens.any (fun t => decide (t.cell = c) && decide (t.st = .running)) = true then
    let n := freshNat d
    addStall c 0 n.1 n.2
  else d

/-- A refresh at a reported temperature (R305, Table 12-10): temperature and rate are shown, and bursts that it delays
are counted; how many it delays, and how long cells stall, nothing states. -/
def refresh (p : Fin 8) (temp : BitVec 12) (d : Dev) : Dev :=
  let d := setReg d (R.HBM_TEMP p.val) (temp.zeroExtend 32)
  let d := setRegFld d (R.HBM_STATUS p.val) 6 5 (Config.refreshRate temp % 3)
  let a := freshNat d
  (List.finRange 64).foldl stallCell (bumpBy a.2 (R.HBM_REF_STALL_CNT p.val) a.1)

/-- HBM_REFRESH (R305): a stopped die still refreshes (R385). -/
def execHbmRefresh (port : Fin 8) (temp : BitVec 12) (s : State) : Host.Outcome State Fault Refusal :=
  onDev (fun d => onlyIf (powered d && decide (powerState d ≠ 3) && hbmReady d port) (refresh port temp) d) s

end Sys2Proof.Machine
end

