-- ==== Sys2Proof/Machine/Entrance.lean ====
section
/-!
DEFINITION. The entrance's decision (02, 03): reserved encodings (R60 and the rules that add to it), costs and charges
(R37, R38), the procedure of R43 with the multi-die rule R190 and the express lane R50 to R52, the ADMIT answer with its
replay (R319), and the release of an express token.
-/

namespace Sys2Proof.Machine

open Sys2Proof

/-! ### Reserved encodings (R60, R200, R227, R239, R242, R250) -/

/-- Reserved fields and bits of the descriptor are zero (Table 03-1, Table 03-2). -/
def dFieldsZero (x : BitVec 512) : Bool :=
  decide (dField x 4 2 < 4096) && decide (dField x 6 1 < 16) && decide (dField x 8 4 < 2 ^ 18) &&
    decide (dField x 0x12 2 < 4096) && decide (dField x 0x14 2 < 128) && decide (dField x 0x16 1 < 8) &&
    decide (dField x 0x17 1 < 16) && decide (dField x 0x34 2 / 2 ^ 14 % 2 = 0) && decide (dField x 0x36 2 = 0) &&
    decide (dField x 0x3C 4 = 0)

/-- Parent of candidate i in a PARENTS argument. -/
def parentOf (a i : Nat) : Nat := a / 16 ^ i % 16

/-- R60 for PARENTS. -/
def parentsOk (a rows : Nat) : Bool :=
  (List.range 16).all (fun i =>
    if i < rows then decide (parentOf a i = 15) || decide (parentOf a i < i) else decide (parentOf a i = 0))

/-- ROWS and ARG lie in the range of Table 03-3. -/
def rowsArgOk (x : BitVec 512) : Bool :=
  let r := dRows x
  let a := dArg x
  match dOp x with
  | 0 => decide (1 ≤ r) && decide (r ≤ 16) && decide (a = 0)
  | 1 => decide (1 ≤ r) && decide (r ≤ 8192) && (if dPacked x then decide (2 ≤ a) && decide (a ≤ 64) else decide (a = 0))
  | 2 => decide (256 ≤ r) && decide (r ≤ 8192) && decide (a = 0)
  | 3 => decide (1 ≤ r) && decide (r ≤ 16) && parentsOk a r
  | 4 => decide (r ≤ 16) && decide (a < 65536)
  | 5 => decide (1 ≤ r) && decide (r ≤ 8192) && decide (a ≤ 1)
  | 6 => decide (1 ≤ r) && decide (r ≤ 16) && decide (a = 0)
  | 7 => decide (1 ≤ r) && decide (r ≤ 8192) && (if dPacked x then decide (2 ≤ a) && decide (a ≤ 64) else decide (a = 0))
  | _ => false

/-- The sequence is a multi-die sequence. -/
def multiDie (d : Dev) (q : Nat) : Bool := decide (1 < (seqDesc d q).parts)

/-- The speculative record of a sequence. -/
def specRec (d : Dev) (q : Nat) : SpecRec := tblGet {} d.ent.spec q

/-- KEEP's bits form a path from the committed context (R60). -/
def keepPath (parents : Nat) : Nat → List Nat → Bool
  | _, [] => true
  | prev, c :: cs => decide (parentOf parents c = prev) && keepPath parents c cs

/-- R60, R250 for COMMIT. -/
def commitOk (d : Dev) (x : BitVec 512) : Bool :=
  let sp := specRec d (dSeq x)
  let keep := setBits (BitVec.ofNat 16 (dArg x))
  decide (dLayer x = 0) && decide (sp.ncand ≠ 0) && decide (sp.nextLayer = layersOf d (dTenant x)) &&
    keep.all (fun c => c < sp.ncand) && decide (keep.length = dRows x) && keepPath sp.parents.toNat 15 keep

/-- R250 for VERIFY. -/
def verifyOk (d : Dev) (x : BitVec 512) : Bool :=
  let sp := specRec d (dSeq x)
  if dLayer x = 0 then decide (sp.ncand = 0)
  else decide (sp.ncand = dRows x) && decide (sp.parents.toNat = dArg x) && decide (sp.nextLayer = dLayer x)

/-- The speculative rules of R250. -/
def specOk (d : Dev) (x : BitVec 512) : Bool :=
  if dOp x = opVERIFY then !multiDie d (dSeq x) && verifyOk d x
  else if dOp x = opCOMMIT then !multiDie d (dSeq x) && commitOk d x
  else decide ((specRec d (dSeq x)).ncand = 0)

/-- R60 and R239 for the chunk flags. -/
def chunkOk (d : Dev) (x : BitVec 512) : Bool :=
  if isPrefill (dOp x) then dFirstChunk x != (seqEntry d (dSeq x)).prefillOpen
  else !dFirstChunk x && !dLastChunk x && !dPacked x

/-- Sequences that a request writes: SEQ, or SEQ to SEQ + S − 1 of a packed request. -/
def reqSeqs (x : BitVec 512) : List Nat :=
  if isPrefill (dOp x) && dPacked x then (List.range (dArg x)).map (fun i => dSeq x + i) else [dSeq x]

/-- R239. -/
def packedOk (d : Dev) (x : BitVec 512) : Bool :=
  !(isPrefill (dOp x) && dPacked x) ||
    (decide (dPos x = 0) && dFirstChunk x && dLastChunk x && decide (dArg x ≤ dRows x) &&
      (reqSeqs x).all (fun q => seqInRange d (dTenant x) q && (seqEntry d q).isOpen && !(seqEntry d q).prefillOpen &&
        !multiDie d q && decide ((specRec d q).ncand = 0)))

/-- The request is a refill (R227). -/
def isRefill (d : Dev) (x : BitVec 512) : Bool :=
  let e := seqEntry d (dSeq x)
  (isPrefill (dOp x) || decide (dOp x = opPREFIX)) && decide (dPos x = e.dropLo) && decide (e.dropLo < e.dropHi)

/-- R227 for a refill. -/
def refillOk (d : Dev) (x : BitVec 512) : Bool :=
  let e := seqEntry d (dSeq x)
  let n := dPos x + dRows x
  !isRefill d x ||
    (decide (n ≤ e.dropHi) &&
      (if dOp x = opPREFIX then decide (dRows x % prefixTokens d (dTenant x) = 0)
       else decide (n % tailTokens d (dTenant x) = 0) || decide (n = e.dropHi)))

/-- R200: what PROJ_GRAD asks of the chain. -/
def projGradOk (d : Dev) (x : BitVec 512) : Bool :=
  decide (dOp x ≠ opBACKWARD) || decide (dArg x = 0) ||
    (decide (dPos x = 0) && (prologue d (dTenant x)).all (fun w =>
      decide (stTarget w = 0) || decide (stKind w = 1 ∨ stKind w = 5 ∨ stKind w = 4)))

/-- The descriptor uses a reserved encoding. -/
def reservedEncoding (d : Dev) (x : BitVec 512) : Bool :=
  let t := dTenant x
  let q := dSeq x
  let p := prefixTokens d t
  !(dFieldsZero x && decide (dOp x < 8) && rowsArgOk x && decide (dLayer x < layersOf d t) && seqInRange d t q &&
    (seqEntry d q).isOpen && ringUsable d t (dRing x) && decide (dOutPort x < 6) &&
    (decide (dVersion x = 0) || decide (dVersion x = (getReg d (R.TCX_VERSION t)).toNat)) &&
    chunkOk d x && packedOk d x && specOk d x && refillOk d x && projGradOk d x &&
    (decide (dOp x ≠ opPREFIX) || (decide (dPos x % p = 0) && decide (dRows x % p = 0))))

/-! ### Lowest position read (R238, R243) -/

/-- WIN, G and KIND of a tenant's pattern. -/
def patKind (d : Dev) (t : Nat) : Nat := regFld d (R.TCX_PATTERN t) 1 0
def patWin (d : Dev) (t : Nat) : Nat := regFld d (R.TCX_PATTERN t) 13 2
def patSink (d : Dev) (t : Nat) : Nat := regFld d (R.TCX_PATTERN t) 20 14
def patDropSkip (d : Dev) (t : Nat) : Bool := bit (getReg d (R.TCX_PATTERN t)) 29

/-- Start of the near span of a request (R243). -/
def nearStart (d : Dev) (t pos rows : Nat) : Nat :=
  let top := (pos + rows - 1) / 16
  let near := max (patWin d t + ceilDiv rows 16 + 1) (4 * 2 ^ (regFld d (R.TCX_PAGE t) 2 0 - 4))
  16 * (top + 1 - near)

/-- R238. -/
def lowestRead (d : Dev) (x : BitVec 512) : Nat :=
  let t := dTenant x
  let lo := (seqDesc d (dSeq x)).posLo
  if dOp x = opCOMMIT then dPos x
  else if isPrefill (dOp x) && dPacked x then 0
  else if patKind d t = 0 ∨ (patKind d t = 2 ∧ patDropSkip d t = false) then lo
  else if lo < patSink d t then lo
  else max lo (if patKind d t = 1 then dPos x + 1 - 16 * patWin d t else nearStart d t (dPos x) (dRows x))

/-! ### Costs and charges (R37, R38, R190) -/

/-- The cost entry of a request. -/
def costEntry (d : Dev) (x : BitVec 512) : BitVec 128 :=
  tblGet 0 d.ent.cost (256 * costTable d (dTenant x) + 16 * dOp x + bucketOf (dPos x + dRows x))

def costBase (e : BitVec 128) : Nat := fld e 31 0
def costRow (e : BitVec 128) : Nat := fld e 63 32
def costHome (e : BitVec 128) : Nat := fld e 95 64

/-- The die is the home die of the sequence. -/
def isHomeDie (d : Dev) (q : Nat) : Bool := decide ((seqDesc d q).homeDie = (dieIndex d).toNat)

/-- Cells charged and their charges in the ledger of g (R38, R190). -/
def chargesNow (d : Dev) (x : BitVec 512) (e : BitVec 128) : List (CellId × Nat) :=
  let t := dTenant x
  let work := costBase e + dRows x * costRow e
  if multiDie d (dSeq x) then (headCells d t).map (fun c => (c, work))
  else ((List.finRange 64).filter (usesCell d t)).map (fun c =>
    (c, (if headCell d t c then work else 0) + (if homeCell d t = c then costHome e else 0)))

/-- Charges in the ledger of g + 1 (R190). -/
def chargesNext (d : Dev) (x : BitVec 512) (e : BitVec 128) : List (CellId × Nat) :=
  if multiDie d (dSeq x) && isHomeDie d (dSeq x) then
    ((List.finRange 64).filter (usesCell d (dTenant x))).map (fun c => (c, costHome e))
  else []

/-- Every charge fits into a ledger. -/
def hasRoom (d : Dev) (g : Ledger) (cs : List (CellId × Nat)) : Bool := cs.all (fun c => c.2 ≤ creditLeft d g c.1.val)

/-- A combine region of the tenant is free (R190). -/
def regionFree (d : Dev) (t : Nat) : Bool :=
  decide ((d.ent.reqs.filter (fun r => r.region && decide (dTenant r.desc = t))).length < (tenantChain d t).cmbRegions)

/-! ### The decision (R43) -/

/-- An ADMIT's outcome before it takes effect. -/
inductive Verdict where
  | refuse (reason tick : Nat)
  | held
  | recompute (lo hi : Nat)
  /-- Accepted: the ledger of g, and whether a combine region is taken (then the answer's TICK is g + 1). -/
  | ordinary (g : Nat) (region : Bool)
  /-- Accepted on an express cell: cycle start, and free_at after it. -/
  | express (cell : CellId) (start free : Nat)
  deriving DecidableEq, Repr

/-- NEVER. -/
def never : Nat := 2 ^ 64 - 1

def refNoCredit : Nat := 1
def refTooLarge : Nat := 2
def refTenant : Nat := 3
def refDescriptor : Nat := 4
def refRingFull : Nat := 5
def refNoBeacon : Nat := 6
def refExpressFull : Nat := 7
def refLength : Nat := 8

/-- The first ledger, of those given, that takes an ordinary request. -/
def firstLedger (d : Dev) (x : BitVec 512) (e : BitVec 128) (gs : List Ledger) : Option Nat :=
  let next := chargesNext d x e
  let home := multiDie d (dSeq x) && isHomeDie d (dSeq x)
  (gs.find? (fun g => decide (dNotBefore x ≤ g.tick) && (!dExact x || decide (g.tick = dNotBefore x)) &&
    hasRoom d g (chargesNow d x e) &&
    (!home || (regionFree d (dTenant x) && gs.any (fun h => decide (h.tick = g.tick + 1) && hasRoom d h next))))).map (·.tick)

/-- Newest open ledger's tick and base. -/
def newestLedger (d : Dev) : Nat × Nat :=
  match (openLedgersOf d).getLast? with
  | some g => (g.tick, g.base)
  | none => (d.tick.num + 1, 0)

/-- The part of R43 after the express branch. -/
def decideOrdinary (d : Dev) (x : BitVec 512) (e : BitVec 128) : Verdict :=
  let gs := openLedgersOf d
  let home := multiDie d (dSeq x) && isHomeDie d (dSeq x)
  if (multiDie d (dSeq x) && decide ((tenantChain d (dTenant x)).cmbRows < dRows x)) ||
      (chargesNow d x e ++ chargesNext d x e).any (fun c => decide ((newestLedger d).2 < c.2)) then
    .refuse refTooLarge never
  else if ringFree d (dRing x) = 0 then .refuse refRingFull (match gs.head? with | some g => g.tick | none => 0)
  else
    match firstLedger d x e gs with
    | some g => .ordinary g home
    | none => .refuse refNoCredit (max ((newestLedger d).1 + 1) (dNotBefore x))

/-- Express cell with the least free_at; lowest index on a tie. -/
def expressPick (d : Dev) : CellId :=
  let f (c : CellId) : Nat := (getReg d (R.ENT_EXPRESS_FREE c.val)).toNat
  ([1, 2, 3] : List CellId).foldl (fun b c => if f c < f b then c else b) 0

/-- R51: the request may use the express lane. -/
def expressOk (d : Dev) (p : PortId) (x : BitVec 512) : Bool :=
  let b := expBufOf (getPort d p) (dExpBuf x)
  expressEn d && bit (getReg d (R.TCX_MODE (dTenant x))) 0 && decide (dOp x = opDECODE ∨ dOp x = opDECODE_U) &&
    decide (dRows x = 1) && b.full && !b.busy && !multiDie d (dSeq x)

/-- R52. -/
def decideExpress (d : Dev) (p : PortId) (x : BitVec 512) (e : BitVec 128) : Verdict :=
  let n := d.tick.num
  if !expressOk d p x then .refuse refDescriptor never
  else if !inExecute d then .refuse refExpressFull (n + 1)
  else if ringFree d (dRing x) = 0 then .refuse refRingFull n
  else
    let c := expressPick d
    let start := max (tickCycles d (sinceStart d)) (getReg d (R.ENT_EXPRESS_FREE c.val)).toNat
    let limit := tickCycles d (drainStartNs d) * (1000 - regFld d R.ENT_SLACK_CFG 9 0) / 1000
    let free := start + costBase e + costRow e + costHome e
    if limit < free then .refuse refExpressFull (n + 1) else .express c start free

/-- R43 on a die that takes part in its domain; R57, R370, R374 on one that does not. -/
def decideAdmit (d : Dev) (p : PortId) (x : BitVec 512) : Verdict :=
  let t := dTenant x
  let s := seqEntry d (dSeq x)
  let e := costEntry d x
  if !d.tick.member || !d.tick.running || !locked d then .refuse refNoBeacon never
  else if reservedEncoding d x then .refuse refDescriptor never
  else if tcxState d t ≠ 1 then .refuse refTenant never
  else if tcxBarrier d t && !(isPrefill (dOp x) && !dFirstChunk x && s.prefillOpen) then .held
  else if 524288 < dPos x + dRows x then .refuse refLength never
  else if costBase e = 0xFFFFFFFF then .refuse refDescriptor never
  else if lowestRead d x < s.dropHi ∧ s.dropLo < dPos x then .recompute s.dropLo s.dropHi
  else if dExpress x then decideExpress d p x e
  else decideOrdinary d x e

/-! ### Acceptance -/

/-- Charge cells in the ledger of a tick, and add the request's HINT to it. -/
def chargeLedger (tick : Nat) (cs : List (CellId × Nat)) (hint : Nat) (d : Dev) : Dev :=
  { d with ent := { d.ent with ledgers := d.ent.ledgers.map (fun g =>
    if g.tick = tick then { g with
      hint := g.hint + hint
      used := cs.foldl (fun u c => tblSet 0 u c.1.val (tblGet 0 u c.1.val + c.2)) g.used }
    else g) } }

/-- What acceptance changes at the sequences of a request (R43, R60, R227, R239, R250). -/
def acceptSeqs (x : BitVec 512) (tick : Nat) (refill : Bool) (d : Dev) : Dev :=
  let q := dSeq x
  let d := (reqSeqs x).foldl (fun d q => updEntry q (fun e => { e with lastTick := max e.lastTick tick }) d) d
  let d :=
    if isPrefill (dOp x) then
      updEntry q (fun e => { e with prefillOpen := !dLastChunk x }) d
    else d
  let d :=
    if refill then
      let n := dPos x + dRows x
      updEntry q (fun e => if n = e.dropHi then { e with dropLo := 0, dropHi := 0 } else { e with dropLo := n }) d
    else d
  let sp := specRec d q
  let put (r : SpecRec) : Dev := { d with ent := { d.ent with spec := tblSet {} d.ent.spec q r } }
  if dOp x = opVERIFY then
    if dLayer x = 0 then
      put { ncand := dRows x, parents := BitVec.ofNat 64 (dArg x), nextLayer := 1, bad := false,
            tenant := BitVec.ofNat 12 (dTenant x), uid := d.ent.nextUid }
    else put { sp with nextLayer := dLayer x + 1 }
  else if dOp x = opCOMMIT then put {}
  else d

/-- The request record and its tokens. -/
def newReq (p : PortId) (src : BitVec 9) (x : BitVec 512) (tick : Nat) (ctr : W32) (d : Dev) : Req :=
  { uid := d.ent.nextUid, desc := x, port := p, src := src, tick := tick, ctr := ctr,
    version := getReg d (R.TCX_VERSION (dTenant x)), bucket := bucketOf (dPos x + dRows x), refill := isRefill d x,
    specUid := if dOp x = opVERIFY ∧ dLayer x = 0 then d.ent.nextUid else (specRec d (dSeq x)).uid }

/-- Tokens of a request for charges of a tick. -/
def newTokens (r : Req) (tick : Nat) (combine : Bool) (cs : List (CellId × Nat)) : List Token :=
  cs.map (fun c => { uid := r.uid, cell := c.1, tick := tick, bucket := r.bucket, charge := c.2, combine := combine })

/-- Add a request with its tokens. -/
def addReq (r : Req) (ts : List Token) (d : Dev) : Dev :=
  { d with ent := { d.ent with reqs := d.ent.reqs ++ [r], tokens := d.ent.tokens ++ ts, nextUid := d.ent.nextUid + 1 } }

/-- Combine region that an accepted request takes: the lowest free one (log 65). -/
def freeRegion (d : Dev) (t : Nat) : Nat :=
  let held := (d.ent.reqs.filter (fun r => r.region && decide (dTenant r.desc = t))).map (·.regionIx)
  ((List.range (held.length + 1)).find? (fun i => !held.contains i)).getD 0

/-- An accepted ordinary request takes effect: charges, slot, sequence table, tokens; the counter value reserved. -/
def acceptOrdinary (p : PortId) (src : BitVec 9) (x : BitVec 512) (g : Nat) (region : Bool) (d : Dev) : W32 × Dev :=
  let e := costEntry d x
  let now := chargesNow d x e
  let next := chargesNext d x e
  let tick := if region then g + 1 else g
  let s := reserveSlot d (dRing x)
  let r := { newReq p src x tick s.1 d with region := region, regionIx := freeRegion d (dTenant x) }
  let d := chargeLedger g now (dHint x) s.2
  let d := if region then chargeLedger (g + 1) next 0 d else d
  let d := acceptSeqs x tick r.refill d
  (s.1, wakeEvent wakeAdmit (addReq r (newTokens r g false now ++ newTokens r tick true next) d))

/-- An accepted express request takes effect: free_at, slot, busy buffer, one token on the express cell. -/
def acceptExpress (p : PortId) (src : BitVec 9) (x : BitVec 512) (c : CellId) (start free : Nat) (d : Dev) : W32 × Dev :=
  let n := d.tick.num
  let s := reserveSlot d (dRing x)
  let b := dExpBuf x
  let r := { newReq p src x n s.1 d with express := some c, expBuf := some (p, b), expStart := start }
  let d := setReg s.2 (R.ENT_EXPRESS_FREE c.val) (BitVec.ofNat 32 free)
  let d := setExpBuf p b { expBufOf (getPort d p) b with busy := true } d
  let d := acceptSeqs x n false d
  (s.1, addReq r (newTokens r n false [(c, free - start)]) d)

/-- A refused express ADMIT frees the buffer that it named, where that was full and not busy (R50). -/
def freeNamedBuffer (p : PortId) (x : BitVec 512) (d : Dev) : Dev :=
  let b := expBufOf (getPort d p) (dExpBuf x)
  if dExpress x ∧ b.full = true ∧ b.busy = false then setExpBuf p (dExpBuf x) {} d else d

/-! ### Answers (Table 02-7, R319) -/

/-- The 16 bytes of an ADMIT answer. -/
def admitAnswer (acc : Bool) (status reason slot : Nat) (reqId : W32) (tick : Nat) : List Byte :=
  leBytes 1 ((if acc then 1 else 0) + 2 * status) ++ leBytes 1 reason ++ leBytes 2 slot ++ leBytes 4 reqId.toNat ++
    leBytes 8 tick

/-- A verdict takes effect and forms the answer. -/
def applyVerdict (p : PortId) (src : BitVec 9) (x : BitVec 512) (v : Verdict) (d : Dev) : List Byte × Dev :=
  let id := dReqId x
  match v with
  | .refuse reason tick => (admitAnswer false 7 reason 0 id tick, freeNamedBuffer p x (bump d R.ENT_REFUSE_CNT))
  | .held => (admitAnswer false 4 0 0 id 0, freeNamedBuffer p x (bump d R.ENT_HELD_CNT))
  | .recompute lo hi =>
    (admitAnswer false 3 0 0 id (lo + hi * 2 ^ 32), freeNamedBuffer p x (bump d R.ENT_RECOMPUTE_CNT))
  | .ordinary g region =>
    let r := acceptOrdinary p src x g region d
    (admitAnswer true 0 0 (r.1.toNat % ringSize d (dRing x)) id (if region then g + 1 else g), bump r.2 R.ENT_ACCEPT_CNT)
  | .express c start free =>
    let r := acceptExpress p src x c start free d
    (admitAnswer true 0 0 (r.1.toNat % ringSize d (dRing x)) id d.tick.num, bump r.2 R.ENT_ACCEPT_CNT)

/-- Keep an answer for replay, the last 16. -/
def keepAnswer (p : PortId) (k : KeptAnswer) (d : Dev) : Dev :=
  let x := getPort d p
  let ks := x.kept ++ [k]
  setPort d p { x with kept := ks.drop (ks.length - 16) }

/-- The kept answer that an ADMIT repeats (R319). -/
def keptFor (d : Dev) (p : PortId) (f : Frame) : Option KeptAnswer :=
  (getPort d p).kept.find? (fun k => decide (k.src = f.src) && decide (k.tag = f.tag) && decide (k.desc = f.payload))

/-- An ADMIT that its port has accepted as a frame. -/
def admitFrame (p : PortId) (f : Frame) (d : Dev) : Dev :=
  match keptFor d p f with
  | some k => answerOn p f k.answer d
  | none =>
    let x : BitVec 512 := BitVec.ofNat 512 (leNat f.payload)
    let v := if alive d then decideAdmit d p x else .refuse refNoBeacon never
    let r := applyVerdict p (BitVec.ofNat 9 f.src.toNat) x v d
    keepAnswer p { src := f.src, tag := f.tag, desc := f.payload, answer := r.1 } (answerOn p f r.1 r.2)

/-- An ADMIT that reaches a die in Winter: REFUSED NO_BEACON, whatever the state of its links; a frame that breaks R315 is
discarded and counted (R357; DEDUCED, log 114). -/
def admitInWinter (p : PortId) (f : Frame) (d : Dev) : Dev :=
  if f.typ ≠ tADMIT then d
  else if answersNothing f ∨ frameFate d p f ≠ .accept then bump d (R.LNK_DISCARD_CNT p.val)
  else
    let r := applyVerdict p (BitVec.ofNat 9 f.src.toNat) (BitVec.ofNat 512 (leNat f.payload)) (.refuse refNoBeacon never) d
    setPort r.2 p (putOut p (mkFrame r.2 f.typ 1 f.tag f.src.toNat 0 0 0 r.1) (getPort r.2 p))

/-- ADMIT (R43, R318, R319, R357, R370, R385): a die that is stopped, or in Winter, still answers NO_BEACON. Without credit a
requester sends no ADMIT. -/
def execAdmitFrame (port : PortId) (frame : Frame) (s : State) : Host.Outcome State Fault Refusal :=
  onDev (onlyIf (decide (admitCredit s.dev port ≠ 0)) (fun d =>
    if alive d then recvFrame port frame tADMIT (admitFrame port frame) d
    else if inWinter d then admitInWinter port frame d
    else onlyIf (powered d && decide (frame.typ = tADMIT) && portUp d port && !answersNothing frame &&
        decide (frameFate d port frame = .accept))
      (fun d => admitFrame port frame (linkIn port d)) d)) s

/-- EXPRESS_RELEASE (R52): the accepted token of an express cell whose cycle start has come, in admission order. -/
def execExpressRelease (cell : CellId) (s : State) : Host.Outcome State Fault Refusal :=
  onDev (fun d =>
    match d.ent.reqs.find? (fun r => decide (r.express = some cell) && !r.released) with
    | none => d
    | some r => onlyIf (alive d && decide (r.tick < d.tick.num ∨ r.expStart ≤ tickCycles d (sinceStart d)))
        (updReq r.uid (fun r => { r with released := true })) d) s

end Sys2Proof.Machine
end

