-- ==== Sys2Proof/Machine/Operands.lean ====
section
/-!
DEFINITION. The Bexix instruction word (Table 03-15), the cell that runs it, its vector registers, masks and tile queue
(R144 to R151), and the loop counters of a program (R86).
-/

namespace Sys2Proof.Machine

open Sys2Proof

/-! ### Fields of the instruction word -/

/-- An instruction word. -/
abbrev IWord := BitVec 128

def iOpc (w : IWord) : Nat := fld w 7 0
def iDst (w : IWord) : Nat := fld w 12 8
def iSrcA (w : IWord) : Nat := fld w 17 13
def iSrcB (w : IWord) : Nat := fld w 22 18
def iMask (w : IWord) : Nat := fld w 25 23
def iFmtIn (w : IWord) : Nat := fld w 29 26
def iFmtOut (w : IWord) : Nat := fld w 33 30
def iRnd (w : IWord) : Nat := fld w 35 34
def iComp (w : IWord) : Bool := bit w 36
def iCount (w : IWord) : Nat := fld w 63 48

/-- Every listed field of a word is zero. -/
def zeroIn (w : IWord) (fs : List (Nat × Nat)) : Bool := fs.all (fun f => decide (fld w f.1 f.2 = 0))

/-- Checks common to every instruction: its opcode, zero in the reserved bits, a RND other than 3, a COUNT within a
bound, and zero in the fields it does not use (Table 03-15). -/
def wordOk (w : IWord) (opc bound : Nat) (zeros : List (Nat × Nat)) : Bool :=
  decide (iOpc w = opc) && decide (fld w 47 37 = 0) && decide (iRnd w ≠ 3) && decide (1 ≤ iCount w) &&
    decide (iCount w ≤ bound) && zeroIn w zeros

/-- Bit positions of the common fields, as listed for wordOk. -/
def fDst : Nat × Nat := (12, 8)
def fSrcA : Nat × Nat := (17, 13)
def fSrcB : Nat × Nat := (22, 18)
def fMask : Nat × Nat := (25, 23)
def fFmtIn : Nat × Nat := (29, 26)
def fFmtOut : Nat × Nat := (33, 30)
def fRnd : Nat × Nat := (35, 34)
def fComp : Nat × Nat := (36, 36)

/-- Every common field but COUNT. -/
def fAll : List (Nat × Nat) := [fDst, fSrcA, fSrcB, fMask, fFmtIn, fFmtOut, fRnd, fComp]

/-- n elements from register b stay within v31 (R144). -/
def regsFit (b n : Nat) : Bool := decide (b + ceilDiv n 256 ≤ 32)

/-- Registers that n elements from register b take. -/
def regRange (b n : Nat) : List Nat := (List.range (ceilDiv n 256)).map (b + ·)

/-- Inline words that follow a word: those of a VPROG (06). -/
def inlineWords (w : IWord) : Nat := if iOpc w = 0x31 then (fld w 67 64 + 1 + 3) / 4 else 0

/-- Words that n instructions of a program take from a place on. -/
def instrSpan (p : List (BitVec 128)) (start : Nat) : Nat → Nat
  | 0 => 0
  | n + 1 =>
    let k := instrSpan p start n
    k + 1 + inlineWords (p.getD (start + k) 0)

/-! ### The cell -/

/-- State of a cell. -/
def cellOf (d : Dev) (c : CellId) : CellSt := tblGet {} d.cells c.val

/-- Change a cell. -/
def updCell (c : CellId) (f : CellSt → CellSt) (d : Dev) : Dev :=
  { d with cells := tblSet {} d.cells c.val (f (cellOf d c)) }

/-- Where the program goes on from a place: at the end of a LOOP's body the next pass starts, or after the last pass the loop
ends (R86). -/
def loopStep : Nat → List LoopSt → Nat × List LoopSt
  | pc, [] => (pc, [])
  | pc, l :: rest =>
    if pc < l.start + l.len then (pc, l :: rest)
    else if 1 < l.left then (l.start, { l with left := l.left - 1 } :: rest)
    else loopStep pc rest

/-- n words of the program have been taken: the next instruction, and nothing held. -/
def nextInstr (n : Nat) (x : CellSt) : CellSt :=
  let r := loopStep (x.pc + n) x.loops
  { x with pc := r.1, loops := r.2, held := none }

/-- An instruction of n words has run on a cell, and its token goes on. -/
def wordsDone (n : Nat) (c : CellId) (d : Dev) : Dev :=
  if (cellToken d c).isSome then updCell c (nextInstr n) d else d

/-- One instruction has run on a cell. -/
def instrDone (c : CellId) (d : Dev) : Dev := wordsDone 1 c d

/-- HBM address of a damaged word of the instruction that the cell comes to (R299). -/
def badFetch (x : CellSt) : Option Nat :=
  (List.range (1 + inlineWords (x.prog.getD x.pc 0))).findSome? (fun i => tblFind x.badWords (x.pc + i))

/-- The word is the one that the cell comes to (R86): the one in its place in the token's program, undamaged, and the one that
waits where one does. -/
def fetchOk (x : CellSt) (w : IWord) : Bool :=
  (badFetch x).isNone && decide (x.prog[x.pc]? = some w) &&
  (match x.held with
    | some h => decide (h = w)
    | none => true)

/-- The cell comes to a SEND: its class fields, which the spec does not give, name nothing that is checked. -/
def sendFetch (x : CellSt) : Bool :=
  (badFetch x).isNone && x.held.isNone && (match x.prog[x.pc]? with
    | some w => decide (iOpc w = 0x55)
    | none => false)

/-- An instruction that cannot issue yet holds every later one (R100). -/
def holdIssue (c : CellId) (w : IWord) (d : Dev) : Dev := updCell c (fun x => { x with held := some w }) d

/-- A waiting counter advances by a number of cycles that the machine leaves open. -/
def bumpFree (off : Nat) (d : Dev) : Dev :=
  let n := freshNat d
  bumpBy n.2 off n.1

/-! ### Vector registers and masks -/

/-- Lane e of an operand that starts at register b. -/
def lane (x : CellSt) (b e : Nat) : W32 := tblGet 0 x.regs (256 * b + e)

/-- n elements from register b. -/
def lanes (x : CellSt) (b n : Nat) : List W32 := tblGetList 0 x.regs (256 * b) n

/-- Write elements from register b. -/
def putLanes (b : Nat) (vs : List W32) (x : CellSt) : CellSt := { x with regs := tblSetList 0 x.regs (256 * b) vs }

/-- Element e takes part under a mask code; code 0 is no mask. -/
def maskOn (x : CellSt) (k e : Nat) : Bool := decide (k = 0) || (tblGet 0 x.masks k).testBit e

/-- Write a result under a mask: a masked element keeps its value, or is written +0 (R151). -/
def putMasked (k : Nat) (mzero : Bool) (b : Nat) (vs : List W32) (x : CellSt) : CellSt :=
  let old := lanes x b vs.length
  putLanes b ((vs.zip old).mapIdx (fun e p => if maskOn x k e then p.1 else if mzero then 0 else p.2)) x

/-! ### Tile queue (R148) -/

/-- Words waiting on a tile-queue input. -/
def tqWords (x : CellSt) (i : Nat) : List W32 := tblGet [] x.tq i

/-- A producer delivers words to an input. -/
def tqPush (i : Nat) (vs : List W32) (x : CellSt) : CellSt := { x with tq := tblSet [] x.tq i (tqWords x i ++ vs) }

/-- Remove n words from an input. -/
def tqDrop (i n : Nat) (x : CellSt) : CellSt := { x with tq := tblSet [] x.tq i ((tqWords x i).drop n) }

/-- Operand A of a vector instruction: n words of a tile-queue input, or of registers for input 0. -/
def operandA (x : CellSt) (i b n : Nat) : List W32 := if i = 0 then lanes x b n else (tqWords x i).take n

/-- The words that an instruction takes from an input have arrived. -/
def tqReady (x : CellSt) (i n : Nat) : Bool := decide (i = 0) || decide (n ≤ (tqWords x i).length)

/-! ### Accumulator words (R126 to R130) -/

/-- An accumulator word; an invalid word reads as zero. -/
def accWord (x : CellSt) (k : Nat) : W32 := tblGet 0 x.acc k

/-- Set an accumulator word, valid, and its type. -/
def accSet (int : Bool) (k : Nat) (v : W32) (x : CellSt) : CellSt :=
  { x with acc := tblPut x.acc k v, accInt := tblSet false x.accInt k int }

/-! ### What depends on elements and nothing else (R138) -/

/-- Codes of n elements from i as one number. -/
def codesOf (f : Nat → Nat) (n i : Nat) : Nat := (List.range n).foldl (fun a k => a * 256 + f (i + k)) 0

/-- The tenant runs in AX4 numerics mode (R141). -/
def ax4Mode (d : Dev) (t : Nat) : Bool := bit (getReg d (R.TCX_MODE t)) 1

/-! ### Occupancies (Table 06-1) -/

/-- Groups of 256, and of 64, of a number of elements. -/
def groups256 (n : Nat) : Nat := ceilDiv n 256
def groups64 (n : Nat) : Nat := ceilDiv n 64

/-- Count vector-unit cycles, and SFU cycles. -/
def veCycles (c : CellId) (n : Nat) (d : Dev) : Dev := bump64 d (R.CEL_VE_CYC_LO c.val) (R.CEL_VE_CYC_HI c.val) n
def sfuCycles (c : CellId) (n : Nat) (d : Dev) : Dev := bump64 d (R.CEL_SFU_CYC_LO c.val) (R.CEL_SFU_CYC_HI c.val) n

end Sys2Proof.Machine
end

