-- ==== Sys2Proof/Machine/Flags.lean ====
section
/-!
DEFINITION. The sticky flags and counters that results set (R104, R118, R125, R184, R197), and the stop of a token that
meets an error (R87, R95, R130, R167, R267, R275, R276, R396).
-/

namespace Sys2Proof.Machine

open Sys2Proof

/-- n results saturated: the token's SATURATED flag and CEL_SAT_CNT (R118, R125). -/
def noteSat (c : CellId) (n : Nat) (d : Dev) : Dev :=
  if n = 0 then d else bumpBy (updCell c (fun x => { x with saturated := true }) d) (R.CEL_SAT_CNT c.val) n

/-- n tree or accumulator results were NaN. -/
def noteNan (c : CellId) (n : Nat) (d : Dev) : Dev := bumpBy d (R.CEL_NAN_CNT c.val) n

/-- Number of NaN words. -/
def nanCount (vs : List W32) : Nat := (vs.filter (fun v => (f32 v).isNan)).length

/-- Products gated under R104: the counter's unit is 64. -/
def noteGated (c : CellId) (n : Nat) (d : Dev) : Dev :=
  let k := tblGet 0 d.tel.gated c.val + n
  bump64 { d with tel := { d.tel with gated := tblSet 0 d.tel.gated c.val (k % 64) } } (R.CEL_ZGATE_LO c.val)
    (R.CEL_ZGATE_HI c.val) (k / 64)

/-- A row of the request was fully masked (R184). -/
def noteEmptyRow (uid : Nat) (c : CellId) (d : Dev) : Dev :=
  bump (updReq uid (fun r => { r with emptyRow := true }) d) (R.CEL_EMPTY_ROW_CNT c.val)

/-- Cycles of CCLK that a running token has used. -/
def tokenCycles (d : Dev) (t : Token) : Nat := cyclesSince d t.startCyc

/-- Everything that the cell holds for its token goes in one cycle (R96, R130, R166, R178, R264); an express cell's
memory reads as zeros afterwards (R266). -/
def clearCell (c : CellId) (express : Bool) (d : Dev) : Dev :=
  let d := { d with cells := tblErase d.cells c.val }
  if express then
    { d with mem := { d.mem with
        cm := tblClear d.mem.cm (cmBase c) 0x400000
        badCm := d.mem.badCm.filter (fun k => decide (k < cmBase c / 16) || decide (cmBase c / 16 + 0x40000 ≤ k)) } }
  else d

/-- The token on a cell ends: its SATURATED flag joins the request's, and its cycles are recorded. -/
def endToken (c : CellId) (t : Token) (d : Dev) : Dev :=
  let sat := (cellOf d c).saturated
  let n := tokenCycles d t
  let d := updReq t.uid (fun r => { r with saturated := r.saturated || sat }) d
  let d := updToken t.uid c (fun t => { t with cycles := n }) d
  let x := match findReq d t.uid with | some r => r.express.isSome | none => false
  finishToken t.uid c (clearCell c x d)

/-- The token on a cell is stopped: ECC_FAIL, or BANK_OFF, for its request, with the record named, and every effect of the token
that has not taken place suppressed (R396). -/
def stopToken (c : CellId) (t : Token) (bankOff : Bool) (ref : W32) (d : Dev) : Dev :=
  let d := updReq t.uid (fun r => { r with
    eccFail := r.eccFail || !bankOff, bankOff := r.bankOff || bankOff,
    errRef := if r.errRef = 0 then ref else r.errRef }) d
  endToken c t (updToken t.uid c (fun t => { t with suppressed := true }) d)

/-- Report an error of the token on a cell, and stop the token. -/
def failToken (c : CellId) (t : Token) (r : Report) (bankOff : Bool) (d : Dev) : Dev :=
  let g := guardTake r d
  stopToken c t bankOff g.1 g.2

end Sys2Proof.Machine
end

