-- ==== Sys2Proof/Machine/Windows.lean ====
section
/-!
DEFINITION. A task's accesses to cell memory and hive memory through its windows (R266), and what an access that may not
complete does: outside the window (R267), in a bank or band that is not ON (R275), or to a damaged word (R224, R276,
R299, R300).
-/

namespace Sys2Proof.Machine

open Sys2Proof

/-- What stops a task at an access: the space (hive or cell memory), window offset and physical address. -/
inductive Trip where
  /-- Outside the window, or a frame of another tenant (R262, R267). -/
  | window (hive : Bool) (off addr : Nat)
  /-- A bank or band that is not ON (R275). -/
  | bankOff (hive write : Bool) (off addr : Nat)
  /-- A damaged chunk of cell or hive memory (R276). -/
  | sram (hive : Bool) (addr : Nat)
  /-- A damaged unit of the paged cache, in HBM or in a brood slot (R224). -/
  | cache (slot : Bool) (addr : Nat) (spot : CacheSpot)
  /-- A damaged unit of the current image in HBM (R299). -/
  | weight (addr : Nat)
  deriving DecidableEq, Repr

/-- Base and size in bytes of a task's cell-memory window (R266). -/
def cellWindow (d : Dev) (r : Req) : Nat × Nat :=
  if r.express.isSome && expressEn d then (0, 0x400000)
  else
    let w := cmWindow d (dTenant r.desc)
    (4096 * w.1, 4096 * (w.2 - w.1))

/-- Base and size in bytes of a task's hive window (R266). -/
def hiveWindow (d : Dev) (r : Req) : Nat × Nat :=
  let w := hvWindow d (dTenant r.desc)
  (w.1, w.2 - w.1)

/-- An access to the chunk at an offset of the cell-memory window. -/
def cmAccess (d : Dev) (c : CellId) (r : Req) (write : Bool) (o : Nat) : Option Trip :=
  let w := cellWindow d r
  let a := w.1 + o
  if w.2 ≤ o then some (.window false o a)
  else if bankState d c (a / 0x80000) ≠ 0 then some (.bankOff false write o a)
  else if !write ∧ (cmBase c + a) / 16 ∈ d.mem.badCm then some (.sram false a)
  else none

/-- A read of the chunk at an offset of the hive window. -/
def hvAccess (d : Dev) (r : Req) (o : Nat) : Option Trip :=
  let w := hiveWindow d r
  let a := w.1 + o
  if w.2 ≤ o then some (.window true o a)
  else if bandState d (a / 0x1000000) ≠ 0 then some (.bankOff true false o a)
  else if a / 16 ∈ d.mem.badHive then some (.sram true a)
  else none

/-- Chunks in transfer order up to the first access that trips, and its trip. -/
def untilTrip (f : Nat → Option Trip) : List Nat → List Nat × Option Trip
  | [] => ([], none)
  | o :: os =>
    match f o with
    | some t => ([], some t)
    | none => let r := untilTrip f os; (o :: r.1, r.2)

/-- Read chunks of the cell-memory window: the bytes of those that complete, and what stopped the rest. -/
def cmReadWin (d : Dev) (c : CellId) (r : Req) (offs : List Nat) : List Byte × Option Trip :=
  let x := untilTrip (cmAccess d c r false) offs
  (x.1.flatMap (fun o => cmRead d c ((cellWindow d r).1 + o) 16), x.2)

/-- Read chunks of the hive window. -/
def hvReadWin (d : Dev) (r : Req) (offs : List Nat) : List Byte × Option Trip :=
  let x := untilTrip (hvAccess d r) offs
  (x.1.flatMap (fun o => hiveRead d ((hiveWindow d r).1 + o) 16), x.2)

/-- Write chunks of the cell-memory window, in transfer order, up to the first access that trips; they stand for data again. -/
def cmWriteWin (c : CellId) (r : Req) (xs : List (Nat × List Byte)) (d : Dev) : Dev × Option Trip :=
  let x := untilTrip (cmAccess d c r true) (xs.map (·.1))
  let d := (xs.take x.1.length).foldl (fun d e => cmWrite d c ((cellWindow d r).1 + e.1) (padTo 16 e.2)) d
  (if (cellOf d c).cmMasked.isEmpty then d
   else updCell c (fun y => { y with cmMasked := y.cmMasked.filter (fun k => !x.1.contains (16 * k)) }) d, x.2)

/-- n chunks from an offset. -/
def chunkOffs (o n : Nat) : List Nat := (List.range n).map (fun i => o + 16 * i)

/-- Cut bytes into chunks at consecutive offsets. -/
def chunksAt (o : Nat) (bs : List Byte) : List (Nat × List Byte) :=
  (List.range (ceilDiv bs.length 16)).map (fun i => (o + 16 * i, (bs.drop (16 * i)).take 16))

/-- A task that reaches a unit which is WIPING waits for it (R269, R270): an access at one of these offsets of its cell-memory
window, or of its hive window, would reach one. -/
def waitsWipe (d : Dev) (c : CellId) (r : Req) (cm hv : List Nat) : Bool :=
  d.mem.tags.any (fun e => e.2.isWiping) &&
    (cm.any (fun o => decide (o < (cellWindow d r).2) && (cellTag d c (((cellWindow d r).1 + o) / 4096)).isWiping) ||
     hv.any (fun o => decide (o < (hiveWindow d r).2) && (hiveTag d (((hiveWindow d r).1 + o) / 4096)).isWiping))

/-! ### Cell diagnostic programs (R131, R272) -/

/-- A cell diagnostic program runs: no tenant's token runs on the cell (R131). -/
def onDiag (c : CellId) (ok : Bool) (act : Dev → Dev) (d : Dev) : Dev :=
  onlyIf (alive d && cellClocked d c && (cellToken d c).isNone && ok) act d

/-- A diagnostic program's addresses are the memory's own (DESIGN CHOICE, log 106). It may reach a chunk of cell memory, or of
the general region of hive memory, whose unit is CLEAN and whose bank or band is ON. -/
def diagReaches (d : Dev) (c : CellId) (hive : Bool) (a : Nat) : Bool :=
  if hive then decide (a < 0x07000000) && decide (hiveTag d (a / 4096) = .clean) && decide (bandState d (a / 0x1000000) = 0)
  else decide (a < 0x400000) && decide (cellTag d c (a / 4096) = .clean) && decide (bankState d c (a / 0x80000) = 0)

/-- Chunks as a diagnostic program reads them: zeros from a unit that it may not reach. -/
def diagRead (d : Dev) (c : CellId) (hive : Bool) (as : List Nat) : List Byte :=
  as.flatMap (fun a => if diagReaches d c hive a then (if hive then hiveRead d a 16 else cmRead d c a 16) else zeroBytes 16)

/-- Chunks that a diagnostic program writes: none in a unit that it may not reach; the units written are kept until it
ends. -/
def diagWrite (c : CellId) (hive : Bool) (xs : List (Nat × List Byte)) (d : Dev) : Dev :=
  xs.foldl (fun d e =>
    if diagReaches d c hive e.1 then
      let d := if hive then hiveWrite d e.1 (padTo 16 e.2) else cmWrite d c e.1 (padTo 16 e.2)
      let k := (c.val, if hive then 65536 + e.1 / 4096 else 1024 * c.val + e.1 / 4096)
      if d.mem.diagUnits.contains k then d else { d with mem := { d.mem with diagUnits := d.mem.diagUnits ++ [k] } }
    else d) d

/-- A diagnostic program ends: each unit that it wrote becomes WIPING (R272), and the cell is cleared. -/
def diagEnd (c : CellId) (d : Dev) : Dev :=
  let d := (d.mem.diagUnits.filter (fun k => k.1 = c.val)).foldl (fun d k => setTag d k.2 .wipingClean) d
  clearCell c false { d with mem := { d.mem with diagUnits := d.mem.diagUnits.filter (fun k => k.1 ≠ c.val) } }

/-! ### What a trip does -/

/-- INFO of WINDOW_FAULT and BANK_OFF (Table 15-5). -/
def accessInfo (hive : Bool) (off addr : Nat) : Nat :=
  (if hive then addr / 0x1000000 % 16 + 128 else addr / 0x80000 % 8) + (off % 2 ^ 32) * 2 ^ 32

/-- Report of a trip (R397). -/
def tripReport (c : CellId) (r : Req) : Trip → Report
  | .window h o a => tokenReport r 0x25 (unitCell c) a (accessInfo h o a)
  | .bankOff h _ o a => tokenReport r 0x26 (unitCell c) a (accessInfo h o a)
  | .sram h a => tokenReport r 0x21 (if h then unitSlice a else unitCell c) a 0
  | .cache s a _ => if s then tokenReport r 0x21 (unitSlice a) a 0 else tokenReport r 0x22 (unitHbm a) a 0
  | .weight a => tokenReport r 0x23 (unitHbm a) a 0

/-- Counters of a trip (R267, R275, R276). -/
def tripCount (c : CellId) (d : Dev) : Trip → Dev
  | .window .. => bump d (R.CEL_WIN_FAULT_CNT c.val)
  | .bankOff h _ _ _ => if h then bump d R.HIV_BAND_LATE_CNT else bump d (R.CEL_BANK_LATE_CNT c.val)
  | .sram h _ => if h then bumpHalf d R.HIV_ECC_CNT 16 1 else bumpHalf d (R.CEL_CM_ECC_CNT c.val) 16 1
  | .cache s a _ => bumpHalf d (if s then R.HIV_ECC_CNT else R.HBM_CTL_ECC_CNT ((unitHbm a).toNat % 8)) 16 1
  | .weight a => bumpHalf d (R.HBM_CTL_ECC_CNT ((unitHbm a).toNat % 8)) 16 1

/-- What else a trip does, given the guard's sequence number: the drop of R224, the copy of R300, the quarantine of
R299. -/
def tripAct (r : Req) (ref : W32) (d : Dev) : Trip → Dev
  | .cache _ _ spot => cacheError (dSeq r.desc) spot ref d
  | .sram true a =>
    match hotBlockAt d (dTenant r.desc) a with
    | some b => askRecopy (dTenant r.desc) b d
    | none => d
  | .weight _ => quarantine (dTenant r.desc) d
  | _ => d

/-- A write to a bank that is not ON ends with BANK_OFF; every other trip ends with ECC_FAIL. -/
def Trip.isBankOff : Trip → Bool
  | .bankOff _ w _ _ => w
  | _ => false

/-- A trip takes effect: report, count, its own action, and the token stops. -/
def applyTrip (c : CellId) (t : Token) (r : Req) (x : Trip) (d : Dev) : Dev :=
  let g := guardTake (tripReport c r x) (tripCount c d x)
  stopToken c t x.isBankOff g.1 (tripAct r g.1 g.2 x)

/-- A trip, where there is one, takes effect. -/
def applyTrip? (c : CellId) (t : Token) (r : Req) (x : Option Trip) (d : Dev) : Dev :=
  match x with
  | some x => applyTrip c t r x d
  | none => d

/-! ### The instruction that a cell comes to (R86) -/

/-- A cell does a piece of its token's tick program: its clock runs, and the version-load check has let the word
through. -/
def onTask (c : CellId) (ok : Req → Dev → Bool) (act : Token → Req → Dev → Dev) (d : Dev) : Dev :=
  match cellToken d c with
  | none => d
  | some t =>
    match findReq d t.uid with
    | none => d
    | some r => onlyIf (alive d && cellClocked d c && ok r d) (act t r) d

/-- A cell comes to its next instruction: a word of it that is damaged in HBM stops the token as it is read (R299, R396). -/
def onFetch (c : CellId) (ok : Req → Dev → Bool) (act : Token → Req → Dev → Dev) (d : Dev) : Dev :=
  match badFetch (cellOf d c) with
  | some a => onTask c (fun _ _ => true) (fun t r d => applyTrip c t r (.weight a) d) d
  | none => onTask c ok act d

/-- A cell comes to a word of its token's tick program. -/
def onWord (c : CellId) (w : IWord) (ok : Req → Dev → Bool) (act : Token → Req → Dev → Dev) : Dev → Dev :=
  onFetch c (fun r d => fetchOk (cellOf d c) w && ok r d) act

/-- A cell runs an instruction of its token's tick program, and goes on to the next one. -/
def onCell (c : CellId) (w : IWord) (ok : Req → Dev → Bool) (act : Token → Req → Dev → Dev) : Dev → Dev :=
  onWord c w ok (fun t r d => instrDone c (act t r d))

end Sys2Proof.Machine
end

