-- ==== Sys2Proof/Machine/Vector.lean ====
section
/-!
DEFINITION. What the vector engine and the special-function unit do (05, 06): simple operations, per-element programs,
broadcasts, masks, casts, reductions, statistics, tables, functions and top-k. Machine/Queue.lean says when.
-/

namespace Sys2Proof.Machine

open Sys2Proof

/-! ### Fields (Table 06-2) -/

def vFn (w : IWord) : Nat := fld w 69 64
def vMzero (w : IWord) : Bool := bit w 70
def vTq (w : IWord) : Nat := fld w 73 71
def vImmB (w : IWord) : Bool := bit w 74
def vSrcC (w : IWord) : Nat := fld w 79 75
def vRowLen (w : IWord) : Nat := fld w 92 80
def vBkind (w : IWord) : Nat := fld w 95 94
def vImm (w : IWord) : W32 := BitVec.ofNat 32 (fld w 127 96)

def gMzero : Nat × Nat := (70, 70)
def gTq : Nat × Nat := (73, 71)
def gImmB : Nat × Nat := (74, 74)
def gSrcC : Nat × Nat := (79, 75)
def gRow : Nat × Nat := (92, 80)
def gKind : Nat × Nat := (95, 94)
def gImm : Nat × Nat := (127, 96)

/-- Checks common to the instructions of this chapter. -/
def vecOk (w : IWord) (opc : Nat) (zeros : List (Nat × Nat)) : Bool :=
  wordOk w opc 4096 ([fComp, (93, 93)] ++ zeros) && decide (vTq w ≤ 6)

/-- Operand A comes from a tile-queue input, or from registers. -/
def srcAOk (w : IWord) : Bool := if vTq w = 0 then regsFit (iSrcA w) (iCount w) else decide (iSrcA w = 0)

/-- Rows: ROWLEN divides COUNT. -/
def rowsOk (w : IWord) : Bool := decide (1 ≤ vRowLen w) && decide (vRowLen w ≤ 4096) && decide (iCount w % vRowLen w = 0)
def vRows (w : IWord) : Nat := iCount w / vRowLen w

/-- Formats are both FP32, both INT32, or as given. -/
def fmts (w : IWord) (i o : Nat) : Bool := decide (iFmtIn w = i) && decide (iFmtOut w = o)

/-- Operand A of a vector instruction. -/
def vecA (x : CellSt) (w : IWord) : List W32 := operandA x (vTq w) (iSrcA w) (iCount w)

/-! ### Vector functions (Table 06-3, R150) -/

/-- The rounding of a vector function: to nearest even, or toward zero. -/
def vRnd (w : IWord) : Rnd := if iRnd w = 1 then .rtz else .rne

/-- A floating word with a NaN made canonical. -/
def canonNan (v : W32) : W32 := if (f32 v).isNan then f32Nan else v

/-- One function on one element; the second part is a saturating or NaN conversion. -/
def vfn (fn : Nat) (r : Rnd) (rowLen e : Nat) (imm a b c : W32) : W32 × Bool :=
  let fa := f32 a
  let fb := f32 b
  match fn with
  | 0x00 => (a, false)
  | 0x01 => (to32 r (vAdd fa fb), false)
  | 0x02 => (to32 r (vSub fa fb), false)
  | 0x03 => (to32 r (vMul fa fb), false)
  | 0x04 => (to32 r (vAdd (vMul fa fb) (f32 c)), false)
  | 0x05 => (to32 r (vMul (vSub fa fb) (f32 c)), false)
  | 0x06 => (fMax a b, false)
  | 0x07 => (fMin a b, false)
  | 0x08 => (canonNan (a &&& 0x7FFFFFFF), false)
  | 0x09 => (canonNan (a ^^^ 0x80000000), false)
  | 0x0A => (fMin (fMax a b) c, false)
  | 0x0B => (to32 r (vScale (-c.toInt) (vMul fa fb)), false)
  | 0x10 => (a + b, false)
  | 0x11 => (a - b, false)
  | 0x12 => (a * b, false)
  | 0x13 => (if a.toInt < b.toInt then b else a, false)
  | 0x14 => (if b.toInt < a.toInt then b else a, false)
  | 0x15 => (a &&& b, false)
  | 0x16 => (a ||| b, false)
  | 0x17 => (a ^^^ b, false)
  | 0x18 => (a <<< (b.toNat % 32), false)
  | 0x19 => (a.sshiftRight (b.toNat % 32), false)
  | 0x1A => (to32 r (vInt a.toInt), false)
  | 0x1B => let x := castTo 9 r fa; (BitVec.ofNat 32 x.1, x.2)
  | 0x20 => (BitVec.ofNat 32 (e % rowLen) + imm, false)
  | _ => (BitVec.ofNat 32 (e / rowLen) + imm, false)

/-- Codes of Table 06-3 other than LOOKUP and EPOCH. -/
def vfnKnown (fn : Nat) : Bool := decide (fn ≤ 0x0B) || (decide (0x10 ≤ fn) && decide (fn ≤ 0x1B)) || decide (fn = 0x20 ∨ fn = 0x21)

/-- Operands that a function uses. -/
def vfnA (fn : Nat) : Bool := decide (fn < 0x20)
def vfnB (fn : Nat) : Bool := (decide (1 ≤ fn) && decide (fn ≤ 0x0B) && decide (fn ≠ 8) && decide (fn ≠ 9)) || (decide (0x10 ≤ fn) && decide (fn ≤ 0x19))
def vfnC (fn : Nat) : Bool := decide (fn = 4 ∨ fn = 5 ∨ fn = 0x0A ∨ fn = 0x0B)

/-- The function rounds under RND. -/
def vfnRounds (fn : Nat) : Bool := (decide (1 ≤ fn) && decide (fn ≤ 5)) || decide (fn = 0x0B ∨ fn = 0x1A ∨ fn = 0x1B)

/-- Formats that a function requires (R145). -/
def vfnFmts (w : IWord) (fn : Nat) : Bool :=
  if fn = 0 then fmts w 0 0 || fmts w 9 9
  else if fn ≤ 0x0B then fmts w 0 0
  else if fn = 0x1A then fmts w 9 0
  else if fn = 0x1B then fmts w 0 9
  else fmts w 9 9

/-- RND is 0 or 1, and 0 where the function does not round. -/
def rndOk (w : IWord) (rounds : Bool) : Bool := decide (iRnd w = 0) || (rounds && decide (iRnd w = 1))

/-! ### VOP -/

/-- Checks of a VOP word. -/
def vopOk (w : IWord) : Bool :=
  let fn := vFn w
  let iota := decide (0x20 ≤ fn)
  vecOk w 0x30 [gKind] && vfnKnown fn && vfnFmts w fn && rndOk w (vfnRounds fn) && regsFit (iDst w) (iCount w) &&
    (if vfnA fn then srcAOk w else zeroIn w [fSrcA, gTq]) &&
    (if vfnB fn then (if vImmB w then decide (iSrcB w = 0) else regsFit (iSrcB w) (iCount w) && zeroIn w [gImm])
     else zeroIn w [fSrcB, gImmB] && (iota || zeroIn w [gImm])) &&
    (if vfnC fn then regsFit (vSrcC w) (iCount w) else zeroIn w [gSrcC]) &&
    (if iota then rowsOk w else zeroIn w [gRow])

/-- Number of unmasked elements for which a conversion saturated. -/
def satCount (x : CellSt) (k : Nat) (rs : List (W32 × Bool)) : Nat :=
  ((rs.mapIdx (fun e r => r.2 && maskOn x k e)).filter id).length

/-- Results of an element-wise function, with operands B and C by element. -/
def vfnAll (x : CellSt) (w : IWord) (fn : Nat) (b c : Nat → W32) : List (W32 × Bool) :=
  let a := if vfnA fn then vecA x w else List.replicate (iCount w) 0
  a.mapIdx (fun e v => vfn fn (vRnd w) (vRowLen w) e (vImm w) v (b e) (c e))

/-- A result of FMT_OUT as it is written: every NaN of FP32 is the canonical one (R117). -/
def written (w : IWord) (v : W32) : W32 := if iFmtOut w = 0 then canonNan v else v

/-- Write element-wise results, and note saturation. -/
def vecPut (c : CellId) (w : IWord) (rs : List (W32 × Bool)) (d : Dev) : Dev :=
  let n := satCount (cellOf d c) (iMask w) rs
  noteSat c n (updCell c (putMasked (iMask w) (vMzero w) (iDst w) (rs.map (fun r => written w r.1))) d)

/-- Operand B of VOP: a register or IMM. -/
def vecB (x : CellSt) (w : IWord) (e : Nat) : W32 := if vImmB w then vImm w else lane x (iSrcB w) e

/-- VOP. -/
def vop (c : CellId) (w : IWord) (d : Dev) : Dev :=
  let x := cellOf d c
  vecPut c w (vfnAll x w (vFn w) (vecB x w) (lane x (vSrcC w))) d

/-! ### Tables (R162 to R165) -/

/-- Entries of the active table bank. -/
def activeLut (x : CellSt) : Tbl W32 := if x.lutBank then x.lut1 else x.lut0

/-- Checks of a LOOKUP word. -/
def lookupOk (w : IWord) : Bool :=
  vecOk w 0x30 [fSrcB, fRnd, gImmB, gSrcC, gRow, gKind, gImm] && decide (vFn w = 0x22) && decide (iFmtIn w = 9) &&
    decide (iFmtOut w = 0 ∨ iFmtOut w = 9) && srcAOk w && regsFit (iDst w) (iCount w)

/-- Entry at an index, none on a miss. -/
def lutEntry (x : CellSt) (i : W32) : Option W32 :=
  if 0 ≤ i.toInt ∧ i.toInt ≤ 8191 then tblFind (activeLut x) i.toNat else none

/-- VOP LOOKUP. -/
def lookup (c : CellId) (w : IWord) (d : Dev) : Dev :=
  let x := cellOf d c
  let rs := (vecA x w).map (lutEntry x)
  let misses := ((rs.mapIdx (fun e r => r.isNone && maskOn x (iMask w) e)).filter id).length
  bumpBy (updCell c (putMasked (iMask w) (vMzero w) (iDst w) (rs.map (fun r => written w (r.getD f32Nan)))) d) (R.CEL_LUT_MISS_CNT c.val) misses

/-- Checks of an EPOCH word. -/
def epochOk (w : IWord) : Bool :=
  vecOk w 0x30 [fDst, fSrcA, fSrcB, fMask, fFmtIn, fFmtOut, fRnd, gMzero, gTq, gImmB, gSrcC, gRow, gKind, gImm] &&
    decide (vFn w = 0x3F)

/-- VOP EPOCH: the other bank becomes active. -/
def epochSwap (x : CellSt) : CellSt := { x with lutBank := !x.lutBank }

/-! ### VPROG (Table 06-4, R152) -/

/-- One operation of a per-element program. -/
abbrev ProgOp := BitVec 32

def poFn (o : ProgOp) : Nat := fld o 5 0
def poDst (o : ProgOp) : Nat := fld o 8 6
def poX (o : ProgOp) : Nat := fld o 12 9
def poY (o : ProgOp) : Nat := fld o 16 13
def poZ (o : ProgOp) : Nat := fld o 20 17

/-- Operations of the inline words. -/
def progOps (w : IWord) (words : List (BitVec 128)) : List ProgOp :=
  (List.range (fld w 67 64 + 1)).map (fun i => BitVec.ofNat 32 ((words.getD (i / 4) 0).toNat >>> (32 * (i % 4))))

/-- An operand code is known, and names a temporary only once that has been written. -/
def codeOk (written : List Nat) (c : Nat) : Bool := decide (c < 12) && (decide (8 ≤ c) || written.contains c)

/-- Checks of the operations in order (R152). -/
def progOpsOk : List Nat → List ProgOp → Bool
  | _, [] => true
  | written, o :: os =>
    let fn := poFn o
    vfnKnown fn && decide (fld o 31 21 = 0) &&
      (if vfnA fn then codeOk written (poX o) else decide (poX o = 0)) &&
      (if vfnB fn then codeOk written (poY o) else decide (poY o = 0)) &&
      (if vfnC fn then codeOk written (poZ o) else decide (poZ o = 0)) && progOpsOk (poDst o :: written) os

/-- Checks of a VPROG with its inline words. -/
def vprogOk (w : IWord) (words : List (BitVec 128)) : Bool :=
  let k := fld w 67 64 + 1
  let ops := progOps w words
  let iota := ops.any (fun o => decide (0x20 ≤ poFn o))
  vecOk w 0x31 [(69, 68), gKind] && decide (words.length = ceilDiv k 4) &&
    decide ((words.getD (k / 4) 0).toNat >>> (32 * (k % 4)) = 0) && progOpsOk [] ops && rndOk w true &&
    (fmts w 0 0 || fmts w 9 9 || fmts w 0 9 || fmts w 9 0) && regsFit (iDst w) (iCount w) && srcAOk w &&
    (if vImmB w then decide (iSrcB w = 0) else regsFit (iSrcB w) (iCount w)) && regsFit (vSrcC w) (iCount w) &&
    (if iota then rowsOk w else zeroIn w [gRow])

/-- Value of an operand code. -/
def progVal (t : Tbl W32) (imm a b c : W32) (code : Nat) : W32 :=
  match code with
  | 8 => a
  | 9 => b
  | 10 => c
  | 11 => imm
  | i => tblGet 0 t i

/-- The program on one element: temporaries, last result, and how many of its conversions saturated. -/
def progRun (w : IWord) (e : Nat) (a b c : W32) : List ProgOp → Tbl W32 → W32 × Nat → W32 × Nat
  | [], _, r => r
  | o :: os, t, r =>
    let v := progVal t (vImm w) a b c
    let x := vfn (poFn o) (vRnd w) (vRowLen w) e (vImm w) (v (poX o)) (v (poY o)) (v (poZ o))
    progRun w e a b c os (tblPut t (poDst o) x.1) (x.1, r.2 + if x.2 then 1 else 0)

/-- VPROG. -/
def vprog (c : CellId) (w : IWord) (words : List (BitVec 128)) (d : Dev) : Dev :=
  let x := cellOf d c
  let rs := (vecA x w).mapIdx (fun e a =>
    progRun w e a (vecB x w e) (lane x (vSrcC w) e) (progOps w words) [] (0, 0))
  let sats := (rs.mapIdx (fun e r => if maskOn x (iMask w) e then r.2 else 0)).sum
  noteSat c sats (updCell c (putMasked (iMask w) (vMzero w) (iDst w) (rs.map (fun r => written w r.1))) d)

/-! ### VBCAST (Table 06-5) -/

/-- Checks of a VBCAST word. DESIGN CHOICE (log 91): VBCAST takes the VFN codes but LOOKUP and EPOCH. -/
def vbcastOk (w : IWord) : Bool :=
  let fn := vFn w
  let n := match vBkind w with | 0 => vRowLen w | 1 => vRows w | 2 => 1 | _ => 2 * vRows w
  let iota := decide (0x20 ≤ fn)
  vecOk w 0x32 [gImmB] && vfnKnown fn && vfnFmts w fn && rndOk w (vfnRounds fn) && rowsOk w &&
    regsFit (iDst w) (iCount w) && (if vfnA fn then srcAOk w else zeroIn w [fSrcA, gTq]) &&
    (if vfnB fn then regsFit (iSrcB w) n else zeroIn w [fSrcB]) && (iota || zeroIn w [gImm]) &&
    (decide (vBkind w ≠ 3) || decide (fn = 0x0B)) &&
    (if vfnC fn && decide (vBkind w ≠ 3) then regsFit (vSrcC w) (iCount w) else zeroIn w [gSrcC])

/-- Operands B and C of VBCAST for an element. -/
def bcastB (x : CellSt) (w : IWord) (e : Nat) : W32 :=
  lane x (iSrcB w) (match vBkind w with | 0 => e % vRowLen w | 1 => e / vRowLen w | 2 => 0 | _ => 2 * (e / vRowLen w))
def bcastC (x : CellSt) (w : IWord) (e : Nat) : W32 :=
  if vBkind w = 3 then lane x (iSrcB w) (2 * (e / vRowLen w) + 1) else lane x (vSrcC w) e

/-- VBCAST. -/
def vbcast (c : CellId) (w : IWord) (d : Dev) : Dev :=
  let x := cellOf d c
  vecPut c w (vfnAll x w (vFn w) (bcastB x w) (bcastC x w)) d

/-! ### VMASK (Table 06-6, R154) -/

def mOp (w : IWord) : Nat := fld w 66 64
def mCmp (w : IWord) : Nat := fld w 69 67

/-- Checks of a VMASK word. -/
def vmaskOk (w : IWord) : Bool :=
  let k (n : Nat) : Bool := decide (1 ≤ n) && decide (n ≤ 7)
  vecOk w 0x33 [fFmtOut, fRnd, gMzero, gSrcC, gRow, gKind] && k (iDst w) && decide (mOp w ≤ 5) &&
    (match mOp w with
     | 0 => decide (mCmp w ≤ 5) && decide (iFmtIn w = 0 ∨ iFmtIn w = 9) && srcAOk w &&
        (if vImmB w then decide (iSrcB w = 0) else regsFit (iSrcB w) (iCount w) && zeroIn w [gImm])
     | m => decide (mCmp w = 0) && zeroIn w [fFmtIn, gTq, gImmB, gImm] &&
        (if m = 5 then zeroIn w [fSrcA, fSrcB]
         else k (iSrcA w) && (if m = 4 then zeroIn w [fSrcB] else k (iSrcB w))))

/-- A comparison: FP32 as IEEE 754 compares, or signed integers. -/
def vCompare (int : Bool) (op : Nat) (a b : W32) : Bool :=
  let lt (a b : W32) : Bool := if int then decide (a.toInt < b.toInt) else vLt (f32 a) (f32 b)
  let eq : Bool := if int then decide (a = b) else vEq (f32 a) (f32 b)
  match op with
  | 0 => eq
  | 1 => !eq
  | 2 => lt a b
  | 3 => lt a b || eq
  | 4 => lt b a
  | _ => lt b a || eq

/-- Mask bit e of a VMASK. -/
def vmaskBit (x : CellSt) (w : IWord) (a : List W32) (e : Nat) : Bool :=
  maskOn x (iMask w) e &&
  (match mOp w with
   | 0 => vCompare (decide (iFmtIn w = 9)) (mCmp w) (a.getD e 0) (vecB x w e)
   | 1 => maskOn x (iSrcA w) e && maskOn x (iSrcB w) e
   | 2 => maskOn x (iSrcA w) e || maskOn x (iSrcB w) e
   | 3 => maskOn x (iSrcA w) e && !maskOn x (iSrcB w) e
   | 4 => !maskOn x (iSrcA w) e
   | _ => true)

/-- The number whose bits are given, lowest first. -/
def bitsNat : List Bool → Nat
  | [] => 0
  | b :: bs => (if b then 1 else 0) + 2 * bitsNat bs

/-- VMASK: bits beyond COUNT are cleared. -/
def vmask (w : IWord) (x : CellSt) : CellSt :=
  let a := if mOp w = 0 then vecA x w else []
  { x with masks := tblSet 0 x.masks (iDst w) (bitsNat ((List.range (iCount w)).map (vmaskBit x w a))) }

/-! ### VCVT (R155) -/

/-- Checks of a VCVT word. -/
def vcvtOk (w : IWord) : Bool :=
  let n := iCount w
  let mx := fmtIsMx (iFmtOut w)
  vecOk w 0x34 [(69, 64), gImmB, fSrcB, gKind] && decide (iFmtIn w ≤ 9) && decide (iFmtOut w ≤ 9) && srcAOk w &&
    regsFit (iDst w) n &&
    (!mx || (decide (n % 32 = 0) && decide (iDst w + groups256 n + ceilDiv (n / 32) 256 ≤ 32))) &&
    (if iRnd w = 2 then rowsOk w else zeroIn w [gSrcC, gRow, gImm])

/-- Rounding of element e: its seed takes the row's position, the element of the row and SSTAGE (R119, R155). -/
def cvtRnd (w : IWord) (r : Req) (e : Nat) : Rnd :=
  rndOf (iRnd w) (srSeed (dTenant r.desc) (dLayer r.desc) (vSrcC w) ((vImm w).toNat + e / vRowLen w) (e % vRowLen w))

/-- Source value of element e of operand A. The block scales of an MX source have no place that the spec names: each is a free
function of its block's elements, so that the same work gives the same bits (R138). -/
def cvtVal (w : IWord) (a : List W32) (e : Nat) (v : W32) : Val :=
  let code (i : Nat) : Nat := (a.getD i 0).toNat % 2 ^ fmtBits (iFmtIn w)
  let x := decodeElem (iFmtIn w) (v.toNat % 2 ^ fmtBits (iFmtIn w))
  if fmtIsMx (iFmtIn w) then scaled x (Config.blockScale (iFmtIn w) (codesOf code 32 (e / 32 * 32))) else x

/-- VCVT to an MX format: blocks of 32, the scales following from register DST + G. Masked elements count as zeros. -/
def cvtMx (c : CellId) (w : IWord) (r : Req) (vs : List Val) (d : Dev) : Dev :=
  let x := cellOf d c
  let vs := vs.mapIdx (fun e v => if maskOn x (iMask w) e then v else vZero false)
  let blocks := (runsOf 32 vs.length vs).mapIdx (fun b xs =>
    quantBlock (iFmtOut w) (fun i => cvtRnd w r (32 * b + i)) xs)
  let els := (blocks.flatMap (·.2)).map (BitVec.ofNat 32)
  updCell c (fun x => putLanes (iDst w + groups256 (iCount w)) (blocks.map (fun b => BitVec.ofNat 32 b.1.toNat))
    (putMasked (iMask w) (vMzero w) (iDst w) els x)) d

/-- VCVT. -/
def vcvt (c : CellId) (w : IWord) (r : Req) (d : Dev) : Dev :=
  let a := vecA (cellOf d c) w
  let vs := a.mapIdx (cvtVal w a)
  if fmtIsMx (iFmtOut w) then cvtMx c w r vs d
  else vecPut c w (vs.mapIdx (fun e v =>
    let x := castTo (iFmtOut w) (cvtRnd w r e) v
    (BitVec.ofNat 32 x.1, x.2))) d

/-! ### VRED (R153) -/

/-- Checks of a VRED word. -/
def vredOk (w : IWord) : Bool :=
  let f := vFn w
  vecOk w 0x35 [fSrcB, fRnd, gMzero, gImmB, gSrcC, gKind, gImm] && rowsOk w && srcAOk w && regsFit (iDst w) (vRows w) &&
    (if f ≤ 2 then fmts w 0 0 else decide (4 ≤ f) && decide (f ≤ 6) && fmts w 9 9)

/-- Unmasked elements of row r. -/
def rowElems (x : CellSt) (w : IWord) (a : List W32) (r : Nat) : List W32 :=
  (List.range (vRowLen w)).filterMap (fun k =>
    let e := r * vRowLen w + k
    if maskOn x (iMask w) e then a[e]? else none)

/-- A row's reduction, and whether an integer sum saturated. -/
def vredRow (f : Nat) (es : List W32) : W32 × Bool :=
  match f with
  | 0 => (tree (es.map f32), false)
  | 1 => (es.foldl fMax f32NegInf, false)
  | 2 => (es.foldl fMin f32PosInf, false)
  | 4 =>
    let s := (es.map BitVec.toInt).sum
    if 2 ^ 31 ≤ s then (0x7FFFFFFF, true) else if s < -(2 ^ 31) then (0x80000000, true) else (BitVec.ofInt 32 s, false)
  | 5 => (es.foldl (fun a b => if a.toInt < b.toInt then b else a) 0x80000000, false)
  | _ => (es.foldl (fun a b => if b.toInt < a.toInt then b else a) 0x7FFFFFFF, false)

/-- VRED. -/
def vred (c : CellId) (w : IWord) (d : Dev) : Dev :=
  let x := cellOf d c
  let a := vecA x w
  let rs := (List.range (vRows w)).map (fun r => vredRow (vFn w) (rowElems x w a r))
  noteSat c ((rs.filter (·.2)).length) (updCell c (putLanes (iDst w) (rs.map (·.1))) d)

/-! ### ROWSTAT (Table 06-8, R160, R161) -/

/-- The six words of a row's statistics. -/
structure RowStat where
  mx : W32 := f32NegInf
  mn : W32 := f32PosInf
  mean : W32 := 0
  m2 : W32 := 0
  n : Nat := 0
  nans : Nat := 0
  deriving DecidableEq, Repr

/-- Statistics of the unmasked elements of a row. -/
def rowStat (es : List W32) : RowStat :=
  let xs := es.filter (fun v => !(f32 v).isNan)
  let n := xs.length
  let nans := es.length - n
  if n = 0 then { nans := nans }
  else
    let vs := xs.map f32
    let inf := vs.any (fun v => !v.isFinite)
    let mean := rn32 (vDiv (vs.foldl vAdd (vZero (vs.all Val.sign))) n)
    let m2 := if inf then f32PosInf
      else rn32 (vs.foldl (fun a v => let x := vSub v (f32 mean); vAdd a (vMul x x)) (vZero false))
    { mx := xs.foldl fMax f32NegInf, mn := xs.foldl fMin f32PosInf, mean := mean, m2 := m2, n := n, nans := nans }

/-- Statistics held in registers from element 8r of register b. -/
def heldStat (x : CellSt) (b r : Nat) : RowStat :=
  { mx := lane x b (8 * r), mn := lane x b (8 * r + 1), mean := lane x b (8 * r + 2), m2 := lane x b (8 * r + 3),
    n := (lane x b (8 * r + 4)).toNat, nans := (lane x b (8 * r + 5)).toNat }

/-- R161. -/
def mergeStat (a b : RowStat) : RowStat :=
  let nans := a.nans + b.nans
  if a.n = 0 then { b with nans := nans }
  else if b.n = 0 then { a with nans := nans }
  else
    let n := a.n + b.n
    let mean := rn32 (vDiv (vAdd (vMul (vInt a.n) (f32 a.mean)) (vMul (vInt b.n) (f32 b.mean))) n)
    let dl := vSub (f32 b.mean) (f32 a.mean)
    let m2 := rn32 (vAdd (vAdd (f32 a.m2) (f32 b.m2)) (vDiv (vMul (vMul dl dl) (vInt (a.n * b.n))) n))
    { mx := fMax a.mx b.mx, mn := fMin a.mn b.mn, mean := mean, m2 := m2, n := n, nans := nans }

/-- The eight words of a row. -/
def statWords (s : RowStat) : List W32 :=
  [canonNan s.mx, canonNan s.mn, canonNan s.mean, canonNan s.m2, BitVec.ofNat 32 s.n, BitVec.ofNat 32 s.nans, 0, 0]

/-- Checks of a ROWSTAT word. -/
def rowstatOk (w : IWord) : Bool :=
  vecOk w 0x36 [fRnd, (69, 65), gMzero, gImmB, gSrcC, gKind, gImm] && fmts w 0 0 && rowsOk w && srcAOk w &&
    regsFit (iDst w) (8 * vRows w) && (if bit w 64 then regsFit (iSrcB w) (8 * vRows w) else decide (iSrcB w = 0))

/-- ROWSTAT. -/
def rowstat (w : IWord) (x : CellSt) : CellSt :=
  let a := vecA x w
  let one (r : Nat) : RowStat :=
    let y := rowStat (rowElems x w a r)
    if bit w 64 then mergeStat (heldStat x (iSrcB w) r) y else y
  putLanes (iDst w) ((List.range (vRows w)).flatMap (fun r => statWords (one r))) x

/-! ### RMSSTAT (R159) -/

/-- Add one element to a row state. -/
def rmsAdd (y : RmsRow) (v : W32) : RmsRow :=
  match f32 v with
  | .rat _ n _ e =>
    let f := 2 * e
    let g := if y.sNum = 0 then f else if n = 0 then y.sExp else min y.sExp f
    { y with
      sNum := y.sNum <<< (y.sExp - g).toNat + (n * n) <<< (f - g).toNat
      sExp := g
      mWord := if y.mWord.toNat < v.toNat % 2 ^ 31 then BitVec.ofNat 32 (v.toNat % 2 ^ 31) else y.mWord
      n := y.n + 1 }
  | _ => { y with bad := true, n := y.n + 1 }

/-- r_m and k of a row at FINAL. -/
def rmsFinal (y : RmsRow) (eps : W32) : W32 × W32 :=
  if y.bad then (f32Nan, 0)
  else
    let k : Int := if y.mWord = 0 then 0 else vLog2 (f32 y.mWord)
    let t := if y.mWord = 0 then f32Zero else rn32 (vDiv (vScale (-2 * k) (.rat false y.sNum 1 y.sExp)) y.n)
    let u := rn32 (vAdd (f32 t) (f32 (rn32 (vScale (-2 * k) (f32 eps)))))
    (if (f32 u).isZero then 0 else rsqrt u, BitVec.ofInt 32 k)

/-- Checks of an RMSSTAT word: ε is a non-negative finite number. -/
def rmsstatOk (w : IWord) : Bool :=
  let e := f32 (vImm w)
  vecOk w 0x37 [fSrcB, fRnd, (69, 66), gMzero, gImmB, gSrcC, gKind] && fmts w 0 0 && rowsOk w && srcAOk w &&
    decide (vRows w ≤ 16) && e.isFinite && (e.isZero || !e.sign) &&
    (if bit w 65 then regsFit (iDst w) (2 * vRows w) else decide (iDst w = 0))

/-- A segment that goes on with a row state has the rows of its START (R159). -/
def rmsRowsOk (w : IWord) (x : CellSt) : Bool := bit w 64 || decide (x.rmsRows.getD (vRows w) = vRows w)

/-- RMSSTAT: between FINAL and the next START no sequence of segments is open. -/
def rmsstat (w : IWord) (x : CellSt) : CellSt :=
  let a := vecA x w
  let ys := (List.range (vRows w)).map (fun r =>
    (rowElems x w a r).foldl rmsAdd (if bit w 64 then {} else tblGet {} x.rms r))
  let x := { x with rms := tblSetList {} (if bit w 64 then [] else x.rms) 0 ys
                    rmsRows := if bit w 65 then none else some (vRows w) }
  if bit w 65 then putLanes (iDst w) (ys.flatMap (fun y => let p := rmsFinal y (vImm w); [p.1, p.2])) x else x

/-! ### SFU (Table 06-7) -/

/-- Checks of an SFU word. -/
def sfuOk (w : IWord) : Bool :=
  vecOk w 0x40 [fSrcB, fRnd, (69, 68), gImmB, gSrcC, gRow, gKind, gImm] && fmts w 0 0 && decide (vFn w ≤ 8) && srcAOk w &&
    regsFit (iDst w) (iCount w)

/-- SFU. -/
def sfu (ax4 : Bool) (w : IWord) (x : CellSt) : CellSt :=
  putMasked (iMask w) (vMzero w) (iDst w) ((vecA x w).map (sfuApply ax4 (vFn w))) x

/-! ### TOPK (Table 05-7, R132, R133) -/

/-- Rank of a candidate before another: NaN after every number, then value in the direction of ORDER, then position. -/
def topBefore (int smallest : Bool) (a b : W32 × W32) : Bool :=
  let pos := decide (a.2.toNat ≤ b.2.toNat)
  if int then
    if a.1 = b.1 then pos else if smallest then decide (a.1.toInt < b.1.toInt) else decide (b.1.toInt < a.1.toInt)
  else
    let x := f32 a.1
    let y := f32 b.1
    if x.isNan then y.isNan && pos
    else if y.isNan then true
    else if vEq x y then pos
    else if smallest then vLt x y else vLt y x

/-- Insert a candidate into a ranked list. -/
def topInsert (int smallest : Bool) (a : W32 × W32) : List (W32 × W32) → List (W32 × W32)
  | [] => [a]
  | b :: bs => if topBefore int smallest b a then b :: topInsert int smallest a bs else a :: b :: bs

/-- Fill of a place without a candidate. -/
def topFill (int : Bool) : W32 × W32 := (if int then 0x80000000 else f32Nan, 0xFFFFFFFF)

/-- Checks of a TOPK word. -/
def topkOk (w : IWord) : Bool :=
  wordOk w 0x23 4096 [fSrcB, fRnd, fComp, (79, 73), (127, 116)] && decide (iFmtIn w = 0 ∨ iFmtIn w = 9) &&
    decide (iFmtOut w = iFmtIn w) && decide (iDst w + 1 < 32) &&
    (if bit w 72 then decide (1 ≤ iSrcA w) && decide (iSrcA w ≤ 6) else regsFit (iSrcA w) (iCount w))

/-- Input of a TOPK: the one that SRC_A names, or 0 for registers. -/
def topTq (w : IWord) : Nat := if bit w 72 then iSrcA w else 0

/-- k, ORDER and FMT_IN of a TOPK. -/
def topKey (w : IWord) : Nat × Nat × Nat := (fld w 69 64 + 1, fld w 70 70, iFmtIn w)

/-- A TOPK with MERGE has the k, ORDER and FMT_IN of the one that built the running list, where there is one (R133). -/
def topkFits (w : IWord) (x : CellSt) : Bool := !bit w 71 || decide (x.topkKey.getD (topKey w) = topKey w)

/-- The first k of the ranked set; every NaN is the canonical one (R117). -/
def topRank (w : IWord) (x : CellSt) : List (W32 × W32) :=
  let int := decide (iFmtIn w = 9)
  let n := iCount w
  let vals := (operandA x (topTq w) (iSrcA w) n).map (fun v => if int then v else canonNan v)
  let cands := (vals.mapIdx (fun i v => (i, v))).filterMap (fun p =>
    if maskOn x (iMask w) p.1 then some (p.2, BitVec.ofNat 32 (fld w 111 80 + p.1 * 2 ^ fld w 115 112)) else none)
  let start := if bit w 71 then x.topk else []
  (cands.foldl (fun l a => topInsert int (bit w 70) a l) start).take (fld w 69 64 + 1)

/-- A list up to n places, the remaining ones filled (R132). -/
def topFilled (w : IWord) (n : Nat) (l : List (W32 × W32)) : List (W32 × W32) :=
  l ++ List.replicate (n - l.length) (topFill (decide (iFmtIn w = 9)))

/-- TOPK: the running list of k places, and the results in DST and DST + 1, every lane beyond it filled (R132). -/
def topk (w : IWord) (x : CellSt) : CellSt :=
  let l := topFilled w (fld w 69 64 + 1) (topRank w x)
  let out := topFilled w 256 l
  let x := putLanes (iDst w) (out.map (·.1)) { x with topk := l, topkKey := some (topKey w) }
  putLanes (iDst w + 1) (out.map (·.2)) x

end Sys2Proof.Machine
end

