-- ==== Sys2Proof/Machine/Attention.lean ====
section
/-!
DEFINITION. The online softmax of the attention chain (07): FATT, CORR and SCORE.
-/

namespace Sys2Proof.Machine

open Sys2Proof

/-! ### Fields (Table 07-5) -/

def fRbase (w : IWord) : Nat := fld w 69 64
def fFirst (w : IWord) : Bool := bit w 70
def fEshift (w : IWord) : Nat := fld w 76 74
def fKpos (w : IWord) : Nat := fld w 127 96

/-- Row of the row store. -/
def smRow (x : CellSt) (i : Nat) : SmRow := tblGet {} x.rows i

/-- Rows of the row store that an instruction covers. -/
def smRows (w : IWord) : List Nat := (List.range (vRows w)).map (fun r => fRbase w + r)

/-! ### FATT (R178, R179) -/

/-- α ⊗ (s, c). -/
def scalePair (comp : Bool) (a : W32) (p : W32 × W32) : W32 × W32 := (fMul a p.1, if comp then fMul a p.2 else p.2)

/-- (s, c) ⊕ x. -/
def addPair (comp : Bool) (p : W32 × W32) (x : W32) : W32 × W32 := if comp then compAdd p.1 p.2 x else (fAdd p.1 x, p.2)

/-- What FATT takes from the chain: score scale, exponent function, PV format and rounding of an element. -/
structure FattIn where
  c : W32
  exp : W32 → W32
  fmt : Nat
  rnd : Nat → Rnd
  comp : Bool
  kpos : Nat

/-- Groups of 16 positions of a step: the p of its tokens that share (KPOS + i) div 16, each summed exactly and rounded
once. -/
def groupSums (f : FattIn) (ps : List Nat) : List W32 :=
  (runsOf 16 ps.length ps).map (fun g => rn32 (g.foldl (fun a p => vAdd a (decodeElem f.fmt p)) (vZero false)))

/-- FATT on one row: its scores with their mask. Answers the row's state, its p, and whether it became INVALID and
whether α is +0. -/
def fattRow (f : FattIn) (y : SmRow) (ss : List (W32 × Bool)) : SmRow × List Nat × Bool × Bool :=
  let bad := ss.any (fun s => s.2 && !(f32 s.1).isFinite)
  if y.invalid || bad then
    ({ y with invalid := true, alphas := y.alphas ++ [f32One] },
      ss.map (fun s => if s.2 then castFp f.fmt .rne false .nan else 0), !y.invalid, false)
  else
    let mb := (ss.filter (·.2)).foldl (fun m s => fMax m s.1) f32NegInf
    let mn := fMax y.m mb
    let rises := vLt (f32 y.m) (f32 mn) && decide (y.m ≠ f32NegInf)
    let a := if rises then f.exp (fFss y.m mn f.c) else f32One
    let ps := ss.mapIdx (fun i s =>
      if s.2 then castFp f.fmt (f.rnd i) false (f32 (f.exp (fFss s.1 mn f.c))) else 0)
    let l := (groupSums f ps).foldl (addPair f.comp) (scalePair f.comp a (y.ls, y.lc))
    ({ y with m := mn, ls := l.1, lc := l.2, alphas := y.alphas ++ [a], empty := decide (mn = f32NegInf) }, ps, false,
      decide (a = 0))

/-- Checks of a FATT word that its own fields decide. -/
def fattWord (w : IWord) : Bool :=
  wordOk w 0x60 4096 [(76, 74), (79, 77), (95, 93)] && decide (1 ≤ vRowLen w) && decide (vRowLen w ≤ 256) &&
    decide (iCount w % vRowLen w = 0) && decide (fRbase w + vRows w ≤ 64) && decide (vTq w ≤ 6) && srcAOk w &&
    decide (iFmtIn w = 0) && decide (fKpos w % 16 = 0) && regsFit (iDst w) (iCount w) && regsFit (iSrcB w) (vRows w)

/-- Agreement with the chain header. -/
def fattFits (w : IWord) (h : ChainHdr) : Bool :=
  let b := 16 * 2 ^ h.block
  decide (iFmtOut w = h.pvFmt) && decide (iRnd w = h.pvRnd) && (iComp w == h.comp) &&
    decide (fKpos w / b = (fKpos w + vRowLen w - 1) / b)

/-- Checks against the chain header and the blocks (R174, R178). -/
def fattOk (w : IWord) (r : Req) (d : Dev) : Bool := fattWord w && fattFits w (tenantChain d (dTenant r.desc))

/-- Every row has room for one more α (R181). -/
def alphaRoom (w : IWord) (x : CellSt) : Bool :=
  fFirst w || (smRows w).all (fun i => decide ((smRow x i).alphas.length < 4))

/-- What FATT takes from the chain for row r of the instruction. -/
def fattIn (w : IWord) (q : Req) (x : CellSt) (d : Dev) (r : Nat) : FattIn :=
  let t := dTenant q.desc
  let h := tenantChain d t
  { c := h.scaleC, exp := expf (ax4Mode d t) h.fast, fmt := h.pvFmt, comp := h.comp, kpos := fKpos w
    rnd := fun i => rndOf h.pvRnd (srSeed t (dLayer q.desc) 16 (lane x (iSrcB w) r).toNat (fKpos w + i)) }

/-- FATT. DESIGN CHOICE (log 97): its compensated adds of l are no count of CEL_COMP_CNT. -/
def fatt (c : CellId) (w : IWord) (q : Req) (d : Dev) : Dev :=
  let n := vRowLen w
  let x := cellOf d c
  let a := vecA x w
  let outs := (List.range (vRows w)).map (fun r =>
    let y : SmRow := if fFirst w then {} else smRow x (fRbase w + r)
    fattRow (fattIn w q x d r) y ((List.range n).map (fun i =>
      (a.getD (r * n + i) 0, maskOn x (iMask w) (r * n + i)))))
  let d := updCell c (fun x =>
    let x := { x with rows := (outs.mapIdx (fun r o => (r, o))).foldl (fun t p =>
      tblPut t (fRbase w + p.1) p.2.1) x.rows }
    putLanes (iDst w) ((outs.flatMap (·.2.1)).map (BitVec.ofNat 32)) x) d
  let d := bumpBy d (R.CEL_ALPHA_ZERO_CNT c.val) ((outs.filter (·.2.2.2)).length)
  bump d (R.CEL_FATT_CNT c.val)

/-! ### CORR (R180) -/

/-- Checks of a CORR word. -/
def corrWord (w : IWord) : Bool :=
  let e := 2 ^ fEshift w
  let v := if iComp w then e / 2 else e
  wordOk w 0x62 4096 [fSrcB, fMask, fFmtIn, fFmtOut, fRnd, (79, 77), (95, 93), (127, 96)] && decide (64 ≤ vRowLen w) &&
    decide (vRowLen w ≤ 256) && decide (iCount w % vRowLen w = 0) && decide (fRbase w + vRows w ≤ 64) &&
    decide (vTq w ≤ 6) && decide (fEshift w ≤ 4) && decide (iDst w < 32 / e) && decide (iCount w ≤ 1024 * v) &&
    (if vTq w = 0 then decide (iSrcA w < 32 / e) else decide (iSrcA w = 0))

/-- Checks against the header's COMP (R174). -/
def corrOk (w : IWord) (r : Req) (d : Dev) : Bool := corrWord w && (iComp w == (tenantChain d (dTenant r.desc)).comp)

/-- Every row has an α (R181). -/
def alphaThere (w : IWord) (x : CellSt) : Bool := (smRows w).all (fun i => !(smRow x i).alphas.isEmpty)

/-- Key of value word i of a slot, and distance to its error term. -/
def slotKey (eshift slot i : Nat) : Nat := 1024 * (slot * 2 ^ eshift) + i
def errDist (eshift : Nat) : Nat := 1024 * (2 ^ eshift / 2)

/-- O value of a slot: s, or rn32(s + c) under COMP. -/
def slotValue (x : CellSt) (comp : Bool) (eshift k : Nat) : W32 :=
  if comp then fAdd (accWord x k) (accWord x (k + errDist eshift)) else accWord x k

/-- CORR. -/
def corr (c : CellId) (w : IWord) (d : Dev) : Dev :=
  let x := cellOf d c
  let e := fEshift w
  let n := vRowLen w
  let comp := iComp w
  let vs := (if vTq w = 0 then (List.range (iCount w)).map (fun i => slotValue x comp e (slotKey e (iSrcA w) i))
    else (tqWords x (vTq w)).take (iCount w)).map canonNan
  let put (y : CellSt) (i : Nat) : CellSt :=
    let k := slotKey e (iDst w) i
    let v := vs.getD i 0
    let a := (smRow x (fRbase w + i / n)).alphas.headD f32One
    let p := if fFirst w then (v, f32Zero)
      else addPair comp (scalePair comp a (accWord x k, accWord x (k + errDist e))) v
    let y := accSet false k p.1 y
    if comp then accSet false (k + errDist e) p.2 y else y
  let row (t : Tbl SmRow) (r : Nat) : Tbl SmRow :=
    let y := tblGet {} t (fRbase w + r)
    tblPut t (fRbase w + r) { y with alphas := y.alphas.drop 1, o := some (iDst w, e, r * n, n, comp) }
  let y := (List.range (iCount w)).foldl put x
  let d := updCell c (fun _ => { y with rows := (List.range (vRows w)).foldl row y.rows }) d
  if comp && !fFirst w then bump64 d (R.CEL_COMP_CNT_LO c.val) (R.CEL_COMP_CNT_HI c.val) (iCount w) else d

/-! ### SCORE (R185, Table 07-7) -/

/-- Checks of a SCORE word that its own fields decide. -/
def scoreWord (w : IWord) : Bool :=
  wordOk w 0x61 4096 [fDst, fSrcA, fSrcB, fMask, fFmtIn, fFmtOut, fRnd, (73, 64), (79, 77), (95, 93)] && decide (1 ≤ fEshift w) && decide (fEshift w ≤ 6) &&
    decide (1 ≤ vRowLen w) && decide (vRowLen w ≤ 4096) && decide (iCount w % vRowLen w = 0)

/-- Checks against the header's COMP (R174). -/
def scoreOk (w : IWord) (r : Req) (d : Dev) : Bool := scoreWord w && (iComp w == (tenantChain d (dTenant r.desc)).comp)

/-- Offsets of the chunks that a SCORE writes. -/
def scoreOffs (w : IWord) : List Nat :=
  (List.range (iCount w / vRowLen w)).flatMap (fun i =>
    chunkOffs (64 * fld w 111 96 + i * (64 * fld w 127 112)) (ceilDiv (4 * vRowLen w) 16))

/-- Chunks of a byte string stored from an aligned offset: the bytes of the last chunk beyond the string stay. -/
def storeChunks (d : Dev) (c : CellId) (r : Req) (o : Nat) (bs : List Byte) : List (Nat × List Byte) :=
  (chunksAt o bs).map (fun e =>
    (e.1, e.2 ++ (cmRead d c ((cellWindow d r).1 + e.1) 16).drop e.2.length))

/-- SCORE writes its scores row by row, unless an access stops its token. -/
def score (c : CellId) (w : IWord) (t : Token) (r : Req) (d : Dev) : Dev :=
  let n := vRowLen w
  let vs := (tqWords (cellOf d c) (fEshift w)).take (iCount w)
  let rows := runsOf n vs.length vs
  let xs := (rows.mapIdx (fun i row =>
    storeChunks d c r (64 * fld w 111 96 + i * (64 * fld w 127 112)) (row.flatMap (fun v => leBytes 4 v.toNat)))).flatten
  let y := cmWriteWin c r xs d
  applyTrip? c t r y.2 y.1

end Sys2Proof.Machine
end

