-- ==== Sys2Proof/Machine/Append.lean ====
section
/-!
DEFINITION. What APPEND does (08, 09): the checks of R216, R240 and R242, opening a page (R213), rows in STAGE mode and whole pages
in PAGE mode (R218), provisional rows (R251), packed requests (R241), and an empty reserve (R215).
-/

namespace Sys2Proof.Machine

open Sys2Proof

/-! ### Damaged structures on the way to a page (R224) -/

/-- A damaged unit that a walk to a page reads: root, layer directory, index block, leaf. -/
def walkTrip (d : Dev) (q l h i : Nat) : Option Trip :=
  let hit (a n : Nat) (spot : CacheSpot) : Option Trip := if hbmRangeBad d a n then some (.cache false a spot) else none
  (seqDesc d q).root.bind (fun r =>
    (hit (unitAddr d r + 8 * l) 8 .directory).or ((ptrOf d r l).bind (fun x =>
      let e := 8 * h + i / 4096
      (hit (unitAddr d x + 8 * e) 8 .directory).or ((ptrOf d x e).bind (fun b =>
        let k := i / 16 % 256
        (hit (unitAddr d b + 8 * k) 8 (.index l h (i / 4096) x e b)).or ((ptrOf d b k).bind (fun u =>
          let n := leafStride d (seqDesc d q).tenant
          hit (unitAddr d u + n * (i % 16)) n (.leaf l h (i / 16 * 16) b k u)))))))) 

/-- A damaged unit in n bytes of a page's body or staged group from an offset. -/
def bodyTrip (d : Dev) (l h i : Nat) (x : PageHead) (off n : Nat) : Option Trip :=
  if x.st = .staged ∧ x.spill = false then
    let a := slotHive x.loc + off
    if d.mem.badHive.any (fun k => decide (a / 16 ≤ k) && decide (k * 16 < a + n)) then some (.cache true a (.page l h i))
    else none
  else
    let a := unitAddr d x.loc + off
    if hbmRangeBad d a n then some (.cache false a (.page l h i)) else none

/-! ### The request's view -/

/-- Rank of a cell's first KV head in the order of the head cells; an express cell takes the heads from 0 on. -/
def kvRank (d : Dev) (r : Req) (c : CellId) : Nat :=
  if r.express.isSome then 0
  else ((headCells d (dTenant r.desc)).takeWhile (fun x => x ≠ c)).length * headsPerCell d (dTenant r.desc)

/-- PREFIX_LEN under which a request maps positions: POS + ROWS for a PREFIX from its first APPEND on (R242). -/
def mapPrefix (d : Dev) (r : Req) (q : Nat) : Nat :=
  if dOp r.desc = opPREFIX ∧ r.appendChecked = true ∧ r.checkFailed = false then dPos r.desc + dRows r.desc
  else (seqDesc d q).prefixLen

/-- Segment number of row i of a packed request (R240). -/
def segAt (d : Dev) (r : Req) (i : Nat) : Nat :=
  leNat (inputBytes r (dRows r.desc * dModel d (dTenant r.desc) * 2 + 2 * i) 2)

/-- The request is packed. -/
def isPacked (r : Req) : Bool := isPrefill (dOp r.desc) && dPacked r.desc

/-- KIND as a request takes it: a prefill of a SCOUT tenant takes WINDOW (R236). -/
def rowKind (d : Dev) (r : Req) : Nat :=
  let k := patKind d (dTenant r.desc)
  if k = 2 ∧ (isPrefill (dOp r.desc) = true ∨ dOp r.desc = opPREFIX) then 1 else k

/-- First row of a segment. -/
def segBase (d : Dev) (r : Req) (s : Nat) : Nat :=
  ((List.range (dRows r.desc)).find? (fun i => segAt d r i = s)).getD 0

/-- Sequence and absolute position of row i of a request (R241). -/
def rowPlace (d : Dev) (r : Req) (i : Nat) : Nat × Nat :=
  if isPacked r then (dSeq r.desc + segAt d r i, i - segBase d r (segAt d r i)) else (dSeq r.desc, dPos r.desc + i)

/-- R240: the segment numbers are valid and every target sequence has LENGTH 0. -/
def packedValid (d : Dev) (r : Req) : Bool :=
  let n := dRows r.desc
  decide (segAt d r 0 = 0) && decide (segAt d r (n - 1) + 1 = dArg r.desc) &&
    (List.range (n - 1)).all (fun i =>
      decide (segAt d r (i + 1) = segAt d r i) || decide (segAt d r (i + 1) = segAt d r i + 1)) &&
    (reqSeqs r.desc).all (fun q => decide ((seqDesc d q).length = 0))

/-- R216, on the die that appends the first row. -/
def positionValid (d : Dev) (r : Req) : Bool :=
  let s := seqDesc d (dSeq r.desc)
  let p := dPos r.desc
  let at' :=
    if s.posHi ≤ p then decide (s.posHi - s.posLo = s.length)
    else if s.posLo ≤ p then decide (p - s.posLo = s.length)
    else true
  at'

/-- R242: LENGTH = PREFIX_LEN at the first APPEND of a PREFIX. -/
def prefixValid (d : Dev) (r : Req) : Bool :=
  let s := seqDesc d (dSeq r.desc)
  decide (dOp r.desc ≠ opPREFIX) || decide (s.length = s.prefixLen)

/-- The check before a request's first APPEND. -/
def appendValid (d : Dev) (r : Req) : Bool :=
  if isPacked r then packedValid d r else (r.refill || positionValid d r) && prefixValid d r

/-- First APPEND of a request: the check, PIN_VERSION of a first chunk, and the SPEC field of a VERIFY of layer 0
(R251). -/
def firstAppend (r : Req) (d : Dev) : Dev :=
  if r.appendChecked then d
  else
    let ok := appendValid d r
    let d := updReq r.uid (fun r => { r with
      appendChecked := true, checkFailed := !ok, killed := r.killed || !ok, suppressed := r.suppressed || !ok }) d
    if !ok then d
    else
      let d := if dFirstChunk r.desc then
        (reqSeqs r.desc).foldl (fun d q => updSeq q (fun s => { s with pinVersion := r.version }) d) d else d
      if dOp r.desc = opVERIFY ∧ dLayer r.desc = 0 then
        updSeq (dSeq r.desc) (fun s => { s with spec := some {
          base := dPos r.desc, n := dRows r.desc, bad := false, parents := BitVec.ofNat 64 (dArg r.desc) } }) d
      else d

/-- First APPEND of a cell's token: the cell reports a failed check for itself (R397). -/
def tokenAppend (c : CellId) (t : Token) (uid : Nat) (d : Dev) : Dev :=
  match findReq d uid with
  | none => d
  | some r =>
    if t.checked then d
    else
      let d := updToken uid c (fun t => { t with checked := true }) d
      if r.checkFailed then
        let d := if isPacked r then bump d (R.CEL_PACK_BAD_CNT c.val) else d
        report (tokenReport r (if isPacked r then 0x2C else 0x2B) (unitCell c) 0 0) d
      else d

/-! ### Pages -/

/-- Outcome of a step of an APPEND. -/
inductive AppendOut where
  | done (d : Dev)
  /-- The cell's reserve has no frame of the order. -/
  | short
  /-- An access stops the token; what the steps before it wrote stays (R396). -/
  | trip (x : Trip) (d : Dev)
  deriving DecidableEq, Repr

/-- Go on after a step that was done. -/
def AppendOut.andThen (x : AppendOut) (f : Dev → AppendOut) : AppendOut :=
  match x with
  | .done d => f d
  | y => y

/-- Where an APPEND writes: cell, request, layer, KV head, and the mapping's PREFIX_LEN. -/
structure AppendAt where
  c : CellId
  r : Req
  q : Nat
  l : Nat
  h : Nat
  pl : Nat

/-- A new head for a page, before its location. -/
def newHead (d : Dev) (x : AppendAt) (i : Nat) : PageHead :=
  let t := dTenant x.r.desc
  { tenant := t, fmt := kvFmt d t, pshift := clog2 (pageTokens d t x.pl i), frozen := decide (dOp x.r.desc = opPREFIX),
    pos := (seqDesc d x.q).posLo + pageStart d t x.pl i, layer := x.l, head := x.h, version := x.r.version }

/-- Copy the first VALID rows of a partial body into an open group (R213, step 2). -/
def widenInto (old x : PageHead) (dd : Nat) (d : Dev) : Dev :=
  (List.range old.valid).foldl (fun d' r => groupPut x dd r (widenRow old dd false r d) (widenRow old dd true r d) d') d

/-- Open a page under its private leaf `u` (R213). -/
def openUnder (x : AppendAt) (i u : Nat) (d : Dev) : AppendOut :=
  let t := dTenant x.r.desc
  let dd := headDim d t
  let p := pageTokens d t x.pl i
  let old := headAt d (16 * u + i % 16)
  match takeGroup (.cell x.c) t p dd d with
  | none => .short
  | some (spill, loc, d) =>
    if old.st = .flushed ∧ old.valid < p then
      match bodyTrip d x.l x.h i old 0 (2 * p * dd * fmtBits old.fmt / 8) with
      | some y => .trip y d
      | none =>
        let new := { old with st := .staged, spill := spill, loc := loc, sumValid := false, fillTick := 0 }
        .done (bump (setHead (16 * u + i % 16) new (decRef old.loc (widenInto old new dd d))) R.KVC_COW_CNT)
    else
      let new := { newHead d x i with st := .staged, spill := spill, loc := loc }
      .done (setHead (16 * u + i % 16) new (match old.st with
        | .flushed => decRef old.loc d
        | .staged => freeGroup old dd d
        | _ => d))

/-- Bring the page of a row to STAGED and OPEN (R213). -/
def openPage (x : AppendAt) (i : Nat) (d : Dev) : AppendOut :=
  match walkTrip d x.q x.l x.h i with
  | some y => .trip y d
  | none =>
    match privateLeaf (.cell x.c) x.q x.l x.h i d with
    | none => .short
    | some (u, d) =>
      let y := headAt d (16 * u + i % 16)
      if y.st = .staged ∧ pageFull y = false then .done d else openUnder x i u d

/-- One row at an absolute position: its page open, the row written, VALID advanced unless the row is provisional, and
the fill tick taken when the page becomes FULL. -/
def appendRow (x : AppendAt) (pos : Nat) (prov : Bool) (k v : List Nat) (d : Dev) : AppendOut :=
  let t := dTenant x.r.desc
  let dd := headDim d t
  let local' := pos - (seqDesc d x.q).posLo
  let i := pageIdx d t x.pl local'
  let row := local' - pageStart d t x.pl i
  (openPage x i d).andThen (fun d =>
    match leafOf d x.q x.l x.h i with
    | none => .done d
    | some u =>
      let y := headAt d (16 * u + i % 16)
      let n := if prov then y.valid else max y.valid (row + 1)
      let full := decide (n = 2 ^ y.pshift) && decide (y.valid < n)
      .done (setHead (16 * u + i % 16) { y with
          valid := n, fillTick := if full then d.tick.num else y.fillTick
          prov := if prov && !y.prov.contains row then y.prov ++ [row] else y.prov }
        (groupPut y dd row k v d)))

/-- A whole page in PAGE mode (R218). -/
def appendPage (x : AppendAt) (i : Nat) (ks vs : List (List Nat)) (d : Dev) : AppendOut :=
  let t := dTenant x.r.desc
  let dd := headDim d t
  match walkTrip d x.q x.l x.h i with
  | some y => .trip y d
  | none =>
    match privateLeaf (.cell x.c) x.q x.l x.h i d with
    | none => .short
    | some (u, d) =>
      let old := headAt d (16 * u + i % 16)
      let new := newHead d x i
      match allocFrame (.cell x.c) t (bodyOrder new.fmt (2 ^ new.pshift) dd) .body d with
      | none => .short
      | some (b, d) =>
        let f := flushPage new new.fmt dd b ks vs
        let d := bump (hbmWrite d (tenantKey d t) (unitAddr d b) f.1) R.KVC_FLUSH_CNT
        .done (setHead (16 * u + i % 16) f.2 (match old.st with
          | .flushed => decRef old.loc d
          | .staged => freeGroup old dd d
          | _ => d))

/-! ### The instruction -/

/-- Rows of an APPEND that lie in the request and on this die: index among the instruction's rows, sequence, absolute
position. -/
def appendRows (d : Dev) (r : Req) (roff n : Nat) : List (Nat × Nat × Nat) :=
  (List.range n).filterMap (fun i =>
    if roff + i < dRows r.desc then
      let x := rowPlace d r (roff + i)
      let s := seqDesc d x.1
      if s.posLo ≤ x.2 ∧ x.2 < s.posHi then some (i, x.1, x.2) else none
    else none)

/-- LENGTH of each sequence advances past the positions that an APPEND was given. -/
def advanceLength (rows : List (Nat × Nat × Nat)) (d : Dev) : Dev :=
  rows.foldl (fun d e => updSeq e.2.1 (fun s => { s with length := max s.length (e.2.2 + 1 - s.posLo) }) d) d

/-- Rows one after the other, up to one that cannot be appended; the rows that have been. -/
def appendAll (f : Nat × Nat × Nat → Dev → AppendOut) : List (Nat × Nat × Nat) → Dev → List (Nat × Nat × Nat) × AppendOut
  | [], d => ([], .done d)
  | e :: es, d =>
    match f e d with
    | .done d => let y := appendAll f es d; (e :: y.1, y.2)
    | y => ([], y)

/-- R215: the reserve is empty; `d` is the state before the instruction. -/
def reserveEmpty (c : CellId) (r : Req) (prov : Bool) (rows : List (Nat × Nat × Nat)) (d : Dev) : Dev :=
  let d := if prov then d else advanceLength rows d
  let g := guardTake (tokenReport r 0x2A (unitCell c) 0 0) (bump d R.KVC_RESERVE_FAIL_CNT)
  let d := (reqSeqs r.desc).foldl (fun d q =>
    dropRange q (dPos r.desc) (dPos r.desc + dRows r.desc) (some g.1) d) g.2
  updToken r.uid c (fun t => { t with suppressed := true }) (updReq r.uid (fun r => { r with killed := true }) d)

/-- An APPEND of rows of KV head `head`: `page` where it is a whole page in PAGE mode. -/
def appendAct (c : CellId) (t : Token) (r : Req) (head roff : Nat) (prov page : Bool) (ks vs : List (List Nat))
    (d : Dev) : Dev :=
  let d := tokenAppend c t r.uid (firstAppend r d)
  let r := (findReq d r.uid).getD r
  if r.checkFailed then d
  else
    let rows := appendRows d r roff ks.length
    let place (q : Nat) : AppendAt :=
      { c := c, r := r, q := q, l := dLayer r.desc, h := kvRank d r c + head, pl := mapPrefix d r q }
    let q := dSeq r.desc
    let first := dPos r.desc + roff - (seqDesc d q).posLo
    let i := pageIdx d (dTenant r.desc) (mapPrefix d r q) first
    let whole := page && !isPacked r && decide (rows.length = ks.length) &&
      decide (pageStart d (dTenant r.desc) (mapPrefix d r q) i = first) &&
      decide (pageTokens d (dTenant r.desc) (mapPrefix d r q) i = ks.length)
    let out :=
      if whole then ([], appendPage (place q) i ks vs d)
      else appendAll (fun e => appendRow (place e.2.1) e.2.2 prov (ks.getD e.1 []) (vs.getD e.1 [])) rows d
    match out.2 with
    | .done d => if prov then d else advanceLength rows d
    | .short => reserveEmpty c r prov rows d
    | .trip x d => applyTrip c t r x (if prov then d else advanceLength out.1 d)

/-- Tokens of a page that a request appends to: prefix pages for a PREFIX. -/
def appendPageTokens (d : Dev) (r : Req) : Nat :=
  if dOp r.desc = opPREFIX then prefixTokens d (dTenant r.desc) else tailTokens d (dTenant r.desc)

/-- The request's operation appends. -/
def opAppends (op : Nat) : Bool := decide (op ≠ opCOMMIT) && decide (op ≠ opBACKWARD)

/-- APPEND, STAGE mode: checks of the word (Table 08-7). -/
def appendStageWord (w : IWord) : Bool :=
  wordOk w 0x53 256 [fDst, fFmtOut, fRnd, fComp, fMask, (79, 69), (111, 96), (127, 112)] && decide (iFmtIn w = 1) &&
    decide (fld w 65 64 = 0)

/-- Checks of the word against the request's shape. -/
def appendStageOk (w : IWord) (r : Req) (d : Dev) : Bool :=
  let n := iCount w * headDim d (dTenant r.desc)
  appendStageWord w && opAppends (dOp r.desc) && decide (fld w 67 66 < headsPerCell d (dTenant r.desc)) &&
    decide (iCount w ≤ appendPageTokens d r) && regsFit (iSrcA w) n && regsFit (iSrcB w) n &&
    (bit w 68 == decide (dOp r.desc = opVERIFY))

/-- Rows of BF16 elements that lie in vector registers, one element per lane. -/
def regRows (x : CellSt) (b n dd : Nat) : List (List Nat) :=
  (List.range n).map (fun i => (tblGetList 0 x.regs (256 * b + i * dd) dd).map (fun v => v.toNat % 65536))

/-- APPEND in STAGE mode. -/
def appendStage (c : CellId) (w : IWord) (t : Token) (r : Req) (d : Dev) : Dev :=
  let dd := headDim d (dTenant r.desc)
  let x := cellOf d c
  appendAct c t r (fld w 67 66) (fld w 95 80) (bit w 68) false
    (regRows x (iSrcA w) (iCount w) dd) (regRows x (iSrcB w) (iCount w) dd) d

/-- Registers that an APPEND in STAGE mode reads. -/
def stageRegs (w : IWord) (r : Req) (d : Dev) : List Nat :=
  let n := iCount w * headDim d (dTenant r.desc)
  regRange (iSrcA w) n ++ regRange (iSrcB w) n

/-- Offsets of the chunks that an APPEND in PAGE mode reads. -/
def pageOffs (w : IWord) (r : Req) (d : Dev) : List Nat :=
  chunkOffs (64 * fld w 111 96) (4 * iCount w * headDim d (dTenant r.desc) / 16)

/-- APPEND, PAGE mode: checks of the word. -/
def appendPageWord (w : IWord) : Bool :=
  wordOk w 0x53 2048 [fDst, fSrcA, fSrcB, fFmtOut, fRnd, fComp, fMask, (68, 68), (79, 69), (127, 112)] &&
    decide (iFmtIn w = 1) && decide (fld w 65 64 = 1)

/-- Checks of the word against the request's shape. -/
def appendPageOk (w : IWord) (r : Req) (d : Dev) : Bool :=
  appendPageWord w && opAppends (dOp r.desc) && decide (dOp r.desc ≠ opVERIFY) && decide (fld w 67 66 < headsPerCell d (dTenant r.desc)) &&
    decide (iCount w = appendPageTokens d r)

/-- Rows of BF16 elements in a byte string. -/
def byteRows (bs : List Byte) (n dd : Nat) : List (List Nat) :=
  (List.range n).map (fun i => (List.range dd).map (fun j => elemAt 16 bs (i * dd + j)))

/-- APPEND in PAGE mode. -/
def appendPages (c : CellId) (w : IWord) (t : Token) (r : Req) (d : Dev) : Dev :=
  let dd := headDim d (dTenant r.desc)
  let n := iCount w
  let bs := cmReadWin d c r (pageOffs w r d)
  match bs.2 with
  | some x => applyTrip c t r x d
  | none =>
    appendAct c t r (fld w 67 66) (fld w 95 80) false true (byteRows bs.1 n dd) (byteRows (bs.1.drop (2 * n * dd)) n dd) d

end Sys2Proof.Machine
end

