-- ==== Sys2Proof/Machine/Mover.lean ====
section
/-!
DEFINITION. What the cell mover does (08, 09, 10): LDT and STT (Table 10-3), MOV (Table 10-4), PGWALK (Table 08-8), and the two
modes of SCOUT (Table 09-2).
-/

namespace Sys2Proof.Machine

open Sys2Proof

/-! ### LDT and STT (Table 10-3, R257 to R259) -/

def lAxis (w : IWord) : Bool := bit w 65
def lAddr (w : IWord) : Nat := 16 * fld w 97 80
def lPitch (w : IWord) : Nat := 16 * fld w 109 98
def lRowBytes (w : IWord) : Nat := 16 * fld w 127 120

/-- Destination of an LDT in its operand buffer. -/
def lBuf (w : IWord) : Nat := fld w 119 110 * (if bit w 64 then 32 else 64)

/-- A format that a column-mode transfer or a store names: BF16, E4M3, E5M2 or INT8. -/
def tileFmt (f : Nat) : Bool := decide (f = 1 ∨ f = 2 ∨ f = 3 ∨ f = 7)

/-- Shape checks that LDT and STT share (R259). -/
def tileShapeOk (w : IWord) (f : Nat) : Bool :=
  decide (1 ≤ lRowBytes w) && decide (1 ≤ lPitch w) &&
    (if lAxis w then decide (iCount w * fmtBits f / 8 ≤ lPitch w) && decide (iCount w % (128 / fmtBits f) = 0)
     else decide (lRowBytes w ≤ lPitch w))

/-- Bytes of a tile. -/
def tileBytes (w : IWord) : Nat := iCount w * lRowBytes w

/-- Elements of a format in a tile row. -/
def tileElems (w : IWord) (f : Nat) : Nat := lRowBytes w * 8 / fmtBits f

/-- Chunks of cell memory in transfer order, as window offset, tile position: row mode (tile row, byte in the row);
column mode (memory row, chunk column). -/
def tileOrder (w : IWord) (f : Nat) : List (Nat × Nat × Nat) :=
  if lAxis w then
    let rows := tileElems w f
    (List.range (ceilDiv rows 16)).flatMap (fun g =>
      (List.range (iCount w * fmtBits f / 128)).flatMap (fun q =>
        (List.range (min 16 (rows - 16 * g))).map (fun k =>
          let j := 16 * g + k
          (lAddr w + j * lPitch w + 16 * q, j, q))))
  else
    (List.range (iCount w)).flatMap (fun i =>
      (List.range (lRowBytes w / 16)).map (fun b => (lAddr w + i * lPitch w + 16 * b, i, 16 * b)))

/-- Where the bytes of a chunk stand in the tile, as runs: byte of the tile and bytes. -/
def chunkSpread (w : IWord) (f : Nat) (e : Nat × Nat × Nat) (bs : List Byte) : List (Nat × List Byte) :=
  if lAxis w then
    let n := fmtBits f / 8
    (List.range (16 / n)).map (fun i =>
      ((e.2.2 * (16 / n) + i) * lRowBytes w + e.2.1 * n, (bs.drop (i * n)).take n))
  else [(e.2.1 * lRowBytes w + e.2.2, bs)]

/-- Write bytes into an operand buffer; the chunks written stand for data again. -/
def bufPut (moving : Bool) (a : Nat) (bs : List Byte) (x : CellSt) : CellSt :=
  let keep (ks : List Nat) : List Nat := ks.filter (fun k => decide (k * 16 + 16 ≤ a) || decide (a + bs.length ≤ k * 16))
  if moving then { x with mov := tblSetList 0 x.mov a bs, movMasked := keep x.movMasked }
  else { x with sta := tblSetList 0 x.sta a bs, staMasked := keep x.staMasked }

/-- Chunks of an operand buffer stand for an ABSENT or DROPPED page. -/
def bufMask (moving : Bool) (ks : List Nat) (x : CellSt) : CellSt :=
  if moving then { x with movMasked := x.movMasked ++ ks } else { x with staMasked := x.staMasked ++ ks }

/-- Size of an operand buffer. -/
def bufSize (moving : Bool) : Nat := if moving then 0x8000 else 0x10000

/-- Checks of an LDT word. -/
def ldtOk (w : IWord) : Bool :=
  wordOk w 0x51 4096 [fDst, fSrcA, fSrcB, fMask, fRnd, fComp, (79, 66)] &&
    (if lAxis w then tileFmt (iFmtIn w) && decide (iFmtOut w = iFmtIn w) else zeroIn w [fFmtIn, fFmtOut]) &&
    tileShapeOk w (iFmtIn w) && decide (lBuf w + tileBytes w ≤ bufSize (bit w 64))

/-- Chunks of the operand buffer that an LDT fills wholly from masked chunks of cell memory (R221). -/
def ldtMasked (w : IWord) (masked : List Nat) (runs : List (Nat × Nat × Nat)) : List Nat :=
  let hit := (runs.filter (fun e => masked.contains (e.1 / 16))).flatMap (fun e =>
    (List.range e.2.2).map (fun i => (lBuf w + e.2.1 + i) / 16))
  ((List.range (ceilDiv (tileBytes w) 16)).map (fun k => lBuf w / 16 + k)).filter (fun k => decide (16 ≤ hit.count k))

/-- Offsets of the chunks of a tile in cell memory, in transfer order. -/
def tileOffs (w : IWord) : List Nat := (tileOrder w (iFmtIn w)).map (·.1)

/-- A tile's chunks, in transfer order, go to the buffer by position in the tile. -/
def ldtPut (w : IWord) (bs : List Byte) (x : CellSt) : CellSt :=
  let runs := ((tileOrder w (iFmtIn w)).mapIdx (fun i e =>
    (chunkSpread w (iFmtIn w) e ((bs.drop (16 * i)).take 16)).map (fun y => (e.1, y)))).flatten
  let y := runs.foldl (fun x e => bufPut (bit w 64) (lBuf w + e.2.1) e.2.2 x) x
  if x.cmMasked.isEmpty then y
  else bufMask (bit w 64) (ldtMasked w x.cmMasked (runs.map (fun e => (e.1, e.2.1, e.2.2.length)))) y

/-- LDT: a tile from cell memory to the buffer; the cycles that it waited are open. -/
def ldt (c : CellId) (w : IWord) (t : Token) (r : Req) (d : Dev) : Dev :=
  let d := bumpFree (R.CEL_MOVER_WAIT_CNT c.val) d
  let bs := cmReadWin d c r (tileOffs w)
  match bs.2 with
  | some x => applyTrip c t r x d
  | none => updCell c (ldtPut w bs.1) d

/-- Checks of an STT word. -/
def sttOk (w : IWord) : Bool :=
  wordOk w 0x52 4096 [fDst, fSrcB, fMask, fRnd, fComp, (64, 64), (79, 66), (119, 110)] && tileFmt (iFmtIn w) &&
    decide (iFmtOut w = iFmtIn w) && tileShapeOk w (iFmtIn w) &&
    regsFit (iSrcA w) (iCount w * tileElems w (iFmtIn w))

/-- Bytes of the tile that lie in a chunk of cell memory. -/
def chunkGather (w : IWord) (f : Nat) (tile : List Byte) (e : Nat × Nat × Nat) : List Byte :=
  if lAxis w then
    let n := fmtBits f / 8
    (List.range (16 / n)).flatMap (fun i =>
      (tile.drop ((e.2.2 * (16 / n) + i) * lRowBytes w + e.2.1 * n)).take n)
  else (tile.drop (e.2.1 * lRowBytes w + e.2.2)).take 16

/-- Elements of vector registers as the chunks of a tile. -/
def sttChunks (w : IWord) (x : CellSt) : List (Nat × List Byte) :=
  let f := iFmtIn w
  let vs := lanes x (iSrcA w) (iCount w * tileElems w f)
  let tile := packElems (fmtBits f) (vs.map (fun v => v.toNat % 2 ^ fmtBits f))
  (tileOrder w f).map (fun e => (e.1, chunkGather w f tile e))

/-- Registers that an STT reads. -/
def sttRegs (w : IWord) : List Nat := regRange (iSrcA w) (iCount w * tileElems w (iFmtIn w))

/-- STT: elements of vector registers to cell memory. -/
def stt (c : CellId) (w : IWord) (t : Token) (r : Req) (d : Dev) : Dev :=
  let d := bumpFree (R.CEL_MOVER_WAIT_CNT c.val) d
  let x := cmWriteWin c r (sttChunks w (cellOf d c)) d
  applyTrip? c t r x.2 x.1

/-! ### Pages as a cell reads them (R220, R221) -/

/-- Pages that a directory can name for a layer and head (Table 08-5). -/
def pageLimit : Nat := 32768

/-- State and head of a page of a request's sequence. -/
def cellPage (d : Dev) (r : Req) (h i : Nat) : PgState × PageHead :=
  let q := dSeq r.desc
  if i < pageLimit then (pageState d q (mapPrefix d r q) (dLayer r.desc) h i, pageHead d q (dLayer r.desc) h i)
  else (.absent, {})

/-- First absolute position and number of positions of a page. -/
def pageSpan (d : Dev) (r : Req) (i : Nat) : Nat × Nat :=
  let q := dSeq r.desc
  let t := dTenant r.desc
  let pl := mapPrefix d r q
  ((seqDesc d q).posLo + pageStart d t pl i, pageTokens d t pl i)

/-- What stops the read of a page's head: a damaged structure on the way, or a foreign tenant (R220, R224). -/
def headTrip (d : Dev) (r : Req) (h i : Nat) : Option Trip :=
  if pageLimit ≤ i then none
  else
    (walkTrip d (dSeq r.desc) (dLayer r.desc) h i).or
      (let x := pageHead d (dSeq r.desc) (dLayer r.desc) h i
       if x.st ≠ .absent ∧ x.tenant ≠ dTenant r.desc then
         let slot := decide (x.st = .staged) && !x.spill
         some (.cache slot (if slot then slotHive x.loc else unitAddr d x.loc) (.page (dLayer r.desc) h i))
       else none)

/-- The guard record of an error after a request's acceptance whose drop meets a page. -/
def dropNote (d : Dev) (r : Req) (i : Nat) : Option W32 :=
  let s := pageSpan d r i
  (d.cache.notes.find? (fun n => decide (n.seq = dSeq r.desc) && decide (r.uid < n.uid) &&
    rangesMeet s.1 (s.1 + s.2) n.lo n.hi)).map (·.ref)

/-- R221: a request that reads a page dropped after its acceptance completes with ECC_FAIL. -/
def noteDropped (uid : Nat) (ref : W32) (d : Dev) : Dev :=
  updReq uid (fun r => { r with eccFail := true, errRef := if r.errRef = 0 then ref else r.errRef }) d

/-- STATE code of a page (Table 08-1). -/
def stateCode : PgState → Nat
  | .absent => 0
  | .staged => 1
  | .flushed => 2
  | .dropped => 3

/-- A page list entry (Table 08-8). -/
def listEntry (d : Dev) (st : PgState) (x : PageHead) : List Byte :=
  let addr := match st with
    | .staged => if x.spill then unitAddr d x.loc else slotHive x.loc
    | .flushed => unitAddr d x.loc
    | _ => 0
  leBytes 8 addr ++ leBytes 8 (x.valid + stateCode st * 2 ^ 12 + (if x.spill then 2 ^ 14 else 0) +
    (if x.sumValid then 2 ^ 15 else 0) + x.fmt * 2 ^ 16)

/-- Page heads are read through the page translation cache: which of the reads hit is free, since nothing but the two
counters depends on it (08, R220). -/
def countHeads (n : Nat) (d : Dev) : Dev :=
  let g := freshNat d
  let k := g.1 % (n + 1)
  bumpBy (bumpBy g.2 R.KVC_PTC_HIT_CNT k) R.KVC_PTC_MISS_CNT (n - k)

/-- Write a page list of head h from a window offset; `none` stands for an empty place. `place` are the positions that the place
of a page is read at, 0 for its own. -/
def writeList (c : CellId) (t : Token) (r : Req) (o h : Nat) (place : Option Nat → Nat) (pages : List (Option Nat)) (d : Dev) :
    Dev :=
  match pages.findSome? (fun p => p.bind (headTrip d r h)) with
  | some x => applyTrip c t r x d
  | none =>
    let entry (p : Option Nat) : List Byte :=
      match p with
      | some i => let y := cellPage d r h i; listEntry d y.1 y.2
      | none => listEntry d .absent {}
    let y := cmWriteWin c r (pages.mapIdx (fun e p => (o + 16 * e, entry p))) (countHeads (pages.filter Option.isSome).length d)
    let marks := pages.mapIdx (fun e p => (o / 16 + e, ({ page := p, head := h, place := place p } : ListEntry)))
    applyTrip? c t r y.2 (updCell c (fun x => { x with
      lists := marks.foldl (fun l e => tblPut l e.1 e.2) x.lists }) y.1)

/-! ### PGWALK (Table 08-8, R220) -/

/-- Checks of a PGWALK word. -/
def pgwalkWord (w : IWord) : Bool := wordOk w 0x54 256 (fAll ++ [(79, 66), (127, 112)])

/-- Index of the page that holds the lowest position a request reads. -/
def lowestPage (d : Dev) (r : Req) : Nat :=
  let s := seqDesc d (dSeq r.desc)
  pageIdx d (dTenant r.desc) (mapPrefix d r (dSeq r.desc)) (max (lowestRead d r.desc) s.posLo - s.posLo)

/-- Page that a PGWALK's list starts with, and its KV head. -/
def walkFirst (w : IWord) (r : Req) (d : Dev) : Nat := lowestPage d r + fld w 95 80
def walkHead (c : CellId) (w : IWord) (r : Req) (d : Dev) : Nat := kvRank d r c + fld w 65 64

/-- Offsets of the chunks that a PGWALK writes. -/
def walkOffs (w : IWord) : List Nat := chunkOffs (64 * fld w 111 96) (iCount w)

/-- PGWALK. -/
def pgwalk (c : CellId) (w : IWord) (t : Token) (r : Req) (d : Dev) : Dev :=
  writeList c t r (64 * fld w 111 96) (walkHead c w r d) (fun _ => 0)
    ((List.range (iCount w)).map (fun e => some (walkFirst w r d + e))) d

/-! ### SCOUT (Table 09-2, R244 to R249) -/

def scHead (w : IWord) : Nat := fld w 66 65
def scBoff (w : IWord) : Nat := fld w 95 80
def scSta (w : IWord) : Nat := 64 * fld w 105 96

/-- Pages that a SCOUT tenant selects (KM1 + 1). -/
def patK (d : Dev) (t : Nat) : Nat := regFld d (R.TCX_PATTERN t) 26 21 + 1

/-- UNIT of a tenant's pattern. -/
def patUnit (d : Dev) (t : Nat) : Bool := bit (getReg d (R.TCX_PATTERN t)) 28

/-- A page meets the first three conditions of R245. -/
def scoutRange (d : Dev) (r : Req) (i : Nat) : Bool :=
  let t := dTenant r.desc
  let s := pageSpan d r i
  let n0 := nearStart d t (dPos r.desc) (dRows r.desc)
  decide (s.1 + s.2 ≤ n0) && decide (patSink d t ≤ s.1) &&
    (patUnit d t || decide (mapPrefix d r (dSeq r.desc) + (seqDesc d (dSeq r.desc)).posLo ≤ s.1))

/-- The page is FLUSHED with SUM_VALID set. -/
def hasSummary (x : PgState × PageHead) : Bool := decide (x.1 = .flushed) && x.2.sumValid

/-- The page is a candidate (R245). -/
def isCandidate (d : Dev) (r : Req) (h i : Nat) : Bool := scoutRange d r i && hasSummary (cellPage d r h i)

/-- The page is an extra page (R245). -/
def isExtra (d : Dev) (r : Req) (h i : Nat) : Bool :=
  let x := cellPage d r h i
  scoutRange d r i && (decide (x.1 = .staged) || decide (x.1 = .flushed)) && !hasSummary x

/-- A DROPPED page below the near span under DROP_SKIP 0 (R245). -/
def scoutDropped (d : Dev) (r : Req) (h i : Nat) : Bool :=
  let s := pageSpan d r i
  decide ((cellPage d r h i).1 = .dropped) && !patDropSkip d (dTenant r.desc) &&
    decide (s.1 + s.2 ≤ nearStart d (dTenant r.desc) (dPos r.desc) (dRows r.desc))

/-- Checks of a GATHER word. -/
def gatherWord (w : IWord) : Bool :=
  wordOk w 0x63 256 [fSrcA, fSrcB, fMask, fFmtIn, fRnd, fComp, (64, 64), (79, 67), (127, 106)] &&
    decide (iCount w % 16 = 0) && decide (scBoff w % 16 = 0) && decide (iFmtOut w = 1) && decide (1 ≤ iDst w) &&
    decide (iDst w ≤ 7)

/-- Checks against the tenant's shape. -/
def gatherOk (w : IWord) (r : Req) (d : Dev) : Bool :=
  gatherWord w && decide (scHead w < headsPerCell d (dTenant r.desc)) &&
    decide (scSta w + iCount w * (2 * headDim d (dTenant r.desc)) ≤ 0x10000)

/-- GATHER: the candidates' summaries and their mask. -/
def scoutGather (c : CellId) (w : IWord) (t : Token) (r : Req) (d : Dev) : Dev :=
  let h := kvRank d r c + scHead w
  let dd := headDim d (dTenant r.desc)
  let pages := (List.range (iCount w)).map (fun e => scBoff w + e)
  match pages.findSome? (headTrip d r h) with
  | some x => applyTrip c t r x d
  | none =>
    let bytes := pages.flatMap (fun i =>
      if isCandidate d r h i then padTo (2 * dd) (packElems 16 (cellPage d r h i).2.summary) else zeroBytes (2 * dd))
    let drops := pages.filter (scoutDropped d r h)
    let extra := (pages.filter (isExtra d r h)).map (fun i => (scHead w, i))
    let mask := bitsNat (pages.map (isCandidate d r h))
    let d := drops.foldl (fun d i => noteDropped r.uid ((dropNote d r i).getD 0) d) d
    updCell c (fun x => bufPut false (scSta w) bytes { x with
      masks := tblSet 0 x.masks (iDst w) mask
      extra := x.extra ++ extra.filter (fun e => !x.extra.contains e) }) (countHeads pages.length d)

/-- Checks of a LIST word. -/
def listWord (w : IWord) : Bool :=
  wordOk w 0x63 64 [fSrcB, fMask, fFmtIn, fFmtOut, fRnd, fComp, (79, 67), (105, 80), (127, 122)] &&
    decide (fld w 64 64 = 1)

/-- Checks against the tenant's shape and pattern. -/
def listOk (w : IWord) (r : Req) (d : Dev) : Bool :=
  listWord w && decide (scHead w < headsPerCell d (dTenant r.desc)) && decide (iCount w = patK d (dTenant r.desc))

/-- Insert a page index into an ascending list. -/
def insertPage (i : Nat) : List Nat → List Nat
  | [] => [i]
  | j :: js => if i ≤ j then i :: j :: js else j :: insertPage i js

/-- Positions of a selected or empty place (R247, R248). -/
def scoutPlace (d : Dev) (t : Nat) : Nat := if patUnit d t then prefixTokens d t else tailTokens d t

/-- LIST: selected and extra pages in ascending order, then the empty places, and their first positions. -/
def scoutList (c : CellId) (w : IWord) (t : Token) (r : Req) (d : Dev) : Dev :=
  let x := cellOf d c
  let sel := (lanes x (iSrcA w) (iCount w)).filterMap (fun v => if v = 0xFFFFFFFF then none else some v.toNat)
  let extra := (x.extra.filter (fun e => e.1 = scHead w)).map (·.2)
  let pages := (sel ++ extra).foldl (fun l i => insertPage i l) []
  let empty := iCount w - sel.length
  let list := pages.map some ++ List.replicate empty none
  let pos (e : Nat) (p : Option Nat) : W32 :=
    match p with
    | some i => BitVec.ofNat 32 (pageSpan d r i).1
    | none => Config.emptyPos e
  let d := bumpBy (bump d (R.CEL_SCOUT_CNT c.val)) (R.CEL_SCOUT_EXTRA_CNT c.val) extra.length
  let d := if empty = 0 then d else bump d (R.CEL_SCOUT_SHORT_CNT c.val)
  let d := updCell c (fun x => putLanes (iDst w) ((list.mapIdx pos).take (256 * (32 - iDst w)))
    { x with extra := x.extra.filter (fun e => e.1 ≠ scHead w) }) d
  writeList c t r (64 * fld w 121 106) (kvRank d r c + scHead w)
    (fun p => match p with
      | some i => if sel.contains i then scoutPlace d (dTenant r.desc) else 0
      | none => scoutPlace d (dTenant r.desc)) list d

/-- Offsets of the chunks that a LIST writes. -/
def listOffs (w : IWord) (x : CellSt) : List Nat := chunkOffs (64 * fld w 121 106) (iCount w + x.extra.length)

/-! ### MOV (Table 10-4, R260 to R263) -/

def mSkind (w : IWord) : Nat := fld w 66 64
def mDkind (w : IWord) : Nat := fld w 69 67
def mSrc (w : IWord) : Nat := fld w 95 72
def mDst (w : IWord) : Nat := fld w 119 96

/-- Bytes that a MOV other than of PAGES delivers. -/
def mBytes (w : IWord) : Nat := 64 * iCount w

/-- The bytes fit the destination; a NECTAR destination is the FIFO. -/
def movFits (w : IWord) (n : Nat) : Bool :=
  match mDkind w with
  | 3 => decide (mDst w + n / 4 ≤ 8192)
  | 4 => decide (32 * mDst w + n ≤ bufSize true)
  | 5 => decide (64 * mDst w + n ≤ bufSize false)
  | _ => true

/-- Checks of a MOV word; DKIND HIVE is for diagnostic programs only, which have no weights and no pages (R263). -/
def movOk (diag : Bool) (w : IWord) : Bool :=
  wordOk w 0x50 (if mSkind w = 3 then 256 else 4096) (fAll ++ [(127, 120)]) && decide (mSkind w ≤ (if diag then 1 else 3)) &&
    (diag || decide (mDkind w ≠ 1)) && decide (mDkind w ≤ 5) && (decide (mSkind w = 3) || zeroIn w [(71, 70)]) &&
    (decide (mDkind w ≠ 2) || decide (mDst w = 0)) && movFits w (if mSkind w = 3 then 0 else mBytes w)

/-- Plain bytes of the stream. -/
def plainBytes (bs : List Byte) : List StreamByte := bs.map (fun b => { byte := b })

/-- The layer block of a token (R261): hot, its address in hive memory or in HBM, and its bytes. -/
def layerBlock (d : Dev) (r : Req) : Bool × Nat × Nat :=
  let t := dTenant r.desc
  let w := getReg64 d (R.TCX_WEIGHT_BASE_LO t) (R.TCX_WEIGHT_BASE_HI t)
  let e := layerEntry d t w (dLayer r.desc)
  (e.2.2.1, (if e.2.2.1 then (hiveWindow d r).1 + e.2.2.2 else w + e.1), e.2.1)

/-- An access to the 64 B unit at an offset of the layer block. -/
def weightAccess (d : Dev) (r : Req) (o : Nat) : Option Trip :=
  let b := layerBlock d r
  let a := b.2.1 + o
  if b.2.2 < o + 64 then some (.window b.1 o a)
  else if b.1 then
    if bandState d (a / 0x1000000) ≠ 0 then some (.bankOff true false o a)
    else if d.mem.badHive.any (fun k => decide (a / 16 ≤ k) && decide (k < (a + 64 + 15) / 16)) then some (.sram true a)
    else none
  else if hbmRangeBad d a 64 then some (.weight a)
  else none

/-- Bytes of the layer block. -/
def readWeight (d : Dev) (r : Req) (o n : Nat) : List Byte × Option Trip :=
  let b := layerBlock d r
  let x := untilTrip (weightAccess d r) ((List.range (n / 64)).map (fun i => o + 64 * i))
  let k := 64 * x.1.length
  (if b.1 then hiveRead d (b.2.1 + o) k else hbmRead d (tenantKey d (dTenant r.desc)) (b.2.1 + o) k, x.2)

/-- The HBM address of a transfer lies outside the stacks. -/
def weightBeyond (d : Dev) (r : Req) (o n : Nat) : Bool :=
  let b := layerBlock d r
  !b.1 && decide (o + n ≤ b.2.2) && decide (hbmCapacity d < b.2.1 + o + n)

/-- What a page list entry delivers, up to a trip: its bytes, the page it stands for, and the trip. -/
structure PagePiece where
  bytes : List StreamByte
  page : Option Nat
  dropped : Bool
  trip : Option Trip

/-- The head whose page a list entry names by its address: of a page in brood slots, in staging frames, or in a body. -/
def headByAddr (d : Dev) (st a : Nat) (slot : Bool) : Option PageHead :=
  (d.cache.heads.find? (fun e =>
    if st = 1 then decide (e.2.st = .staged) && (e.2.spill != slot) &&
      decide ((if slot then slotHive e.2.loc else unitAddr d e.2.loc) = a)
    else decide (e.2.st = .flushed) && decide (unitAddr d e.2.loc = a))).map (·.2)

/-- A page list entry as the mover reads it: STATE, address, whether it names brood slots, format, the head it names, the
positions of its page and of its place, and its page index. -/
structure EntryView where
  st : Nat
  addr : Nat
  slot : Bool
  fmt : Nat
  head : PageHead
  own : Nat
  place : Nat
  page : Option Nat
  kvh : Nat

/-- Read a page list entry. An ABSENT or DROPPED one names no page: it stands for the page or the empty place that PGWALK or
SCOUT wrote there. -/
def entryView (d : Dev) (c : CellId) (r : Req) (o : Nat) (bs : List Byte) : EntryView :=
  let t := dTenant r.desc
  let w := leAt bs 8 8
  let st := w / 2 ^ 12 % 4
  let a := leAt bs 0 8
  let slot := decide (st = 1) && decide (w / 2 ^ 14 % 2 = 0)
  let known := tblFind (cellOf d c).lists (o / 16)
  let live := decide (st = 1 ∨ st = 2)
  let named := if live then headByAddr d st a slot else none
  let own := match named with
    | some x => 2 ^ x.pshift
    | none => match known.bind (·.page) with
      | some i => if live then tailTokens d t else (pageSpan d r i).2
      | none => if rowKind d r = 2 then scoutPlace d t else tailTokens d t
  { st := st, addr := a, slot := slot, fmt := if st = 1 then 1 else if st = 2 then w / 2 ^ 16 % 256 else kvFmt d t
    head := named.getD {}, own := own, place := max own ((known.map (·.place)).getD 0)
    page := match named with
      | some x => some (pageIdx d t (mapPrefix d r (dSeq r.desc)) (x.pos - (seqDesc d (dSeq r.desc)).posLo))
      | none => known.bind (·.page)
    kvh := match named with
      | some x => x.head
      | none => (known.map (·.head)).getD 0 }

/-- Deliver one page list entry (R262, R204, R221): its page, then masked positions up to the place's size (R248). A frame of
another tenant delivers zeros, and stops the token. -/
def pagePiece (d : Dev) (c : CellId) (r : Req) (w : IWord) (o : Nat) : PagePiece :=
  let t := dTenant r.desc
  let dd := headDim d t
  let e := cmReadWin d c r [o]
  let x := entryView d c r o e.1
  let area := x.own * dd * fmtBits x.fmt / 8
  let off := if bit w 71 then area else 0
  let scales : List Byte :=
    if !bit w 70 then []
    else if fmtIsMx x.fmt then
      padTo (scaleArea x.fmt x.place dd) (if x.st = 2 then (if bit w 71 then x.head.vScales else x.head.kScales) else [])
    else if fmtIsInt x.fmt then
      padTo 32 (if x.st = 2 then leBytes 4 (if bit w 71 then x.head.vSigma else x.head.kSigma).toNat else [])
    else []
  let lead : List StreamByte := scales.map (fun b => { byte := b, scale := true })
  let masked (n : Nat) : List StreamByte := (zeroBytes (n * dd * fmtBits x.fmt / 8)).map (fun b => { byte := b, masked := true })
  let piece (bs : List StreamByte) (trip : Option Trip) : PagePiece :=
    { bytes := lead ++ bs ++ masked (x.place - x.own), page := x.page, dropped := false, trip := trip }
  let stop (y : Trip) : PagePiece := { bytes := [], page := x.page, dropped := false, trip := some y }
  let foreign (y : Trip) : PagePiece :=
    { stop y with bytes := lead.map (fun b => { b with byte := 0 }) ++ plainBytes (zeroBytes area) }
  let spot : CacheSpot := match x.page with
    | some i => .page (dLayer r.desc) x.kvh i
    | none => .directory
  let scaleTrip : Option Trip :=
    if scales.isEmpty || decide (x.st ≠ 2) then none
    else x.page.bind (fun i => walkTrip d (dSeq r.desc) (dLayer r.desc) x.kvh i)
  match e.2 with
  | some y => { bytes := [], page := none, dropped := false, trip := some y }
  | none =>
    if x.st = 0 ∨ x.st = 3 then { bytes := lead ++ masked x.place, page := x.page, dropped := true, trip := none }
    else if x.slot then
      if x.addr < slotHive 0 ∨ 0x10000000 < x.addr + off + area then foreign (.window true o x.addr)
      else if d.mem.badHive.any (fun k =>
          decide ((x.addr + off) / 16 ≤ k) && decide (k * 16 < x.addr + off + area)) then
        stop (.cache true (x.addr + off) spot)
      else piece (plainBytes (hiveRead d (x.addr + off) area)) none
    else
      match (frameAtAddr d x.addr).bind (frameOf d) with
      | none => foreign (.window false o x.addr)
      | some f =>
        if f.tenant ≠ t then foreign (.window false o x.addr)
        else if hbmRangeBad d (x.addr + off) area then stop (.cache false (x.addr + off) spot)
        else piece (plainBytes (hbmRead d (tenantKey d t) (x.addr + off) area)) scaleTrip

/-- Deliver list entries in order, up to and with the first that trips; pages dropped after acceptance mark the request. -/
def deliverPages (c : CellId) (r : Req) (w : IWord) : List Nat → Dev → List StreamByte × Option Trip × Dev
  | [], d => ([], none, d)
  | o :: os, d =>
    let x := pagePiece d c r w o
    match x.trip with
    | some t => (x.bytes, some t, d)
    | none =>
      let d := match (if x.dropped then x.page.bind (dropNote d r) else none) with
        | some ref => noteDropped r.uid ref d
        | none => d
      let y := deliverPages c r w os d
      (x.bytes ++ y.1, y.2.1, y.2.2)

/-- What a MOV reads. -/
def movRead (c : CellId) (r : Req) (w : IWord) (d : Dev) : List StreamByte × Option Trip × Dev :=
  match mSkind w with
  | 0 => let x := cmReadWin d c r (chunkOffs (16 * mSrc w) (4 * iCount w)); (plainBytes x.1, x.2, d)
  | 1 => let x := hvReadWin d r (chunkOffs (16 * mSrc w) (4 * iCount w)); (plainBytes x.1, x.2, d)
  | 2 => let x := readWeight d r (64 * mSrc w) (mBytes w); (plainBytes x.1, x.2, d)
  | _ => deliverPages c r w (chunkOffs (16 * mSrc w) (iCount w)) d

/-- Write the entries of the inactive table bank (R165). -/
def putTable (e : Nat) (bs : List Byte) (x : CellSt) : CellSt :=
  let vs : List W32 := (runsOf 4 bs.length bs).map (fun b => BitVec.ofNat 32 (leNat b))
  if x.lutBank then { x with lut0 := tblPutList x.lut0 e vs } else { x with lut1 := tblPutList x.lut1 e vs }

/-- Chunks from an address on that stand for an ABSENT or DROPPED page. -/
def maskedChunks (a : Nat) (bs : List StreamByte) : List Nat :=
  (List.range (ceilDiv bs.length 16)).filterMap (fun i =>
    if ((bs.drop (16 * i)).take 16).any (·.masked) then some (a / 16 + i) else none)

/-- A MOV writes into the cell's own units: the nectar FIFO, the inactive table bank or an operand buffer. -/
def movUnit (c : CellId) (w : IWord) (bs : List StreamByte) (d : Dev) : Dev :=
  let raw := bs.map (·.byte)
  match mDkind w with
  | 2 => updCell c (fun x => { x with nect := { x.nect with fifo := x.nect.fifo ++ bs } }) d
  | 3 => bumpFree (R.CEL_LUT_WAIT_CNT c.val) (updCell c (putTable (mDst w) raw) d)
  | 4 => updCell c (fun x => bufMask true (maskedChunks (32 * mDst w) bs) (bufPut true (32 * mDst w) raw x)) d
  | _ => updCell c (fun x => bufMask false (maskedChunks (64 * mDst w) bs) (bufPut false (64 * mDst w) raw x)) d

/-- Where a MOV writes; what stops it. -/
def movWrite (c : CellId) (r : Req) (w : IWord) (bs : List StreamByte) (d : Dev) : Dev × Option Trip :=
  if mDkind w = 0 then
    let y := cmWriteWin c r (chunksAt (16 * mDst w) (bs.map (·.byte))) d
    (updCell c (fun x => { x with cmMasked := x.cmMasked ++ maskedChunks (16 * mDst w) bs }) y.1, y.2)
  else (movUnit c w bs d, none)

/-- A MOV would reach a WIPING unit: where it reads cell or hive memory, a page list or a hot block, or writes cell memory. -/
def movWaits (c : CellId) (w : IWord) (r : Req) (d : Dev) : Bool :=
  let from_ := chunkOffs (16 * mSrc w) (if mSkind w = 3 then iCount w else 4 * iCount w)
  let to_ := if mDkind w = 0 then chunkOffs (16 * mDst w) (ceilDiv (movRead c r w d).1.length 16) else []
  d.mem.tags.any (fun e => e.2.isWiping) &&
    (waitsWipe d c r ((if mSkind w = 0 ∨ mSkind w = 3 then from_ else []) ++ to_) (if mSkind w = 1 then from_ else []) ||
     (decide (mSkind w = 2) && (layerBlock d r).1 && (List.range (mBytes w / 64)).any (fun i =>
        (hiveTag d (((layerBlock d r).2.1 + 64 * mSrc w + 64 * i) / 4096)).isWiping)))

/-- A MOV of a diagnostic program (R263, R272). -/
def diagMov (c : CellId) (w : IWord) (d : Dev) : Dev :=
  let bs := diagRead d c (decide (mSkind w = 1)) (chunkOffs (16 * mSrc w) (4 * iCount w))
  if mDkind w ≤ 1 then diagWrite c (decide (mDkind w = 1)) (chunksAt (16 * mDst w) bs) d
  else movUnit c w (plainBytes bs) d

/-- MOV: what is read before an access trips is written (R262, R396). -/
def mov (c : CellId) (w : IWord) (t : Token) (r : Req) (d : Dev) : Dev :=
  let x := movRead c r w (bumpFree (R.CEL_MOVER_WAIT_CNT c.val) d)
  let y := if movFits w x.1.length then movWrite c r w x.1 x.2.2 else (x.2.2, none)
  applyTrip? c t r (y.2.or x.2.1) y.1

/-- A MOV of weights names an HBM address that does not exist. -/
def movBeyond (c : CellId) (w : IWord) (d : Dev) : Bool :=
  match (cellToken d c).bind (fun t => findReq d t.uid) with
  | some r => alive d && cellClocked d c && fetchOk (cellOf d c) w && movOk false w && decide (mSkind w = 2) &&
      weightBeyond d r (64 * mSrc w) (mBytes w)
  | none => false

/-! ### What a transfer touches (R165, R260, R270) -/

/-- A location of a cell or of its tenant's memory: a vector or mask register, the tables, the nectar stream, the pages that
GATHER found, a chunk of an operand buffer or of the cell-memory window, a page of a sequence by KV head, any page, and the order
of APPENDs. -/
inductive Loc where
  | reg (k : Nat)
  | mask (k : Nat)
  | table
  | stream
  | extra
  | buf (moving : Bool) (chunk : Nat)
  | cm (chunk : Nat)
  | page (q h i : Nat)
  | anyPage
  | appends
  deriving DecidableEq, Repr

/-- Locations that an instruction reads and writes. -/
structure Touch where
  reads : List Loc := []
  writes : List Loc := []

/-- Two lists of locations share one. -/
def meet (a b : List Loc) : Bool := a.any (fun l => b.contains l)

/-- One of two instructions writes what the other reads or writes. -/
def Touch.clash (a b : Touch) : Bool := meet a.writes b.writes || meet a.writes b.reads || meet a.reads b.writes

/-- Chunks of the cell-memory window, and of an operand buffer, as locations. -/
def cmLocs (offs : List Nat) : List Loc := offs.map (fun o => .cm (o / 16))
def bufLocs (moving : Bool) (a n : Nat) : List Loc := (List.range (ceilDiv (a % 16 + n) 16)).map (fun i => .buf moving (a / 16 + i))

/-- Pages that an APPEND writes; an APPEND follows every earlier one. -/
def appendLocs (c : CellId) (w : IWord) (r : Req) (d : Dev) : List Loc :=
  .appends :: .anyPage :: (appendRows d r (fld w 95 80) (iCount w)).map (fun e =>
    .page e.2.1 (kvRank d r c + fld w 67 66)
      (pageIdx d (dTenant r.desc) (mapPrefix d r e.2.1) (e.2.2 - (seqDesc d e.2.1).posLo)))

/-- What a MOV touches of the cell; a page list names the pages that it reads. -/
def movTouch (c : CellId) (w : IWord) (r : Req) (d : Dev) : Touch :=
  let from_ := chunkOffs (16 * mSrc w) (if mSkind w = 3 then iCount w else 4 * iCount w)
  let n := (movRead c r w d).1.length
  { reads := (if mSkind w = 0 ∨ mSkind w = 3 then cmLocs from_ else []) ++
      (if mSkind w = 3 then from_.filterMap (fun o =>
        let e := entryView d c r o (cmReadWin d c r [o]).1
        e.page.map (fun i => .page (dSeq r.desc) e.kvh i)) else [])
    writes := match mDkind w with
      | 0 => cmLocs (chunkOffs (16 * mDst w) (ceilDiv n 16))
      | 2 => [.stream]
      | 3 => [.table]
      | 4 => bufLocs true (32 * mDst w) n
      | _ => bufLocs false (64 * mDst w) n }

/-- What a transfer touches. -/
def moverTouch (c : CellId) (w : IWord) (r : Req) (d : Dev) : Touch :=
  match iOpc w with
  | 0x50 => movTouch c w r d
  | 0x51 => { reads := cmLocs (tileOffs w), writes := bufLocs (bit w 64) (lBuf w) (tileBytes w) }
  | 0x52 => { reads := (sttRegs w).map .reg, writes := cmLocs (tileOffs w) }
  | 0x53 => { reads := if fld w 65 64 = 0 then (stageRegs w r d).map .reg else cmLocs (pageOffs w r d)
              writes := appendLocs c w r d }
  | 0x54 => { reads := (List.range (iCount w)).map (fun e => .page (dSeq r.desc) (walkHead c w r d) (walkFirst w r d + e))
              writes := cmLocs (walkOffs w) }
  | _ =>
    if bit w 64 then
      { reads := .extra :: .anyPage :: (regRange (iSrcA w) (iCount w)).map .reg
        writes := .extra :: cmLocs (listOffs w (cellOf d c)) ++
          (regRange (iDst w) (iCount w + (cellOf d c).extra.length)).map .reg }
    else
      { reads := (List.range (iCount w)).map (fun e => .page (dSeq r.desc) (kvRank d r c + scHead w) (scBoff w + e))
        writes := .extra :: .mask (iDst w) :: bufLocs false (scSta w) (iCount w * (2 * headDim d (dTenant r.desc))) }

/-- A transfer would reach a WIPING unit (R270). -/
def moverWipes (c : CellId) (w : IWord) (r : Req) (d : Dev) : Bool :=
  match iOpc w with
  | 0x50 => movWaits c w r d
  | 0x51 => waitsWipe d c r (tileOffs w) []
  | 0x52 => waitsWipe d c r (tileOffs w) []
  | 0x53 => if fld w 65 64 = 0 then false else waitsWipe d c r (pageOffs w r d) []
  | 0x54 => waitsWipe d c r (walkOffs w) []
  | _ => bit w 64 && waitsWipe d c r (listOffs w (cellOf d c)) []

/-- What a transfer does. -/
def moverAct (c : CellId) (t : Token) (r : Req) (w : IWord) (d : Dev) : Dev :=
  match iOpc w with
  | 0x50 => mov c w t r d
  | 0x51 => ldt c w t r d
  | 0x52 => stt c w t r d
  | 0x53 => if fld w 65 64 = 0 then appendStage c w t r d else appendPages c w t r d
  | 0x54 => pgwalk c w t r d
  | _ => if bit w 64 then scoutList c w t r d else scoutGather c w t r d

end Sys2Proof.Machine
end

