-- ==== Sys2Proof/Machine/Queue.lean ====
section
/-!
DEFINITION. The vector engine queue (R146 to R149, 06, 07): instructions issue into a queue of 8 entries, and its head
begins once the tile-queue words that it takes have arrived. The cell mover's queue (R165, R260): a transfer that an earlier
instruction holds back waits there, and the cell's issue goes on.
-/

namespace Sys2Proof.Machine

open Sys2Proof

/-! ### Entries -/

/-- Tile-queue input that an entry takes words from, or 0. -/
def entryTq (w : IWord) : Nat :=
  match iOpc w with
  | 0x23 => topTq w
  | 0x61 => fEshift w
  | _ => vTq w

/-- What the state of the cell must allow before an instruction may begin, beside its words: the segments of an RMSSTAT
(R159), a TOPK that merges (R133), and the α queues (R181). -/
def entryFits (w : IWord) (x : CellSt) : Bool :=
  match iOpc w with
  | 0x23 => topkFits w x
  | 0x37 => rmsRowsOk w x
  | 0x60 => alphaRoom w x
  | 0x62 => alphaThere w x
  | _ => true

/-- The head of the queue can begin. -/
def entryReady (x : CellSt) (w : IWord) : Bool := tqReady x (entryTq w) (iCount w) && entryFits w x

/-- What an entry does, but for the words that it takes and the cycles. -/
def entryAct (c : CellId) (t : Token) (r : Req) (e : VqEntry) (d : Dev) : Dev :=
  let w := e.word
  match iOpc w with
  | 0x23 => bump (updCell c (topk w) d) (R.CEL_TOPK_CNT c.val)
  | 0x30 =>
    if vFn w = 0x22 then lookup c w d
    else if vFn w = 0x3F then updCell c epochSwap d
    else vop c w d
  | 0x31 => vprog c w e.inline d
  | 0x32 => vbcast c w d
  | 0x33 => updCell c (vmask w) d
  | 0x34 => vcvt c w r d
  | 0x35 => vred c w d
  | 0x36 => updCell c (rowstat w) d
  | 0x37 => updCell c (rmsstat w) d
  | 0x40 => updCell c (sfu (ax4Mode d (dTenant r.desc)) w) d
  | 0x60 => fatt c w r d
  | 0x61 => score c w t r d
  | 0x62 => corr c w d
  | _ => d

/-- Occupancy of an entry (Table 06-1, R182, R185). DESIGN CHOICE (log 96): the G + 4 cycles of an RMSSTAT with FINAL, whose unit
is first the vector unit and then the SFU, all count as cycles of the vector unit. -/
def entryCycles (c : CellId) (w : IWord) (d : Dev) : Dev :=
  let g := groups256 (iCount w)
  let h := groups64 (iCount w)
  match iOpc w with
  | 0x23 => d
  | 0x30 => veCycles c (if vFn w = 0x22 then h else if vFn w = 0x3F then 1 else g) d
  | 0x31 => veCycles c ((fld w 67 64 + 1) * g) d
  | 0x36 => veCycles c (2 * g) d
  | 0x37 => veCycles c (if bit w 65 then g + 4 else g) d
  | 0x40 => sfuCycles c h d
  | 0x60 => sfuCycles c (4 * g + h + 23) (veCycles c (4 * g + h + 23) d)
  | 0x62 => veCycles c (2 * g + 5) d
  | _ => veCycles c g d

/-- The words that an entry takes leave their input; the head can have waited for them. -/
def entryTake (c : CellId) (w : IWord) (d : Dev) : Dev :=
  if entryTq w = 0 then d
  else bumpFree (R.CEL_VE_TQWAIT_CNT c.val) (updCell c (tqDrop (entryTq w) (iCount w)) d)

/-- One entry runs, unless it stops its token. -/
def entryRun (c : CellId) (t : Token) (r : Req) (e : VqEntry) (d : Dev) : Dev :=
  let d := entryCycles c e.word (entryAct c t r e d)
  if (cellToken d c).isSome then entryTake c e.word d else d

/-- Registers that an entry writes. -/
def entryWrites (w : IWord) : List Nat :=
  let n := iCount w
  match iOpc w with
  | 0x23 => regRange (iDst w) 512
  | 0x30 => if vFn w = 0x3F then [] else regRange (iDst w) n
  | 0x33 => []
  | 0x34 => regRange (iDst w) (if fmtIsMx (iFmtOut w) then 256 * groups256 n + n / 32 else n)
  | 0x35 => regRange (iDst w) (vRows w)
  | 0x36 => regRange (iDst w) (8 * vRows w)
  | 0x37 => if bit w 65 then regRange (iDst w) (2 * vRows w) else []
  | 0x61 => []
  | 0x62 => []
  | _ => regRange (iDst w) n

/-- Registers that an entry's source fields name. -/
def entryReads (w : IWord) : List Nat :=
  let n := iCount w
  (if entryTq w = 0 then regRange (iSrcA w) n else []) ++
    (match iOpc w with
     | 0x30 => (if vImmB w then [] else regRange (iSrcB w) n) ++ regRange (vSrcC w) n
     | 0x31 => (if vImmB w then [] else regRange (iSrcB w) n) ++ regRange (vSrcC w) n
     | 0x32 => regRange (iSrcB w) n ++ regRange (vSrcC w) n
     | 0x33 => if vImmB w then [] else regRange (iSrcB w) n
     | 0x36 => regRange (iSrcB w) (8 * vRows w)
     | 0x60 => regRange (iSrcB w) (vRows w)
     | _ => [])

/-- What an entry touches of what a transfer can touch (R165, R260). -/
def entryTouch (w : IWord) : Touch :=
  let isVop := decide (iOpc w = 0x30)
  let isMask := decide (iOpc w = 0x33)
  { reads := (entryReads w).map .reg ++ [.mask (iMask w)] ++ (if isMask then [.mask (iSrcA w), .mask (iSrcB w)] else []) ++
      (if isVop && decide (vFn w = 0x22) then [.table] else [])
    writes := (entryWrites w).map .reg ++ (if isMask then [.mask (iDst w)] else []) ++
      (if isVop && decide (vFn w = 0x3F) then [.table] else []) ++
      (if iOpc w = 0x61 then cmLocs (scoreOffs w) else []) }

/-! ### The mover's queue (R260) -/

/-- An earlier instruction has not finished its access to a location that a transfer touches: one of these entries of the vector
engine queue, or one of these transfers. -/
def moverHeld (c : CellId) (r : Req) (w : IWord) (vs : List VqEntry) (ms : List MqEntry) (d : Dev) : Bool :=
  vs.any (fun e => (moverTouch c w r d).clash (entryTouch e.word)) ||
    ms.any (fun e => (moverTouch c w r d).clash (moverTouch c e.word r d))

/-- The transfer at a place of the mover's queue may start. -/
def moverReady (c : CellId) (r : Req) (d : Dev) (j : Nat) (e : MqEntry) : Bool :=
  let x := cellOf d c
  !moverWipes c e.word r d && !moverHeld c r e.word (x.vq.take e.ahead) (x.mq.take j) d

/-- The oldest transfer that may start, with its place. -/
def moverNext (c : CellId) (r : Req) (d : Dev) : Option (Nat × MqEntry) :=
  ((cellOf d c).mq.mapIdx (fun j e => (j, e))).find? (fun p => moverReady c r d p.1 p.2)

/-- Start transfers, as long as one may. -/
def moverSteps (c : CellId) : Nat → Dev → Dev
  | 0, d => d
  | n + 1, d =>
    match (cellToken d c).bind (fun t => (findReq d t.uid).map (fun r => (t, r))) with
    | none => d
    | some (t, r) =>
      match moverNext c r d with
      | none => d
      | some (j, e) => moverSteps c n (moverAct c t r e.word (updCell c (fun x => { x with mq := x.mq.eraseIdx j }) d))

/-- The mover goes on with its queue of 16. -/
def moverRun (c : CellId) (d : Dev) : Dev := if (cellOf d c).mq.isEmpty then d else moverSteps c 16 d

/-! ### The queue of the vector engine -/

/-- The head has left the queue. -/
def vqPop (x : CellSt) : CellSt := { x with vq := x.vq.tail, mq := x.mq.map (fun m => { m with ahead := m.ahead - 1 }) }

/-- Run the queue in order, as long as its head can begin: its words are there, and every earlier transfer is done. -/
def vqSteps (c : CellId) (t : Token) (r : Req) : Nat → Dev → Dev
  | 0, d => moverRun c d
  | n + 1, d =>
    let d := moverRun c d
    match (cellOf d c).vq with
    | [] => d
    | e :: _ =>
      if entryReady (cellOf d c) e.word && (cellOf d c).mq.all (fun m => decide (m.ahead ≠ 0)) then
        vqSteps c t r n (entryRun c t r e (updCell c vqPop d))
      else d

/-- The vector engine goes on with its queue of 8, and the mover with its own. -/
def vqRun (c : CellId) (t : Token) (r : Req) (d : Dev) : Dev := vqSteps c t r 8 d

/-- A cell runs an instruction whose results the vector engine may wait for; the engine then goes on with its queue. -/
def onCellVe (c : CellId) (w : IWord) (ok : Req → Dev → Bool) (act : Token → Req → Dev → Dev) : Dev → Dev :=
  onWord c w ok (fun t r d => vqRun c t r (instrDone c (act t r d)))

/-- An instruction that cannot issue holds every later one (R100); the queues go on. -/
def holdCell (c : CellId) (w : IWord) (t : Token) (r : Req) (d : Dev) : Dev := vqRun c t r (holdIssue c w d)

/-- The vector engine has written these registers: no instruction of the queue is still to write one (R146). -/
def veDone (x : CellSt) (regs : List Nat) : Bool := x.vq.all (fun e => (entryWrites e.word).all (fun k => !regs.contains k))

/-- An array or nectar instruction finds its registers written, and every earlier transfer into a location that it reads done
(R146, R260). -/
def sourcesReady (c : CellId) (r : Req) (regs : List Nat) (bufs : List Loc) (d : Dev) : Bool :=
  veDone (cellOf d c) regs &&
    (cellOf d c).mq.all (fun e => !meet (moverTouch c e.word r d).writes (regs.map .reg ++ bufs))

/-- An array or nectar instruction runs once its sources are ready, and until then holds the cell's issue (R100). -/
def onReady (c : CellId) (w : IWord) (ok : Req → Dev → Bool) (regs : List Nat) (bufs : List Loc)
    (act : Token → Req → Dev → Dev) : Dev → Dev :=
  onWord c w ok (fun t r d =>
    if sourcesReady c r regs bufs d then instrDone c (act t r d) else holdCell c w t r d)

/-- The inline words of a program follow its word. -/
def inlineOk (x : CellSt) (words : List (BitVec 128)) : Bool :=
  decide ((x.prog.drop (x.pc + 1)).take words.length = words)

/-- An instruction issues into the queue, or holds the cell's issue while the queue is full; the engine then goes on. An
instruction that may never begin does not issue into an empty queue: the version-load check refuses it. -/
def issueVec (c : CellId) (w : IWord) (words : List (BitVec 128)) (ok : Req → Dev → Bool) (d : Dev) : Dev :=
  onWord c w (fun r d => ok r d && inlineOk (cellOf d c) words && (entryFits w (cellOf d c) || !(cellOf d c).vq.isEmpty))
    (fun t r d =>
      let d := bumpFree (R.CEL_VE_QFULL_CNT c.val) d
      if 8 ≤ (cellOf d c).vq.length then holdCell c w t r d
      else vqRun c t r (wordsDone (1 + words.length) c
        (updCell c (fun x => { x with vq := x.vq ++ [{ word := w, inline := words }] }) d))) d

/-- A transfer starts at once where no earlier instruction holds it back; else it waits in the mover's queue, and holds the
cell's issue while that is full (R260). A transfer into a unit that is WIPING waits at the cell's issue (log 119). -/
def issueMover (c : CellId) (w : IWord) (ok : Req → Dev → Bool) (act : Token → Req → Dev → Dev) : Dev → Dev :=
  onWord c w (fun r d => ok r d && !moverWipes c w r d) (fun t r d =>
    let x := cellOf d c
    if !moverHeld c r w x.vq x.mq d then instrDone c (act t r d)
    else if 16 ≤ x.mq.length then holdCell c w t r d
    else instrDone c (updCell c (fun x => { x with mq := x.mq ++ [{ word := w, ahead := x.vq.length }] }) d))

/-! ### The instructions of the queue -/

/-- VOP. -/
def execVop (cell : CellId) (word : BitVec 128) (s : State) : Host.Outcome State Fault Refusal :=
  onDev (issueVec cell word [] (fun _ _ => vopOk word)) s

/-- VOP LOOKUP. -/
def execLookup (cell : CellId) (word : BitVec 128) (s : State) : Host.Outcome State Fault Refusal :=
  onDev (issueVec cell word [] (fun _ _ => lookupOk word)) s

/-- VOP EPOCH. -/
def execEpoch (cell : CellId) (word : BitVec 128) (s : State) : Host.Outcome State Fault Refusal :=
  onDev (issueVec cell word [] (fun _ _ => epochOk word)) s

/-- VPROG. -/
def execVprog (cell : CellId) (word : BitVec 128) (words : List (BitVec 128)) (s : State) :
    Host.Outcome State Fault Refusal := onDev (issueVec cell word words (fun _ _ => vprogOk word words)) s

/-- VBCAST. -/
def execVbcast (cell : CellId) (word : BitVec 128) (s : State) : Host.Outcome State Fault Refusal :=
  onDev (issueVec cell word [] (fun _ _ => vbcastOk word)) s

/-- VMASK. -/
def execVmask (cell : CellId) (word : BitVec 128) (s : State) : Host.Outcome State Fault Refusal :=
  onDev (issueVec cell word [] (fun _ _ => vmaskOk word)) s

/-- VCVT. -/
def execVcvt (cell : CellId) (word : BitVec 128) (s : State) : Host.Outcome State Fault Refusal :=
  onDev (issueVec cell word [] (fun _ _ => vcvtOk word)) s

/-- VRED. -/
def execVred (cell : CellId) (word : BitVec 128) (s : State) : Host.Outcome State Fault Refusal :=
  onDev (issueVec cell word [] (fun _ _ => vredOk word)) s

/-- ROWSTAT. -/
def execRowstat (cell : CellId) (word : BitVec 128) (s : State) : Host.Outcome State Fault Refusal :=
  onDev (issueVec cell word [] (fun _ _ => rowstatOk word)) s

/-- RMSSTAT. -/
def execRmsstat (cell : CellId) (word : BitVec 128) (s : State) : Host.Outcome State Fault Refusal :=
  onDev (issueVec cell word [] (fun _ _ => rmsstatOk word)) s

/-- SFU. -/
def execSfu (cell : CellId) (word : BitVec 128) (s : State) : Host.Outcome State Fault Refusal :=
  onDev (issueVec cell word [] (fun _ _ => sfuOk word)) s

/-- TOPK. -/
def execTopk (cell : CellId) (word : BitVec 128) (s : State) : Host.Outcome State Fault Refusal :=
  onDev (issueVec cell word [] (fun _ _ => topkOk word)) s

/-- FATT. -/
def execFatt (cell : CellId) (word : BitVec 128) (s : State) : Host.Outcome State Fault Refusal :=
  onDev (issueVec cell word [] (fattOk word)) s

/-- CORR. -/
def execCorr (cell : CellId) (word : BitVec 128) (s : State) : Host.Outcome State Fault Refusal :=
  onDev (issueVec cell word [] (corrOk word)) s

/-- SCORE. -/
def execScore (cell : CellId) (word : BitVec 128) (s : State) : Host.Outcome State Fault Refusal :=
  onDev (issueVec cell word [] (fun r d => scoreOk word r d && !waitsWipe d cell r (scoreOffs word) [])) s

end Sys2Proof.Machine
end

