-- ==== Sys2Proof/Machine/Arrays.lean ====
section
/-!
DEFINITION. The MAC arrays (04, 05): stationary tile loads, and the products MMR, MMC, DIST and CMPX with their ganging,
masks, integer and scaled forms, and the accumulator slots or tile-queue inputs that take their results.
-/

namespace Sys2Proof.Machine

open Sys2Proof

/-! ### Elements -/

/-- Element i, of a width in bits, of packed bytes from an address of an operand buffer. -/
def bufElem (t : Tbl Byte) (a w i : Nat) : Nat :=
  if w = 4 then ((tblGet 0 t (a + i / 2)).toNat >>> (4 * (i % 2))) % 16
  else leNat (tblGetList 0 t (a + i * (w / 8)) (w / 8))

/-- Gang width. -/
def gangWidth (g : Nat) : Nat := 2 ^ g

/-- ARRAYS names whole gang groups: pairs in gang-2, all four in gang-4. -/
def gangFits (arrays g : Nat) : Bool :=
  decide (arrays ≠ 0) &&
    (match g with
     | 0 => true
     | 1 => decide (arrays % 4 = 0 ∨ arrays % 4 = 3) && decide (arrays / 4 = 0 ∨ arrays / 4 = 3)
     | 2 => decide (arrays = 15)
     | _ => false)

/-- Lowest arrays of the gang groups that ARRAYS names, ascending: one stream each. -/
def streamsOf (arrays g : Nat) : List Nat :=
  (List.range 4).filter (fun a => decide (a % gangWidth g = 0) && arrays.testBit a)

/-- A format that an array accepts. -/
def arrayFmt (f : Nat) : Bool := decide (1 ≤ f) && decide (f ≤ 8)

/-! ### LDS (Table 04-7, R93, R94) -/

/-- Bytes of a tile row. -/
def tileRowBytes (fmt g : Nat) : Nat := 64 * gangWidth g * fmtBits fmt / 8

/-- Checks of an LDS word. DESIGN CHOICE (log 91): SCALE_ADDR is zero where SCALE_EN is clear, and a format that has no scale
(BF16, E4M3, E5M2) takes no SCALE_EN. -/
def ldsOk (w : IWord) : Bool :=
  let f := iFmtIn w
  let g := fld w 69 68
  let scales := if fmtIsMx f then 16 * 2 * gangWidth g else 4
  wordOk w 0x10 1 [fDst, fSrcA, fSrcB, fMask, fFmtOut, fRnd, fComp, (79, 70), (95, 90), (127, 107)] && arrayFmt f &&
    gangFits (fld w 67 64) g && decide (64 * fld w 89 80 + 16 * tileRowBytes f g ≤ 0x10000) &&
    (if bit w 106 then (fmtIsMx f || fmtIsInt f) && decide (64 * fld w 105 96 + scales ≤ 0x10000)
     else !fmtIsMx f && decide (fld w 105 96 = 0))

/-- The stationary register of one array after an LDS: position `a` within its gang group. -/
def loadTile (x : CellSt) (w : IWord) (a : Nat) : ArraySt :=
  let f := iFmtIn w
  let g := fld w 69 68
  let wd := fmtBits f
  let base := 64 * fld w 89 80
  let rb := tileRowBytes f g
  let sb := 64 * fld w 105 96
  { fmt := f, gang := g
    tile := tblSetList 0 [] 0 ((List.range 1024).map (fun i =>
      bufElem x.sta (base + i / 64 * rb) wd (64 * a + i % 64)))
    scales := if fmtIsMx f then tblSetList 0 [] 0 ((List.range 32).map (fun i =>
      tblGet 0 x.sta (sb + i / 2 * (2 * gangWidth g) + 2 * a + i % 2))) else []
    sigma := if bit w 106 && fmtIsInt f then some (BitVec.ofNat 32 (leNat (tblGetList 0 x.sta sb 4))) else none
    masked := (List.range 16).filter (fun n =>
      x.staMasked.any (fun k => decide ((base + n * rb) / 16 ≤ k) && decide (k * 16 < base + (n + 1) * rb))) }

/-- Arrays that ARRAYS names. -/
def namedArrays (w : IWord) : List Nat := (List.range 4).filter (fun a => (fld w 67 64).testBit a)

/-- LDS: every array that ARRAYS names takes its columns of the tile; it can only have waited where a product has run against
an old tile (R94). -/
def lds (c : CellId) (w : IWord) (d : Dev) : Dev :=
  let x := cellOf d c
  let d := updCell c (fun y => { y with
    arrays := (namedArrays w).foldl (fun t a => tblPut t a (loadTile x w (a % gangWidth (fld w 69 68)))) y.arrays }) d
  if (namedArrays w).any (fun a => (tblGet {} x.arrays a).ran) then bumpFree (R.CEL_LDS_WAIT_CNT c.val) d else d

/-- Chunks of the stationary-side buffer that an LDS reads: tile rows and scales. -/
def ldsLocs (w : IWord) : List Loc :=
  bufLocs false (64 * fld w 89 80) (16 * tileRowBytes (iFmtIn w) (fld w 69 68)) ++
    (if bit w 106 then
      bufLocs false (64 * fld w 105 96) (if fmtIsMx (iFmtIn w) then 16 * 2 * gangWidth (fld w 69 68) else 4)
     else [])

/-- LDS. -/
def execLds (cell : CellId) (word : BitVec 128) (s : State) : Host.Outcome State Fault Refusal :=
  onDev (onReady cell word (fun _ _ => ldsOk word) [] (ldsLocs word) (fun _ _ d => lds cell word d)) s

/-! ### Element operations and reductions (Table 04-6, R105, R106, R122 to R125) -/

/-- What an element pair contributes: 0 a product; 1 (m − s)²; 2 |m − s|; 3 and 4 products, 5 and 6 distances, under a
maximum (odd) or a minimum (even). -/
def elemOp (kind : Nat) (m s : Val) : Val :=
  match kind with
  | 0 => vMul m s
  | 1 => let x := vSub m s; vMul x x
  | 2 => vAbs (vSub m s)
  | 3 => vMul m s
  | 4 => vMul m s
  | _ => vAbs (vSub m s)

/-- The larger (or smaller) of two values; a zero of each sign gives +0 for the maximum, −0 for the minimum. -/
def vExt (isMax : Bool) (a b : Val) : Val :=
  if a.isZero && b.isZero then vZero (if isMax then a.sign && b.sign else a.sign || b.sign)
  else if isMax then (if vLt a b then b else a) else (if vLt b a then b else a)

/-- Exact integer of an integral value. -/
def vToInt (v : Val) : Int :=
  match v with
  | .rat neg n d e =>
    let q : Int := (if 0 ≤ e then n <<< e.toNat / d else n / (d <<< (-e).toNat) : Nat)
    if neg then -q else q
  | _ => 0

/-- A reduction by maximum or minimum. -/
def kindIsExt (kind : Nat) : Bool := decide (3 ≤ kind)
def kindIsMax (kind : Nat) : Bool := decide (kind % 2 = 1)

/-- Result of one tree over the unmasked terms: FP32, or INT32 in an integer domain without a scale. -/
def reduceTerms (kind : Nat) (int : Bool) (sigma : Option W32) (ps : List Val) : W32 :=
  let mx := kindIsMax kind
  if int && sigma.isNone then
    if kindIsExt kind then
      match ps with
      | [] => if mx then 0x80000000 else 0x7FFFFFFF
      | p :: rest => BitVec.ofInt 32 (vToInt (rest.foldl (vExt mx) p))
    else BitVec.ofInt 32 ((ps.map vToInt).sum)
  else if kindIsExt kind then
    match ps with
    | [] => if mx then f32NegInf else f32PosInf
    | p :: rest =>
      if ps.any Val.isNan then f32Nan
      else
        let v := rest.foldl (vExt mx) p
        rn32 (match sigma with | some s => vMul (f32 s) v | none => v)
  else
    match sigma with
    | some s => treeSigma (f32 s) ps
    | none => tree ps

/-- Join two results of a gang: addition, or maximum or minimum; and whether an INT32 sum saturates. -/
def gangJoin (kind : Nat) (int : Bool) (a b : W32) : W32 × Bool :=
  if kindIsExt kind then
    if int then
      ((if kindIsMax kind then (if a.toInt < b.toInt then b else a) else (if b.toInt < a.toInt then b else a)), false)
    else (if kindIsMax kind then fMax a b else fMin a b, false)
  else if int then satAdd32 a b
  else (fAdd a b, false)

/-- The gang adders of R98, with the number of saturations. -/
def gangSum (kind : Nat) (int : Bool) (hs : List W32) : W32 × Nat :=
  let n (b : Bool) : Nat := if b then 1 else 0
  match hs with
  | [a] => (a, 0)
  | [a, b] => let x := gangJoin kind int a b; (x.1, n x.2)
  | [a, b, e, f] =>
    let x := gangJoin kind int a b
    let y := gangJoin kind int e f
    let z := gangJoin kind int x.1 y.1
    (z.1, n x.2 + n y.2 + n z.2)
  | _ => (0, 0)

/-! ### Operands -/

/-- Element of a stationary register under its MX scale. -/
def tileVal (a : ArraySt) (n c : Nat) : Val :=
  let v := decodeElem a.fmt (tblGet 0 a.tile (64 * n + c))
  if fmtIsMx a.fmt then scaled v (tblGet 0 a.scales (2 * n + c / 32)) else v

/-- Code of element i of the moving operand of a product word: packed bytes of the moving-side buffer, or register lanes. -/
def movCode (x : CellSt) (w : IWord) (i : Nat) : Nat :=
  let f := iFmtIn w
  if bit w 70 then (lane x (iSrcA w) i).toNat % 2 ^ fmtBits f else bufElem x.mov (32 * fld w 89 80) (fmtBits f) i

/-- Element e of moving vector v of a product word. Block scales of a moving MX format have no place that the spec names: each
is a free function of its block's elements, so that the same work gives the same bits (R138). -/
def movVal (x : CellSt) (w : IWord) (len v e : Nat) : Val :=
  let m := decodeElem (iFmtIn w) (movCode x w (v * len + e))
  if fmtIsMx (iFmtIn w) then
    scaled m (Config.blockScale (iFmtIn w) (codesOf (movCode x w) (min 32 len) (v * len + e / 32 * 32)))
  else m

/-- An element of a moving vector stands for a page that is not there (R221). -/
def movOff (x : CellSt) (w : IWord) (len v e : Nat) : Bool :=
  let a := 32 * fld w 89 80 + (v * len + e) * fmtBits (iFmtIn w) / 8
  !bit w 70 && x.movMasked.contains (a / 16)

/-! ### A product word (Table 04-8) -/

/-- Element operation of an instruction word. -/
def prodKind (w : IWord) : Nat :=
  match iOpc w with
  | 0x14 => 1 + fld w 76 76
  | 0x15 => 3 + fld w 77 76
  | _ => 0

/-- Row mode. -/
def prodRow (w : IWord) : Bool :=
  match iOpc w with
  | 0x11 => true
  | 0x12 => false
  | _ => !bit w 79

/-- Elements of a moving vector. -/
def movLen (w : IWord) : Nat := if prodRow w then 64 * gangWidth (fld w 69 68) else 16

/-- Lowest arrays of the streams of a product word. -/
def prodBases (w : IWord) : List Nat := streamsOf (fld w 67 64) (fld w 69 68)

/-- The stationary register of a stream whose lowest array is `base`: every array of a gang group holds a part of one tile. -/
def prodSta (x : CellSt) (base : Nat) : ArraySt := tblGet {} x.arrays base

/-- Width of the product mode of a stream (R91, R121). -/
def modeWidth (x : CellSt) (w : IWord) (base : Nat) : Nat := max (fmtBits (prodSta x base).fmt) (fmtBits (iFmtIn w))

/-- Integer domain of a stream (R121). -/
def prodInt (x : CellSt) (w : IWord) (base : Nat) : Bool := fmtIsInt (prodSta x base).fmt && fmtIsInt (iFmtIn w)

/-- Results of a stream are INT32: an integer domain without a scale (R123). -/
def prodIntOut (x : CellSt) (w : IWord) (base : Nat) : Bool := prodInt x w base && (prodSta x base).sigma.isNone

/-- Streams of a shape (Table 05-4). -/
def shapeStreams (g : Nat) : Nat := 4 / gangWidth g

/-- Entries per slot E, and those of the value words E_v (Table 05-4). -/
def slotEntries (row : Bool) (g width : Nat) (comp : Bool) : Nat :=
  (if row then shapeStreams g else 4) * (if width = 4 then 2 else 1) * (if comp then 2 else 1)
def valueEntries (row : Bool) (g width : Nat) : Nat := slotEntries row g width false

/-- Checks of a product word that its own fields decide. DESIGN CHOICE (log 91): MOV_ADDR is zero where SRC_KIND names
registers, and SRC_A where it names the buffer. -/
def prodWord (w : IWord) (opc : Nat) : Bool :=
  let g := fld w 69 68
  let n := iCount w * (streamsOf (fld w 67 64) g).length * movLen w
  let src := bit w 70
  wordOk w opc 4096 [fSrcB, fMask, fRnd, (71, 71), (75, 74), (95, 90), (127, 121)] && arrayFmt (iFmtIn w) &&
    decide (iFmtOut w = 0 ∨ iFmtOut w = 9) && gangFits (fld w 67 64) g && decide (fld w 73 72 ≠ 3) &&
    decide (1 ≤ fld w 120 112) && decide (fld w 120 112 ≤ 64 * gangWidth g) &&
    (match opc with
     | 0x14 => decide (fld w 78 76 ≤ 1)
     | 0x15 => decide (fld w 78 76 ≤ 3)
     | _ => decide (fld w 79 76 = 0)) &&
    (if src then regsFit (iSrcA w) n && decide (fld w 89 80 = 0)
     else decide (iSrcA w = 0) && decide (32 * fld w 89 80 + ceilDiv (n * fmtBits (iFmtIn w)) 8 ≤ 0x8000))

/-- What the tile of one stream asks of the word: no COMP and INT32 results in an integer domain, FP32 ones otherwise; with an
accumulator slot, its index and the bound on C (R126, R127). DESIGN CHOICE (log 91): FMT_OUT of an integer product whose tile
carries a scale is INT32, as the integer modes have it, or FP32, as R123 makes its results. -/
def streamOk (x : CellSt) (w : IWord) (base : Nat) : Bool :=
  let row := prodRow w
  let mw := modeWidth x w base
  let e := slotEntries row (fld w 69 68) mw (iComp w)
  (!iComp w || !prodInt x w base) && (prodInt x w base || decide (iFmtOut w = 0)) &&
    (!prodIntOut x w base || decide (iFmtOut w = 9)) &&
    (decide (fld w 73 72 = 2) ||
      (decide (iDst w < 32 / e) && decide (iCount w ≤ (if row then 64 else 16) * (if mw = 4 then 2 else 1))))

/-- The streams of a word that writes a slot share one mode, since a slot has one (Table 05-4). -/
def oneMode (x : CellSt) (w : IWord) : Bool :=
  let k (b : Nat) : Nat × Bool := (modeWidth x w b, prodIntOut x w b)
  decide (fld w 73 72 = 2) || (prodBases w).all (fun b => decide (k b = k ((prodBases w).headD 0)))

/-- Checks that depend on the tiles (R91, R115, R126, R127); an AX4 tenant's products carry no COMP (R142). -/
def prodOk (w : IWord) (opc : Nat) (ax4 : Bool) (c : CellId) (d : Dev) : Bool :=
  let x := cellOf d c
  prodWord w opc && !(ax4 && iComp w) && (prodBases w).all (streamOk x w) && oneMode x w

/-! ### Results -/

/-- Rows enabled and not masked by a page that is not there. -/
def rowOn (w : IWord) (a : ArraySt) (n : Nat) : Bool := bit w (96 + n) && !a.masked.contains n

/-- Enabled columns of the array at a position of its gang group. -/
def colsOn (w : IWord) (p : Nat) : Nat := min 64 (fld w 120 112 - 64 * p)

/-- Element pairs of one tree: row n in row mode, column n in column mode, of the array at position p. -/
def treePairs (a : ArraySt) (w : IWord) (p : Nat) (mv : Nat → Val) (off : Nat → Bool) (n : Nat) : List (Val × Val) :=
  if prodRow w then
    ((List.range (colsOn w p)).filter (fun k => !off (64 * p + k))).map (fun k => (mv (64 * p + k), tileVal a n k))
  else ((List.range 16).filter (fun k => rowOn w a k && !off k)).map (fun k => (mv k, tileVal a k n))

/-- Products that R104 gates: one element zero, the other finite. -/
def gatedPairs (ps : List (Val × Val)) : Nat :=
  (ps.filter (fun p => (p.1.isZero && p.2.isFinite) || (p.2.isZero && p.1.isFinite))).length

/-- Result of one tree, its NaN and its gated products. -/
def treeOf (w : IWord) (int : Bool) (a : ArraySt) (p : Nat) (mv : Nat → Val) (off : Nat → Bool) (n : Nat) : W32 × Nat :=
  let ps := treePairs a w p mv off n
  (reduceTerms (prodKind w) int a.sigma (ps.map (fun q => elemOp (prodKind w) q.1 q.2)), gatedPairs ps)

/-- Results of one moving vector on a stream: a word, or nothing where masked, in the order of R148; saturations, NaN trees
and gated products. -/
def vectorResults (x : CellSt) (w : IWord) (base : Nat) (mv : Nat → Val) (off : Nat → Bool) :
    List (Option W32) × Nat × Nat × Nat :=
  let g := gangWidth (fld w 69 68)
  let int := prodInt x w base
  let arr (p : Nat) : ArraySt := tblGet {} x.arrays (base + p)
  if prodRow w then
    let rs := (List.range 16).map (fun n =>
      if rowOn w (arr 0) n then
        let hs := (List.range g).map (fun p => treeOf w int (arr p) p mv off n)
        let s := gangSum (prodKind w) (prodIntOut x w base) (hs.map (·.1))
        (some s.1, s.2, if prodIntOut x w base then 0 else nanCount (hs.map (·.1)), (hs.map (·.2)).sum)
      else (none, 0, 0, 0))
    (rs.map (·.1), (rs.map (·.2.1)).sum, (rs.map (·.2.2.1)).sum, (rs.map (·.2.2.2)).sum)
  else
    let rs := (List.range (64 * g)).map (fun n =>
      if n < fld w 120 112 then
        let h := treeOf w int (arr (n / 64)) (n / 64) mv off (n % 64)
        (some h.1, if prodIntOut x w base then 0 else nanCount [h.1], h.2)
      else (none, 0, 0))
    (rs.map (·.1), 0, (rs.map (·.2.1)).sum, (rs.map (·.2.2)).sum)

/-! ### Results into accumulator words (R126 to R130) -/

/-- Put a result into an accumulator word: written, or added; with its error term under COMP. Counts saturations and NaN
results of adds. -/
def accPut (add comp int : Bool) (ek : Nat) (y : CellSt × Nat × Nat) (k : Nat) (v : W32) : CellSt × Nat × Nat :=
  let x := y.1
  if !add then
    let x := accSet int k v x
    (if comp then accSet false (k + ek) 0 x else x, y.2.1, y.2.2)
  else if comp then
    let r := compAdd (accWord x k) (accWord x (k + ek)) v
    (accSet false (k + ek) r.2 (accSet false k r.1 x), y.2.1, y.2.2 + nanCount [r.1])
  else if int then
    let r := satAdd32 (accWord x k) v
    (accSet true k r.1 x, y.2.1 + (if r.2 then 1 else 0), y.2.2)
  else
    let r := fAdd (accWord x k) v
    (accSet false k r x, y.2.1, y.2.2 + nanCount [r])

/-- Results of one vector of a stream go to the slot or to the stream's tile-queue input. -/
def storeResults (w : IWord) (int : Bool) (mw base j i : Nat) (rs : List (Option W32)) (y : CellSt × Nat × Nat) :
    CellSt × Nat × Nat :=
  let row := prodRow w
  let g := fld w 69 68
  if fld w 73 72 = 2 then (tqPush (base + 1) (rs.map (fun r => r.getD 0)) y.1, y.2)
  else
    let e := slotEntries row g mw (iComp w)
    let first := 1024 * (iDst w * e + j * valueEntries row g mw / shapeStreams g) + rs.length * i
    (rs.mapIdx (fun n r => (n, r))).foldl (fun y p =>
      match p.2 with
      | some v => accPut (decide (fld w 73 72 = 1)) (iComp w) int (1024 * (e / 2)) y (first + p.1) v
      | none => y) y

/-- Array-cycles with a broadcast, of one array. -/
def broadcastCycles (mw n : Nat) : Nat := if mw = 4 then ceilDiv n 2 else n

/-- The first broadcast after an event of R112 waits for the cell's wave slot, for cycles that nothing gives; once the slot
has passed the cell runs freely. -/
def takeWave (c : CellId) (d : Dev) : Dev :=
  if d.tick.waves.contains c then
    bumpFree (R.CEL_WAVE_WAIT_CNT c.val) { d with tick := { d.tick with waves := d.tick.waves.filter (fun e => e ≠ c) } }
  else d

/-- Words that one stream of a product sends to its tile-queue input. -/
def streamWords (w : IWord) : Nat := iCount w * (if prodRow w then 16 else 64 * gangWidth (fld w 69 68))

/-- The words that a product sends to its inputs are counted. An input holds 1,024 (R148): where it has been sent more since the
last END it can have been full, for cycles that nothing gives (R101). -/
def noteFull (c : CellId) (w : IWord) (d : Dev) : Dev :=
  if fld w 73 72 = 2 then
    let x := cellOf d c
    let n (b : Nat) : Nat := tblGet 0 x.tqSeen (b + 1) + streamWords w
    let d := updCell c (fun x => { x with
      tqSeen := (prodBases w).foldl (fun t b => tblSet 0 t (b + 1) (n b)) x.tqSeen }) d
    if (prodBases w).any (fun b => decide (1024 < n b)) then bumpFree (R.CEL_TQ_HOLD_CNT c.val) d else d
  else d

/-- A product on a cell, every vector of every stream. -/
def product (c : CellId) (w : IWord) (d : Dev) : Dev :=
  let x := cellOf d c
  let bases := prodBases w
  let s := bases.length
  let work := (List.range (iCount w)).flatMap (fun i => (List.range s).map (fun j => (i, j)))
  let out := work.foldl (fun (acc : (CellSt × Nat × Nat) × Nat × Nat × Nat × Nat) p =>
    let base := bases.getD p.2 0
    let v := p.1 * s + p.2
    let r := vectorResults x w base (movVal x w (movLen w) v) (movOff x w (movLen w) v)
    (storeResults w (prodIntOut x w base) (modeWidth x w base) base p.2 p.1 r.1 acc.1, acc.2.1 + r.2.1, acc.2.2.1 + r.2.2.1, acc.2.2.2.1 + r.2.2.2,
      acc.2.2.2.2 + (r.1.filter (·.isSome)).length))
    ((x, 0, 0), 0, 0, 0, 0)
  let d := updCell c (fun _ => { out.1.1 with
    arrays := (namedArrays w).foldl (fun t a => tblPut t a { tblGet {} t a with ran := true }) out.1.1.arrays }) d
  let d := noteNan c (out.1.2.2 + out.2.2.1) (noteSat c (out.1.2.1 + out.2.1) d)
  let d := if prodKind w = 0 then noteGated c out.2.2.2.1 d else d
  let d := bump64 d (R.CEL_MAC_CYC_LO c.val) (R.CEL_MAC_CYC_HI c.val)
    ((bases.map (fun b => gangWidth (fld w 69 68) * broadcastCycles (modeWidth x w b) (iCount w))).sum)
  let d := if iComp w && decide (fld w 73 72 = 1) then
      bump64 d (R.CEL_COMP_CNT_LO c.val) (R.CEL_COMP_CNT_HI c.val) out.2.2.2.2
    else d
  takeWave c (noteFull c w d)

/-- Registers that a product reads (SRC_KIND 1). -/
def prodReads (w : IWord) : List Nat :=
  if bit w 70 then regRange (iSrcA w) (iCount w * (prodBases w).length * movLen w) else []

/-- Chunks of the moving-side buffer that a product reads (SRC_KIND 0). -/
def prodLocs (w : IWord) : List Loc :=
  if bit w 70 then []
  else bufLocs true (32 * fld w 89 80) (ceilDiv (iCount w * (prodBases w).length * movLen w * fmtBits (iFmtIn w)) 8)

/-- A GANG mismatch at run time (R115). DESIGN CHOICE (log 91): an array that no LDS has loaded since END holds the default register,
of GANG 0 and format 0 with zeros in it, and matches a word of GANG 0. -/
def gangBad (x : CellSt) (w : IWord) : Bool :=
  (List.range 4).any (fun a => (fld w 67 64).testBit a && decide ((tblGet {} x.arrays a).gang ≠ fld w 69 68))

/-- A report of a cell whose address the spec does not give. -/
def failFree (c : CellId) (t : Token) (r : Req) (code : Byte) (d : Dev) : Dev :=
  let n := freshNat d
  failToken c t (tokenReport r code (unitCell c) n.1 0) false n.2

/-- A product instruction: a gang mismatch stops the token as a reserved opcode does, and a row whose parity fails, after its
broadcast, stops it under R95. While its sources are not ready, or under a die-wide halt, it holds the cell's issue (R100). -/
def productInstr (opc : Nat) (c : CellId) (w : IWord) (parity : Option Nat) (d : Dev) : Dev :=
  onWord c w (fun r d => prodWord w opc && (gangBad (cellOf d c) w || prodOk w opc (ax4Mode d (dTenant r.desc)) c d))
    (fun t r d =>
      let run : Dev := vqRun c t r (instrDone c (product c w d))
      if d.power.halted || !sourcesReady c r (prodReads w) (prodLocs w) d then holdCell c w t r d
      else if gangBad (cellOf d c) w then failFree c t r 0x24 d
      else
        match parity with
        | some n => if n < 16 then failFree c t r 0x20 (bump (takeWave c d) (R.CEL_ARR_PAR_CNT c.val)) else run
        | none => run) d

/-- MMR. -/
def execMmr (cell : CellId) (word : BitVec 128) (parityRow : Option Nat) (s : State) :
    Host.Outcome State Fault Refusal := onDev (productInstr 0x11 cell word parityRow) s

/-- MMC. -/
def execMmc (cell : CellId) (word : BitVec 128) (parityRow : Option Nat) (s : State) :
    Host.Outcome State Fault Refusal := onDev (productInstr 0x12 cell word parityRow) s

/-- DIST. -/
def execDist (cell : CellId) (word : BitVec 128) (parityRow : Option Nat) (s : State) :
    Host.Outcome State Fault Refusal := onDev (productInstr 0x14 cell word parityRow) s

/-- CMPX. -/
def execCmpx (cell : CellId) (word : BitVec 128) (parityRow : Option Nat) (s : State) :
    Host.Outcome State Fault Refusal := onDev (productInstr 0x15 cell word parityRow) s

end Sys2Proof.Machine
end

