-- ==== Sys2Proof/Machine/Accum.lean ====
section
/-!
DEFINITION. Accumulator reads and writes, and the explicit index mode (05, R128 to R131).
-/

namespace Sys2Proof.Machine

open Sys2Proof

/-! ### ACCRD and ACCWR (Table 05-5) -/

/-- log2 E, first entry of a slot, and key of a value word. -/
def accEntries (w : IWord) : Nat := 2 ^ fld w 66 64
def accKey (w : IWord) (slot : Nat) : Nat := 1024 * (slot * accEntries w) + fld w 93 80

/-- Value entries of the slot. -/
def accValueEntries (w : IWord) : Nat := if iComp w then accEntries w / 2 else accEntries w

/-- The slot and the words lie within accumulator memory. -/
def accFits (w : IWord) (slot : Nat) : Bool :=
  decide (fld w 66 64 ≤ 4) && decide (slot < 32 / accEntries w) && decide (fld w 93 80 + iCount w ≤ 1024 * accValueEntries w)

/-- Checks of an ACCRD word; an AX4 tenant's carries no COMP (R142). -/
def accrdOk (w : IWord) (ax4 : Bool) : Bool :=
  !(ax4 && iComp w) && wordOk w 0x20 4096 [fSrcB, fMask, fFmtIn, (79, 69), (127, 94)] && accFits w (iSrcA w) &&
    decide (iFmtOut w = 0 ∨ iFmtOut w = 1 ∨ iFmtOut w = 2 ∨ iFmtOut w = 3 ∨ iFmtOut w = 7 ∨ iFmtOut w = 9) &&
    (if bit w 67 then decide (iDst w = 0) else regsFit (iDst w) (iCount w))

/-- One accumulator word as ACCRD reads it: its value, with the error term under COMP. -/
def accRead (x : CellSt) (w : IWord) (k : Nat) : W32 :=
  if iComp w then fAdd (accWord x k) (accWord x (k + 1024 * (accEntries w / 2))) else accWord x k

/-- Value of an accumulator word by its type. -/
def accVal (x : CellSt) (w : IWord) (k : Nat) : Val :=
  if tblGet false x.accInt k then vInt (accWord x k).toInt else f32 (accRead x w k)

/-- The cast of ACCRD (R118). A stochastic rounding takes an open seed: the class fields give ACCRD none (R119), and the same
work takes the same one (R138). -/
def accCast (w : IWord) (r : Req) (x : CellSt) (k e : Nat) : W32 × Bool :=
  let seed := Config.accSeed w (dTenant r.desc) (dLayer r.desc) (dPos r.desc) e
  let y := castTo (iFmtOut w) (rndOf (iRnd w) seed) (accVal x w (k + e))
  (BitVec.ofNat 32 y.1, y.2)

/-- ACCRD: COUNT words of a slot go to registers or to tile-queue input 6; CLEAR clears their valid bits. -/
def accrd (c : CellId) (w : IWord) (r : Req) (d : Dev) : Dev :=
  let x := cellOf d c
  let k := accKey w (iSrcA w)
  let n := iCount w
  let out := (List.range n).map (accCast w r x k)
  let vs := out.map (·.1)
  let clear (t : Tbl W32) : Tbl W32 :=
    if bit w 68 then
      let a := tblClear t k n
      if iComp w then tblClear a (k + 1024 * (accEntries w / 2)) n else a
    else t
  let d := updCell c (fun x =>
    let x := if bit w 67 then tqPush 6 vs x else putLanes (iDst w) vs x
    { x with acc := clear x.acc }) d
  noteSat c ((out.filter (·.2)).length) d

/-- ACCRD. DESIGN CHOICE (log 91): it stands outside the queue of R146, and writes its registers at once, whatever earlier
instructions of the queue still read or write. -/
def execAccrd (cell : CellId) (word : BitVec 128) (s : State) : Host.Outcome State Fault Refusal :=
  onDev (onCellVe cell word (fun r d => accrdOk word (ax4Mode d (dTenant r.desc))) (fun _ r d => accrd cell word r d)) s

/-- Checks of an ACCWR word. -/
def accwrOk (w : IWord) : Bool :=
  wordOk w 0x21 4096 [fSrcB, fMask, fFmtOut, fRnd, fComp, (68, 67), (79, 69), (127, 94)] && accFits w (iDst w) &&
    decide (iFmtIn w = 0 ∨ iFmtIn w = 9) && regsFit (iSrcA w) (iCount w)

/-- Write words with their valid bits from a key on. -/
def accPutAll (int : Bool) (k : Nat) (vs : List W32) (x : CellSt) : CellSt :=
  (vs.mapIdx (fun i v => (i, v))).foldl (fun x p => accSet int (k + p.1) p.2 x) x

/-- The words that ACCWR writes: a NaN under FP32 is the canonical one (R117). -/
def accwrWords (w : IWord) (x : CellSt) : List W32 :=
  (lanes x (iSrcA w) (iCount w)).map (fun v => if iFmtIn w = 0 then canonNan v else v)

/-- ACCWR; it waits for the vector engine to write its registers. -/
def execAccwr (cell : CellId) (word : BitVec 128) (s : State) : Host.Outcome State Fault Refusal :=
  onDev (onReady cell word (fun _ _ => accwrOk word) (regRange (iSrcA word) (iCount word)) []
    (fun _ _ d => updCell cell (fun x =>
      accPutAll (decide (iFmtIn word = 9)) (accKey word (iDst word)) (accwrWords word x) x) d)) s

/-! ### ACCX (Table 05-6, R131) -/

/-- First word of the explicit index mode. -/
def accxKey (w : IWord) : Nat := 1024 * fld w 70 66 + fld w 80 71

/-- Checks common to the forms of ACCX; RAW is a field of the read. -/
def accxOk (w : IWord) (xop : Nat) (zeros : List (Nat × Nat)) : Bool :=
  wordOk w 0x22 1024 ([fSrcB, fMask, fFmtIn, fFmtOut, fRnd, fComp, (127, 82)] ++ zeros) && decide (fld w 65 64 = xop) &&
    decide (fld w 80 71 + iCount w ≤ 1024)

/-- ACCX read: the words go to registers. With RAW, what an invalid word holds is left open, and the valid bits follow
from the next register on. -/
def accxReadOk (w : IWord) : Bool :=
  accxOk w 0 [fSrcA] && decide (iDst w + ceilDiv (iCount w) 256 * (if bit w 81 then 2 else 1) ≤ 32)
def accxRead (c : CellId) (w : IWord) (d : Dev) : Dev :=
  let k := accxKey w
  let n := iCount w
  let x := cellOf d c
  if bit w 81 then
    let vs := (List.range n).map (fun e => (tblFind x.acc (k + e)).getD (Config.freeWord (d.freeIdx + e)))
    let vb : List W32 := (List.range n).map (fun e => if (tblFind x.acc (k + e)).isSome then 1 else 0)
    { updCell c (fun x => putLanes (iDst w + ceilDiv n 256) vb (putLanes (iDst w) vs x)) d with freeIdx := d.freeIdx + n }
  else updCell c (putLanes (iDst w) ((List.range n).map (fun e => accWord x (k + e)))) d
def execAccxRead (cell : CellId) (word : BitVec 128) (s : State) : Host.Outcome State Fault Refusal :=
  onDev (onDiag cell (accxReadOk word) (accxRead cell word)) s

/-- ACCX write. -/
def accxWriteOk (w : IWord) : Bool := accxOk w 1 [fDst, (81, 81)] && regsFit (iSrcA w) (iCount w)
def execAccxWrite (cell : CellId) (word : BitVec 128) (s : State) : Host.Outcome State Fault Refusal :=
  onDev (onDiag cell (accxWriteOk word) (updCell cell (fun x =>
    accPutAll false (accxKey word) (lanes x (iSrcA word) (iCount word)) x))) s

/-- ACCX clear: the valid bits. -/
def accxClearOk (w : IWord) : Bool := accxOk w 2 [fDst, fSrcA, (81, 81)]
def execAccxClear (cell : CellId) (word : BitVec 128) (s : State) : Host.Outcome State Fault Refusal :=
  onDev (onDiag cell (accxClearOk word)
    (updCell cell (fun x => { x with acc := tblClear x.acc (accxKey word) (iCount word) }))) s

end Sys2Proof.Machine
end

