-- ==== Sys2Proof/Machine/Completion.lean ====
section
/-!
DEFINITION. Completion records of work (02, 03): which status word a record carries (R10, R46), its fields (Table 03-6),
and what cache control does when a request completes (R242, R252).
-/

namespace Sys2Proof.Machine

open Sys2Proof

/-- The drain start of a tick has passed (R46). -/
def drainPassed (d : Dev) (n : Nat) : Bool :=
  decide (n < d.tick.num) || (decide (n = d.tick.num) && decide (d.tick.phase ≠ .execute))

/-- Status word of a request's record (R10). -/
def statusWord (d : Dev) (r : Req) : Nat :=
  if r.killed then 2 else if r.eccFail then 6 else if r.bankOff then 5 else if drainPassed d r.tick then 1 else 0

/-- ERR_REF of a request's record (Table 03-6). -/
def errRefOf (r : Req) : W32 :=
  if r.killed then (if r.inputMissing then r.errRef else 0) else if r.eccFail || r.bankOff then r.errRef else 0

/-- Cycles used and charged on a cell for a request. -/
def cellCost (d : Dev) (uid : Nat) (c : CellId) : Nat × Nat :=
  let ts := d.ent.tokens.filter (fun t => decide (t.uid = uid) && decide (t.cell = c))
  ((ts.map (·.cycles)).sum, (ts.map (·.charge)).sum)

/-- Cycles used on the involved cell that took longest, and cycles charged to that cell. -/
def longestCell (d : Dev) (uid : Nat) : Nat × Nat :=
  let cs := ((d.ent.tokens.filter (fun t => t.uid = uid)).map (·.cell))
  match cs with
  | [] => (0, 0)
  | c :: cs => cs.foldl (fun m c => if m.1 < (cellCost d uid c).1 then cellCost d uid c else m) (cellCost d uid c)

/-- The record of a request. -/
def completionOf (d : Dev) (r : Req) : Completion :=
  let n := longestCell d r.uid
  { reqId := dReqId r.desc, tenant := dTenant r.desc, status := statusWord d r, op := BitVec.ofNat 8 (dOp r.desc),
    tick := r.tick, seq := dSeq r.desc, version := r.version, length := (seqDesc d (dSeq r.desc)).length,
    cycles := n.1, charged := n.2,
    flags := (if r.emptyRow then 1 else 0) + (if r.saturated then 2 else 0) + (if r.statsSaved then 4 else 0),
    errRef := errRefOf r }

/-- The speculation of a VERIFY is pending: its record is open, or its COMMIT has been accepted. -/
def specPending (d : Dev) (r : Req) : Bool :=
  let sp := specRec d (dSeq r.desc)
  (decide (sp.ncand ≠ 0) && decide (sp.uid = r.specUid)) ||
    d.ent.reqs.any (fun q => decide (dOp q.desc = opCOMMIT) && decide (dSeq q.desc = dSeq r.desc) &&
      decide (q.specUid = r.specUid))

/-- R252: a VERIFY that does not complete OK or LATE sets BAD in the SPEC field; a field that has not been written, or is that of
an earlier speculation, is written first: either way it holds the same. -/
def verifyFailed (r : Req) (d : Dev) : Dev :=
  if dOp r.desc = opVERIFY ∧ 1 < statusWord d r ∧ specPending d r = true then
    updSeq (dSeq r.desc) (fun s => { s with
      spec := some { base := dPos r.desc, n := dRows r.desc, bad := true, parents := BitVec.ofNat 64 (dArg r.desc) } }) d
  else d

/-- R242: PREFIX_LEN when a PREFIX completes. -/
def prefixDone (r : Req) (d : Dev) : Dev :=
  if dOp r.desc = opPREFIX ∧ r.checkFailed = false then
    updSeq (dSeq r.desc) (fun s => { s with prefixLen := dPos r.desc + dRows r.desc }) d
  else d

/-- Combine tokens of a request that will not run end with it. -/
def endCombine (uid : Nat) (d : Dev) : Dev :=
  (d.ent.tokens.filter (fun t => decide (t.uid = uid) && t.combine && decide (t.st = .queued))).foldl (fun d t =>
    noteLateDone t.cell { d with ent := { d.ent with
      tokens := d.ent.tokens.map (fun x => if x = t then { x with st := .finished } else x) } }) d

/-- A request whose record is written and whose tokens have all ended is gone. -/
def retireReq (uid : Nat) (d : Dev) : Dev :=
  match findReq d uid with
  | none => d
  | some r =>
    if r.recordWritten && tokensDone d uid then
      { d with ent := { d.ent with
        reqs := d.ent.reqs.filter (fun r => r.uid ≠ uid), tokens := d.ent.tokens.filter (fun t => t.uid ≠ uid) } }
    else d

/-- Write the completion record of a request (R68, R69), free its combine region, and do what follows its status. -/
def completeReq (r : Req) (d : Dev) : Dev :=
  let d := prefixDone r (verifyFailed r d)
  let d := writeRecord d (dRing r.desc) r.ctr (completionOf d r)
    (if dSyncEn r.desc then some (dSync r.desc, dSyncAdd r.desc) else none)
  let d := endCombine r.uid (updReq r.uid (fun r => { r with recordWritten := true, region := false }) d)
  retireReq r.uid (noteLateDone (resultCell d r) d)

/-- The chain of a request ends before the home segment: COMMIT and BACKWARD, and every die but the home die of a
multi-die sequence (R191, R199, R253). -/
def noResult (d : Dev) (r : Req) : Bool :=
  decide (dOp r.desc = opCOMMIT) || decide (dOp r.desc = opBACKWARD) ||
    (multiDie d (dSeq r.desc) && !isHomeDie d (dSeq r.desc))

/-- Result frames of the request wait for the end of a retrain (R307, R322). -/
def resultHeld (d : Dev) (r : Req) : Bool :=
  match portOfCode (dOutPort r.desc) with
  | some p => (getPort d p).held.any (carriesResult r)
  | none => false

/-- The record of a request may be written: its work is done, its result has left, and its partial frames have been
answered (R69, R191, R322). -/
def recordDue (d : Dev) (r : Req) : Bool :=
  !r.recordWritten && tokensDone d r.uid && r.awaiting.isEmpty && !r.unrouted && !resultHeld d r &&
    (r.resultDone || noResult d r || r.suppressed || r.killed || r.eccFail || r.bankOff)

/-- COMPLETION_RECORD_WRITE (R69). -/
def execCompletionRecordWrite (uid : Nat) (s : State) : Host.Outcome State Fault Refusal :=
  onDev (fun d =>
    match findReq d uid with
    | none => d
    | some r => onlyIf (alive d && recordDue d r) (completeReq r) d) s

end Sys2Proof.Machine
end

