-- ==== Sys2Proof/Machine/Chain.lean ====
section
/-!
DEFINITION. What the attention chain of a request gives on a head cell (07, 09): stages (R168 to R173, R175, R176),
projections (R177), the keys that a row attends (R235 to R237, R243, R244), the scout pass (R246 to R248), the softmax with
its output (R178 to R186), the head segment (R183, R187), the output projection, and the gradients (R198 to R200). SEND
(Machine/Results.lean) sends these values: the tick programs of a version carry its chain out (log 98).
-/

namespace Sys2Proof.Machine

open Sys2Proof

/-! ### Query positions and masks (R235, R236) -/

/-- Depth of candidate i in the tree of a PARENTS word, whose parents have lower indices (R60). -/
def depthOf (a : Nat) : Nat → Nat → Nat
  | 0, _ => 0
  | n + 1, i => if parentOf a i = 15 then 0 else depthOf a n (parentOf a i) + 1

/-- Candidate c is candidate i or an ancestor of it. -/
def isAncestor (a : Nat) : Nat → Nat → Nat → Bool
  | 0, c, i => decide (c = i)
  | n + 1, c, i => decide (c = i) || (decide (parentOf a i ≠ 15) && isAncestor a n c (parentOf a i))

/-- Query position of row i (R235). -/
def qpos (d : Dev) (r : Req) (i : Nat) : Nat :=
  if isPacked r then i - segBase d r (segAt d r i)
  else if dOp r.desc = opVERIFY then dPos r.desc + depthOf (dArg r.desc) 16 i
  else dPos r.desc + i

/-- Page that holds a position of the request's sequence. -/
def pageOfPos (d : Dev) (r : Req) (j : Nat) : Nat :=
  let q := dSeq r.desc
  pageIdx d (dTenant r.desc) (mapPrefix d r q) (j - (seqDesc d q).posLo)

/-- pattern(p, j) of R236; `sel` holds the selected and extra pages of the KV head. -/
def pattern (d : Dev) (r : Req) (sel : List Nat) (p j : Nat) : Bool :=
  let t := dTenant r.desc
  decide (rowKind d r = 0) || decide (j < patSink d t) || decide (p < j + 16 * patWin d t) ||
    (decide (rowKind d r = 2) && sel.contains (pageOfPos d r j))

/-- attends(i, κ) of R236. A key κ is a request row of a PACKED request, and a storage position of any other; the candidates
of a VERIFY lie from POS on (R251). -/
def attends (d : Dev) (r : Req) (sel : List Nat) (i k : Nat) : Bool :=
  let s := seqDesc d (dSeq r.desc)
  if isPacked r then
    let b := segBase d r (segAt d r i)
    decide (segAt d r k = segAt d r i) && decide (k ≤ i) && pattern d r sel (i - b) (k - b)
  else if dOp r.desc = opVERIFY ∧ dPos r.desc ≤ k then
    decide (k < dPos r.desc + dRows r.desc) && isAncestor (dArg r.desc) 16 (k - dPos r.desc) i
  else decide (s.posLo ≤ k) && decide (k < s.posHi) && decide (k ≤ qpos d r i) && pattern d r sel (qpos d r i) k

/-- The AX8 reads key κ for a KV head (R243, R244, R248, Table 09-6): every key of a FULL pattern; else the sink groups, each
once, the groups of the window or the near span, and the selected and extra pages. -/
def readsKey (d : Dev) (r : Req) (sel : List Nat) (k : Nat) : Bool :=
  let t := dTenant r.desc
  let sinks := 16 * ceilDiv (patSink d t) 16
  let top := (dPos r.desc + dRows r.desc - 1) / 16
  if isPacked r then true
  else match rowKind d r with
    | 0 => true
    | 1 => decide (k < sinks) || decide (top < k / 16 + patWin d t + ceilDiv (dRows r.desc) 16 + 1)
    | _ =>
      let n0 := nearStart d t (dPos r.desc) (dRows r.desc)
      decide (k < min n0 sinks) || decide (n0 ≤ k) || sel.contains (pageOfPos d r k)

/-- The keys that a KV head reads, in ascending position. -/
def keysRead (d : Dev) (r : Req) (sel : List Nat) : List Nat :=
  let s := seqDesc d (dSeq r.desc)
  if isPacked r then List.range (dRows r.desc)
  else (List.range (min s.posHi (dPos r.desc + dRows r.desc))).filter (fun k => decide (s.posLo ≤ k) && readsKey d r sel k)

/-! ### The layer block (Table 11-4, R172) -/

/-- Element format of the projection weights (log 99). -/
def weightFmt (d : Dev) (t : Nat) : Nat := match currentImage d t with | some i => i.wfmt | none => 1

/-- Bytes of the layer block from an offset. -/
def blockBytes (d : Dev) (r : Req) (o n : Nat) : List Byte :=
  let b := layerBlock d r
  if b.1 then hiveRead d (b.2.1 + o) n else hbmRead d (tenantKey d (dTenant r.desc)) (b.2.1 + o) n

/-- Bytes of n weights. -/
def weightBytes (d : Dev) (t n : Nat) : Nat := n * fmtBits (weightFmt d t) / 8

/-- Weights of the queries, of the keys, and of the block as a whole. -/
def qWeights (d : Dev) (t : Nat) : Nat := queryHeads d t * headDim d t * dModel d t
def kWeights (d : Dev) (t : Nat) : Nat := kvHeads d t * headDim d t * dModel d t

/-- Offsets of W_q, W_k, W_v and W_o in the layer block, and of the stage vectors. DESIGN CHOICE (log 99): each matrix stands
as a run of rows of d_model elements, one per (head, dimension) in ascending order. -/
def wqOff : Nat := 0
def wkOff (d : Dev) (t : Nat) : Nat := weightBytes d t (qWeights d t)
def wvOff (d : Dev) (t : Nat) : Nat := wkOff d t + weightBytes d t (kWeights d t)
def woOff (d : Dev) (t : Nat) : Nat := wvOff d t + weightBytes d t (kWeights d t)
def vecsOff (d : Dev) (t : Nat) : Nat := woOff d t + weightBytes d t (qWeights d t)

/-- Code of weight i of the matrix at an offset. -/
def weightCode (d : Dev) (r : Req) (off i : Nat) : Nat :=
  let w := fmtBits (weightFmt d (dTenant r.desc))
  elemAt w (blockBytes d r (off + i * w / 8) (max 1 (w / 8))) (if w = 4 then i % 2 else 0)

/-- Weight i of the matrix at an offset; the spec names no place for the block scales of an MX format. -/
def weightVal (d : Dev) (r : Req) (off i : Nat) : Val :=
  let f := weightFmt d (dTenant r.desc)
  let v := decodeElem f (weightCode d r off i)
  if fmtIsMx f then scaled v (Config.blockScale f (codesOf (weightCode d r off) 32 (i / 32 * 32))) else v

/-! ### Stages -/

/-- The non-empty stages in ascending s, with their index (R168). -/
def stagesOf (d : Dev) (t : Nat) : List (Nat × BitVec 64) :=
  ((List.range 16).map (fun s => (s, stageWord d t s))).filter (fun w => decide (stKind w.2 ≠ 0))

/-- Stages of the prologue, of the head segment with NORMALISE in front, and of the home segment. -/
def prologueStages (d : Dev) (t : Nat) : List (Nat × BitVec 64) := (stagesOf d t).filter (fun w => decide (w.1 < 8))
def epilogueStages (d : Dev) (t : Nat) : List (Nat × BitVec 64) := (stagesOf d t).filter (fun w => decide (8 ≤ w.1))
def headStages (d : Dev) (t : Nat) : List (Nat × BitVec 64) :=
  ((epilogueStages d t).dropWhile (fun w => decide (stKind w.2 ≠ 0x10))).takeWhile (fun w => decide (stKind w.2 ≠ 0x12))
def homeStages (d : Dev) (t : Nat) : List (Nat × BitVec 64) :=
  ((epilogueStages d t).dropWhile (fun w => decide (stKind w.2 ≠ 0x12))).drop 1

/-- GAIN of an RMSNORM. -/
def stGain (w : BitVec 64) : Bool := decide (stKind w = 3) && decide (stArgA w % 2 = 1)

/-- Elements of a stage's vector in the layer block (R172). -/
def stageVecLen (d : Dev) (t : Nat) (st : Nat × BitVec 64) : Nat :=
  let q := queryHeads d t * headDim d t
  let k := kvHeads d t * headDim d t
  if stKind st.2 = 2 then
    if st.1 < 8 then (match stTarget st.2 with | 0 => dModel d t | 1 => q | 4 => q + k | _ => k)
    else if (homeStages d t).contains st then dModel d t else q
  else if stGain st.2 then
    if st.1 < 8 then (match stTarget st.2 with | 0 => dModel d t | 4 => 2 * headDim d t | _ => headDim d t)
    else headDim d t
  else 0

/-- Word i of the vector of stage s, FP32. -/
def stageVec (d : Dev) (r : Req) (s i : Nat) : W32 :=
  let t := dTenant r.desc
  let before := (((stagesOf d t).filter (fun w => decide (w.1 < s))).map (stageVecLen d t)).sum
  BitVec.ofNat 32 (leNat (blockBytes d r (vecsOff d t + 4 * (before + i)) 4))

/-- FP32 result of an element-wise stage (Table 07-3), with its vector's element and the arrived row's. -/
def stageElem (w : BitVec 64) (b arrived x : W32) : W32 :=
  match stKind w with
  | 0x01 => fMul x (stArgB w)
  | 0x02 => fAdd x b
  | 0x06 => fMin (fMax x (bf16to32 (fld w 47 32))) (bf16to32 (fld w 63 48))
  | 0x07 => fAdd x arrived
  | _ => x

/-- A value in a format goes on as an FP32 word. -/
def throughFmt (fmt : Nat) (rnd : Rnd) (y : W32) : W32 :=
  if fmt = 0 then y else rn32 (decodeElem fmt (castFp fmt rnd false (f32 y)))

/-- The cast of a stage (R170): element e of the stage's row at query position p. -/
def stageCast (r : Req) (st : Nat × BitVec 64) (p e : Nat) (y : W32) : W32 :=
  throughFmt (stFmt st.2) (rndOf (stRnd st.2) (srSeed (dTenant r.desc) (dLayer r.desc) st.1 p e)) y

/-- RMSNORM of a row, with its gains (R175). -/
def rmsNorm (w : BitVec 64) (gain : Nat → W32) (xs : List W32) : List W32 :=
  let k := rmsFinal (xs.foldl rmsAdd {}) (stArgB w)
  xs.mapIdx (fun e x =>
    let y := rn32 (vScale (-k.2.toInt) (vMul (f32 x) (f32 k.1)))
    if stGain w then fMul y (gain e) else y)

/-- Entry of the rotary table: (cos, sin) at an index; the table of the chain has 2,304 · P entries (R176). -/
def ropeAt (d : Dev) (t k : Nat) : W32 × W32 :=
  let a := 4096 * regFld d (R.TCX_ROPE_BASE t) 15 0 + 8 * k
  if k < 2304 * ropePairs d t then
    (BitVec.ofNat 32 (leNat (hiveRead d a 4)), BitVec.ofNat 32 (leNat (hiveRead d (a + 4) 4)))
  else (f32Nan, f32Nan)

/-- (cs, sn) of position p and pair i. -/
def ropeAngle (d : Dev) (t p i : Nat) : W32 × W32 :=
  let n := ropePairs d t
  let f := ropeAt d t (p % 256 * n + i)
  let c := ropeAt d t (256 * n + p / 256 * n + i)
  (fFma c.1 f.1 (fMul c.2 f.2 ^^^ 0x80000000), fFma c.2 f.1 (fMul c.1 f.2))

/-- ROPE of a head at position p (R176); `inverse` is the rotation of R200. -/
def ropeHead (d : Dev) (t : Nat) (inverse : Bool) (w : BitVec 64) (p : Nat) (xs : List W32) : List W32 :=
  let n := stArgA w % 256 + 1
  let halves := decide (stArgA w / 256 = 1)
  xs.mapIdx (fun e x =>
    if e < 2 * n then
      let i := if halves then e % n else e / 2
      let first := if halves then decide (e < n) else decide (e % 2 = 0)
      let a := xs.getD (if halves then i else 2 * i) 0
      let b := xs.getD (if halves then i + n else 2 * i + 1) 0
      let r := ropeAngle d t p i
      if first != inverse then
        (if first then fFma a r.1 (fMul b r.2 ^^^ 0x80000000) else fFma b r.1 (fMul a r.2 ^^^ 0x80000000))
      else (if first then fFma a r.1 (fMul b r.2) else fFma b r.1 (fMul a r.2))
    else x)

/-! ### Prologue and projections (R171, R173, R177) -/

/-- Element e of the input row i as it arrived (R173). -/
def arrivedElem (d : Dev) (r : Req) (i e : Nat) : W32 :=
  bf16to32 (leNat (inputBytes r (2 * (i * dModel d (dTenant r.desc) + e)) 2))

/-- A stage with TARGET X on row i. -/
def xStage (d : Dev) (r : Req) (i : Nat) (xs : List W32) (st : Nat × BitVec 64) : List W32 :=
  let ys := if stKind st.2 = 3 then rmsNorm st.2 (stageVec d r st.1) xs
    else xs.mapIdx (fun e x => stageElem st.2 (stageVec d r st.1 e) (arrivedElem d r i e) x)
  ys.mapIdx (fun e y => stageCast r st (qpos d r i) e y)

/-- FP32 words that the last stage left in FP32 are cast to BF16, RNE (R171). -/
def lastToBf16 (sts : List (Nat × BitVec 64)) (xs : List W32) : List W32 :=
  match sts.getLast? with
  | some st => if stFmt st.2 = 0 then xs.map (throughFmt 1 .rne) else xs
  | none => xs

/-- x′ of row i: what the projections take. -/
def xPrime (d : Dev) (r : Req) (i : Nat) : List W32 :=
  let t := dTenant r.desc
  let sts := (prologueStages d t).filter (fun w => decide (stTarget w.2 = 0))
  lastToBf16 sts (sts.foldl (xStage d r i) ((List.range (dModel d t)).map (arrivedElem d r i)))

/-- A projection: the trees of the 64-element tiles in ascending order, the first as it is, the others added, with
compensation under PCOMP (R177). -/
def project (pcomp : Bool) (xs ws : List Val) : W32 :=
  match (runsOf 64 xs.length (xs.zip ws)).map (fun ps => tree (ps.map (fun p => vMul p.1 p.2))) with
  | [] => 0
  | t :: ts =>
    let s := ts.foldl (addPair pcomp) (t, 0)
    if pcomp then fAdd s.1 s.2 else s.1

/-- q, k and v of a row on a cell, by head of the cell. -/
structure Qkv where
  q : List (List W32)
  k : List (List W32)
  v : List (List W32)
  deriving DecidableEq, Repr

/-- Projections run compensated under the header's PCOMP, but never in AX4 numerics mode (R142, R177). -/
def pcompOf (d : Dev) (t : Nat) : Bool := (tenantChain d t).pcomp && !ax4Mode d t

/-- n heads of a projection from head `first` of the die on, of a matrix at an offset. -/
def projectHeads (d : Dev) (r : Req) (off first n : Nat) (xs : List W32) : List (List W32) :=
  let t := dTenant r.desc
  let dm := dModel d t
  (List.range n).map (fun h => (List.range (headDim d t)).map (fun e =>
    project (pcompOf d t) (xs.map f32)
      ((List.range dm).map (fun a => weightVal d r off (((first + h) * headDim d t + e) * dm + a)))))

/-- A stage on heads: `sr` is the element at which they stand in the stage's row, `bias` and `gain` where their part of the
stage's vector starts. -/
def headsStage (d : Dev) (r : Req) (p sr bias gain : Nat) (st : Nat × BitVec 64) (hs : List (List W32)) : List (List W32) :=
  let dd := headDim d (dTenant r.desc)
  hs.mapIdx (fun h xs =>
    (match stKind st.2 with
      | 3 => rmsNorm st.2 (fun e => stageVec d r st.1 (gain + e)) xs
      | 4 => ropeHead d (dTenant r.desc) false st.2 p xs
      | _ => xs.mapIdx (fun e x => stageElem st.2 (stageVec d r st.1 (bias + h * dd + e)) 0 x)).mapIdx
        (fun e y => stageCast r st p (sr + h * dd + e) y))

/-- First query head of a cell on its die (R28, Table 07-8). -/
def firstQuery (d : Dev) (r : Req) (c : CellId) : Nat := kvRank d r c * groupOf d (dTenant r.desc)

/-- A stage with TARGET Q, K, V or QK at position p. -/
def qkvStage (d : Dev) (r : Req) (c : CellId) (p : Nat) (y : Qkv) (st : Nat × BitVec 64) : Qkv :=
  let t := dTenant r.desc
  let dd := headDim d t
  let bq := firstQuery d r c * dd
  let bk := kvRank d r c * dd
  match stTarget st.2 with
  | 1 => { y with q := headsStage d r p 0 bq 0 st y.q }
  | 2 => { y with k := headsStage d r p 0 bk 0 st y.k }
  | 3 => { y with v := headsStage d r p 0 bk 0 st y.v }
  | 4 => { y with q := headsStage d r p 0 bq 0 st y.q
                  k := headsStage d r p (y.q.length * dd) (queryHeads d t * dd + bk) dd st y.k }
  | _ => y

/-- Query heads of a cell. -/
def cellQueries (d : Dev) (t : Nat) : Nat := headsPerCell d t * groupOf d t

/-- q, k and v of row i in FP32, after every stage. -/
def qkvRow (d : Dev) (r : Req) (c : CellId) (i : Nat) : Qkv :=
  let t := dTenant r.desc
  let xs := xPrime d r i
  let sts := (prologueStages d t).filter (fun w => decide (stTarget w.2 ≠ 0))
  sts.foldl (qkvStage d r c (qpos d r i)) {
    q := projectHeads d r wqOff (firstQuery d r c) (cellQueries d t) xs
    k := projectHeads d r (wkOff d t) (kvRank d r c) (headsPerCell d t) xs
    v := projectHeads d r (wvOff d t) (kvRank d r c) (headsPerCell d t) xs }

/-- A row cast to a format of the products, RNE: an MX format by blocks of 32 (R120, R171). -/
def rowIn (fmt : Nat) (xs : List W32) : List Val :=
  if fmtIsMx fmt then
    (runsOf 32 xs.length (xs.map f32)).flatMap (fun b =>
      let y := quantBlock fmt (fun _ => .rne) b
      y.2.map (fun x => scaled (decodeElem fmt x) y.1))
  else xs.map (fun x => decodeElem fmt (castTo fmt .rne (f32 x)).1)

/-- Q_FMT of a tenant. -/
def qFmt (d : Dev) (t : Nat) : Nat := regFld d (R.TCX_PAGE t) 15 12

/-- q of row i and query head hq of the cell as it enters the products. -/
def queryVals (d : Dev) (r : Req) (c : CellId) (i hq : Nat) : List Val :=
  rowIn (qFmt d (dTenant r.desc)) ((qkvRow d r c i).q.getD hq [])

/-! ### Keys and values (R171, R220, R221) -/

/-- The key and the value of a position: elements with their MX scales, whether the format is an integer one, and the scales σ
of an integer page. -/
structure KvRow where
  k : List Val
  v : List Val
  int : Bool := false
  kSigma : Option W32 := none
  vSigma : Option W32 := none
  deriving DecidableEq, Repr

/-- Row of a flushed body. -/
def bodyRow (x : PageHead) (dd row : Nat) (d : Dev) : KvRow :=
  let w := fmtBits x.fmt
  let area (v : Bool) : List Val :=
    let bs := hbmRead d (tenantKey d x.tenant) (unitAddr d x.loc + ((if v then 2 ^ x.pshift else 0) + row) * dd * w / 8) (dd * w / 8)
    (List.range dd).map (fun e =>
      let y := decodeElem x.fmt (elemAt w bs e)
      if fmtIsMx x.fmt then scaled y ((if v then x.vScales else x.kScales).getD (row * (dd / 32) + e / 32) 0) else y)
  { k := area false, v := area true, int := fmtIsInt x.fmt
    kSigma := if fmtIsInt x.fmt then some x.kSigma else none, vSigma := if fmtIsInt x.fmt then some x.vSigma else none }

/-- The cache's row of a position of a sequence, for a KV head of the die; none in an ABSENT or DROPPED page, and beyond the
rows that the page holds. Provisional rows count where `prov` is set (R251). -/
def heldRow (d : Dev) (r : Req) (q h pos : Nat) (prov : Bool) : Option KvRow :=
  let l := dLayer r.desc
  let s := seqDesc d q
  let pl := mapPrefix d r q
  let i := pageIdx d s.tenant pl (pos - s.posLo)
  let row := pos - s.posLo - pageStart d s.tenant pl i
  let x := pageHead d q l h i
  let dd := headDim d s.tenant
  match pageState d q pl l h i with
  | .staged =>
    if row < x.valid ∨ prov = true then
      some { k := (groupRow x dd false row d).map (decodeElem 1), v := (groupRow x dd true row d).map (decodeElem 1) }
    else none
  | .flushed => if row < x.valid then some (bodyRow x dd row d) else none
  | _ => none

/-- Row of the request that writes key κ. -/
def ownRow (r : Req) (k : Nat) : Option Nat :=
  let i := if isPacked r then k else k - dPos r.desc
  if (isPacked r || decide (dPos r.desc ≤ k)) && decide (i < dRows r.desc) && decide (dOp r.desc ≠ opBACKWARD) then some i
  else none

/-- The page of a position is DROPPED: its positions are masked, the request's own among them (R221, R237). -/
def posDropped (d : Dev) (r : Req) (h q pos : Nat) : Bool :=
  let pl := mapPrefix d r q
  decide (pageState d q pl (dLayer r.desc) h (pageIdx d (seqDesc d q).tenant pl (pos - (seqDesc d q).posLo)) = .dropped)

/-- Key and value of key κ for KV head h of the cell: as the cache holds them, or, for a row of the request that the cache does
not hold, k and v in BF16 as the chain formed them (R171); nothing in a DROPPED page. -/
def keyRow (d : Dev) (r : Req) (c : CellId) (h k : Nat) : Option KvRow :=
  let at' : Nat × Nat := if isPacked r then rowPlace d r k else (dSeq r.desc, k)
  let prov := decide (dOp r.desc = opVERIFY) && decide (dPos r.desc ≤ k)
  if posDropped d r (kvRank d r c + h) at'.1 at'.2 then none
  else (heldRow d r at'.1 (kvRank d r c + h) at'.2 prov).or ((ownRow r k).map (fun i =>
    let y := qkvRow d r c i
    { k := rowIn 1 (y.k.getD h []), v := rowIn 1 (y.v.getD h []) }))

/-! ### Scores and the scout pass (R98, R123, R246 to R248) -/

/-- A tree over a head: 64-element groups, each rounded once, joined by the gang adders. -/
def headTree (kind : Nat) (int : Bool) (sigma : Option W32) (ms ss : List Val) : W32 :=
  (gangSum kind (int && sigma.isNone) ((runsOf 64 ms.length (ms.zip ss)).map (fun ps =>
    reduceTerms kind int sigma (ps.map (fun p => elemOp kind p.1 p.2))))).1

/-- Score of a query against a key. -/
def score1 (d : Dev) (t : Nat) (q : List Val) (x : KvRow) : W32 :=
  headTree 0 (fmtIsInt (qFmt d t) && x.int) x.kSigma q x.k

/-- METRIC of a tenant's pattern: squared distances, the smallest kept. -/
def patMetric (d : Dev) (t : Nat) : Bool := bit (getReg d (R.TCX_PATTERN t)) 27

/-- Scout score of page i for KV head h of the cell (R246). -/
def scoutScore (d : Dev) (r : Req) (c : CellId) (h i : Nat) : W32 :=
  let t := dTenant r.desc
  let sigma := ((cellPage d r (kvRank d r c + h) i).2.summary).map (decodeElem 1)
  let pairs := (List.range (dRows r.desc)).flatMap (fun row =>
    (List.range (groupOf d t)).map (fun g => (row, h * groupOf d t + g)))
  pairs.foldl (fun s p =>
    fAdd s (headTree (if patMetric d t then 1 else 0) false none (queryVals d r c p.1 p.2) sigma)) f32Zero

/-- Pages that a request can meet. -/
def requestPages (d : Dev) (r : Req) : List Nat := List.range (pageOfPos d r (dPos r.desc + dRows r.desc - 1) + 1)

/-- Selected pages of a KV head: the k candidates ranked first, by score in the direction of METRIC, then by page (R247). -/
def selectedPages (d : Dev) (r : Req) (c : CellId) (h : Nat) : List Nat :=
  let t := dTenant r.desc
  let cands := (requestPages d r).filter (isCandidate d r (kvRank d r c + h))
  let ranked := cands.foldl (fun l i =>
    topInsert false (patMetric d t) (scoutScore d r c h i, BitVec.ofNat 32 i) l) []
  (ranked.take (patK d t)).map (fun e => e.2.toNat)

/-- Pages that a KV head of the cell attends beside sinks and near span: the selected and the extra pages (R245, R248). -/
def scoutPages (d : Dev) (r : Req) (c : CellId) (h : Nat) : List Nat :=
  if rowKind d r = 2 then
    selectedPages d r c h ++ (requestPages d r).filter (isExtra d r (kvRank d r c + h))
  else []

/-! ### Softmax and output (R178 to R186) -/

/-- Cut the keys read, in ascending position, by blocks: one FATT step for each block (R178). DEDUCED (log 118): neither a gap in a
block nor a page that still awaits its flush makes a step of its own, for R136 and R138 give the same bits without them. -/
def blocksOf (block : Nat) : List Nat → List (List Nat)
  | [] => []
  | j :: js =>
    match blocksOf block js with
    | (k :: ks) :: rest => if j / block = k / block then (j :: k :: ks) :: rest else [j] :: (k :: ks) :: rest
    | rest => [j] :: rest

/-- The positions of a step, from KPOS, a multiple of 16, to the last key read: each with whether it is read; the others are
masked. -/
def stepSpan (ks : List Nat) : List (Nat × Bool) :=
  let lo := ks.headD 0 / 16 * 16
  (List.range (ks.getLastD 0 + 1 - lo)).map (fun n => (lo + n, ks.contains (lo + n)))

/-- A query row of one head on its way: its softmax row, its O pairs, and whether its first step is still to come. -/
structure AttRow where
  sm : SmRow := { empty := true }
  o : List (W32 × W32) := []
  first : Bool := true
  deriving DecidableEq, Repr

/-- A key as a step sees it: the key, whether the row attends it, and what is read there. -/
structure StepKey where
  pos : Nat
  on : Bool
  row : Option KvRow

/-- The key takes part: attended, and not of an ABSENT or DROPPED page (R221, R236, R237). -/
def StepKey.live (k : StepKey) : Bool := k.on && k.row.isSome

/-- What the row attends of a step. -/
def stepKeys (d : Dev) (r : Req) (c : CellId) (h : Nat) (sel : List Nat) (i : Nat) (ks : List Nat) : List StepKey :=
  (stepSpan ks).map (fun k =>
    if k.2 then { pos := k.1, on := attends d r sel i k.1, row := keyRow d r c h k.1 }
    else { pos := k.1, on := false, row := none })

/-- Block value of element e: P·V over the 16-token tiles in ascending order from zero, rn32(s + c) under COMP (R110, R180). -/
def blockValue (fmt : Nat) (comp : Bool) (ks : List (StepKey × Nat)) (e : Nat) : W32 :=
  let s := (runsOf 16 ks.length ks).foldl (fun s g =>
    let live := g.filterMap (fun k => if k.1.live then k.1.row.map (fun x => (x, k.2)) else none)
    addPair comp s (reduceTerms 0 false (live.head?.bind (fun x => x.1.vSigma))
      (live.map (fun x => vMul (decodeElem fmt x.2) (x.1.v.getD e (vZero false)))))) (f32Zero, f32Zero)
  if comp then fAdd s.1 s.2 else s.1

/-- What a step takes from the chain (R179). -/
def stepIn (d : Dev) (r : Req) (i kpos : Nat) : FattIn :=
  let t := dTenant r.desc
  let h := tenantChain d t
  { c := h.scaleC, exp := expf (ax4Mode d t) h.fast, fmt := h.pvFmt, comp := h.comp, kpos := kpos
    rnd := fun e => rndOf h.pvRnd (srSeed t (dLayer r.desc) 16 (qpos d r i) (kpos + e)) }

/-- One step: FATT on its scores, and CORR with its block value. The first one has FIRST set, which clears the flags (R178). -/
def attStep (d : Dev) (r : Req) (i : Nat) (q : List Val) (y : AttRow) (ks : List StepKey) : AttRow :=
  let t := dTenant r.desc
  let f := stepIn d r i ((ks.head?.map (·.pos)).getD 0)
  let sm := if y.first then { y.sm with empty := false, invalid := false } else y.sm
  let out := fattRow f sm (ks.map (fun k => ((k.row.map (score1 d t q)).getD 0, k.live)))
  let a := out.1.alphas.getLastD f32One
  let v (e : Nat) : W32 := blockValue f.fmt f.comp (ks.zip out.2.1) e
  { sm := { out.1 with alphas := [] }, first := false
    o := (List.range (headDim d t)).map (fun e =>
      if y.first then (v e, f32Zero) else addPair f.comp (scalePair f.comp a (y.o.getD e (f32Zero, f32Zero))) (v e)) }

/-- Largest unmasked score, with which the unfused path starts (R186). -/
def unfusedMax (d : Dev) (t : Nat) (q : List Val) (ks : List StepKey) : W32 :=
  (ks.filterMap (fun k => if k.live then k.row.map (score1 d t q) else none)).foldl fMax f32NegInf

/-- The request takes the unfused path. -/
def isUnfused (r : Req) : Bool := decide (dOp r.desc = opDECODE_U ∨ dOp r.desc = opPREFILL_U)

/-- m, l and O of row i under query head hq of the cell, after the last block. The unfused path knows the largest score from
the start, so that every α is 1 (R186). -/
def attention (d : Dev) (r : Req) (c : CellId) (i hq : Nat) : AttRow :=
  let t := dTenant r.desc
  let h := hq / groupOf d t
  let sel := scoutPages d r c h
  let q := queryVals d r c i hq
  let steps := (blocksOf (16 * 2 ^ (tenantChain d t).block) (keysRead d r sel)).map
    (stepKeys d r c h sel i)
  let start : AttRow :=
    if isUnfused r then { sm := { m := unfusedMax d t q steps.flatten, empty := true } } else {}
  let y := steps.foldl (attStep d r i q) start
  if y.first then { y with o := List.replicate (headDim d t) (f32Zero, f32Zero) } else y

/-- (m, L) of a row. -/
def rowMl (y : SmRow) : W32 × W32 := (y.m, fAdd y.ls y.lc)

/-- O values of a row: rn32(s + c). -/
def rowO (y : AttRow) : List W32 := y.o.map (fun p => fAdd p.1 p.2)

/-- NORMALISE (R183). -/
def normaliseO (l : W32) (invalid : Bool) (o : List W32) : List W32 :=
  o.map (fun v => if invalid then f32Nan else if (f32 l).isZero then 0 else fMul v (rcp l))

/-! ### Head segment and output projection (R171, R177, R187) -/

/-- The head segment on the normalised rows of the cell's query heads at position p: the cast of NORMALISE, the later stages,
and BF16 for OPROJ where the last of them left FP32. -/
def headSegment (d : Dev) (r : Req) (c : CellId) (p : Nat) (hs : List (List W32)) : List (List W32) :=
  let t := dTenant r.desc
  let sts := headStages d t
  (sts.foldl (fun hs st => headsStage d r p 0 (firstQuery d r c * headDim d t) 0 st hs) hs).map (lastToBf16 sts)

/-- 64 elements of the cell's partial output row, from its head outputs. -/
def outProject (d : Dev) (r : Req) (c : CellId) (hs : List (List W32)) (tile : Nat) : List W32 :=
  let t := dTenant r.desc
  let xs := hs.flatten
  let first := firstQuery d r c * headDim d t
  (List.range 64).map (fun e => project (pcompOf d t) (xs.map f32)
    ((List.range xs.length).map (fun n => weightVal d r (woOff d t) ((first + n) * dModel d t + 64 * tile + e))))

/-- Normalised rows of the cell's query heads for row i. -/
def normalRow (d : Dev) (r : Req) (c : CellId) (i : Nat) : List (List W32) :=
  (List.range (cellQueries d (dTenant r.desc))).map (fun hq =>
    let y := attention d r c i hq
    normaliseO (rowMl y.sm).2 y.sm.invalid (rowO y))

/-- 64 words of the cell's partial output of row i. -/
def chainTile (d : Dev) (r : Req) (c : CellId) (i tile : Nat) : List W32 :=
  outProject d r c (headSegment d r c (qpos d r i) (normalRow d r c i)) tile

/-! ### NORMALISE's marks (R184) -/

/-- Every row of the request and query head of the cell, rows outer. -/
def sendOrder (d : Dev) (r : Req) : List (Nat × Nat) :=
  (List.range (dRows r.desc)).flatMap (fun i => (List.range (cellQueries d (dTenant r.desc))).map (fun h => (i, h)))

/-- A row reaches NORMALISE: a fully masked one sets EMPTY_ROW and is counted, an INVALID one is counted. -/
def noteRow (c : CellId) (r : Req) (empty invalid : Bool) (d : Dev) : Dev :=
  if invalid then bump d (R.CEL_ROW_INVALID_CNT c.val) else if empty then noteEmptyRow r.uid c d else d

/-- The chain of the request passes NORMALISE on the head cells themselves: not on a SPLIT 1 sequence of several dies, whose
rows reach it once combined (R191, R194), and not in a BACKWARD or a COMMIT. -/
def normalises (d : Dev) (r : Req) (c : CellId) : Bool :=
  (headCell d (dTenant r.desc) c || r.express.isSome) && decide (dOp r.desc ≠ opCOMMIT) && decide (dOp r.desc ≠ opBACKWARD) &&
    !(multiDie d (dSeq r.desc) && bit (getReg d (R.TCX_MODE (dTenant r.desc))) 2)

/-- The rows of a cell's token reach NORMALISE, at the end of its program. -/
def normaliseRows (c : CellId) (r : Req) (d : Dev) : Dev :=
  if normalises d r c then
    ((sendOrder d r).map (fun e => (attention d r c e.1 e.2).sm)).foldl (fun d y => noteRow c r y.empty y.invalid d) d
  else d

/-! ### Statistics and gradients (R196 to R200) -/

/-- Where the statistics of a row and a query head of the die go (R196). -/
def statsAddr (d : Dev) (r : Req) (row head : Nat) : Nat :=
  let t := dTenant r.desc
  let p := rowPlace d r row
  (seqDesc d p.1).statsBase + 8 * ((p.2 * layersOf d t + dLayer r.desc) * queryHeads d t + head)

/-- m and l that a forward saved for a row and a query head of the cell. -/
def savedMl (d : Dev) (r : Req) (c : CellId) (i hq : Nat) : W32 × W32 :=
  let bs := hbmRead d (tenantKey d (dTenant r.desc)) (statsAddr d r i (firstQuery d r c + hq)) 8
  (BitVec.ofNat 32 (leNat (bs.take 4)), BitVec.ofNat 32 (leNat (bs.drop 4)))

/-- dO of a row and a query head of the cell (R197). -/
def gradIn (d : Dev) (r : Req) (c : CellId) (i hq : Nat) : List Val :=
  let t := dTenant r.desc
  let n := queryHeads d t * headDim d t
  let off := dRows r.desc * dModel d t * 2 + 2 * (i * n + (firstQuery d r c + hq) * headDim d t)
  (List.range (headDim d t)).map (fun e => decodeElem 1 (leNat (inputBytes r (off + 2 * e) 2)))

/-- What a row and a head have at one key: P, dP in FP32. -/
structure GradKey where
  pos : Nat
  row : KvRow
  p : W32
  dp : W32

/-- P and dP of a row and a head at the keys that it attends, by 16-token tiles; nothing where l is 0 or m is −∞ (R198). -/
def gradKeys (d : Dev) (r : Req) (c : CellId) (i hq : Nat) : List (List GradKey) :=
  let t := dTenant r.desc
  let h := hq / groupOf d t
  let ml := savedMl d r c i hq
  let q := queryVals d r c i hq
  let g := gradIn d r c i hq
  if (f32 ml.2).isZero ∨ ml.1 = f32NegInf then []
  else
    (blocksOf 16 (keysRead d r [])).map (fun ks =>
      (stepKeys d r c h [] i ks).filterMap (fun k => if k.on then k.row.map (fun x =>
        let f := stepIn d r i k.pos
        let p := castFp f.fmt (f.rnd 0) false (f32 (f.exp (fFss (score1 d t q x) ml.1 f.c)))
        { pos := k.pos, row := x, p := fMul (rn32 (decodeElem f.fmt p)) (rcp ml.2), dp := headTree 0 false x.vSigma g x.v })
        else none))

/-- The value of a pair. -/
def pairVal (comp : Bool) (s : W32 × W32) : W32 := if comp then fAdd s.1 s.2 else s.1

/-- D_i of a row and a head. -/
def gradD (comp : Bool) (ts : List (List GradKey)) : W32 :=
  pairVal comp (ts.foldl (fun s t =>
    addPair comp s (rn32 (t.foldl (fun a k => vAdd a (vMul (f32 k.p) (f32 k.dp))) (vZero false)))) (f32Zero, f32Zero))

/-- dS of a row and a head at a key, in BF16; c_n is the natural-log form of the score scale. -/
def gradS (cn dsum : W32) (k : GradKey) : Val := decodeElem 1 (toBf16 (fMul (fFss k.dp dsum k.p) cn))

/-- A row and a head of a BACKWARD: its tiles with dS at every key. -/
def gradRow (d : Dev) (r : Req) (c : CellId) (i hq : Nat) : List (List (GradKey × Val)) :=
  let h := tenantChain d (dTenant r.desc)
  let ts := gradKeys d r c i hq
  ts.map (fun t => t.map (fun k => (k, gradS (fMul h.scaleC 0x3F317218) (gradD h.comp ts) k)))

/-- dQ of a row and a head. -/
def gradQ (d : Dev) (r : Req) (c : CellId) (i hq : Nat) : List W32 :=
  let t := dTenant r.desc
  let comp := (tenantChain d t).comp
  let ts := gradRow d r c i hq
  (List.range (headDim d t)).map (fun e => pairVal comp (ts.foldl (fun s ks =>
    addPair comp s (reduceTerms 0 false (ks.head?.bind (fun k => k.1.row.kSigma))
      (ks.map (fun k => vMul k.2 (k.1.row.k.getD e (vZero false)))))) (f32Zero, f32Zero)))

/-- Sum for a key over the rows in ascending groups of 16, and over the query heads of its KV head within each group. -/
def gradKv (d : Dev) (r : Req) (c : CellId) (h pos : Nat) (term : Nat → Nat → GradKey × Val → Nat → Val) : List W32 :=
  let t := dTenant r.desc
  let comp := (tenantChain d t).comp
  let groups := runsOf 16 (dRows r.desc) (List.range (dRows r.desc))
  let hits (i hq : Nat) : Option (GradKey × Val) := ((gradRow d r c i hq).flatten).find? (fun k => decide (k.1.pos = pos))
  (List.range (headDim d t)).map (fun e => pairVal comp
    ((groups.flatMap (fun g => (List.range (groupOf d t)).map (fun n => (g, h * groupOf d t + n)))).foldl (fun s p =>
      addPair comp s (tree (p.1.filterMap (fun i => (hits i p.2).map (fun k => term i p.2 k e))))) (f32Zero, f32Zero)))

/-- dK and dV of a key. -/
def gradK (d : Dev) (r : Req) (c : CellId) (h pos : Nat) : List W32 :=
  gradKv d r c h pos (fun i hq k e => vMul k.2 ((queryVals d r c i hq).getD e (vZero false)))
def gradV (d : Dev) (r : Req) (c : CellId) (h pos : Nat) : List W32 :=
  gradKv d r c h pos (fun i hq k e => vMul (decodeElem 1 (toBf16 k.1.p)) ((gradIn d r c i hq).getD e (vZero false)))

/-- A gradient through the stages of a target, in reverse, and to BF16 (R200). -/
def gradBack (d : Dev) (r : Req) (targets : List Nat) (p : Nat) (xs : List W32) : List W32 :=
  let t := dTenant r.desc
  let sts := (prologueStages d t).filter (fun w => targets.contains (stTarget w.2))
  (sts.reverse.foldl (fun xs st =>
    match stKind st.2 with
    | 1 => xs.map (fun x => fMul x (stArgB st.2))
    | 4 => ropeHead d t true st.2 p xs
    | _ => xs) xs).map (throughFmt 1 .rne)

/-- Row a of dW of one head: over the rows in ascending groups of 16. -/
def gradW (d : Dev) (r : Req) (grad : Nat → List W32) (a : Nat) : List W32 :=
  let t := dTenant r.desc
  let comp := (tenantChain d t).comp
  let groups := runsOf 16 (dRows r.desc) (List.range (dRows r.desc))
  (List.range (headDim d t)).map (fun e => pairVal comp (groups.foldl (fun s g =>
    addPair comp s (tree (g.map (fun i => vMul (f32 ((xPrime d r i).getD a 0)) (f32 ((grad i).getD e 0))))))
    (f32Zero, f32Zero)))

/-- Keys from the lowest position read up to POS + ROWS − 1 (R199). -/
def gradSpan (d : Dev) (r : Req) : List Nat :=
  let lo := lowestRead d r.desc
  (List.range (dPos r.desc + dRows r.desc - lo)).map (lo + ·)

/-- What a head cell gives of a BACKWARD's result: word offsets from OUT_ADDR / 4, each with a run of words. In order dQ by (row,
head), dK and dV by (position, head), and with PROJ_GRAD dW_q, dW_k and dW_v (R199, R200). -/
def gradRuns (d : Dev) (r : Req) (c : CellId) : List (Nat × List W32) :=
  let t := dTenant r.desc
  let dd := headDim d t
  let nq := queryHeads d t
  let nk := kvHeads d t
  let dm := dModel d t
  let q0 := firstQuery d r c
  let k0 := kvRank d r c
  let qs := List.range (cellQueries d t)
  let ks := List.range (headsPerCell d t)
  let rows := List.range (dRows r.desc)
  let span := gradSpan d r
  let oK := dRows r.desc * nq * dd
  let oV := oK + span.length * nk * dd
  let oW := oV + span.length * nk * dd
  let key (o : Nat) (f : Nat → Nat → List W32) : List (Nat × List W32) :=
    (span.mapIdx (fun n p => ks.map (fun h => (o + (n * nk + k0 + h) * dd, f h p)))).flatten
  let w (o n first : Nat) (hs : List Nat) (f : Nat → Nat → List W32) : List (Nat × List W32) :=
    (List.range dm).flatMap (fun a => hs.map (fun h => (o + (a * n + first + h) * dd, gradW d r (f h) a)))
  rows.flatMap (fun i => qs.map (fun hq => ((i * nq + q0 + hq) * dd, gradQ d r c i hq))) ++
    key oK (gradK d r c) ++ key oV (gradV d r c) ++
    (if dArg r.desc = 1 then
      w oW nq q0 qs (fun hq i => gradBack d r [1, 4] (qpos d r i) (gradQ d r c i hq)) ++
      w (oW + dm * nq * dd) nk k0 ks (fun h i => gradBack d r [2, 4] (qpos d r i) (gradK d r c h i)) ++
      w (oW + dm * (nq + nk) * dd) nk k0 ks (fun h i => gradBack d r [3] (qpos d r i) (gradV d r c h i))
     else [])

end Sys2Proof.Machine
end

