-- ==== Sys2Proof/Machine/Tokens.lean ====
section
/-!
DEFINITION. Work tokens (02, 03): the order in which a cell pulls them (R23), the retirement of killed ones (R82), the
skip for want of input (R33), and COMMIT, which acts as its token starts (R253, R254).
-/

namespace Sys2Proof.Machine

open Sys2Proof

/-! ### The queue of a cell (R22, R23, R46) -/

/-- A token may be pulled now: in the execute phase of its tick, or later on a cell that its tick left late (R46). -/
def tokenTime (d : Dev) (t : Token) : Bool :=
  d.tick.running && (decide (t.tick < d.tick.num) ||
    (decide (t.tick = d.tick.num) && (decide (d.tick.phase = .execute) ||
      d.ent.late.any (fun l => decide (l.tick = t.tick) && l.cells.contains t.cell))))

/-- Token a stands before token b: by tick, then bucket, then admission (R23). -/
def tokenBefore (a b : Token) : Bool :=
  decide (a.tick < b.tick) || (decide (a.tick = b.tick) && (decide (a.bucket < b.bucket) ||
    (decide (a.bucket = b.bucket) && decide (a.uid ≤ b.uid))))

/-- An express lane pulls only express tokens (R23). -/
def laneFits (d : Dev) (c : CellId) (r : Req) : Bool :=
  (!(expressEn d && decide (c.val < 4))) || r.express.isSome

/-- A token stands in the queue of its cell: an express one from its release on (R52). -/
def delivered (r : Req) : Bool := r.express.isNone || r.released

/-- The token that a free cell comes to next. -/
def nextToken (d : Dev) (c : CellId) : Option Token :=
  let mine := d.ent.tokens.filter (fun t => decide (t.cell = c) && decide (t.st = .queued) && tokenTime d t &&
    (match findReq d t.uid with | some r => laneFits d c r && delivered r | none => false))
  mine.foldl (fun m t => match m with
    | none => some t
    | some b => if tokenBefore b t then some b else some t) none

/-- The token that a cell comes to next, and its request, while no token runs on the cell. -/
def turnOf (d : Dev) (c : CellId) : Option (Token × Req) :=
  if (cellToken d c).isSome then none
  else (nextToken d c).bind (fun t => (findReq d t.uid).map (fun r => (t, r)))

/-- A kill applies to a token (R82, R83). -/
def killApplies (r : Req) (t : Token) : Bool :=
  match r.killAt with
  | some k => decide (k ≤ t.tick)
  | none => false

/-! ### COMMIT (R253, R254) -/

/-- Kept candidates of a COMMIT in ascending order. -/
def keptOf (r : Req) : List Nat := (List.range 16).filter (fun i => (dArg r.desc).testBit i)

/-- Page and row of a position of a COMMIT's sequence; none where its page is not STAGED. -/
def commitRow (d : Dev) (q l h pos : Nat) : Option (Nat × PageHead × Nat) :=
  let x := seqDesc d q
  let local' := pos - x.posLo
  let i := pageIdx d x.tenant x.prefixLen local'
  (leafOf d q l h i).bind (fun u =>
    let y := headAt d (16 * u + i % 16)
    if y.st = .staged then some (16 * u + i % 16, y, local' - pageStart d x.tenant x.prefixLen i) else none)

/-- Move a candidate's K and V rows, and count its position in VALID. -/
def commitMove (q l h src dst : Nat) (d : Dev) : Dev :=
  match commitRow d q l h src, commitRow d q l h dst with
  | some a, some b =>
    let dd := headDim d b.2.1.tenant
    let d := if src = dst then d
      else groupPut b.2.1 dd b.2.2 (groupRow a.2.1 dd false a.2.2 d) (groupRow a.2.1 dd true a.2.2 d) d
    let n := max b.2.1.valid (b.2.2 + 1)
    setHead b.1 { b.2.1 with
      valid := n, fillTick := if n = 2 ^ b.2.1.pshift ∧ b.2.1.valid < n then d.tick.num else b.2.1.fillTick } d
  | _, _ => d

/-- Free the slot group of a page that holds no row of VALID; none of its rows is provisional any more. -/
def commitFree (q l h pos : Nat) (d : Dev) : Dev :=
  match commitRow d q l h pos with
  | some a =>
    if a.2.1.valid = 0 then setHead a.1 {} (freeGroup a.2.1 (headDim d a.2.1.tenant) d)
    else setHead a.1 { a.2.1 with prov := [] } d
  | none => d

/-- COMMIT of one layer and KV head: n candidates from position pos. -/
def commitHead (q l h pos n : Nat) (keep : List Nat) (d : Dev) : Dev :=
  let lost := ((List.range n).filter (fun i => !keep.contains i && (match commitRow d q l h (pos + i) with
    | some a => a.2.1.prov.contains a.2.2
    | none => false))).length
  let d := (keep.mapIdx (fun k c => (k, c))).foldl (fun d e => commitMove q l h (pos + e.2) (pos + e.1) d) d
  bumpBy ((List.range n).foldl (fun d i => commitFree q l h (pos + i) d) d) R.KVC_SPEC_DISCARD_CNT lost

/-- KV heads of a cell, as ranks among the layer's heads. -/
def cellHeads (d : Dev) (r : Req) (c : CellId) : List Nat :=
  (List.range (headsPerCell d (dTenant r.desc))).map (fun h => kvRank d r c + h)

/-- Every head cell of a request has started its token. -/
def allStarted (d : Dev) (uid : Nat) : Bool :=
  d.ent.tokens.all (fun t => decide (t.uid ≠ uid) || decide (t.st ≠ .queued))

/-- COMMIT on a head cell: rows moved on every layer, or under BAD every provisional row discarded. After the last head
cell LENGTH advances and the SPEC field goes. -/
def commitCell (c : CellId) (r : Req) (d : Dev) : Dev :=
  let q := dSeq r.desc
  let t := dTenant r.desc
  let bad := r.checkFailed || (match (seqDesc d q).spec with | some s => s.bad | none => true)
  if !headCell d t c then d
  else if bad then
    let d := if r.checkFailed then d else discardSpec q d
    let d := updReq r.uid (fun r => { r with killed := true, checkFailed := true }) d
    updSeq q (fun s => { s with spec := none }) (report (tokenReport r 0x2D (unitCell c) 0 0) d)
  else
    let n := match (seqDesc d q).spec with | some s => s.n | none => 0
    (List.range (layersOf d t)).foldl (fun d l =>
      (cellHeads d r c).foldl (fun d h => commitHead q l h (dPos r.desc) n (keptOf r) d) d) d

/-- After the start of the last cell of a COMMIT that was not BAD. -/
def commitEnd (r : Req) (d : Dev) : Dev :=
  match findReq d r.uid with
  | none => d
  | some x =>
    if x.checkFailed || !allStarted d r.uid then d
    else
      bump (updSeq (dSeq r.desc) (fun s => { s with length := s.length + dRows r.desc, spec := none }) d) R.KVC_COMMIT_CNT

/-! ### TOKEN_START (R22, R23, R33, R50, R82) -/

/-- Cells that receive the input rows: the head cells, the express cell, and the home cell where the home segment adds the arrived
row (01 step 2, R173). -/
def takesInput (d : Dev) (r : Req) (c : CellId) : Bool :=
  let t := dTenant r.desc
  headCell d t c || decide (r.express = some c) ||
    (decide (homeCell d t = c) && (homeStages d t).any (fun w => decide (stKind w.2 = 7)))

/-- The hidden rows in a cell's moving-side operand buffer as its token starts (R88, 01 step 2). DESIGN CHOICE (log 102): they
stand from byte 0 on, as many whole rows as the 32 KiB hold. -/
def placeRows (c : CellId) (r : Req) (d : Dev) : Dev :=
  let row := 2 * dModel d (dTenant r.desc)
  if takesInput d r c && decide (dOp r.desc ≠ opCOMMIT) then
    updCell c (bufPut true 0 (inputBytes r 0 (row * min (dRows r.desc) (bufSize true / row)))) d
  else d

/-- The cell takes the tick program that the current image lists for the request's OP and bucket, so that every token of the two
runs the same instructions (R86). Where none is listed the cell has no instruction to run (log 11). -/
def placeProgram (c : CellId) (r : Req) (d : Dev) : Dev :=
  match tickArea d (dTenant r.desc) (dOp r.desc) r.bucket with
  | some p => updCell c (fun x => { x with
      prog := progWords d (dTenant r.desc) p.1 p.2, pc := 0, badWords := progBad d p.1 p.2 }) d
  | none => d

/-- A cell pulls a token. -/
def beginToken (c : CellId) (r : Req) (d : Dev) : Dev :=
  let d := if d.mem.diagUnits.any (fun k => decide (k.1 = c.val)) then diagEnd c d else d
  let d := updToken r.uid c (fun t => { t with st := .running, startCyc := ccount d }) d
  (reqSeqs r.desc).foldl (fun d q => updSeq q (fun s => { s with lruTick := d.tick.num }) d) d

/-- The tick program of a token starts; a COMMIT acts. -/
def runToken (c : CellId) (r : Req) (d : Dev) : Dev :=
  let d := placeProgram c r (placeRows c r (beginToken c r d))
  if dOp r.desc = opCOMMIT then commitEnd r (commitCell c r d) else d

/-- The request with its input row as it stands in the express buffer (R50). -/
def expressRow (d : Dev) (r : Req) : Req :=
  match r.expBuf with
  | none => r
  | some (p, b) => { r with
      input := tblPutList [] 0 (tblGetList 0 (expBufOf (getPort d p) b).bytes 0 (inputLen d r.desc)), expBuf := none }

/-- An express cell reads its input row from the express buffer, which is then free (R50). -/
def takeExpress (r : Req) (d : Dev) : Dev :=
  match r.expBuf with
  | none => d
  | some (p, b) => setExpBuf p b {} (updReq r.uid (fun _ => expressRow d r) d)

/-- A killed token is retired in its place: no output, nothing appended (R82). -/
def retireToken (c : CellId) (r : Req) (d : Dev) : Dev :=
  finishToken r.uid c (updReq r.uid (fun r => { r with killed := true, suppressed := true }) d)

/-- A cell comes to its next token. -/
def startToken (c : CellId) (d : Dev) : Dev :=
  match turnOf d c with
  | none => d
  | some (t, r) =>
    if killApplies r t then retireToken c r d
    else if t.combine then (if r.combined then beginToken c r d else d)
    else if r.express.isSome then runToken c (expressRow d r) (takeExpress r d)
    else if inputComplete d r then runToken c r d
    else d

/-- TOKEN_START. -/
def execTokenStart (cell : CellId) (s : State) : Host.Outcome State Fault Refusal :=
  onDev (fun d => onlyIf (alive d && cellClocked d cell) (startToken cell) d) s

/-! ### TOKEN_SKIP (R33) -/

/-- Input close of a tick has passed. -/
def inputClosed (d : Dev) (n : Nat) : Bool :=
  decide (n < d.tick.num) || (decide (n = d.tick.num) && !d.tick.inputOpen)

/-- The cell skips a token whose input is not complete: the first skip writes the record. -/
def skipToken (c : CellId) (r : Req) (d : Dev) : Dev :=
  let g := guardTake (tokenReport r 0x27 (unitCell c) 0 0) d
  let d := finishToken r.uid c g.2
  if r.recordWritten then retireReq r.uid d
  else
    let r' := { r with
      killed := true, suppressed := true, inputMissing := true, errRef := if r.errRef = 0 then g.1 else r.errRef }
    completeReq r' (updReq r.uid (fun _ => r') d)

/-- TOKEN_SKIP. -/
def execTokenSkip (cell : CellId) (s : State) : Host.Outcome State Fault Refusal :=
  onDev (fun d =>
    match turnOf d cell with
    | none => d
    | some (t, r) =>
      onlyIf (alive d && cellClocked d cell && !t.combine && !killApplies r t && r.express.isNone && !inputComplete d r &&
        inputClosed d t.tick) (skipToken cell r) d) s

end Sys2Proof.Machine
end

