-- ==== Sys2Proof/Machine/Errors.lean ====
section
/-!
DEFINITION. Errors that units report on their own (15): the report itself with the action of its code (R276, R224, R225,
R299, R378, R380), the TIMING report of a late tick (R48, R394), and the keeper's watchdog (R390).
-/

namespace Sys2Proof.Machine

open Sys2Proof

/-! ### ERROR_REPORT (R378, R380) -/

/-- The word that an uncorrectable error names stays bad until it is written (R276). -/
def markBad (r : Report) (d : Dev) : Dev :=
  let a := r.addr.toNat
  let u := r.unit.toNat
  if r.code = 0x21 then
    if u < 64 then if r.place ≠ .memory then d else { d with mem := { d.mem with badCm := d.mem.badCm ++ [(0x400000 * u + a % 0x400000) / 16] } }
    else { d with mem := { d.mem with badHive := d.mem.badHive ++ [a / 16] } }
  else if r.code = 0x22 ∨ r.code = 0x23 then { d with mem := { d.mem with badHbm := d.mem.badHbm ++ [a / 64] } }
  else d

/-- Running tokens that the error met: that of the reporting cell, or those of the request that the report names. -/
def metTokens (d : Dev) (r : Report) : List (CellId × Token) :=
  (List.finRange 64).filterMap (fun c => (cellToken d c).bind (fun t =>
    if r.unit.toNat < 64 then (if c.val = r.unit.toNat then some (c, t) else none)
    else match r.tenant, r.seq, findReq d t.uid with
      | some n, some q, some x =>
        if n.toNat = dTenant x.desc ∧ q.toNat = dSeq x.desc ∧ r.req = dReqId x.desc then some (c, t) else none
      | _, _, _ => none))

/-- The tokens that met the error stop. A refused access to a bank that is not ON ends with BANK_OFF where it was a write;
the report does not say which it was. -/
def stopMet (r : Report) (ref : W32) (ts : List (CellId × Token)) (d : Dev) : Dev :=
  let g := freshNat d
  let bankOff := decide (r.code = 0x26) && decide (g.1 % 2 = 1)
  ts.foldl (fun d e => stopToken e.1 e.2 bankOff ref d) g.2

/-- The sequence descriptor table of 32 MiB (R205): the sequence whose descriptor holds an address. -/
def descAt (d : Dev) (a : Nat) : Option Nat :=
  let b := getReg64 d R.KVC_SEQ_BASE_LO R.KVC_SEQ_BASE_HI
  if b ≤ a ∧ a < b + 0x2000000 then some ((a - b) / 128) else none

/-- What cache control and the weight engine do for an error (R224, R225, R299). -/
def errorAct (r : Report) (ref : W32) (d : Dev) : Dev :=
  let a := r.addr.toNat
  match r.seq with
  | some q =>
    if r.code = 0x22 then
      match descAt d a with
      | some q' => descError q' d
      | none => match (frameAtAddr d a).bind (cacheSpot d q.toNat false) with
        | some x => cacheError q.toNat x ref d
        | none => d
    else if r.code = 0x21 ∧ 64 ≤ r.unit.toNat ∧ slotHive 0 ≤ a then
      match cacheSpot d q.toNat true ((a - slotHive 0) / 4096) with
      | some x => cacheError q.toNat x ref d
      | none => d
    else d
  | none => d

/-- A weight error in HBM quarantines the tenant (R299); one in a hot block or the rotary table sets BARRIER and asks for its
copy (R276, R300). -/
def weightAct (r : Report) (d : Dev) : Dev :=
  match r.tenant with
  | some t =>
    if r.code = 0x23 then quarantine t.toNat d
    else if r.code = 0x21 ∧ 64 ≤ r.unit.toNat then
      match hotBlockAt d t.toNat r.addr.toNat with
      | some b => askRecopy t.toNat b d
      | none => d
    else d
  | none => d

/-- ECC counter of the reporting unit (Tables 05-10, 06-9, 10-9, 10-10, 12-10): its low half counts corrected errors, its
high half uncorrectable ones. An operand buffer has no counter of its own: which count of the cell it joins is free. -/
def eccCounter (r : Report) (n : Nat) : Option Nat :=
  let u := r.unit.toNat
  if u < 64 then
    some (match r.place with
      | .accumulator => R.CEL_ACC_ECC_CNT u
      | .vector => R.CEL_VE_ECC_CNT u
      | .operand => (match n % 3 with | 0 => R.CEL_CM_ECC_CNT u | 1 => R.CEL_ACC_ECC_CNT u | _ => R.CEL_VE_ECC_CNT u)
      | _ => R.CEL_CM_ECC_CNT u)
  else if u < 96 then some R.HIV_ECC_CNT
  else if u < 104 then some (R.HBM_CTL_ECC_CNT (u - 96))
  else none
def countEcc (r : Report) (lo : Nat) (d : Dev) : Dev :=
  let g := freshNat d
  match eccCounter r g.1 with
  | some o => bumpHalf g.2 o lo 1
  | none => g.2

/-- The counter of the unit that detects an error (R95, R130, R167, R267, R275, R276, R304). -/
def countDetected (r : Report) (d : Dev) : Dev :=
  let u := r.unit.toNat
  if r.code = 0x21 ∨ r.code = 0x22 ∨ r.code = 0x23 then countEcc r 16 d
  else if 64 ≤ u then d
  else if r.code = 0x20 then bump d (R.CEL_ARR_PAR_CNT u)
  else if r.code = 0x25 then bump d (R.CEL_WIN_FAULT_CNT u)
  else if r.code = 0x26 then
    if bit r.info 7 then bump d R.HIV_BAND_LATE_CNT else bump d (R.CEL_BANK_LATE_CNT u)
  else d

/-- An error that a code corrects makes no record: the guard and the unit count it (R379, Table 15-1). -/
def correctedError (r : Report) (d : Dev) : Dev :=
  let d := countCorrected 1 d
  if r.place = .stack ∧ 96 ≤ r.unit.toNat ∧ r.unit.toNat < 104 then bump d (R.HBM_DIE_ECC_CNT (r.unit.toNat - 96))
  else countEcc r 0 d

/-- The guard takes one report; the units act on it unless they have stopped (R385). -/
def errorReport (r : Report) (d : Dev) : Dev :=
  let ts := metTokens d r
  let d' := markBad r d
  let g := guardTake r (if d.guard.stopped then d' else countDetected r d')
  if errClass r.code = 1 ∧ r.code.toNat ≤ 0x26 ∧ d.guard.stopped = false then
    stopMet r g.1 ts (weightAct r (errorAct r g.1 g.2))
  else g.2

/-- ERROR_REPORT: codes that Table 15-2 does not list are reserved, and each has the units of R397; a corrected error needs none. -/
def execErrorReport (report : Report) (s : State) : Host.Outcome State Fault Refusal :=
  onDev (fun d => onlyIf (powered d && decide (powerState d ≠ 3) && (report.corrected || unitFits report.code report.unit))
    (if report.corrected then correctedError report else errorReport report) d) s

/-! ### TIMING_RECORD (R48, R394, Table 15-5) -/

/-- The largest overrun of a late tick and its cell. -/
def worstOverrun (l : LateTick) : CellId × Nat :=
  l.overruns.foldl (fun m o => if m.2 < o.2 then o else m) (l.overruns.headD (0, 0))

/-- INFO of TIMING (Table 15-5): the stalls of the cell with the largest overrun by cause, in units of 16 cycles. -/
def timingInfo (l : LateTick) : Nat :=
  let w := worstOverrun l
  let stalls := (List.range 4).flatMap (fun i => leBytes 2 (min (tblGet 0 l.stalls (4 * w.1.val + i) / 16) 0xFFFF))
  l.cells.length + w.1.val * 2 ^ 8 + (w.2 % 2 ^ 32) * 2 ^ 32 + leNat stalls * 2 ^ 64

/-- The TIMING report of a late tick all of whose late cells have finished. -/
def timingRecord (l : LateTick) (d : Dev) : Dev :=
  let d := (guardTakeAt l.tick { mkReport 0x01 unitTick with info := BitVec.ofNat 160 (timingInfo l) } d).2
  { d with
    tel := { d.tel with overrunInt := max d.tel.overrunInt (worstOverrun l).2 }
    ent := { d.ent with late := d.ent.late.map (fun x => if x.tick = l.tick then { x with taken := true } else x) } }

/-- TIMING_RECORD. -/
def execTimingRecord (tick : Nat) (s : State) : Host.Outcome State Fault Refusal :=
  onDev (fun d =>
    match d.ent.late.find? (fun l => l.tick = tick) with
    | none => d
    | some l => onlyIf (alive d && !l.taken && l.cells.all (fun c => l.overruns.any (fun o => o.1 = c))) (timingRecord l) d) s

/-! ### KEEPER_WATCHDOG_EXPIRY (R390) -/

/-- The keeper core is reset, and restarted if the digest of keeper memory holds. -/
def keeperRestart (d : Dev) : Dev :=
  let d := bump (report (mkReport 0x35 unitKeeper) d) R.KPR_RESTART_CNT
  { d with keeper := { d.keeper with running := keeperMemOk d, wdogTick := d.tick.num } }

/-- KEEPER_WATCHDOG_EXPIRY: the watchdog has run out, or the core read an uncorrectable word of keeper memory. -/
def execKeeperWatchdogExpiry (unc : Bool) (found : Option (List Byte)) (s : State) : Host.Outcome State Fault Refusal :=
  onDev (fun d =>
    onlyIf (alive d && d.keeper.running &&
      (unc || decide (d.keeper.wdogTick + regFld d R.KPR_WDOG_TICKS 7 0 < d.tick.num)))
      (fun d => keeperRestart (keeperFound found d)) d) s

end Sys2Proof.Machine
end

