-- ==== Sys2Proof/Machine/Nectar.lean ====
section
/-!
DEFINITION. The nectar path (04): LOAD, DOT, ACC and READ (R107 to R111), with the scales of a page taken from the stream
ahead of its elements.
-/

namespace Sys2Proof.Machine

open Sys2Proof

/-! ### Fields (Table 04-9) -/

def nRows (w : IWord) : Nat := fld w 68 67 + 1
def nDim (w : IWord) : Nat := 64 * 2 ^ fld w 70 69

/-- Change the nectar path of a cell. -/
def updNect (c : CellId) (f : NectSt → NectSt) (d : Dev) : Dev := updCell c (fun x => { x with nect := f x.nect }) d

/-- Bank that a word names. -/
def nBank (x : NectSt) (w : IWord) : BankSt := if bit w 66 then x.bank1 else x.bank0

/-- Value of a bank element. -/
def bankVal (b : BankSt) (r e : Nat) : Val := decodeElem b.fmt (tblGet 0 b.elems (256 * r + e))

/-! ### LOAD -/

/-- Checks of a LOAD word. -/
def nectLoadOk (w : IWord) : Bool :=
  wordOk w 0x13 256 [fDst, fSrcB, fMask, fFmtOut, fRnd, fComp, (71, 71), (79, 72), (80, 80), (127, 81)] &&
    decide (fld w 65 64 = 0) && decide (iFmtIn w = 1 ∨ iFmtIn w = 2 ∨ iFmtIn w = 3 ∨ iFmtIn w = 7) &&
    decide (fld w 70 69 ≠ 3) && decide (iSrcA w + nRows w ≤ 32)

/-- LOAD writes a bank from vector registers, one row per register. -/
def nectLoad (c : CellId) (w : IWord) (d : Dev) : Dev :=
  let x := cellOf d c
  let load (b : BankSt) : BankSt :=
    { fmt := iFmtIn w
      elems := (List.range (nRows w)).foldl (fun t r =>
        tblSetList 0 t (256 * r) ((lanes x (iSrcA w + r) (iCount w)).map (fun v => v.toNat % 2 ^ fmtBits (iFmtIn w)))) b.elems }
  updNect c (fun n => if bit w 66 then { n with bank1 := load n.bank1 } else { n with bank0 := load n.bank0 }) d

/-- NECT LOAD. -/
def execNectLoad (cell : CellId) (word : BitVec 128) (s : State) : Host.Outcome State Fault Refusal :=
  onDev (onReady cell word (fun _ _ => nectLoadOk word) ((List.range (nRows word)).map (iSrcA word + ·)) []
    (fun _ _ d => nectLoad cell word d)) s

/-! ### The stream -/

/-- A token taken from the stream: its D elements, the scale σ in force, and whether its page is masked. -/
structure StreamTok where
  vals : List Val
  sigma : Option W32
  masked : Bool

/-- Bytes of a scale area that the stream does not mark: those of COUNT tokens. -/
def plainScaleBytes (w : IWord) : Nat := if fmtIsMx (iFmtIn w) then iCount w * nDim w / 32 else 32

/-- Take a scale area from the front of the stream, where one is due (R204). -/
def takeScales (w : IWord) (n : NectSt) : NectSt :=
  if !bit w 80 then n
  else
    let marked := n.fifo.takeWhile (·.scale)
    if !marked.isEmpty then { n with fifo := n.fifo.drop marked.length, scales := marked.map (·.byte), taken := 0 }
    else if n.scales.isEmpty || (fmtIsMx (iFmtIn w) && decide (n.scales.length * 32 ≤ n.taken * nDim w)) then
      let k := plainScaleBytes w
      { n with fifo := n.fifo.drop k, scales := (n.fifo.take k).map (·.byte), taken := 0 }
    else n

/-- Take one token; none where the stream holds too few elements. -/
def takeToken (w : IWord) (n : NectSt) : Option (StreamTok × NectSt) :=
  let n := takeScales w n
  let f := iFmtIn w
  let wd := fmtBits f
  let dd := nDim w
  let k := dd * wd / 8
  let bs := n.fifo.take k
  if bs.length < k then none
  else
    let raw := bs.map (·.byte)
    let vals := (List.range dd).map (fun e =>
      let v := decodeElem f (elemAt wd raw e)
      if fmtIsMx f then scaled v (n.scales.getD ((n.taken * dd + e) / 32) 0) else v)
    let sigma := if bit w 80 && fmtIsInt f then some (BitVec.ofNat 32 (leNat (n.scales.take 4))) else none
    some ({ vals := vals, sigma := sigma, masked := bs.any (·.masked) },
      { n with fifo := n.fifo.drop k, taken := n.taken + 1 })

/-- Take k tokens in order. -/
def takeTokens (w : IWord) : Nat → NectSt → Option (List StreamTok × NectSt)
  | 0, n => some ([], n)
  | k + 1, n =>
    match takeToken w n with
    | none => none
    | some (t, n) => (takeTokens w k n).map (fun r => (t :: r.1, r.2))

/-- Cycles in which a DOT or ACC consumes stream elements (R107). -/
def nectCycles (w : IWord) : Nat := ceilDiv (iCount w * nDim w) (if iFmtIn w = 1 then 128 else 256)

/-- Checks common to DOT and ACC. DESIGN CHOICE (log 91): the common fields that NMODE does not use are zero. -/
def nectStreamOk (w : IWord) (mode bound : Nat) : Bool :=
  let f := iFmtIn w
  wordOk w 0x13 bound [fDst, fSrcA, fSrcB, fMask, fFmtOut, fRnd, (127, 81)] && decide (fld w 65 64 = mode) &&
    arrayFmt f && decide (fld w 70 69 ≠ 3) && (if bit w 80 then fmtIsMx f || fmtIsInt f else !fmtIsMx f)

/-- Count a stalled nectar path, its cycles and NaN results. -/
def nectCounts (c : CellId) (w : IWord) (nans : Nat) (d : Dev) : Dev :=
  noteNan c nans (bump64 (bumpFree (R.CEL_NECT_STALL_CNT c.val) d) (R.CEL_NECT_CYC_LO c.val) (R.CEL_NECT_CYC_HI c.val)
    (nectCycles w))

/-! ### DOT (R108, R110) -/

/-- Integer domain of a bank and a stream format, without a scale. DEDUCED (log 91): the scores of a DOT in it are INT32, as R110 has
those of MMR, although R108 speaks of FP32 scores. -/
def nectInt (b : BankSt) (w : IWord) (sigma : Option W32) : Bool :=
  fmtIsInt b.fmt && fmtIsInt (iFmtIn w) && sigma.isNone

/-- Score of one token under one bank row: 64-element groups joined in the gang-adder order; +0 for a masked token. Answers
the score, saturations and NaN groups. -/
def dotScore (b : BankSt) (w : IWord) (t : StreamTok) (r : Nat) : W32 × Nat × Nat :=
  if t.masked then (0, 0, 0)
  else
    let int := nectInt b w t.sigma
    let hs := (List.range (nDim w / 64)).map (fun g =>
      reduceTerms 0 (fmtIsInt b.fmt && fmtIsInt (iFmtIn w)) t.sigma
        ((List.range 64).map (fun e => vMul (bankVal b r (64 * g + e)) (t.vals.getD (64 * g + e) (vZero false)))))
    let s := gangSum 0 int hs
    (s.1, s.2, if int then 0 else nanCount hs)

/-- DOT of the tokens taken, with the stream left after them. -/
def nectDot (c : CellId) (w : IWord) (ts : List StreamTok) (n : NectSt) (d : Dev) : Dev :=
  let b := nBank n w
  let rs := ts.flatMap (fun t => (List.range (nRows w)).map (dotScore b w t))
  let d := updCell c (fun x => tqPush 5 (rs.map (·.1)) { x with nect := n }) d
  nectCounts c w ((rs.map (·.2.2)).sum) (noteSat c ((rs.map (·.2.1)).sum) d)

/-- A DOT or ACC takes its tokens from the stream and acts; where the stream holds too few elements it waits, and holds every
later instruction (R111). -/
def nectStream (c : CellId) (w : IWord) (act : List StreamTok → NectSt → Dev → Dev) (t : Token) (r : Req) (d : Dev) :
    Dev :=
  match takeTokens w (iCount w) (cellOf d c).nect with
  | none => holdCell c w t r (bumpFree (R.CEL_NECT_STALL_CNT c.val) d)
  | some (ts, n) => vqRun c t r (instrDone c (act ts n d))

/-- Checks of a DOT word. -/
def nectDotOk (w : IWord) : Bool := nectStreamOk w 1 4096 && zeroIn w [fComp, (71, 71), (79, 72)]

/-- NECT DOT. -/
def execNectDot (cell : CellId) (word : BitVec 128) (s : State) : Host.Outcome State Fault Refusal :=
  onDev (onWord cell word (fun _ _ => nectDotOk word) (fun t r d => nectStream cell word (nectDot cell word) t r d)) s

/-! ### ACC (R109, R110) -/

/-- Sum of one tile of at most 16 tokens for accumulator (r, e): its unmasked tokens with their index in the ACC. -/
def tileSum (b : BankSt) (w : IWord) (ts : List (Nat × StreamTok)) (r e : Nat) : W32 :=
  let sigma := (ts.head?.map (·.2.sigma)).getD none
  reduceTerms 0 (fmtIsInt b.fmt && fmtIsInt (iFmtIn w)) sigma
    ((ts.filter (fun t => !t.2.masked)).map (fun t =>
      vMul (bankVal b r (fld w 79 72 + t.1)) (t.2.vals.getD e (vZero false))))

/-- Add a tile's sum into an accumulator: value, error term, saturations, NaN results. -/
def accAdd (comp int : Bool) (y : W32 × W32 × Nat × Nat) (x : W32) : W32 × W32 × Nat × Nat :=
  if comp then
    let r := compAdd y.1 y.2.1 x
    (r.1, r.2, y.2.2.1, y.2.2.2 + nanCount [x] + nanCount [r.1])
  else if int then
    let r := satAdd32 y.1 x
    (r.1, y.2.1, y.2.2.1 + (if r.2 then 1 else 0), y.2.2.2)
  else
    let r := fAdd y.1 x
    (r, y.2.1, y.2.2.1, y.2.2.2 + nanCount [x] + nanCount [r])

/-- ACC of the tokens taken, in 16-token tiles from the first. DESIGN CHOICE (log 93): the error terms of COMP stand in a table
of their own and not in the other half of the accumulators; what a READ or an ACC without COMP meets in that half after an
ACC under COMP is left open by R109. -/
def nectAcc (c : CellId) (w : IWord) (ts : List StreamTok) (n : NectSt) (d : Dev) : Dev :=
  let b := nBank n w
  let tiles := runsOf 16 ts.length (ts.mapIdx (fun i t => (i, t)))
  let int := nectInt b w ((ts.head?.map (·.sigma)).getD none)
  let keys := (List.range (nRows w)).flatMap (fun r => (List.range (nDim w)).map (fun e => (r, e)))
  let acc0 := if bit w 71 then [] else n.acc
  let err0 := if bit w 71 then [] else n.err
  let out := keys.foldl (fun (y : Tbl W32 × Tbl W32 × Nat × Nat) k =>
    let i := 256 * k.1 + k.2
    let z := tiles.foldl (fun z t => accAdd (iComp w) int z (tileSum b w t k.1 k.2))
      (tblGet 0 acc0 i, tblGet 0 err0 i, y.2.2.1, y.2.2.2)
    (tblSet 0 y.1 i z.1, if iComp w then tblSet 0 y.2.1 i z.2.1 else y.2.1, z.2.2.1, z.2.2.2)) (acc0, err0, 0, 0)
  let d := updNect c (fun _ => { n with acc := out.1, err := out.2.1, comp := iComp w }) d
  let d := if iComp w then
      bump64 d (R.CEL_COMP_CNT_LO c.val) (R.CEL_COMP_CNT_HI c.val) (keys.length * tiles.length) else d
  nectCounts c w out.2.2.2 (noteSat c out.2.2.1 d)

/-- Checks of an ACC word (R109). -/
def nectAccOk (w : IWord) : Bool :=
  nectStreamOk w 2 256 && decide (nDim w * nRows w ≤ 1024) && decide (fld w 79 72 + iCount w ≤ 256) &&
    (!iComp w || decide (nRows w ≤ 2))

/-- NECT ACC. -/
def execNectAcc (cell : CellId) (word : BitVec 128) (s : State) : Host.Outcome State Fault Refusal :=
  onDev (onWord cell word (fun r d => nectAccOk word &&
      (!iComp word || (!ax4Mode d (dTenant r.desc) &&
        !(fmtIsInt (nBank (cellOf d cell).nect word).fmt && fmtIsInt (iFmtIn word)))))
    (fun t r d => nectStream cell word (nectAcc cell word) t r d)) s

/-! ### READ -/

/-- Checks of a READ word. -/
def nectReadOk (w : IWord) : Bool :=
  wordOk w 0x13 1 (fAll ++ [(66, 66), (71, 71), (79, 72), (80, 80), (127, 81)]) && decide (fld w 65 64 = 3) &&
    decide (fld w 70 69 ≠ 3)

/-- READ sends the accumulators of QROWS rows of D elements to tile-queue input 5, with the error term added after an ACC
under COMP (R129). DESIGN CHOICE (log 92): rows ascend, and elements ascend within a row; R108 and R109 give a READ no
order. -/
def nectRead (c : CellId) (w : IWord) (d : Dev) : Dev :=
  let n := (cellOf d c).nect
  let one (r e : Nat) : W32 :=
    let s := tblGet 0 n.acc (256 * r + e)
    if n.comp then fAdd s (tblGet 0 n.err (256 * r + e)) else s
  updCell c (tqPush 5 ((List.range (nRows w)).flatMap (fun r => (List.range (nDim w)).map (one r)))) d

/-- NECT READ. -/
def execNectRead (cell : CellId) (word : BitVec 128) (s : State) : Host.Outcome State Fault Refusal :=
  onDev (onCellVe cell word (fun _ _ => nectReadOk word) (fun _ _ d => nectRead cell word d)) s

end Sys2Proof.Machine
end

