-- ==== Sys2Proof/Machine/Program.lean ====
section
/-!
DEFINITION. The instructions that order a tick program (03, 04, 13): NOP, HINT, BAR, LOOP, END, and a reserved opcode
met at run time.
-/

namespace Sys2Proof.Machine

open Sys2Proof

/-- Checks of a NOP word. -/
def nopOk (w : IWord) : Bool := wordOk w 0x00 65535 [(127, 64)]

/-- NOP. -/
def execNop (cell : CellId) (word : BitVec 128) (s : State) : Host.Outcome State Fault Refusal :=
  onDev (onCell cell word (fun _ _ => nopOk word) (fun _ _ d => d)) s

/-- Checks of a HINT word (Table 13-4). -/
def hintOk (w : IWord) : Bool := wordOk w 0x01 1 (fAll ++ [(79, 68), (127, 96)])

/-- The entry that a HINT of a cell puts into the hint queue (Table 13-10, PWR_HINT_FIFO). -/
def hintEntry (c : CellId) (w : IWord) : W32 :=
  BitVec.ofNat 32 (c.val + 2 ^ 7 + fld w 67 64 * 2 ^ 8 + fld w 87 80 * 2 ^ 16 + fld w 95 88 * 2 ^ 24)

/-- A hint reaches the power controller's queue of 64, or is dropped. -/
def pushHint (c : CellId) (w : IWord) (d : Dev) : Dev :=
  if d.power.hints.length < 64 then { d with power := { d.power with hints := d.power.hints ++ [hintEntry c w] } }
  else bump d R.PWR_HINT_DROP_CNT

/-- HINT. -/
def execHint (cell : CellId) (word : BitVec 128) (s : State) : Host.Outcome State Fault Refusal :=
  onDev (onCell cell word (fun _ _ => hintOk word) (fun _ _ d => pushHint cell word d)) s

/-- Checks of a BAR word. -/
def barOk (w : IWord) : Bool := wordOk w 0x02 1 (fAll ++ [(127, 64)])

/-- Every earlier product has left its arrays, so that no LDS waits for a release (R94); the next first broadcast waits for the
cell's wave slot, but not on the express lane (R112 to R114). -/
def barrier (c : CellId) (d : Dev) : Dev :=
  let d := updCell c (fun x => { x with arrays := x.arrays.map (fun e => (e.1, { e.2 with ran := false })) }) d
  if (expressEn d && decide (c.val < 4)) || d.tick.waves.contains c then d
  else { d with tick := { d.tick with waves := d.tick.waves ++ [c] } }

/-- BAR. -/
def execBar (cell : CellId) (word : BitVec 128) (s : State) : Host.Outcome State Fault Refusal :=
  onDev (onCell cell word (fun _ _ => barOk word) (fun _ _ d => barrier cell d)) s

/-- Checks of a LOOP word: a body of 1 to 255 instructions. -/
def loopOk (w : IWord) : Bool := wordOk w 0x03 65535 [(127, 72)] && decide (1 ≤ fld w 71 64)

/-- LOOP: the next instructions run COUNT times (R86). -/
def startLoop (w : IWord) (x : CellSt) : CellSt :=
  let len := instrSpan x.prog (x.pc + 1) (fld w 71 64)
  { x with pc := x.pc + 1, loops := { start := x.pc + 1, len := len, left := iCount w } :: x.loops, held := none }

/-- LOOP. -/
def execLoopInstr (cell : CellId) (word : BitVec 128) (s : State) : Host.Outcome State Fault Refusal :=
  onDev (onWord cell word (fun _ _ => loopOk word) (fun _ _ d => updCell cell (startLoop word) d)) s

/-- Checks of an END word. -/
def endOk (w : IWord) : Bool := wordOk w 0x04 65535 [(127, 64)]

/-- END: once the queues of the vector engine and of the mover are empty, and the cell is cleared for the next token (R96, R149). The rows of the chain
have passed NORMALISE (R184). Without a token on the cell, a diagnostic program ends (R272). -/
def execEndTok (cell : CellId) (word : BitVec 128) (s : State) : Host.Outcome State Fault Refusal :=
  if (cellToken s.dev cell).isNone then onDev (onDiag cell (endOk word) (diagEnd cell)) s
  else onDev (onWord cell word (fun _ _ => endOk word)
    (fun t r d =>
      if (cellOf d cell).vq.isEmpty && (cellOf d cell).mq.isEmpty then endToken cell t (normaliseRows cell r d)
      else holdCell cell word t r d)) s

/-- Opcodes of Table 03-16. -/
def opcodeKnown (o : Nat) : Bool :=
  o ∈ [0x00, 0x01, 0x02, 0x03, 0x04, 0x10, 0x11, 0x12, 0x13, 0x14, 0x15, 0x20, 0x21, 0x22, 0x23, 0x30, 0x31, 0x32, 0x33,
    0x34, 0x35, 0x36, 0x37, 0x40, 0x50, 0x51, 0x52, 0x53, 0x54, 0x55, 0x60, 0x61, 0x62, 0x63]

/-- A product word whose GANG does not match the arrays it names. -/
def gangMismatch (x : CellSt) (w : IWord) : Bool :=
  (prodWord w 0x11 || prodWord w 0x12 || prodWord w 0x14 || prodWord w 0x15) && gangBad x w

/-- A reserved opcode, or a GANG mismatch, at the word that the cell comes to (R87, R115). -/
def execReservedOpcode (cell : CellId) (word : BitVec 128) (s : State) : Host.Outcome State Fault Refusal :=
  onDev (onWord cell word (fun _ d => !opcodeKnown (iOpc word) || gangMismatch (cellOf d cell) word)
    (fun t r d => failFree cell t r 0x24 d)) s

end Sys2Proof.Machine
end

