-- ==== Sys2Proof/Machine/ProgramCheck.lean ====
section
/-!
DEFINITION. The version-load check (R87, R289): every instruction of a tick program by its own fields, and the program walked
in the order in which it runs, with what the checks of the other chapters count along the way.
-/

namespace Sys2Proof.Machine

open Sys2Proof

/-! ### One instruction -/

/-- What the check takes from the image: the chain header, whether it is built for AX4 numerics, the shape of a page, and the pages
that a SCOUT selects. -/
structure VersionInfo where
  chain : ChainHdr
  ax4 : Bool
  headDim : Nat
  pageTokens : Nat
  kvFmt : Nat
  select : Nat

/-- An instruction of a tick program by its own fields and the chain header (R87, R115, R131, R142, R152, R159, R174, R249,
R259, R263). A SEND has no class fields in the spec: its reserved common bits are zero. -/
def wordLegal (v : VersionInfo) (w : IWord) (ws : List IWord) : Bool :=
  !(v.ax4 && iComp w) &&
  (match iOpc w with
    | 0x00 => nopOk w
    | 0x01 => hintOk w
    | 0x02 => barOk w
    | 0x03 => loopOk w
    | 0x04 => endOk w
    | 0x10 => ldsOk w
    | 0x11 => prodWord w 0x11
    | 0x12 => prodWord w 0x12
    | 0x13 => (match fld w 65 64 with
        | 0 => nectLoadOk w
        | 1 => nectDotOk w
        | 2 => nectAccOk w
        | _ => nectReadOk w)
    | 0x14 => prodWord w 0x14
    | 0x15 => prodWord w 0x15
    | 0x20 => accrdOk w v.ax4
    | 0x21 => accwrOk w
    | 0x23 => topkOk w
    | 0x30 => if vFn w = 0x22 then lookupOk w else if vFn w = 0x3F then epochOk w else vopOk w
    | 0x31 => vprogOk w ws
    | 0x32 => vbcastOk w
    | 0x33 => vmaskOk w
    | 0x34 => vcvtOk w
    | 0x35 => vredOk w
    | 0x36 => rowstatOk w
    | 0x37 => rmsstatOk w
    | 0x40 => sfuOk w
    | 0x50 => movOk false w
    | 0x51 => ldtOk w
    | 0x52 => sttOk w
    | 0x53 => appendStageWord w || appendPageWord w
    | 0x54 => pgwalkWord w
    | 0x55 => decide (fld w 47 37 = 0)
    | 0x60 => fattWord w && fattFits w v.chain
    | 0x61 => scoreWord w && (iComp w == v.chain.comp)
    | 0x62 => corrWord w && (iComp w == v.chain.comp)
    | 0x63 => (gatherWord w && decide (scSta w + iCount w * (2 * v.headDim) ≤ bufSize false)) ||
        (listWord w && decide (iCount w = v.select))
    | _ => false)

/-! ### The order in which a program runs (R86) -/

/-- The instructions of a program in the order in which they run, with their inline words, up to its END. -/
def runOrder (p : List IWord) : Nat → Nat → List LoopSt → List (IWord × List IWord)
  | 0, _, _ => []
  | n + 1, pc, loops =>
    match p[pc]? with
    | none => []
    | some w =>
      let k := inlineWords w
      if iOpc w = 0x03 then
        (w, []) :: runOrder p n (pc + 1)
          ({ start := pc + 1, len := instrSpan p (pc + 1) (fld w 71 64), left := iCount w } :: loops)
      else if iOpc w = 0x04 then [(w, [])]
      else
        let r := loopStep (pc + 1 + k) loops
        (w, (p.drop (pc + 1)).take k) :: runOrder p n r.1 r.2

/-- The instructions of a program in the order in which they stand, with their inline words: all of its area, whatever runs. -/
def areaOrder (p : List IWord) : Nat → Nat → List (IWord × List IWord)
  | 0, _ => []
  | n + 1, pc =>
    match p[pc]? with
    | none => []
    | some w => (w, (p.drop (pc + 1)).take (inlineWords w)) :: areaOrder p n (pc + 1 + inlineWords w)

/-- A bound on the instructions that a program runs: its words, times the passes of its LOOPs. -/
def runBound (p : List IWord) : Nat :=
  (p.length + 1) * (p.filter (fun w => decide (iOpc w = 0x03))).foldl (fun n w => n * (iCount w + 1)) 1

/-! ### The walk -/

/-- An accumulator slot that a program has written: its entries, what it was written with (axis, gang, mode, COMP) where a
product wrote it, and whether another slot has taken some of its entries since. -/
structure SlotLife where
  first : Nat
  n : Nat
  key : Option (Bool × Nat × Nat × Bool)
  dead : Bool := false
  deriving DecidableEq, Repr

/-- What stands in the nectar stream: plain bytes, or tokens of pages, with whether a scale area leads each page. -/
inductive Seg where
  | plain (bytes : Nat)
  | pages (tokens : Nat) (scaled : Bool)
  deriving DecidableEq, Repr

/-- What the check knows at a place of the program: the cell's state as far as the program alone fixes it, the words given to
and taken from each tile-queue input, what stands in the nectar stream, whether its integer scale has been taken, the accumulator
slots, the registers that hold results of SMEXP and those cast from them, and where the next tile of P·V goes on in its bank. -/
structure Walk where
  x : CellSt := {}
  given : Tbl Nat := []
  taken : Tbl Nat := []
  stream : List Seg := []
  scaled : Bool := false
  slots : List SlotLife := []
  exps : List Nat := []
  ps : List Nat := []
  tile : Nat := 0

/-- Add to a count by tile-queue input. -/
def addTo (t : Tbl Nat) (i n : Nat) : Tbl Nat := tblSet 0 t i (tblGet 0 t i + n)

/-- A slot is written, or added into: every other slot that shares an entry is lost. None where the adding is into a lost slot,
or into entries that were last written with another axis, gang, mode or COMP, in whichever slot they stand (R127). -/
def writeSlot (add : Bool) (s : SlotLife) (l : List SlotLife) : Option (List SlotLife) :=
  let same (y : SlotLife) : Bool := decide (y.first = s.first) && decide (y.n = s.n)
  let bad (y : SlotLife) : Bool :=
    if y.dead then same y
    else rangesMeet y.first (y.first + y.n) s.first (s.first + s.n) && y.key.isSome && s.key.isSome && decide (y.key ≠ s.key)
  if add && l.any bad then none
  else
    some (s :: (l.filter (fun y => !same y)).map (fun y =>
      if rangesMeet y.first (y.first + y.n) s.first (s.first + s.n) then { y with dead := true } else y))

/-- A slot is read: it has not been lost (R127: live slots do not overlap). -/
def slotThere (first n : Nat) (l : List SlotLife) : Bool :=
  l.all (fun y => !(decide (y.first = first) && decide (y.n = n) && y.dead))

/-- The kind of tile that an LDS loads. -/
def tileKind (w : IWord) : ArraySt :=
  { fmt := iFmtIn w, gang := fld w 69 68, sigma := if bit w 106 && fmtIsInt (iFmtIn w) then some 0 else none }

/-- A product: GANG and the domains of its tiles (R91, R115, R126, R127), and its results. -/
def walkProduct (w : IWord) (y : Walk) : Option Walk :=
  let g := fld w 69 68
  if gangBad y.x w || !(prodBases w).all (streamOk y.x w) || !oneMode y.x w then none
  else if fld w 73 72 = 2 then
    let n := iCount w * (if prodRow w then 16 else 64 * gangWidth g)
    some { y with given := (prodBases w).foldl (fun t b => addTo t (b + 1) n) y.given }
  else
    let mw := modeWidth y.x w ((prodBases w).headD 0)
    let e := slotEntries (prodRow w) g mw (iComp w)
    (writeSlot (decide (fld w 73 72 = 1))
      { first := iDst w * e, n := e, key := some (prodRow w, g, mw, iComp w) } y.slots).map (fun l => { y with slots := l })

/-- A NECT takes k tokens from the stream (R107, R204, R264): from plain bytes, or from pages, which a word takes in its own DIM, in
BF16 (a STAGED page) or the tenant's format, with the scales where they lead a page. None where the stream does not hold them. -/
def takeSegs (v : VersionInfo) (w : IWord) : Nat → List Seg → Option (List Seg)
  | 0, l => some l
  | _, [] => none
  | k, .plain b :: l =>
    let n := nDim w * fmtBits (iFmtIn w) / 8
    if n * k ≤ b then some (if n * k = b then l else .plain (b - n * k) :: l)
    else if b % n = 0 then takeSegs v w (k - b / n) l
    else none
  | k, .pages m s :: l =>
    let f := iFmtIn w
    let fits := decide (nDim w = v.headDim) &&
      (decide (f = 1 ∧ v.kvFmt ≠ 1) || (decide (f = v.kvFmt) && (bit w 80 == (s && (fmtIsMx f || fmtIsInt f)))))
    if !fits then none
    else if k ≤ m then some (if k = m then l else .pages (m - k) s :: l)
    else takeSegs v w (k - m) l

/-- Scale bytes that a NECT takes from plain bytes at the front of the stream. -/
def plainScales (w : IWord) (y : Walk) : Nat :=
  match y.stream with
  | .plain _ :: _ => if bit w 80 && (fmtIsMx (iFmtIn w) || !y.scaled) then plainScaleBytes w else 0
  | _ => 0

/-- The stream after a DOT or ACC. -/
def walkStream (v : VersionInfo) (w : IWord) (y : Walk) : Option Walk :=
  let k := plainScales w y
  let l : Option (List Seg) := match y.stream with
    | .plain b :: l => if k < b then some (.plain (b - k) :: l) else if k = b then some l else none
    | l => some l
  (l.bind (takeSegs v w (iCount w))).map (fun l => { y with stream := l, scaled := y.scaled || decide (k ≠ 0) })

/-- A NECT: an integer ACC has no COMP (R109), and what it takes of the stream. -/
def walkNect (v : VersionInfo) (w : IWord) (y : Walk) : Option Walk :=
  match fld w 65 64 with
  | 0 =>
    let b : BankSt := { fmt := iFmtIn w }
    some { y with x := { y.x with
      nect := if bit w 66 then { y.x.nect with bank1 := b } else { y.x.nect with bank0 := b } } }
  | 1 => (walkStream v w y).map (fun y => { y with given := addTo y.given 5 (iCount w * nRows w) })
  | 2 =>
    if iComp w && fmtIsInt (nBank y.x.nect w).fmt && fmtIsInt (iFmtIn w) then none
    else (walkStream v w y).map (fun y => { y with tile := fld w 79 72 + iCount w })
  | _ => some { y with given := addTo y.given 5 (nRows w * nDim w) }

/-- A MOV into the nectar stream. DESIGN CHOICE (log 103): an entry of a page list counts as a page of the tail region, or of the
place's size under UNIT 1. -/
def walkMov (v : VersionInfo) (w : IWord) (y : Walk) : Walk :=
  if mDkind w = 2 then
    { y with stream := y.stream ++
        [if mSkind w = 3 then .pages (iCount w * v.pageTokens) (bit w 70) else .plain (mBytes w)] }
  else y

/-- What an instruction of the vector engine queue leaves in the cell's state, as far as the program fixes it. -/
def walkState (w : IWord) (x : CellSt) : CellSt :=
  let rows (f : SmRow → SmRow) : CellSt :=
    { x with rows := (smRows w).foldl (fun t i => tblPut t i (f (tblGet {} t i))) x.rows }
  match iOpc w with
  | 0x23 => { x with topkKey := some (topKey w) }
  | 0x37 => { x with rmsRows := if bit w 65 then none else some (vRows w) }
  | 0x60 => rows (fun r => { r with alphas := (if fFirst w then [] else r.alphas) ++ [f32One] })
  | 0x62 => rows (fun r => { r with alphas := r.alphas.drop 1 })
  | _ => x

/-- An unfused program keeps the chain's exponent function, score scale, PV format with its rounding, and compensation (R135). The
p are summed by VRED in groups of 16, as FATT sums them for l; the tiles of P·V, of 16 tokens each, follow one another in the bank
of p, and products that add go by the header's COMP or PCOMP. DESIGN CHOICE (log 103). -/
def unfusedOk (h : ChainHdr) (w : IWord) (ws : List IWord) (y : Walk) : Bool :=
  match iOpc w with
  | 0x40 => decide (vFn w < 7) || (decide (vFn w = 8) == h.fast)
  | 0x31 => (progOps w ws).all (fun o => decide (poFn o ≠ 5) || decide (poZ o ≠ 11) || decide (vImm w = h.scaleC))
  | 0x34 => !y.exps.contains (iSrcA w) || (decide (iFmtOut w = h.pvFmt) && decide (iRnd w = h.pvRnd))
  | 0x35 => decide (vFn w ≠ 0) || !(y.exps ++ y.ps).contains (iSrcA w) || decide (vRowLen w = 16)
  | 0x12 => iComp w == h.comp || iComp w == h.pcomp
  | 0x13 => decide (fld w 65 64 ≠ 2) ||
      ((iComp w == h.comp) && decide (fld w 79 72 % 16 = 0) && decide (fld w 79 72 = 0 ∨ fld w 79 72 = y.tile))
  | _ => true

/-- An instruction of the vector engine queue: TOPK's MERGE (R133), the rows of RMSSTAT (R159), the α queues (R181), the O slot of
a CORR, and the words that it takes (R149). -/
def walkVec (w : IWord) (y : Walk) : Option Walk :=
  if !entryFits w y.x then none
  else
    let e := 2 ^ fEshift w
    let slots :=
      if iOpc w = 0x62 then
        if vTq w ≠ 0 ∨ slotThere (iSrcA w * e) e y.slots = true then
          writeSlot (!fFirst w) { first := iDst w * e, n := e, key := none } y.slots
        else none
      else some y.slots
    let out := entryWrites w
    let exp := decide (iOpc w = 0x40) && decide (7 ≤ vFn w)
    let cast := decide (iOpc w = 0x34) && (y.exps ++ y.ps).contains (iSrcA w)
    slots.map (fun l => { y with
      x := walkState w y.x
      taken := if entryTq w = 0 then y.taken else addTo y.taken (entryTq w) (iCount w)
      slots := l
      exps := y.exps.filter (fun k => !out.contains k) ++ (if exp then out else [])
      ps := y.ps.filter (fun k => !out.contains k) ++ (if cast then out else []) })

/-- One instruction of the walk; none where the check refuses it. -/
def walkWord (v : VersionInfo) (unfused : Bool) (e : IWord × List IWord) (y : Walk) : Option Walk :=
  let w := e.1
  if !wordLegal v w e.2 || (unfused && !unfusedOk v.chain w e.2 y) then none
  else
    match iOpc w with
    | 0x10 => some { y with x := { y.x with
        arrays := (namedArrays w).foldl (fun t a => tblPut t a (tileKind w)) y.x.arrays } }
    | 0x11 => walkProduct w y
    | 0x12 => walkProduct w y
    | 0x14 => walkProduct w y
    | 0x15 => walkProduct w y
    | 0x13 => walkNect v w y
    | 0x20 =>
      let n := accEntries w
      if slotThere (iSrcA w * n) n y.slots then
        some { y with given := if bit w 67 then addTo y.given 6 (iCount w) else y.given }
      else none
    | 0x21 =>
      let n := accEntries w
      (writeSlot false { first := iDst w * n, n := n, key := none } y.slots).map (fun l => { y with slots := l })
    | 0x50 => some (walkMov v w y)
    | o => if o = 0x23 ∨ (0x30 ≤ o ∧ o ≤ 0x40) ∨ (0x60 ≤ o ∧ o ≤ 0x62) then walkVec w y else some y

/-- R87 for a program of an OP: its area ends with an END, and every instruction of it passes by itself, those behind an earlier END
too; the walk of those that run passes; every tile-queue input gives all its words to the instructions that take them (R149); and
the nectar stream is empty at END (R264). -/
def programOk (v : VersionInfo) (op : Nat) (p : List IWord) : Bool :=
  let es := runOrder p (runBound p) 0 []
  let unfused := decide (op = opDECODE_U ∨ op = opPREFILL_U)
  let area := areaOrder p p.length 0
  decide ((area.getLast?.map (fun e => iOpc e.1)) = some 0x04) && area.all (fun e => wordLegal v e.1 e.2) &&
    decide ((es.getLast?.map (fun e => iOpc e.1)) = some 0x04) &&
    (match es.foldl (fun o e => o.bind (walkWord v unfused e)) (some {}) with
      | some y => (List.range 7).all (fun i => decide (tblGet 0 y.given i = tblGet 0 y.taken i)) && y.stream.isEmpty
      | none => false)

/-- What the check takes from the image of a slot. -/
def versionInfo (d : Dev) (t dest : Nat) : VersionInfo :=
  let f (off n : Nat) : Nat := imgField d t dest off n
  let h := chainHdr d t dest
  let place := decide (f 0x14 4 % 4 = 2) && decide (f 0x14 4 / 2 ^ 28 % 2 = 1)
  { chain := h, ax4 := decide (f 0x0A 2 % 2 = 1) || h.ax4, headDim := 64 * 2 ^ (f 0x0C 4 / 2 ^ 8 % 4)
    pageTokens := 2 ^ (if place then f 0x10 4 / 2 ^ 3 % 16 else f 0x10 4 % 8), kvFmt := f 0x10 4 / 2 ^ 8 % 16
    select := f 0x14 4 / 2 ^ 21 % 64 + 1 }

/-- The version-load check of R87 over the tick programs that the table of an image lists, under one of 16 OPs each (log 10). A
program that it does not list never runs (placeProgram). -/
def versionOk (d : Dev) (t dest bytes : Nat) (progs : List ProgArea) : Bool :=
  progs.all (fun p => decide (p.op < 16) && decide (p.off + 16 * p.count ≤ bytes) && programOk (versionInfo d t dest) p.op (progWords d t dest p))

/-- LOAD_END (R289), once the weight engine may read the image (R283): every chunk verified, the header checked, and the version-load check run over every tick program. The operands
say what the image's tables hold whose layout the spec does not give (log 10): the KV heads of the chain that the programs run
(Table 03-12, CELLS), the element format of the weights, and where the programs stand. -/
def execLoadEnd (slot : Fin 8) (kvHeads : Nat) (tables : ImageTables) (s : State) :
    Host.Outcome State Fault Refusal :=
  onDev (fun d =>
    let x := wSlot d slot.val
    onlyIf (alive d && decide (x.st = .loading) && decide (x.chunks ≠ 0) && (unverified x (x.chunks + 1)).isEmpty &&
        weightTurn d x.dest x.imageBytes) (fun d =>
      if arrayFmt tables.wfmt && imageOk d slot.val && versionOk d x.tenant x.dest x.imageBytes tables.progs then
        cmdRecord? x.loadCmd 0 0 (updSlot slot.val (fun s => { s with
          st := .verified, loadCmd := none, kvHeads := kvHeads, wfmt := tables.wfmt, progs := tables.progs }) d)
      else failLoad slot.val 3 d) d) s

end Sys2Proof.Machine
end

