-- ==== Sys2Proof/Machine/Results.lean ====
section
/-!
DEFINITION. What leaves a cell and a die (02, 07, 12): SEND, partial rows and frames, the combine token (R193 to R195), the
reduction and the home segment (R28, R170, R187), saved statistics (R196), gradients (R199), and the result (R322).
-/

namespace Sys2Proof.Machine

open Sys2Proof

/-! ### Partial frames (Table 07-8) -/

def pfTenant (m : List Byte) : Nat := leAt m 0 2 % 4096
def pfDie (m : List Byte) : Nat := leAt m 2 2 % 512
def pfSeq (m : List Byte) : Nat := leAt m 4 4 % 2 ^ 18
def pfTick (m : List Byte) : Nat := leAt m 8 8
def pfVersion (m : List Byte) : W32 := BitVec.ofNat 32 (leAt m 0x10 4)
def pfKey (m : List Byte) : Nat := leAt m 0x14 4
def pfCell (m : List Byte) : Nat := leAt m 0x18 1 % 64
def pfCount (m : List Byte) : Nat := leAt m 0x19 1
def pfFirst (m : List Byte) : Nat := leAt m 0x1C 2
def pfInvalid (m : List Byte) : Bool := decide (leAt m 0x1E 2 / 2 % 2 = 1)

/-- FP32 word i of the bytes from an offset. -/
def pfWord (m : List Byte) (off i : Nat) : W32 := BitVec.ofNat 32 (leAt m (off + 4 * i) 4)

/-- Position split (TCX_MODE.SPLIT). -/
def posSplit (d : Dev) (t : Nat) : Bool := bit (getReg d (R.TCX_MODE t)) 2

/-- A partial frame of a cell: FLAGS and what follows the header. -/
def partialFrame (d : Dev) (c : CellId) (r : Req) (flags : Nat) (body : List Byte) : List Byte :=
  let t := dTenant r.desc
  let die := (dieIndex d).toNat
  leBytes 2 t ++ leBytes 2 die ++ leBytes 4 (dSeq r.desc) ++ leBytes 8 (workTick r) ++ leBytes 4 r.version.toNat ++
    leBytes 4 (if posSplit d t then (seqDesc d (dSeq r.desc)).posLo else die) ++ leBytes 1 c.val ++
    leBytes 1 (headCells d t).length ++ leBytes 2 (dRows r.desc) ++ leBytes 2 (kvRank d r c * groupOf d t) ++
    leBytes 2 flags ++ body

/-- The request that holds the combine region of a TENANT, SEQ and tick (R192). DESIGN CHOICE (log 100): where two accepted requests
of them hold regions, it is the one admitted first. -/
def regionFor (d : Dev) (t q tick : Nat) : Option Req :=
  d.ent.reqs.find? (fun r => r.region && decide (dTenant r.desc = t) && decide (dSeq r.desc = q) && decide (workTick r = tick))

/-- The request whose combine region a frame belongs to. -/
def regionOf (d : Dev) (m : List Byte) : Option Req := regionFor d (pfTenant m) (pfSeq m) (pfTick m)

/-- Bytes of the frames in a region. -/
def regionFill (r : Req) : Nat := (r.cmb.map (·.length)).sum

/-- The region takes the frame (R192). -/
def regionTakes (d : Dev) (r : Req) (m : List Byte) : Bool :=
  decide (pfVersion m = r.version) && r.cmb.all (fun x => decide (pfKey x ≠ pfKey m) || decide (pfCell x ≠ pfCell m)) &&
    decide (regionFill r + m.length ≤ (tenantChain d (dTenant r.desc)).cmbBytes)

/-- Where the next frame of a region stands in hive memory: in the tenant's combine area (Table 07-4), after the frames stored
(log 65). -/
def regionAddr (d : Dev) (r : Req) : Nat :=
  let t := dTenant r.desc
  let h := tenantChain d t
  hvBase d t + 4096 * h.cmbOff + r.regionIx * h.cmbBytes + regionFill r

/-- Store a partial frame in its region of the hive window (R192, R263), or discard it with its count and record. -/
def storePartial (m : List Byte) (d : Dev) : Dev :=
  let lose : Dev :=
    report { mkReport 0x28 unitEntrance with
      tenant := some (BitVec.ofNat 12 (pfTenant m)), seq := some (BitVec.ofNat 18 (pfSeq m)),
      info := BitVec.ofNat 160 (pfDie m + pfKey m * 2 ^ 32) } (bump d R.ENT_CMB_DISCARD_CNT)
  match regionOf d m with
  | none => lose
  | some r =>
    if regionTakes d r m then
      updReq r.uid (fun r => { r with cmb := r.cmb ++ [m] }) (hiveWrite d (regionAddr d r) m)
    else lose

/-- Send a partial frame of a cell toward the home die, or into the die's own region (R191); without a route it is never
answered. -/
def sendPartial (r : Req) (m : List Byte) (d : Dev) : Dev :=
  let q := dSeq r.desc
  if isHomeDie d q then storePartial m d
  else
    match routePort d (seqDesc d q).homeDie with
    | none => updReq r.uid (fun r => { r with unrouted := true }) d
    | some p =>
      let g := takeTag p d
      let fs := trainFrames g.2 tPWR g.1 (seqDesc d q).homeDie (dTenant r.desc) 0 0 m
      updReq r.uid (fun r => { r with awaiting := r.awaiting ++ List.replicate fs.length (p, g.1) }) (sendAll p fs g.2)

/-- PWR_FRAME (R192, R323): the frame of Table 07-8 is complete with its last train frame; then every frame of the train
is answered. -/
def execPwrFrame (port : PortId) (frame : Frame) (s : State) : Host.Outcome State Fault Refusal :=
  onDev (recvFrame port frame tPWR (fun d => onlyIf (!isAnswer frame) (fun d =>
    match takeTrain port frame d with
    | (none, d) => d
    | (some m, d) =>
      (List.range (frame.addr.toNat / 4096 + 1)).foldl (fun d _ => answerOn port frame [] d) (storePartial m d)) d)) s

/-! ### SEND (R191, R196, R199, R322) -/

/-- FLAGS of a partial frame: EMPTY_ROW in some row, INVALID in some row. -/
def rowFlags (ys : List SmRow) : Nat := (if ys.any (·.empty) then 1 else 0) + (if ys.any (·.invalid) then 2 else 0)

/-- The cell's rows after the last block. -/
def cellRows (d : Dev) (c : CellId) (r : Req) : List AttRow := (sendOrder d r).map (fun e => attention d r c e.1 e.2)

/-- The body and FLAGS of a SPLIT 1 frame. -/
def splitBody (d : Dev) (c : CellId) (r : Req) : Nat × List Byte :=
  let ys := cellRows d c r
  (rowFlags (ys.map (·.sm)),
    ys.flatMap (fun y => leBytes 4 (rowMl y.sm).1.toNat ++ leBytes 4 (rowMl y.sm).2.toNat) ++
      ys.flatMap (fun y => (rowO y).flatMap (fun v => leBytes 4 v.toNat)))

/-- Partial rows of a cell. -/
def partialsOf (r : Req) (c : CellId) : List PartialRow := r.partials.filter (fun p => p.cell = c)

/-- A tile row of a request's partial output from a cell. -/
def partialAt (r : Req) (c : CellId) (row tile : Nat) : Option PartialRow :=
  r.partials.find? (fun p => decide (p.cell = c) && decide (p.row = row) && decide (p.tile = tile))

/-- Tiles of an output row. -/
def rowTiles (d : Dev) (t : Nat) : Nat := dModel d t / 64

/-- Every tile row of a cell's partial output, in order. -/
def allTileRows (d : Dev) (r : Req) : List (Nat × Nat) :=
  (List.range (dRows r.desc)).flatMap (fun i => (List.range (rowTiles d (dTenant r.desc))).map (fun t => (i, t)))

/-- SPLIT 0 on a multi-die sequence: partial rows leave as one frame per cell (R191). -/
def framesRows (d : Dev) (r : Req) : Bool := multiDie d (dSeq r.desc) && !posSplit d (dTenant r.desc)

/-- A tile row joins the cell's partial output; the last one of a multi-die SPLIT 0 request completes its frame. -/
def addPartial (c : CellId) (r : Req) (row tile : Nat) (vs : List W32) (d : Dev) : Dev :=
  if (partialAt r c row tile).isSome then d
  else
    let r' := { r with partials := r.partials ++
      [{ cell := c, firstHead := firstQuery d r c, row := row, tile := tile, words := vs }] }
    let all := (allTileRows d r).map (fun e => partialAt r' c e.1 e.2)
    if framesRows d r && all.all (·.isSome) then
      let body := all.flatMap (fun p => match p with
        | some p => p.words.flatMap (fun v => leBytes 4 v.toNat)
        | none => [])
      sendPartial r (partialFrame d c r (rowFlags ((cellRows d c r).map (·.sm))) body)
        (updReq r.uid (fun _ => { r' with partials := r'.partials.filter (fun p => p.cell ≠ c) }) d)
    else updReq r.uid (fun _ => r') d

/-- SAVE_STATS applies (R196). -/
def savesStats (d : Dev) (r : Req) : Bool :=
  dSaveStats r.desc && !posSplit d (dTenant r.desc) &&
    decide (dOp r.desc = opDECODE ∨ dOp r.desc = opPREFILL ∨ dOp r.desc = opPREFIX ∨ dOp r.desc = opDECODE_U ∨
      dOp r.desc = opPREFILL_U)

/-- Cells that save statistics for a request: its head cells, or its express cell. -/
def statsCells (d : Dev) (r : Req) : List CellId :=
  match r.express with
  | some c => [c]
  | none => headCells d (dTenant r.desc)

/-- Save (m, L) of every row and query head of the cell; STATS_SAVED is set once every cell has. -/
def saveStats (c : CellId) (r : Req) (d : Dev) : Dev :=
  let ys := (sendOrder d r).zip (cellRows d c r)
  let d := ys.foldl (fun d e =>
    let y := rowMl e.2.sm
    hbmWrite d (tenantKey d (dTenant r.desc)) (statsAddr d r e.1.1 (firstQuery d r c + e.1.2))
      (leBytes 4 y.1.toNat ++ leBytes 4 y.2.toNat)) d
  let by_ := if r.statsBy.contains c then r.statsBy else r.statsBy ++ [c]
  updReq r.uid (fun r => { r with statsBy := by_, statsSaved := (statsCells d r).all (fun e => by_.contains e) }) d

/-- Port of OUT_PORT. -/
def outPort (r : Req) : Option PortId := portOfCode (dOutPort r.desc)

/-- Bytes of a result leave through OUT_PORT at an offset from OUT_ADDR; where the port is not UP they are discarded, and
the request fails with a LINK_DOWN record (R322). -/
def sendResult (r : Req) (off : Nat) (bytes : List Byte) (d : Dev) : Dev :=
  match outPort r with
  | none => d
  | some p =>
    if portUp d p then
      let g := takeTag p d
      sendAll p (trainFrames g.2 tDWR g.1 r.src.toNat (dTenant r.desc) (dOutAddr r.desc + off) (dReqId r.desc).toNat bytes) g.2
    else resultLost p r d

/-- Tiles of the output: 16 rows by 64 elements, by row group and column. -/
def outTiles (d : Dev) (r : Req) : Nat := ceilDiv (dRows r.desc) 16 * rowTiles d (dTenant r.desc)

/-- Rows of a tile. -/
def tileRows (d : Dev) (r : Req) (tile : Nat) : List Nat :=
  let g := tile / rowTiles d (dTenant r.desc)
  (List.range (min 16 (dRows r.desc - 16 * g))).map (fun i => 16 * g + i)

/-- The result's bytes, row by row, from the reduced tiles. -/
def resultBytes (d : Dev) (r : Req) : List Byte :=
  let n := rowTiles d (dTenant r.desc)
  (List.range (dRows r.desc)).flatMap (fun row => (List.range n).flatMap (fun c =>
    let bs := tblGet [] r.tiles (row / 16 * n + c)
    let w := bs.length / (tileRows d r (row / 16 * n + c)).length
    (bs.drop (row % 16 * w)).take w))

/-- Every output tile has passed the home segment. -/
def resultReady (d : Dev) (r : Req) : Bool := (List.range (outTiles d r)).all (fun t => (tblFind r.tiles t).isSome)

/-- A SEND may run in this form. With PARTS 1 a SEND of partial rows does nothing, and the program goes on (R191). -/
def sendOk (c : CellId) (what : SendForm) (r : Req) (d : Dev) : Bool :=
  let t := dTenant r.desc
  match what with
  | .partials => posSplit d t && !r.combined && headCell d t c
  | .rows row tile => normalises d r c && decide (row < dRows r.desc) && decide (tile < rowTiles d t)
  | .stats => (statsCells d r).contains c && decide (dOp r.desc ≠ opCOMMIT) && decide (dOp r.desc ≠ opBACKWARD)
  | .grads => headCell d t c && decide (dOp r.desc = opBACKWARD)
  | .result => decide (resultCell d r = c) && (r.suppressed || r.killed || r.eccFail || r.bankOff || resultReady d r) && !noResult d r && !r.resultDone

/-- The sends of a token are suppressed: of a failed request, or of the token alone (R95, R215, R216, R396). -/
def sendsNothing (c : CellId) (r : Req) (d : Dev) : Bool :=
  r.suppressed || d.ent.tokens.any (fun t => decide (t.uid = r.uid) && decide (t.cell = c) && t.suppressed)

/-- What a SEND does. -/
def sendAct (c : CellId) (what : SendForm) (r : Req) (d : Dev) : Dev :=
  let mute := sendsNothing c r d
  match what with
  | .result =>
    let d := if mute || r.killed || !resultReady d r then d else sendResult r 0 (resultBytes d r) d
    updReq r.uid (fun r => { r with resultDone := true }) d
  | .partials =>
    if mute || !multiDie d (dSeq r.desc) then d
    else
      let b := splitBody d c r
      sendPartial r (partialFrame d c r b.1 b.2) d
  | .rows row tile => if mute then d else addPartial c r row tile (chainTile d r c row tile) d
  | .stats => if !mute && savesStats d r then saveStats c r d else d
  | .grads =>
    if mute then d
    else (gradRuns d r c).foldl (fun d g => sendResult r (4 * g.1) (g.2.flatMap (fun v => leBytes 4 v.toNat)) d) d

/-- Bytes of a partial frame. -/
def frameBytes (d : Dev) (r : Req) : Nat :=
  let t := dTenant r.desc
  0x20 + dRows r.desc * (if posSplit d t then cellQueries d t * (8 + 4 * headDim d t) else 4 * dModel d t)

/-- Address and bytes of the frame that a SEND writes into the die's own combine region. -/
def homeStore (c : CellId) (what : SendForm) (r : Req) (d : Dev) : Option (Nat × Nat) :=
  let complete := match what with
    | .partials => multiDie d (dSeq r.desc)
    | .rows row tile => framesRows d r && (partialAt r c row tile).isNone &&
        (allTileRows d r).all (fun e => decide (e = (row, tile)) || (partialAt r c e.1 e.2).isSome)
    | _ => false
  if complete && isHomeDie d (dSeq r.desc) && !sendsNothing c r d then
    (regionFor d (dTenant r.desc) (dSeq r.desc) (workTick r)).map (fun x => (regionAddr d x, frameBytes d r))
  else none

/-- The frame would go into a unit that is WIPING: the token waits for it (R270). -/
def sendWaits (c : CellId) (what : SendForm) (r : Req) (d : Dev) : Bool :=
  d.mem.tags.any (fun e => e.2.isWiping) &&
    (match homeStore c what r d with
      | some (a, n) => (List.range (ceilDiv (a % 4096 + n) 4096)).any (fun k => (hiveTag d (a / 4096 + k)).isWiping)
      | none => false)

/-- The frame would go into a band that is not ON (R275). -/
def sendTrip (c : CellId) (what : SendForm) (r : Req) (d : Dev) : Option Trip :=
  (homeStore c what r d).bind (fun e =>
    ((List.range (ceilDiv (e.1 % 0x1000000 + e.2) 0x1000000)).find? (fun k => bandState d (e.1 / 0x1000000 + k) ≠ 0)).map
      (fun k =>
        let a := max e.1 ((e.1 / 0x1000000 + k) * 0x1000000)
        .bankOff true true (a - (hiveWindow d r).1) a))

/-- SAVE_STATS names an HBM address that does not exist. -/
def sendBeyond (c : CellId) (what : SendForm) (d : Dev) : Bool :=
  match what, (cellToken d c).bind (fun t => findReq d t.uid) with
  | .stats, some r => alive d && cellClocked d c && sendFetch (cellOf d c) && sendOk c what r d && !sendsNothing c r d &&
      savesStats d r &&
      (sendOrder d r).any (fun e => decide (hbmCapacity d < statsAddr d r e.1 (firstQuery d r c + e.2) + 8))
  | _, _ => false

/-- SEND. -/
def execSend (cell : CellId) (what : SendForm) (s : State) : Host.Outcome State Fault Refusal :=
  if sendBeyond cell what s.dev then .fault .noHbmAddress
  else onDev (onFetch cell (fun r d => sendFetch (cellOf d cell) && sendOk cell what r d && !sendWaits cell what r d)
    (fun t r d =>
      match sendTrip cell what r d with
      | some x => applyTrip cell t r x d
      | none => instrDone cell (sendAct cell what r d))) s

/-! ### The combine token (R193 to R195) -/

/-- Insert into a list by a rank. -/
def insertBy {α : Type} (f : α → Nat) (x : α) : List α → List α
  | [] => [x]
  | y :: ys => if f x < f y then x :: y :: ys else y :: insertBy f x ys

/-- Sort by a rank; equal ranks keep their order. -/
def sortBy {α : Type} (f : α → Nat) (xs : List α) : List α := xs.foldl (fun l x => insertBy f x l) []

/-- Distinct keys of frames. -/
def keysOf (ms : List (List Byte)) : List Nat := ms.foldl (fun ks m => if ks.contains (pfKey m) then ks else ks ++ [pfKey m]) []

/-- Every needed frame is present (R193). -/
def framesThere (d : Dev) (r : Req) : Bool :=
  let parts := (seqDesc d (dSeq r.desc)).parts
  if posSplit d (dTenant r.desc) then
    (headCells d (dTenant r.desc)).all (fun c =>
      decide (parts ≤ (keysOf (r.cmb.filter (fun m => pfCell m = c.val))).length))
  else
    let ks := (keysOf r.cmb).filter (fun k =>
      let ms := r.cmb.filter (fun m => pfKey m = k)
      ms.all (fun m => decide (pfCount m ≤ ms.length)))
    decide (parts ≤ ks.length)

/-- One row and head over the frames in ascending KEY (R194): m and l with the O values and the INVALID mark. -/
def combineRow (ax4 fast : Bool) (c : W32) (dd : Nat) (fs : List (W32 × W32 × List W32 × Bool)) :
    W32 × W32 × List W32 × Bool :=
  fs.foldl (fun a f =>
    let invalid := a.2.2.2 || f.2.2.2
    if f.1 = f32NegInf then (a.1, a.2.1, a.2.2.1, invalid)
    else
      let m := fMax a.1 f.1
      let x := if a.1 = f32NegInf then 0 else expf ax4 fast (fFss a.1 m c)
      let y := expf ax4 fast (fFss f.1 m c)
      (m, fFma y f.2.1 (fMul x a.2.1),
        (List.range dd).map (fun i => fFma y (f.2.2.1.getD i 0) (fMul x (a.2.2.1.getD i 0))), invalid))
    (f32NegInf, 0, List.replicate dd 0, false)

/-- A frame marks a row and head INVALID. DEDUCED (log 101): FLAGS says only that some row is; every O value of an INVALID row is
NaN, since its p are (R179). -/
def frameInvalid (m : List Byte) (os : List W32) : Bool :=
  pfInvalid m && os.all (fun v => match f32 v with | .nan => true | _ => false)

/-- SPLIT 1 (R194): a head cell's rows combined over the frames in ascending KEY, by row and head: M and Lc with Oc and the
INVALID mark. -/
def combinedRows (d : Dev) (r : Req) (c : CellId) : List (W32 × W32 × List W32 × Bool) :=
  let t := dTenant r.desc
  let h := tenantChain d t
  let dd := headDim d t
  let n := (sendOrder d r).length
  let fs := sortBy pfKey (r.cmb.filter (fun m => pfCell m = c.val))
  (List.range n).map (fun i => combineRow (ax4Mode d t) h.fast h.scaleC dd (fs.map (fun m =>
    let os := (List.range dd).map (fun j => pfWord m (0x20 + 8 * n) (i * dd + j))
    (pfWord m 0x20 (2 * i), pfWord m 0x20 (2 * i + 1), os, frameInvalid m os))))

/-- A head cell of the home die goes on from its combined rows: NORMALISE with its marks, the head segment and the output
projection. -/
def combineCell (r : Req) (c : CellId) (d : Dev) : Dev :=
  let nq := cellQueries d (dTenant r.desc)
  let ys := combinedRows d r c
  let ns := ys.map (fun y => normaliseO y.2.1 y.2.2.2 y.2.2.1)
  let rows := (runsOf nq ns.length ns).mapIdx (fun i hs => headSegment d r c (qpos d r i) hs)
  let out := (allTileRows d r).map (fun e =>
    ({ cell := c, firstHead := firstQuery d r c, row := e.1, tile := e.2,
       words := outProject d r c (rows.getD e.1 []) e.2 } : PartialRow))
  let d := ys.foldl (fun d y => noteRow c r (decide (y.1 = f32NegInf)) y.2.2.2 d) d
  updReq r.uid (fun r => { r with
    partials := r.partials ++ out
    cmbRows := r.cmbRows ++ ((sendOrder d r).zip ns).map (fun e => (e.1.1, firstQuery d r c + e.1.2, e.2)) }) d

/-- SPLIT 1 (R194) on every head cell. -/
def combineSplit (r : Req) (d : Dev) : Dev :=
  updReq r.uid (fun r => { r with combined := true })
    ((headCells d (dTenant r.desc)).foldl (fun d c => combineCell r c d) d)

/-- SPLIT 0 (R195): the frames' rows become partial rows in ascending (KEY, FIRST_HEAD). -/
def combineRows (r : Req) (d : Dev) : Dev :=
  let n := rowTiles d (dTenant r.desc)
  let fs := sortBy (fun m => pfKey m * 2 ^ 16 + pfFirst m) r.cmb
  let rows := (fs.mapIdx (fun i m => (allTileRows d r).map (fun e =>
    ({ cell := homeCell d (dTenant r.desc), firstHead := i, row := e.1, tile := e.2,
       words := (List.range 64).map (fun j => pfWord m 0x20 (64 * (e.1 * n + e.2) + j)) } : PartialRow)))).flatten
  updReq r.uid (fun r => { r with combined := true, partials := rows }) d

/-- The combine token is skipped: a frame is still missing at input close (R193). -/
def skipCombine (r : Req) (d : Dev) : Dev :=
  let c := homeCell d (dTenant r.desc)
  let d := bump (report (tokenReport r 0x29 (unitCell c) 0 0) d) (R.CEL_CMB_SKIP_CNT c.val)
  let r' := { r with killed := true, suppressed := true }
  completeReq r' (updReq r.uid (fun _ => r') d)

/-- The combine token of a request is the next one on a cell. -/
def combineTurn (d : Dev) (r : Req) (c : CellId) : Bool :=
  match turnOf d c with
  | some (t, _) => decide (t.uid = r.uid) && t.combine
  | none => false

/-- Cells that combine: the head cells under SPLIT 1, the home cell under SPLIT 0 (R194, R195). -/
def combineCells (d : Dev) (t : Nat) : List CellId := if posSplit d t then headCells d t else [homeCell d t]

/-- COMBINE_TOKEN (R193 to R195): each combining cell has come to its token in bucket order. -/
def combineToken (r : Req) (d : Dev) : Dev :=
  let t := dTenant r.desc
  if !r.region || r.combined || (match r.killAt with | some k => decide (k ≤ r.tick) | none => false) ||
      !((combineCells d t).all (combineTurn d r)) then d
  else if framesThere d r then (if posSplit d t then combineSplit r d else combineRows r d)
  else if inputClosed d r.tick then skipCombine r d
  else d

/-- COMBINE_TOKEN. -/
def execCombineToken (uid : Nat) (s : State) : Host.Outcome State Fault Refusal :=
  onDev (fun d =>
    match findReq d uid with
    | none => d
    | some r => onlyIf (alive d) (combineToken r) d) s

/-! ### Reduction and home segment (R28, R170, R187, Table 07-3) -/

/-- Partial rows that a tile row's sum takes: one from every head cell, from the express cell, or the rows combined. -/
def rowPartials (d : Dev) (r : Req) (row tile : Nat) : Option (List PartialRow) :=
  let mine := r.partials.filter (fun p => decide (p.row = row) && decide (p.tile = tile))
  if framesRows d r then (if r.combined then some (sortBy (·.firstHead) mine) else none)
  else
    let cs := match r.express with | some c => [c] | none => headCells d (dTenant r.desc)
    if cs.all (fun c => mine.any (fun p => p.cell = c)) then some (sortBy (·.firstHead) mine) else none

/-- The sum of partial rows: the first as it is, then one FP32 addition each (R28). -/
def sumPartials : List PartialRow → List W32
  | [] => []
  | p :: ps => ps.foldl (fun s q => (s.zip q.words).map (fun x => fAdd x.1 x.2)) p.words

/-- Format of the result: that of the last epilogue stage (R171). -/
def resultFmt (d : Dev) (t : Nat) : Nat :=
  match (epilogue d t).getLast? with
  | some w => stFmt w
  | none => 0

/-- The home segment on 64 elements of a row from a tile (R168, R170, R187). -/
def homeSegment (d : Dev) (r : Req) (row tile : Nat) (xs : List W32) : List W32 :=
  xs.mapIdx (fun i x => (homeStages d (dTenant r.desc)).foldl (fun x st =>
    let e := 64 * tile + i
    stageCast r st (qpos d r row) e (stageElem st.2 (stageVec d r st.1 e) (arrivedElem d r row e) x)) x)

/-- Bytes of an output tile, none while some partial is missing. -/
def reduceTile (d : Dev) (r : Req) (tile : Nat) : Option (List Byte) :=
  let t := dTenant r.desc
  let col := tile % rowTiles d t
  let f := resultFmt d t
  let rows := tileRows d r tile
  let sums := rows.map (fun row => (rowPartials d r row col).map sumPartials)
  if sums.all (·.isSome) then
    some ((rows.zip sums).flatMap (fun e =>
      packElems (fmtBits f) ((homeSegment d r e.1 col (e.2.getD [])).map (fun v =>
        if f = 0 then v.toNat else castFp f .rne false (f32 v)))))
  else none

/-- REDUCTION of one output tile. -/
def reduction (r : Req) (tile : Nat) (d : Dev) : Dev :=
  if noResult d r || decide (outTiles d r ≤ tile) || (tblFind r.tiles tile).isSome then d
  else
    match reduceTile d r tile with
    | none => d
    | some bs => updReq r.uid (fun r => { r with tiles := tblPut r.tiles tile bs }) d

/-- REDUCTION of the tile at a group of 16 rows and a place in the row. -/
def execReduction (uid : Nat) (rowGroup tile : Nat) (s : State) : Host.Outcome State Fault Refusal :=
  onDev (fun d =>
    match findReq d uid with
    | none => d
    | some r =>
      let n := rowTiles d (dTenant r.desc)
      onlyIf (alive d && decide (tile < n)) (reduction r (rowGroup * n + tile)) d) s

end Sys2Proof.Machine
end

