-- ==== Sys2Proof/Machine/Startup.lean ====
section
/-!
DEFINITION. Reset and bring-up (14): the two resets, the configuration image, the stages of Table 14-4, the lock check
and structural lock. What training, regulators and PLLs do, and what the fuses and the flash hold, comes with the command.
-/

namespace Sys2Proof.Machine

open Sys2Proof

/-! ### Resets (R361 to R364) -/

/-- The die after a power-on reset: all is lost but the count of resets and the model's selector of free values. -/
def powerOnDev (d : Dev) : Dev := { freeIdx := d.freeIdx, mem := { hbmEpoch := d.mem.hbmEpoch + 1 } }

/-- Bring-up begins in stage WINTER with a reset cause and the static I3C address. The xSPI pins are driven where the image is
still to be read (R327, R364). -/
def beginBringUp (cause : Nat) (sa : Nat) (d : Dev) : Dev :=
  let d := setReg d R.ID_RESET_CAUSE (BitVec.ofNat 32 cause)
  let d := setReg d R.LNK_I3C_ADDR (BitVec.ofNat 32 sa)
  let d := setRegFld d R.ID_BOOT_STATUS 3 0 1
  { d with die := { d.die with porstLow := false, stageStart := d.tick.time, xspiDriven := !d.die.warm } }

/-- PORST (R361, R363): PORST_N rises; I3C_SA is sampled (R325). -/
def execPorst (sa : BitVec 2) (s : State) : Host.Outcome State Fault Refusal :=
  onDev (fun d => onlyIf d.die.porstLow (fun d => beginBringUp 1 (0x58 + sa.toNat) (powerOnDev d)) d) s

/-- PORST_ASSERT (R361, R362): PORST_N falls. -/
def execPorstAssert (s : State) : Host.Outcome State Fault Refusal :=
  onDev powerOnDev s

/-- A register that a warm reset keeps (Table 14-1): WIN and RWS registers and counters. -/
def keptWarm (off : Nat) : Bool :=
  decide (0xF00000 ≤ off) || regIsCounter off || decide (regAccess? off = some .rws)

/-- The die after a warm reset with a verified image in keeper memory (Table 14-1, R387). Counters go on, the fraction of
CEL_ZGATE's unit of 64 with them (R104). -/
def warmDev (d : Dev) : Dev := {
  regs := d.regs.filter (fun e => keptWarm e.1)
  die := {
    warm := true, fuseKeys := d.die.fuseKeys, keeperMem := d.die.keeperMem, digested := d.die.digested, imgSlot := d.die.imgSlot,
    keySlot := d.die.keySlot, thermTripLow := d.die.thermTripLow }
  mem := { hbmEpoch := d.mem.hbmEpoch + 1 }
  tick := { time := d.tick.time }
  tel := { gated := d.tel.gated }
  guard := { queue := d.guard.queue, fatal := d.guard.fatal }
  freeIdx := d.freeIdx }

/-- Bring-up failed with DIGEST: only PORST_N restarts the die (R368). -/
def failedDigest (d : Dev) : Bool := bootFailed d && decide (regFld d R.ID_BOOT_STATUS 15 8 = 0x0B)

/-- A warm reset (R362 to R364, R387). -/
def warmReset (d : Dev) : Dev :=
  let sa := regFld d R.LNK_I3C_ADDR 6 0
  if d.die.digested.isNone then
    let d' := powerOnDev d
    beginBringUp 1 sa { d' with tick := { d'.tick with time := d.tick.time } }
  else
    beginBringUp (if d.guard.stopped || bootFailed d then 6 else 2) sa (warmDev d)

/-- WRST (R362): WRST_N low for a time of at least 1 µs. -/
def execWrst (lowNs : Nat) (s : State) : Host.Outcome State Fault Refusal :=
  onDev (fun d => onlyIf (!d.die.porstLow && decide (1000 ≤ lowNs) && !failedDigest d)
    (fun d => warmReset (elapse lowNs d)) d) s

/-! ### Failure of a stage (R369) -/

/-- Bring-up stops: FAILED and the error code, with the stage as it stands. -/
def bootFail (err : Nat) (d : Dev) : Dev :=
  let w := getReg d R.ID_BOOT_STATUS
  setReg d R.ID_BOOT_STATUS (setFld (setBit w 5 true) 15 8 err)

/-- Bring-up stops with a detail. -/
def bootFailInfo (err info : Nat) (d : Dev) : Dev :=
  bootFail err (setReg d R.ID_BOOT_ERR_INFO (BitVec.ofNat 32 info))

/-- Bring-up stops with a detail that the spec narrows to one of n numbers, of the map, the HBM ports or the link ports
(Table 14-6): a free one of them. -/
def bootFailFree (err n : Nat) (d : Dev) : Dev :=
  let r := freshNat d
  bootFailInfo err (r.1 % n) r.2

/-- Failure codes of a stage (Table 14-4). -/
def stageCodes (n : Nat) : List Nat :=
  match n with
  | 1 => [7]
  | 2 => [1, 2, 3, 4, 0xB]
  | 3 => [5, 6]
  | 4 => [7, 8]
  | 5 => [9]
  | 6 => [0xA]
  | 8 => [5]
  | _ => []

/-- BRINGUP_FAIL (R369): the running stage fails with one of its codes and a detail. -/
def execBringupFail (err : BitVec 8) (info : W32) (s : State) : Host.Outcome State Fault Refusal :=
  onDev (fun d => onlyIf (powered d && !d.guard.stopped && decide (err.toNat ∈ stageCodes (bootStage d)))
    (bootFailInfo err.toNat info.toNat) d) s

/-- The next stage starts. -/
def nextStage (n : Nat) (d : Dev) : Dev :=
  let d := setRegFld d R.ID_BOOT_STATUS 3 0 n
  { d with die := { d.die with stageStart := d.tick.time } }

/-- A stage of bring-up that takes `us` µs within a bound: its work, or its failure at the bound. -/
def runStage (n us bound : Nat) (late work : Dev → Dev) (d : Dev) : Dev :=
  onlyIf (inStage d n) (fun d =>
    if us ≤ bound then work (elapse (1000 * us) d) else late (elapse (1000 * bound) d)) d

/-! ### Stage WINTER -/

/-- A fused key digest that is not all zero. -/
def fuseUsed (x : List Byte) : Bool := x.any (fun b => decide (b ≠ 0))

/-- Non-empty digest slots (ID_FUSE_KEYS [3:0]). -/
def fuseMask (fuses : List (List Byte)) : Nat :=
  (List.range 4).foldl (fun m i => if fuseUsed (fuses.getD i []) then m + 2 ^ i else m) 0

/-- STAGE_WINTER (Table 14-4): the fuses are read and REFCLK is checked. -/
def execStageWinter (us : Nat) (fuses : List (List Byte)) (refclkOk : Bool) (s : State) :
    Host.Outcome State Fault Refusal :=
  onDev (runStage 1 us 100 (bootFail 7) (fun d =>
    if refclkOk then
      nextStage 2 (setRegFld { d with die := { d.die with fuseKeys := fuses } } R.ID_FUSE_KEYS 3 0 (fuseMask fuses))
    else bootFail 7 d)) s

/-! ### The image (Table 14-2, Table 14-3, R365 to R368) -/

/-- IMAGE_BYTES, SECTIONS and IMG_VERSION of an image. -/
def imgBytes (b : List Byte) : Nat := leAt b 8 4
def imgSections (b : List Byte) : Nat := leAt b 0x10 2
def imgVersion (b : List Byte) : Nat := leAt b 0xC 4

/-- A section: type, offset, bytes. -/
structure ImgPart where
  typ : Nat
  off : Nat
  len : Nat
  deriving DecidableEq, Repr

/-- Section i of an image. -/
def imgSection (b : List Byte) (i : Nat) : ImgPart :=
  ⟨leAt b (0x80 + 16 * i) 1, leAt b (0x84 + 16 * i) 4, leAt b (0x88 + 16 * i) 4⟩

/-- The section table. -/
def imgTable (b : List Byte) : List ImgPart := (List.range (imgSections b)).map (imgSection b)

/-- Every field of Table 14-2 is in range. -/
def imgHeaderOk (b : List Byte) : Bool :=
  decide (leAt b 0 4 = 0x47464358) && decide (leAt b 4 2 = 1) && decide (leAt b 6 2 = 0x0100) &&
    decide (imgBytes b % 64 = 0) && decide (4096 ≤ imgBytes b) && decide (imgBytes b ≤ 0x1000000) &&
    decide (imgBytes b ≤ b.length) && decide (1 ≤ imgSections b) && decide (imgSections b ≤ 64) &&
    decide (leAt b 0x12 14 = 0) &&
    (List.range (imgSections b)).all (fun i =>
      decide (leAt b (0x81 + 16 * i) 3 = 0) && decide (leAt b (0x84 + 16 * i) 4 % 64 = 0) &&
        decide (leAt b (0x8C + 16 * i) 4 = 0))

/-- Two sections overlap. -/
def sectionsMeet (a b : ImgPart) : Bool := decide (a.off < b.off + b.len) && decide (b.off < a.off + a.len)

/-- Sections that do not overlap one another. -/
def disjointSections : List ImgPart → Bool
  | [] => true
  | a :: t => t.all (fun b => !sectionsMeet a b) && disjointSections t

/-- The sections lie within the image, do not overlap, and have the types and counts of Table 14-3. -/
def sectionsOk (b : List Byte) : Bool :=
  let t := imgTable b
  t.all (fun x => decide (x.off + x.len ≤ imgBytes b - 96) && decide (1 ≤ x.typ) && decide (x.typ ≤ 4)) &&
    disjointSections t && decide ((t.filter (fun x => decide (x.typ = 1))).length = 1) &&
    decide ((t.filter (fun x => decide (x.typ = 4))).length ≤ 1)

/-- Format checks of R366. -/
def formatOk (b : List Byte) : Bool := imgHeaderOk b && sectionsOk b

/-- PUBKEY of an image. -/
def imgKey (b : List Byte) : List Byte := (b.drop 0x20).take 96

/-- The first non-empty fused digest that equals the SHA-384 of PUBKEY (R366). -/
def keySlotOf (d : Dev) (b : List Byte) : Option Nat :=
  let k := digestOf (imgKey b)
  (List.range 4).find? (fun i => fuseUsed (d.die.fuseKeys.getD i []) && decide (d.die.fuseKeys.getD i [] = k))

/-- SIG verifies over the SHA-384 of bytes 0 to IMAGE_BYTES − 97 (R366). -/
def signatureOk (b : List Byte) : Bool :=
  let n := imgBytes b - 96
  Crypto.ecdsaVerify (plainNats (imgKey b)) (Crypto.sha384 (plainNats (b.take n))) (plainNats ((b.drop n).take 96))

/-- Key and signature checks of R366: a non-empty fused digest matches, and SIG verifies. -/
def keyOk (d : Dev) (b : List Byte) : Bool := (keySlotOf d b).isSome && signatureOk b

/-- A slot passes (R366). -/
def slotPasses (d : Dev) (b : List Byte) : Bool := formatOk b && keyOk d b

/-- The slots within the device's capacity, in ascending order. -/
def slotsTried (f : Flash) : List (Nat × List Byte) :=
  ((List.range f.slots.length).zip f.slots).filter (fun e => decide (e.1 < 4) && decide (e.1 * 0x1000000 < f.capacity))

/-- The entries of a REGISTERS section. -/
def regEntries (b : List Byte) (x : ImgPart) : List (Nat × W32) :=
  (List.range (x.len / 8)).map (fun i =>
    (leAt b (x.off + 8 * i) 4, BitVec.ofNat 32 (leAt b (x.off + 8 * i + 4) 4)))

/-- An entry that R367 calls a BAD_REG failure. -/
def badRegEntry (off : Nat) : Bool :=
  decide (off % 4 ≠ 0) || decide (0x1000000 ≤ off) || (regRow? off).isNone ||
    decide (regAccess? off = some .ro) || decide (regAccess? off = some .wo) || decide (regAccess? off = some .w1c) ||
    (decide (0x40000 ≤ off) && decide (off < 0xA0000)) || (decide (0x100000 ≤ off) && decide (off < 0x240000))

/-- REGISTERS entries in order: the state, and the offset of the first bad one. -/
def applyRegs : List (Nat × W32) → Dev → Dev × Option Nat
  | [], d => (d, none)
  | (off, v) :: t, d => if badRegEntry off then (d, some off) else applyRegs t (writeNow off v d)

/-- COST entries: each installs its table; an index above 511 names none. -/
def applyCost (b : List Byte) (x : ImgPart) (d : Dev) : Dev :=
  (List.range (x.len / 4160)).foldl (fun d i =>
    let o := x.off + 4160 * i
    if leAt b o 2 < 512 then
      installTable (leAt b o 2) ((List.range 256).map (fun j => BitVec.ofNat 128 (leAt b (o + 64 + 16 * j) 16))) d
    else d) d

/-- The sections applied in table order (R367). -/
def applySections (b : List Byte) : List ImgPart → Dev → Dev × Option Nat
  | [], d => (d, none)
  | x :: t, d =>
    if x.typ = 2 then
      match applyRegs (regEntries b x) d with
      | (d, some off) => (d, some off)
      | (d, none) => applySections b t d
    else if x.typ = 3 then applySections b t (applyCost b x d)
    else applySections b t d

/-- The image in keeper memory is applied: its number and slots are shown, CFG_DONE rises, R367. -/
def applyImage (d : Dev) : Dev :=
  let b := d.die.keeperMem
  let d := setReg d R.ID_IMG_VERSION (BitVec.ofNat 32 (imgVersion b))
  let d := setRegFld d R.ID_FUSE_KEYS 5 4 d.die.keySlot
  let d := setRegFld d R.ID_BOOT_STATUS 7 6 d.die.imgSlot
  match applySections b (imgTable b) { d with die := { d.die with cfgDone := true, xspiDriven := false } } with
  | (d, some off) => bootFailInfo 4 off d
  | (d, none) => nextStage 3 d

/-- Bits of a list of slot numbers. -/
def slotMask (l : List Nat) : Nat := (l.map (2 ^ ·)).sum

/-- A power-on stage IMAGE that has read these slots: the first that passes is copied, digested and applied. -/
def loadImage (f : Flash) (d : Dev) : Dev :=
  if !f.sfdp then bootFailInfo 1 0 d
  else
    let tried := slotsTried f
    match tried.find? (fun e => slotPasses d e.2) with
    | some (i, x) =>
      let b := x.take (imgBytes x)
      let d := setReg d R.LNK_XSPI_STATUS 7
      applyImage { d with die := { d.die with
        keeperMem := b, digested := some (digestOf b), imgSlot := i, keySlot := (keySlotOf d x).getD 0 } }
    | none =>
      bootFailInfo (if tried.any (fun e => formatOk e.2) then 2 else 3) (slotMask (tried.map (·.1)))
        (setReg d R.LNK_XSPI_STATUS 6)

/-- Number of slots that a power-on stage IMAGE tries. -/
def triedCount (d : Dev) (f : Flash) : Nat :=
  let t := slotsTried f
  match t.findIdx? (fun e => slotPasses d e.2) with
  | some i => i + 1
  | none => t.length

/-- Bound of stage IMAGE in µs. -/
def imageBound (d : Dev) (f : Flash) : Nat := if d.die.warm then 2000 else 60000 * max 1 (triedCount d f)

/-- Stage IMAGE past its bound: a free one of its codes, and the slots tried after power-on. -/
def imageLate (f : Flash) (d : Dev) : Dev :=
  if d.die.warm then bootFail 0xB d
  else
    let r := freshNat d
    bootFailInfo ([1, 2, 3, 4].getD (r.1 % 4) 1) (slotMask (((slotsTried f).take (triedCount d f)).map (·.1))) r.2

/-- Stage IMAGE of a warm reset: keeper memory is checked against the digest in winter SRAM, and applied (R368). -/
def recheckImage (d : Dev) : Dev :=
  if keeperMemOk d then applyImage d else bootFail 0xB d

/-- STAGE_IMAGE (R365 to R368). -/
def execStageImage (us : Nat) (flash : Flash) (found : Option (List Byte)) (s : State) :
    Host.Outcome State Fault Refusal :=
  onDev (fun d => runStage 2 us (imageBound d flash) (imageLate flash) (fun d =>
    if d.die.warm then recheckImage (keeperFound found d) else loadImage flash d) d) s

/-! ### Stages REGULATORS to SPINE -/

/-- Regulator map entries with a rail, a bus and MEAS as given. -/
def rmapCount (d : Dev) (rail : Nat) (avs meas : Bool) : Nat :=
  ((List.range 16).filter (fun i =>
    decide (rmapRail d i = rail) && decide (rmapAvs d i = avs) && decide (rmapMeas d i = meas))).length

/-- Regulator map entries of a rail. -/
def rmapOf (d : Dev) (rail : Nat) : Nat := ((List.range 16).filter (fun i => decide (rmapRail d i = rail))).length

/-- R334. -/
def rmapOk (d : Dev) : Bool :=
  decide (rmapCount d 1 true true = 1) && decide (rmapCount d 1 false false = 1) && decide (rmapOf d 1 = 2) &&
    [2, 3, 4, 5].all (fun r => decide (rmapCount d r false true = 1) && decide (rmapOf d r = 1)) &&
    decide (rmapOf d 6 ≤ 1) && decide (rmapCount d 6 false true + rmapCount d 6 true true = 0)

/-- STAGE_REGULATORS (R334, R340): the entry whose STATUS_WORD reports a fault, and whether 0.55 V was acknowledged. -/
def execStageRegulators (us : Nat) (failed : Option (Fin 16)) (acked : Bool) (s : State) :
    Host.Outcome State Fault Refusal :=
  onDev (runStage 3 us 2000 (bootFailFree 6 16) (fun d =>
    if !rmapOk d then bootFailInfo 5 (R.PWR_RMAP 0) d
    else
      match failed with
      | some i => bootFailInfo 6 i.val d
      | none =>
        if !acked then bootFailInfo 6 (((List.range 16).find? (rmapCore d)).getD 0) d
        else
          let d := setReg d R.PWR_VDDC_MV 550
          nextStage 4 { d with power := { d.power with railsOn := true, reqMv := 550, acked := true } })) s

/-- The image in use has a DIAG section. -/
def hasDiag (d : Dev) : Bool := (imgTable d.die.keeperMem).any (fun x => decide (x.typ = 4))

/-- STAGE_CLOCKS (Table 14-4): PLLs at P3, memories zero and CLEAN, and the cells that failed DIAG program 0. -/
def execStageClocks (us : Nat) (pllOk : Bool) (failedCells : BitVec 64) (s : State) : Host.Outcome State Fault Refusal :=
  onDev (runStage 4 us 1000 (bootFail 7) (fun d =>
    if !pllOk then bootFail 7 d
    else
      let d := setReg d R.PWR_OP_SCHED 0x3F
      match (setBits failedCells).head? with
      | some c => if hasDiag d then bootFailInfo 8 c d else nextStage 5 d
      | none => nextStage 5 d)) s

/-- State and rate of an HBM port after training (R301). -/
def trainHbm (ok : BitVec 8) (d : Dev) : Dev :=
  (List.range 8).foldl (fun d k =>
    setReg d (R.HBM_STATUS k) (BitVec.ofNat 32 (if bit ok k then 2 + 4 * regFld d (R.HBM_CFG k) 1 0 else 3))) d

/-- STAGE_HBM (R301, Table 14-4): every port trains at its rate, and every frame is FREE. -/
def execStageHbm (us : Nat) (ok : BitVec 8) (s : State) : Host.Outcome State Fault Refusal :=
  onDev (fun d => runStage 5 us (if d.die.warm then 1000 else 40000) (bootFailFree 9 8) (fun d =>
    let d := trainHbm ok d
    match (setBits (~~~ok)).head? with
    | some k => bootFailInfo 9 k d
    | none => nextStage 6 (cacheBuild d)) d) s

/-- Modules or lanes with which a port comes up: a spine port runs at 16 lanes or a working half of 8. -/
def trainedWidth (p : PortId) (w : BitVec 16) : BitVec 16 :=
  if isSpine p then
    if w = 0xFFFF then w else if w &&& 0x00FF = 0x00FF then 0x00FF else if w &&& 0xFF00 = 0xFF00 then 0xFF00 else 0
  else w &&& 0x00FF

/-- A port becomes FAILED. -/
def failPort (p : PortId) (d : Dev) : Dev :=
  setRegFld (setPort d p { getPort d p with helloSince := none }) (R.LNK_STATUS p.val) 3 0 3

/-- Training of one enabled port (R306, R309), then the HELLO exchange (R313). -/
def trainPort (l : List LinkTraining) (p : PortId) (d : Dev) : Dev :=
  if !bit (getReg d (R.LNK_CFG p.val)) 0 then d
  else
    let found := l.find? (fun t => decide (t.port = p))
    let w := trainedWidth p ((found.map (·.width)).getD 0)
    let d := setReg d (R.LNK_WIDTH p.val) (BitVec.ofNat 32 w.toNat)
    if popCount w < regFld d (R.LNK_CFG p.val) 12 8 ∨ w = 0 then failPort p d
    else
      let d := phyUp p d
      match found.bind (·.hello) with
      | none => failPort p d
      | some f =>
        let d := if f.typ = tHELLO then takeHello p f d else d
        if portState d p = 1 then failPort p d else d

/-- Training of a set of ports. -/
def trainPorts (l : List LinkTraining) (ports : List PortId) (d : Dev) : Dev :=
  ports.foldl (fun d p => trainPort l p d) d

/-- STAGE_D2D (R306, R313). -/
def execStageD2d (us : Nat) (training : List LinkTraining) (s : State) : Host.Outcome State Fault Refusal :=
  onDev (runStage 6 us 20000 (bootFailFree 0xA 4) (fun d =>
    let d := trainPorts training [0, 1, 2, 3] d
    if ([0, 1, 2, 3] : List PortId).any (portUp d) then nextStage 7 d else bootFailFree 0xA 4 d)) s

/-- STAGE_SPINE (R309, R313): a port that fails stays FAILED; past the bound none has come up. -/
def execStageSpine (us : Nat) (training : List LinkTraining) (s : State) : Host.Outcome State Fault Refusal :=
  onDev (runStage 7 us 100000 (fun d => nextStage 8 (trainPorts [] [4, 5] d))
    (fun d => nextStage 8 (trainPorts training [4, 5] d))) s

/-- STAGE_JOIN (R371, R372): a solo or queen die sets S(0); a worker starts its ECHOs. -/
def execStageJoin (s : State) : Host.Outcome State Fault Refusal :=
  onDev (fun d => onlyIf (inStage d 8 && !d.tick.joined && !d.tick.joining) (startJoin false) d) s

/-! ### The lock check (R375, R376) -/

/-- One condition of the lock check: whether it holds, and the offset that ID_BOOT_ERR_INFO shows if not. -/
abbrev LockCond := Bool × Nat

/-- Bytes of a quantity of 2 MiB units. -/
def mib2 (n : Nat) : Nat := n * 0x200000

/-- Beacon path that this die's own links show, ns: the declared latency of the PARENT link of a worker, and with children
the largest declared latency of their links, plus the 200 ns of a die that forwards (R29, R311). -/
def ownPath (d : Dev) : Nat :=
  let lat (p : PortId) : Nat := regFld d (R.LNK_DECL_LAT p.val) 15 0
  (if role d = 2 then (match parentPort d with | some p => lat p | none => 0) else 0) +
    (if (childPorts d).isEmpty then 0
     else (childPorts d).foldl (fun m p => max m (lat p)) 0 + (if role d = 2 then 200 else 0))

/-- Longest beacon path of the domain, ns (R29): what the own links show, and a free rest for the links of other dies. -/
def longestPath (d : Dev) : Nat :=
  if (getReg d R.TICK_DOMAIN_SIZE).toNat = 1 then 0 else ownPath d + Config.beaconRest

/-- Conditions of R29, in its order; that of the beacon path reads TICK_CFG, which names the links, before TICK_BEACON_LEN. -/
def condsTick (d : Dev) : List LockCond :=
  let period := (getReg d R.TICK_PERIOD).toNat
  let input := (getReg d R.TICK_INPUT_CLOSE).toNat
  let admitClose := (getReg d R.TICK_ADMIT_CLOSE).toNat
  let drain := (getReg d R.TICK_DRAIN_LEN).toNat
  let beacon := (getReg d R.TICK_BEACON_LEN).toNat
  [(decide (250 ≤ period ∧ period ≤ 16000), R.TICK_PERIOD),
   (decide (1 ≤ input), R.TICK_INPUT_CLOSE),
   (decide (admitClose + drain + beacon ≤ period), R.TICK_PERIOD),
   (decide (input + 100 + drain + beacon ≤ period), R.TICK_PERIOD),
   (decide (10 ≤ drain), R.TICK_DRAIN_LEN),
   (decide (1000 + longestPath d ≤ 1000 * beacon), R.TICK_CFG)]

/-- An HBM structure: base, bytes, lowest offset of its registers. -/
structure HbmRange where
  base : Nat
  len : Nat
  off : Nat

/-- The HBM structures of the die (R205, R279, R358). -/
def hbmRanges (d : Dev) : List HbmRange :=
  let units := (getReg d R.KVC_REGION_SIZE).toNat
  [⟨getReg64 d R.KVC_REGION_BASE_LO R.KVC_REGION_BASE_HI, mib2 units, R.KVC_REGION_BASE_LO⟩,
   ⟨getReg64 d R.KVC_FT_BASE_LO R.KVC_FT_BASE_HI, 8 * (1024 * units), R.KVC_REGION_SIZE⟩,
   ⟨getReg64 d R.KVC_SEQ_BASE_LO R.KVC_SEQ_BASE_HI, mib2 16, R.KVC_SEQ_BASE_LO⟩,
   ⟨getReg64 d R.ENT_WGT_REGION_BASE_LO R.ENT_WGT_REGION_BASE_HI, mib2 (getReg d R.ENT_WGT_REGION_SIZE).toNat,
     R.ENT_WGT_REGION_BASE_LO⟩,
   ⟨getReg64 d R.ENT_WGT_RELAY_BASE_LO R.ENT_WGT_RELAY_BASE_HI, 257 * 0x100000, R.ENT_WGT_RELAY_BASE_LO⟩,
   ⟨getReg64 d R.WIN_SAVE_BASE_LO R.WIN_SAVE_BASE_HI, mib2 272, R.WIN_SAVE_BASE_LO⟩]

/-- Two ranges share no byte. -/
def rangesApart (a b : HbmRange) : Bool :=
  decide (a.len = 0 ∨ b.len = 0 ∨ a.base + a.len ≤ b.base ∨ b.base + b.len ≤ a.base)

/-- Every pair of structures is disjoint. -/
def condsApart : List HbmRange → List LockCond
  | [] => []
  | a :: t => t.map (fun b => (rangesApart a b, min a.off b.off)) ++ condsApart t

/-- Conditions of R205, R279, R334 and R358. -/
def condsPlaces (d : Dev) : List LockCond :=
  let al (lo hi n : Nat) : Bool := decide (getReg64 d lo hi % n = 0)
  condsApart (hbmRanges d) ++
  [(al R.KVC_REGION_BASE_LO R.KVC_REGION_BASE_HI 0x200000, R.KVC_REGION_BASE_LO),
   (al R.KVC_SEQ_BASE_LO R.KVC_SEQ_BASE_HI 0x200000, R.KVC_SEQ_BASE_LO),
   (al R.KVC_FT_BASE_LO R.KVC_FT_BASE_HI 8, R.KVC_FT_BASE_LO),
   (al R.ENT_WGT_REGION_BASE_LO R.ENT_WGT_REGION_BASE_HI 0x200000, R.ENT_WGT_REGION_BASE_LO),
   (al R.ENT_WGT_RELAY_BASE_LO R.ENT_WGT_RELAY_BASE_HI 0x200000, R.ENT_WGT_RELAY_BASE_LO),
   (rmapOk d, R.PWR_RMAP 0),
   (al R.WIN_SAVE_BASE_LO R.WIN_SAVE_BASE_HI 0x200000, R.WIN_SAVE_BASE_LO),
   (decide (getReg64 d R.WIN_SAVE_BASE_LO R.WIN_SAVE_BASE_HI + mib2 272 ≤ hbmCapacity d), R.HBM_CFG 0)]

/-- A LNK_ROUTE entry names ports 0 to 5, or 7. -/
def routeOk (w : W32) : Bool := (List.range 8).all (fun j => decide (fld w (4 * j + 3) (4 * j) ∈ [0, 1, 2, 3, 4, 5, 7]))

/-- Conditions of R376, in ascending register offset and bit position. -/
def condsRange (d : Dev) : List LockCond :=
  let f := regFld d
  [(decide (f R.TICK_CFG 1 0 ≠ 3 ∧ f R.TICK_CFG 6 4 ≤ 5), R.TICK_CFG),
   (decide (f R.TICK_DIE_INDEX 8 0 < f R.TICK_DOMAIN_SIZE 9 0), R.TICK_DIE_INDEX),
   (decide (1 ≤ f R.TICK_DOMAIN_SIZE 9 0 ∧ f R.TICK_DOMAIN_SIZE 9 0 ≤ 512), R.TICK_DOMAIN_SIZE),
   (decide (f R.ENT_SLACK_CFG 9 0 ≤ 500), R.ENT_SLACK_CFG),
   (decide (f R.ENT_LATE_CFG 8 0 ≤ 256), R.ENT_LATE_CFG),
   (decide (65 ≤ f R.ENT_CMD_BUDGET 11 0), R.ENT_CMD_BUDGET),
   (decide ((getReg d R.PWR_CAP_MW).toNat ≤ 600000), R.PWR_CAP_MW),
   (decide (f R.PWR_CAP_CFG 8 0 ≤ 256), R.PWR_CAP_CFG)] ++
  (List.range 16).map (fun i =>
    (decide (rmapRail d i ≠ 7) && (!rmapAvs d i || decide (f (R.PWR_RMAP i) 10 4 = 0)), R.PWR_RMAP i)) ++
  [(decide (1 ≤ f R.KPR_DUTY_CFG 9 0 ∧ f R.KPR_DUTY_CFG 9 0 ≤ 1000 ∧ 1 ≤ f R.KPR_DUTY_CFG 19 16), R.KPR_DUTY_CFG),
   (decide (1 ≤ f R.KPR_WDOG_TICKS 7 0), R.KPR_WDOG_TICKS)] ++
  (List.range 6).map (fun p =>
    let mw := f (R.LNK_CFG p) 12 8
    let ver := f (R.LNK_CFG p) 3 2
    (decide (ver = 1 ∨ ver = 2) && (if p < 4 then decide (1 ≤ mw ∧ mw ≤ 8) else decide (mw = 8 ∨ mw = 16)), R.LNK_CFG p)) ++
  (List.range 64).map (fun m => (routeOk (getReg d (R.LNK_ROUTE m)), R.LNK_ROUTE m)) ++
  (List.range 8).map (fun k =>
    (decide (f (R.HBM_CFG k) 1 0 ≤ 2 ∧ f (R.HBM_CFG k) 3 2 ≤ 2 ∧ f (R.HBM_CFG k) 5 4 ≤ 2), R.HBM_CFG k))

/-- A port named by number is UP at Toroux 2.0. -/
def portGood (d : Dev) (n : Nat) : Bool := if h : n < 6 then portUp20 d ⟨n, h⟩ else false

/-- Conditions of R314 for the die's role: PARENT, the CHILDREN ports, and the routes. -/
def condsLinks (d : Dev) : List LockCond :=
  (if role d = 2 then [(portGood d (regFld d R.TICK_CFG 6 4), R.TICK_CFG)] else []) ++
  (childPorts d).map (fun p => (portUp20 d p, R.TICK_CFG)) ++
  (List.range 64).map (fun m =>
    ((List.range 8).all (fun j =>
      let n := regFld d (R.LNK_ROUTE m) (4 * j + 3) (4 * j)
      decide (n = 7) || portGood d n), R.LNK_ROUTE m))

/-- All conditions in the order of R375. -/
def lockConds (d : Dev) : List LockCond := condsTick d ++ condsPlaces d ++ condsRange d ++ condsLinks d

/-- The offset of the first condition that fails. -/
def lockFault (d : Dev) : Option Nat := ((lockConds d).find? (fun c => !c.1)).map (·.2)

/-- The structural lock (R375); an EXTEST in force acts as BYPASS from now on (R328). -/
def lockDie (d : Dev) : Dev :=
  let d := setReg d R.ID_LOCK 1
  let d := setReg64 d R.ID_BOOT_TIME_LO R.ID_BOOT_TIME_HI (now d)
  let d := setReg d R.ID_BOOT_STATUS (setFld (setBit (getReg d R.ID_BOOT_STATUS) 4 true) 3 0 9)
  { d with
    keeper := { d.keeper with running := true, wdogTick := d.tick.num }
    die := { d.die with tap := if d.die.tap = .extest then .bypass else d.die.tap } }

/-- The lock check and its outcome. -/
def lockCheck (d : Dev) : Dev :=
  match lockFault d with
  | some off => bootFailInfo 5 off d
  | none => lockDie d

/-- LOCK_CHECK (R375): at S(0) of a solo or queen die, at S(K) of a worker. -/
def execLockCheck (s : State) : Host.Outcome State Fault Refusal :=
  onDev (fun d => onlyIf (inStage d 8 && d.tick.joined) (fun d => lockCheck (advanceTo (nextStart d) d)) d) s

/-- JOIN_TIMEOUT (R373): the worker locks as the lock check permits, and stays out of its domain until a join under
R374. -/
def execJoinTimeout (s : State) : Host.Outcome State Fault Refusal :=
  onDev (fun d => onlyIf (inStage d 8 && d.tick.joining) (fun d =>
    let d := advanceTo (d.tick.joinStart + 1000000 * regFld d R.TICK_JOIN_TIMEOUT 15 0) d
    lockCheck { d with tick := { d.tick with joining := false, echoSent := none, member := false } }) d) s

/-! ### Restore after a power state (R359, Table 13-8) -/

/-- What a restore step restores; `l` is what training finds at the links. -/
def restoreEffect (l : List LinkTraining) (k : Nat) (d : Dev) : Dev :=
  match k with
  | 1 => selfRefresh false d
  | 2 => (List.finRange 64).foldl (fun d c => (List.range 8).foldl (fun d b =>
      if bankRet d c b then d else setBankState d c b 0) d) d
  | 10 => { d with power := { d.power with railsOn := true, reqMv := 550, acked := true } }
  | 11 => d
  | 12 => setReg (setReg (setReg (markRate d) R.PWR_OP_SCHED 0x3F) R.PWR_OP_NEXT 3) R.PWR_VDDC_MV 550
  | 13 => selfRefresh false d
  | 14 => { d with power := { d.power with imageWritten := false } }
  | 15 => trainPorts l (List.finRange 6) d
  | _ => d

/-- RESTORE_STEP (R359): a step completes within its delay, the last after Winter with what training finds at each enabled port
(R306, R309, R313), or escalates RESTORE. -/
def execRestoreStep (outcome : Option (List LinkTraining)) (s : State) : Host.Outcome State Fault Refusal :=
  onDev (fun d =>
    match d.power.restore with
    | [] => d
    | k :: rest => onlyIf (powered d && !d.guard.stopped) (fun d =>
      let d := elapse (restoreDelay d k) d
      match outcome with
      | some l =>
        let d := restoreEffect l k { d with power := { d.power with restore := rest } }
        if rest.isEmpty then
          let wasWinter := decide (powerState d = 3)
          let d := setReg d R.PWR_STATE (setFld (getReg d R.PWR_STATE) 1 0 0)
          if wasWinter then { d with keeper := { d.keeper with running := true, wdogTick := d.tick.num } } else d
        else d
      | none => report (mkReport 0x44 unitPower) { d with power := { d.power with restore := [] } }) d) s

end Sys2Proof.Machine
end

