-- ==== Sys2Proof/Machine/Transfers.lean ====
section
/-!
DEFINITION. The instructions that the cell mover carries out (08, 09, 10): LDT, STT, MOV, APPEND, PGWALK and SCOUT, with LDT,
STT and MOV of diagnostic programs (R263, R272). Machine/Mover.lean and Machine/Append.lean say what each does.
-/

namespace Sys2Proof.Machine

open Sys2Proof

/-- LDT, of a token's tick program or of a diagnostic program. -/
def execLdt (cell : CellId) (word : BitVec 128) (s : State) : Host.Outcome State Fault Refusal :=
  if (cellToken s.dev cell).isNone then
    onDev (onDiag cell (ldtOk word) (fun d => updCell cell (ldtPut word (diagRead d cell false (tileOffs word))) d)) s
  else onDev (issueMover cell word (fun _ _ => ldtOk word) (ldt cell word)) s

/-- STT, of a token's tick program or of a diagnostic program. -/
def execStt (cell : CellId) (word : BitVec 128) (s : State) : Host.Outcome State Fault Refusal :=
  if (cellToken s.dev cell).isNone then
    onDev (onDiag cell (sttOk word) (fun d => diagWrite cell false (sttChunks word (cellOf d cell)) d)) s
  else onDev (issueMover cell word (fun _ _ => sttOk word) (stt cell word)) s

/-- MOV, of a token's tick program or of a diagnostic program. -/
def execMov (cell : CellId) (word : BitVec 128) (s : State) : Host.Outcome State Fault Refusal :=
  if movBeyond cell word s.dev then .fault .noHbmAddress
  else if (cellToken s.dev cell).isNone then onDev (onDiag cell (movOk true word) (diagMov cell word)) s
  else onDev (issueMover cell word (fun _ _ => movOk false word) (mov cell word)) s

/-- APPEND in STAGE mode. -/
def execAppendStage (cell : CellId) (word : BitVec 128) (s : State) : Host.Outcome State Fault Refusal :=
  onDev (issueMover cell word (appendStageOk word) (appendStage cell word)) s

/-- APPEND in PAGE mode. -/
def execAppendPage (cell : CellId) (word : BitVec 128) (s : State) : Host.Outcome State Fault Refusal :=
  onDev (issueMover cell word (appendPageOk word) (appendPages cell word)) s

/-- PGWALK. -/
def execPgwalk (cell : CellId) (word : BitVec 128) (s : State) : Host.Outcome State Fault Refusal :=
  onDev (issueMover cell word (fun r d => pgwalkWord word && decide (fld word 65 64 < headsPerCell d (dTenant r.desc)))
    (pgwalk cell word)) s

/-- SCOUT, GATHER. -/
def execScoutGather (cell : CellId) (word : BitVec 128) (s : State) : Host.Outcome State Fault Refusal :=
  onDev (issueMover cell word (gatherOk word) (scoutGather cell word)) s

/-- SCOUT, LIST. -/
def execScoutList (cell : CellId) (word : BitVec 128) (s : State) : Host.Outcome State Fault Refusal :=
  onDev (issueMover cell word (listOk word) (scoutList cell word)) s

end Sys2Proof.Machine
end

