-- ==== Sys2Proof/Machine/Dispatch.lean ====
section
/-!
DEFINITION. The meaning of each command by its constructor: one call of the definition that holds it.
-/

namespace Sys2Proof.Machine

open Sys2Proof

/-- A command's effect on everything but the queue. -/
def exec (i : Instr) (s : State) : Host.Outcome State Fault Refusal :=
  match i with
  | .porst sa => Sys2Proof.Machine.execPorst sa s
  | .wrst lowNs => Sys2Proof.Machine.execWrst lowNs s
  | .stageWinter us fuses refclkOk => Sys2Proof.Machine.execStageWinter us fuses refclkOk s
  | .stageImage us flash found => Sys2Proof.Machine.execStageImage us flash found s
  | .stageRegulators us failed acked => Sys2Proof.Machine.execStageRegulators us failed acked s
  | .stageClocks us pllOk failedCells => Sys2Proof.Machine.execStageClocks us pllOk failedCells s
  | .stageHbm us ok => Sys2Proof.Machine.execStageHbm us ok s
  | .stageD2d us training => Sys2Proof.Machine.execStageD2d us training s
  | .stageSpine us training => Sys2Proof.Machine.execStageSpine us training s
  | .stageJoin => Sys2Proof.Machine.execStageJoin s
  | .bringupFail err info => Sys2Proof.Machine.execBringupFail err info s
  | .lockCheck => Sys2Proof.Machine.execLockCheck s
  | .joinTimeout => Sys2Proof.Machine.execJoinTimeout s
  | .workerJoin port frame => Sys2Proof.Machine.execWorkerJoin port frame s
  | .rejoinStart => Sys2Proof.Machine.execRejoinStart s
  | .tickStart => Sys2Proof.Machine.execTickStart s
  | .dvfsUpStep => Sys2Proof.Machine.execDvfsUpStep s
  | .inputClose => Sys2Proof.Machine.execInputClose s
  | .tokenSkip cell => Sys2Proof.Machine.execTokenSkip cell s
  | .admitClose => Sys2Proof.Machine.execAdmitClose s
  | .drainStart => Sys2Proof.Machine.execDrainStart s
  | .beaconStart busyPm => Sys2Proof.Machine.execBeaconStart busyPm s
  | .admitFrame port frame => Sys2Proof.Machine.execAdmitFrame port frame s
  | .expressRelease cell => Sys2Proof.Machine.execExpressRelease cell s
  | .tokenStart cell => Sys2Proof.Machine.execTokenStart cell s
  | .input port frame => Sys2Proof.Machine.execInput port frame s
  | .expbuf port frame => Sys2Proof.Machine.execExpbuf port frame s
  | .syncWait port frame => Sys2Proof.Machine.execSyncWait port frame s
  | .syncWaitAnswer port tag => Sys2Proof.Machine.execSyncWaitAnswer port tag s
  | .syncWaitTimeout port tag => Sys2Proof.Machine.execSyncWaitTimeout port tag s
  | .hello port frame => Sys2Proof.Machine.execHello port frame s
  | .helloTimeout port => Sys2Proof.Machine.execHelloTimeout port s
  | .echo port frame => Sys2Proof.Machine.execEcho port frame s
  | .echoIntervalExpiry => Sys2Proof.Machine.execEchoIntervalExpiry s
  | .beacon port frame => Sys2Proof.Machine.execBeacon port frame s
  | .beaconMissing => Sys2Proof.Machine.execBeaconMissing s
  | .domainLeave => Sys2Proof.Machine.execDomainLeave s
  | .tickInEdge edgeNs highNs => Sys2Proof.Machine.execTickInEdge edgeNs highNs s
  | .report port frame => Sys2Proof.Machine.execReport port frame s
  | .reportSilence die => Sys2Proof.Machine.execReportSilence die s
  | .regRd port frame => Sys2Proof.Machine.execRegRd port frame s
  | .regWr port frame => Sys2Proof.Machine.execRegWr port frame s
  | .registerWrite path off size val => Sys2Proof.Machine.execRegisterWrite path off size val s
  | .memRd port frame => Sys2Proof.Machine.execMemRd port frame s
  | .memWr port frame => Sys2Proof.Machine.execMemWr port frame s
  | .i3cPrivateWrite bytes => Sys2Proof.Machine.execI3cPrivateWrite bytes s
  | .i3cPrivateRead => Sys2Proof.Machine.execI3cPrivateRead s
  | .i3cWinterWake addr => Sys2Proof.Machine.execI3cWinterWake addr s
  | .pwrFrame port frame => Sys2Proof.Machine.execPwrFrame port frame s
  | .wchunk port frame => Sys2Proof.Machine.execWchunk port frame s
  | .chunkVerify slot tenant version index => Sys2Proof.Machine.execChunkVerify slot tenant version index s
  | .wack port frame => Sys2Proof.Machine.execWack port frame s
  | .wnack port frame => Sys2Proof.Machine.execWnack port frame s
  | .wfail port frame => Sys2Proof.Machine.execWfail port frame s
  | .chunkMissing slot => Sys2Proof.Machine.execChunkMissing slot s
  | .loadFail slot reason => Sys2Proof.Machine.execLoadFail slot reason s
  | .loadEnd slot kvHeads tables => Sys2Proof.Machine.execLoadEnd slot kvHeads tables s
  | .hotCopyEnd tenant => Sys2Proof.Machine.execHotCopyEnd tenant s
  | .swapStart tenant => Sys2Proof.Machine.execSwapStart tenant s
  | .swapLayer tenant => Sys2Proof.Machine.execSwapLayer tenant s
  | .swapEnd tenant => Sys2Proof.Machine.execSwapEnd tenant s
  | .revertEnd tenant => Sys2Proof.Machine.execRevertEnd tenant s
  | .hotBlockRecopy tenant => Sys2Proof.Machine.execHotBlockRecopy tenant s
  | .rngDoorbellCompletion path ring val => Sys2Proof.Machine.execRngDoorbellCompletion path ring val s
  | .rngDoorbellCommand path ring val => Sys2Proof.Machine.execRngDoorbellCommand path ring val s
  | .rngEnable path ring val => Sys2Proof.Machine.execRngEnable path ring val s
  | .ringWipeEnd ring => Sys2Proof.Machine.execRingWipeEnd ring s
  | .rngDisable path ring val => Sys2Proof.Machine.execRngDisable path ring val s
  | .synValueWrite path sync val => Sys2Proof.Machine.execSynValueWrite path sync val s
  | .synAddWrite path sync val => Sys2Proof.Machine.execSynAddWrite path sync val s
  | .tcxWrite path tenant off val => Sys2Proof.Machine.execTcxWrite path tenant off val s
  | .entCreditScaleWrite path off val => Sys2Proof.Machine.execEntCreditScaleWrite path off val s
  | .pwrBoostWrite path val => Sys2Proof.Machine.execPwrBoostWrite path val s
  | .pwrStateReqWrite path val => Sys2Proof.Machine.execPwrStateReqWrite path val s
  | .pwrHintFifoRead path => Sys2Proof.Machine.execPwrHintFifoRead path s
  | .grdAck path val => Sys2Proof.Machine.execGrdAck path val s
  | .grdForce path val => Sys2Proof.Machine.execGrdForce path val s
  | .grdFlagsClear path val => Sys2Proof.Machine.execGrdFlagsClear path val s
  | .winWakeSrcClear path val => Sys2Proof.Machine.execWinWakeSrcClear path val s
  | .kprWdog path val => Sys2Proof.Machine.execKprWdog path val s
  | .keeperWatchdogExpiry unc found => Sys2Proof.Machine.execKeeperWatchdogExpiry unc found s
  | .ctxActivate ring => Sys2Proof.Machine.execCtxActivate ring s
  | .ctxKill ring => Sys2Proof.Machine.execCtxKill ring s
  | .reqKill ring => Sys2Proof.Machine.execReqKill ring s
  | .seqKill ring => Sys2Proof.Machine.execSeqKill ring s
  | .seqOpen ring => Sys2Proof.Machine.execSeqOpen ring s
  | .seqFork ring => Sys2Proof.Machine.execSeqFork ring s
  | .forkEnd seq => Sys2Proof.Machine.execForkEnd seq s
  | .seqRelease ring => Sys2Proof.Machine.execSeqRelease ring s
  | .releaseEnd seq => Sys2Proof.Machine.execReleaseEnd seq s
  | .seqSet ring => Sys2Proof.Machine.execSeqSet ring s
  | .ctLoad ring => Sys2Proof.Machine.execCtLoad ring s
  | .syncSet ring => Sys2Proof.Machine.execSyncSet ring s
  | .badCmd ring => Sys2Proof.Machine.execBadCmd ring s
  | .wgtKeyLoad ring cmdId handle => Sys2Proof.Machine.execWgtKeyLoad ring cmdId handle s
  | .wgtKeyClear ring => Sys2Proof.Machine.execWgtKeyClear ring s
  | .wgtLoad ring => Sys2Proof.Machine.execWgtLoad ring s
  | .wgtCancel ring => Sys2Proof.Machine.execWgtCancel ring s
  | .wgtSwap ring => Sys2Proof.Machine.execWgtSwap ring s
  | .wgtActivate ring => Sys2Proof.Machine.execWgtActivate ring s
  | .wgtAbort ring => Sys2Proof.Machine.execWgtAbort ring s
  | .completionRecordWrite uid => Sys2Proof.Machine.execCompletionRecordWrite uid s
  | .reduction uid rowGroup tile => Sys2Proof.Machine.execReduction uid rowGroup tile s
  | .combineToken uid => Sys2Proof.Machine.execCombineToken uid s
  | .timingRecord tick => Sys2Proof.Machine.execTimingRecord tick s
  | .nop cell word => Sys2Proof.Machine.execNop cell word s
  | .hint cell word => Sys2Proof.Machine.execHint cell word s
  | .bar cell word => Sys2Proof.Machine.execBar cell word s
  | .loopInstr cell word => Sys2Proof.Machine.execLoopInstr cell word s
  | .endTok cell word => Sys2Proof.Machine.execEndTok cell word s
  | .reservedOpcode cell word => Sys2Proof.Machine.execReservedOpcode cell word s
  | .lds cell word => Sys2Proof.Machine.execLds cell word s
  | .mmr cell word parityRow => Sys2Proof.Machine.execMmr cell word parityRow s
  | .mmc cell word parityRow => Sys2Proof.Machine.execMmc cell word parityRow s
  | .dist cell word parityRow => Sys2Proof.Machine.execDist cell word parityRow s
  | .cmpx cell word parityRow => Sys2Proof.Machine.execCmpx cell word parityRow s
  | .nectLoad cell word => Sys2Proof.Machine.execNectLoad cell word s
  | .nectDot cell word => Sys2Proof.Machine.execNectDot cell word s
  | .nectAcc cell word => Sys2Proof.Machine.execNectAcc cell word s
  | .nectRead cell word => Sys2Proof.Machine.execNectRead cell word s
  | .accrd cell word => Sys2Proof.Machine.execAccrd cell word s
  | .accwr cell word => Sys2Proof.Machine.execAccwr cell word s
  | .accxRead cell word => Sys2Proof.Machine.execAccxRead cell word s
  | .accxWrite cell word => Sys2Proof.Machine.execAccxWrite cell word s
  | .accxClear cell word => Sys2Proof.Machine.execAccxClear cell word s
  | .topk cell word => Sys2Proof.Machine.execTopk cell word s
  | .vop cell word => Sys2Proof.Machine.execVop cell word s
  | .lookup cell word => Sys2Proof.Machine.execLookup cell word s
  | .epoch cell word => Sys2Proof.Machine.execEpoch cell word s
  | .vprog cell word words => Sys2Proof.Machine.execVprog cell word words s
  | .vbcast cell word => Sys2Proof.Machine.execVbcast cell word s
  | .vmask cell word => Sys2Proof.Machine.execVmask cell word s
  | .vcvt cell word => Sys2Proof.Machine.execVcvt cell word s
  | .vred cell word => Sys2Proof.Machine.execVred cell word s
  | .rowstat cell word => Sys2Proof.Machine.execRowstat cell word s
  | .rmsstat cell word => Sys2Proof.Machine.execRmsstat cell word s
  | .sfu cell word => Sys2Proof.Machine.execSfu cell word s
  | .mov cell word => Sys2Proof.Machine.execMov cell word s
  | .ldt cell word => Sys2Proof.Machine.execLdt cell word s
  | .stt cell word => Sys2Proof.Machine.execStt cell word s
  | .appendStage cell word => Sys2Proof.Machine.execAppendStage cell word s
  | .appendPage cell word => Sys2Proof.Machine.execAppendPage cell word s
  | .pgwalk cell word => Sys2Proof.Machine.execPgwalk cell word s
  | .send cell what => Sys2Proof.Machine.execSend cell what s
  | .fatt cell word => Sys2Proof.Machine.execFatt cell word s
  | .score cell word => Sys2Proof.Machine.execScore cell word s
  | .corr cell word => Sys2Proof.Machine.execCorr cell word s
  | .scoutGather cell word => Sys2Proof.Machine.execScoutGather cell word s
  | .scoutList cell word => Sys2Proof.Machine.execScoutList cell word s
  | .hbmRequest cell addr write bytes delivered => Sys2Proof.Machine.execHbmRequest cell addr write bytes delivered s
  | .hbmRefresh port temp => Sys2Proof.Machine.execHbmRefresh port temp s
  | .cacheDrainWork ops => Sys2Proof.Machine.execCacheDrainWork ops s
  | .wipeEnd place => Sys2Proof.Machine.execWipeEnd place s
  | .bankGateClose bank => Sys2Proof.Machine.execBankGateClose bank s
  | .bankOffReached bank => Sys2Proof.Machine.execBankOffReached bank s
  | .bankWakeStart bank => Sys2Proof.Machine.execBankWakeStart bank s
  | .bankWakeEnd bank => Sys2Proof.Machine.execBankWakeEnd bank s
  | .errorReport report => Sys2Proof.Machine.execErrorReport report s
  | .droopCrossing => Sys2Proof.Machine.execDroopCrossing s
  | .stretchEnd cycles => Sys2Proof.Machine.execStretchEnd cycles s
  | .arrayHalt => Sys2Proof.Machine.execArrayHalt s
  | .haltEnd => Sys2Proof.Machine.execHaltEnd s
  | .voltageAck mv => Sys2Proof.Machine.execVoltageAck mv s
  | .voltAckTimeout => Sys2Proof.Machine.execVoltAckTimeout s
  | .pmAlert index status answered => Sys2Proof.Machine.execPmAlert index status answered s
  | .powerSample ma mv pout pin sensor temp => Sys2Proof.Machine.execPowerSample ma mv pout pin sensor temp s
  | .thermTrip sensor => Sys2Proof.Machine.execThermTrip sensor s
  | .clockLoss refclk => Sys2Proof.Machine.execClockLoss refclk s
  | .powerEntryAttempt => Sys2Proof.Machine.execPowerEntryAttempt s
  | .powerEntryStep => Sys2Proof.Machine.execPowerEntryStep s
  | .winterImageWrite => Sys2Proof.Machine.execWinterImageWrite s
  | .entryAbort => Sys2Proof.Machine.execEntryAbort s
  | .powerWake src => Sys2Proof.Machine.execPowerWake src s
  | .restoreStep ok => Sys2Proof.Machine.execRestoreStep ok s
  | .linkRetrainPending port lane retries => Sys2Proof.Machine.execLinkRetrainPending port lane retries s
  | .linkRetrain port => Sys2Proof.Machine.execLinkRetrain port s
  | .spineResend port acked corrected uncorrectable => Sys2Proof.Machine.execSpineResend port acked corrected uncorrectable s
  | .linkRetrainEnd port => Sys2Proof.Machine.execLinkRetrainEnd port s
  | .linkDown port => Sys2Proof.Machine.execLinkDown port s
  | .pwrAnswer port frame => Sys2Proof.Machine.execPwrAnswer port frame s
  | .reservedFrame port frame => Sys2Proof.Machine.execReservedFrame port frame s
  | .i3cDynamicAddress addr => Sys2Proof.Machine.execI3cDynamicAddress addr s
  | .jtagInstruction code => Sys2Proof.Machine.execJtagInstruction code s
  | .tickOutFall => Sys2Proof.Machine.execTickOutFall s
  | .pwrKprVoteWrite path val => Sys2Proof.Machine.execPwrKprVoteWrite path val s
  | .kprWaitExpiry => Sys2Proof.Machine.execKprWaitExpiry s
  | .porstAssert => Sys2Proof.Machine.execPorstAssert s
  | .keeperLoRead off => Sys2Proof.Machine.execKeeperLoRead off s

end Sys2Proof.Machine
end

