-- ==== Sys2Proof/Safety.lean ====
section
/-!
DEFINITION. What statements about the block are made of: completion, frames, canonical memories, and a safe run.
-/

namespace Sys2Proof.Machine

open Sys2Proof

/-- The command completes on the state, and the state after it satisfies a property. -/
def Completes (i : Instr) (s : State) (post : State → Prop) : Prop := ∃ t, exec i s = .next t ∧ post t

/-- A step ends without a fault and without a refusal. -/
def stepSafe (s : State) : Prop := ∃ t, step s = .next t

/-- The memories are in canonical form. -/
def MemCanonical (s : State) : Prop := memWf s.dev.mem = true

/-- Two states read the same in every byte of cell memory, hive memory and written HBM. -/
def SameMemory (s t : State) : Prop := t.dev.mem = s.dev.mem

/-- Every register outside a set of offsets keeps its value. -/
def RegsExcept (offs : List Nat) (s t : State) : Prop := ∀ o, o ∉ offs → getReg t.dev o = getReg s.dev o

/-- A path whose writes reach the window: the units act, and on the keeper's path its core runs. -/
def PathActs (s : State) (path : Path) : Prop :=
  alive s.dev = true ∧ (path = .keeper → s.dev.keeper.running = true)

/-- The path, lock and deferral rules let a write to an offset through. -/
def WriteApplies (s : State) (path : Path) (off : Nat) : Prop := writeFate s.dev path off 4 = .applied

/-- A live die takes a frame of a type on a port that is UP; an answer is one to a transaction the die can start; between Winter
and its rejoin the die takes the types that R357 leaves (log 114). -/
def Accepted (s : State) (p : PortId) (f : Frame) (typ : Byte) : Prop :=
  alive s.dev = true ∧ f.typ = typ ∧ portUp s.dev p = true ∧ frameFate s.dev p f = .accept ∧
    answersNothing f = false ∧ (s.dev.tick.fromWinter = true → servedAfterWinter typ = true)

/-- The port has sent the answer to a frame, with a payload and with nothing else behind it. -/
def Answered (p : PortId) (f : Frame) (payload : List Byte) (s t : State) : Prop :=
  (getPort t.dev p).tx = (getPort s.dev p).tx ++ [mkFrame s.dev f.typ 1 f.tag f.src.toNat 0 0 0 payload]

/-- A cell whose clock runs has a token of a request running on it. -/
def RunsOn (s : State) (c : CellId) (k : Token) (r : Req) : Prop :=
  alive s.dev = true ∧ cellClocked s.dev c = true ∧ cellToken s.dev c = some k ∧ findReq s.dev k.uid = some r

/-- The word is the one that the cell comes to in the program of its running token. -/
def RunsWord (s : State) (c : CellId) (k : Token) (r : Req) (w : BitVec 128) : Prop :=
  RunsOn s c k r ∧ fetchOk (cellOf s.dev c) w = true

/-- The cell has come to its next instruction: n words further in the program, with nothing held. -/
def NextInstr (n : Nat) (c : CellId) (s t : State) : Prop :=
  (cellOf t.dev c).prog = (cellOf s.dev c).prog ∧ (cellOf t.dev c).held = none ∧
    ((cellOf t.dev c).pc, (cellOf t.dev c).loops) = loopStep ((cellOf s.dev c).pc + n) (cellOf s.dev c).loops

/-- The command completes: a state that satisfies a property, from which the vector engine has gone on with its queue (R146). -/
def CompletesQueued (i : Instr) (c : CellId) (k : Token) (r : Req) (s : State) (post : State → Prop) : Prop :=
  ∃ u : Dev, exec i s = .next { s with dev := vqRun c k r u } ∧ post { s with dev := u }

/-- Nothing but one cell and the registers of a list has changed. -/
def CellOnly (c : CellId) (offs : List Nat) (s t : State) : Prop :=
  t.pending = s.pending ∧ SameMemory s t ∧ RegsExcept offs s t ∧ t.dev.ent = s.dev.ent ∧ t.dev.guard = s.dev.guard ∧
    ∀ e, e ≠ c → cellOf t.dev e = cellOf s.dev e

/-- The cell's issue is held by the word (R100), and its queues go on. -/
def Holds (i : Instr) (c : CellId) (k : Token) (r : Req) (w : BitVec 128) (offs : List Nat) (s : State) : Prop :=
  CompletesQueued i c k r s (fun t => CellOnly c offs s t ∧ cellOf t.dev c = { cellOf s.dev c with held := some w })

/-- The transfer reaches no unit that is WIPING, and no earlier instruction of the cell's queues holds it back (R260, R270). -/
def MoverFree (c : CellId) (r : Req) (w : BitVec 128) (s : State) : Prop :=
  moverWipes c w r s.dev = false ∧ moverHeld c r w (cellOf s.dev c).vq (cellOf s.dev c).mq s.dev = false

/-- An instruction of the vector engine issues (R146): to the end of a queue of 8, or while that is full it holds the cell. -/
def Issues (i : Instr) (c : CellId) (k : Token) (r : Req) (w : BitVec 128) (words : List (BitVec 128)) (s : State) :
    Prop :=
  (8 ≤ (cellOf s.dev c).vq.length → Holds i c k r w [R.CEL_VE_QFULL_CNT c.val] s) ∧
  ((cellOf s.dev c).vq.length < 8 → CompletesQueued i c k r s (fun t => CellOnly c [R.CEL_VE_QFULL_CNT c.val] s t ∧
    cellOf t.dev c = nextInstr (1 + words.length)
      { cellOf s.dev c with vq := (cellOf s.dev c).vq ++ [{ word := w, inline := words }] }))

/-- A saturating 32-bit counter after n more events. -/
def counted (w : W32) (n : Nat) : W32 := BitVec.ofNat 32 (min (w.toNat + n) 0xFFFFFFFF)

/-- The command reader's turn is a ring's, in a drain phase, and the entry at its front has a code. -/
def CommandFront (s : State) (ring : RingId) (code : Nat) (e : CmdEntry) : Prop :=
  alive s.dev = true ∧ inDrain s.dev = true ∧ (pickCmd s.dev (cmdOrder s.dev)).1 = some ring.toNat ∧
    cmdEntryOf (cmdEntryAt s.dev ring.toNat 0) = e ∧ e.code = code

/-- A command that is carried out: its record goes to an enabled completion ring, no reserved bit is set, and no word of it
is damaged. -/
def CommandAt (s : State) (ring : RingId) (code : Nat) (e : CmdEntry) : Prop :=
  CommandFront s ring code e ∧ ringIsCompletion s.dev e.ring = true ∧ e.bad = false ∧
    badEntry s.dev ring.toNat (cmdSize code) = none

/-- What a record written to a ring adds to a sync object (R69). -/
def ringAdd (s : State) (ring obj : Nat) : W32 :=
  if bit (getReg s.dev (R.RNG_SYNC ring)) 15 = true ∧ fld (getReg s.dev (R.RNG_SYNC ring)) 13 0 = obj then 1 else 0

/-- The register of the sync object to which a ring's records add, where there is one. -/
def ringSync (s : State) (ring : Nat) : List Nat :=
  if bit (getReg s.dev (R.RNG_SYNC ring)) 15 then [R.SYN_VALUE (fld (getReg s.dev (R.RNG_SYNC ring)) 13 0)] else []

/-- Registers in which reading a command and reserving its slot show, RNG_PENDING of its completion ring apart. -/
def cmdRegs (ring : RingId) (e : CmdEntry) : List Nat :=
  [R.RNG_HEAD ring.toNat, R.RNG_TAIL e.ring, R.ENT_CMD_CNT, R.ENT_CMD_NEXT]

/-- The same for a command whose record is written at once. -/
def doneRegs (ring : RingId) (e : CmdEntry) (s : State) : List Nat := cmdRegs ring e ++ ringSync s e.ring

/-- A command has been read: its entries are consumed and counted, the next ring is the reader's, the next slot of its
completion ring is taken, and no byte of cell memory or HBM has changed. -/
def CommandRead (ring : RingId) (e : CmdEntry) (s t : State) : Prop :=
  t.pending = s.pending ∧ t.dev.mem.cm = s.dev.mem.cm ∧ t.dev.mem.hbm = s.dev.mem.hbm ∧
    getReg t.dev (R.RNG_HEAD ring.toNat) = getReg s.dev (R.RNG_HEAD ring.toNat) + BitVec.ofNat 32 (cmdSize e.code) ∧
    getReg t.dev (R.RNG_TAIL e.ring) = getReg s.dev (R.RNG_TAIL e.ring) + 1 ∧
    getReg t.dev R.ENT_CMD_CNT = counted (getReg s.dev R.ENT_CMD_CNT) (cmdSize e.code) ∧
    getReg t.dev R.ENT_CMD_NEXT = BitVec.ofNat 32 ((ring.toNat + 1) % 4096)

/-- Address of the slot that the command's record takes. -/
def cmdSlot (e : CmdEntry) (s : State) : Nat := slotAddr s.dev e.ring (ringTail s.dev e.ring)

/-- The slot holds the record of the command with a RESULT. -/
def CommandResult (e : CmdEntry) (result : Nat) (s t : State) : Prop :=
  leNat (hiveRead t.dev (cmdSlot e s) 4) = e.cmdId.toNat ∧
    tblGet 0 t.dev.mem.hive (cmdSlot e s + 7) = BitVec.ofNat 8 (0x80 + e.code % 128) ∧
    tblGet 0 t.dev.mem.hive (cmdSlot e s + 0x2E) = BitVec.ofNat 8 result

/-- A command has been read and answered at once: its record is written, and no other byte of hive memory. -/
def CommandAnswered (ring : RingId) (e : CmdEntry) (result : Nat) (s t : State) : Prop :=
  CommandRead ring e s t ∧ CommandResult e result s t ∧
    getReg t.dev (R.RNG_PENDING e.ring) = getReg s.dev (R.RNG_PENDING e.ring) ∧
    ∀ b, b < cmdSlot e s ∨ cmdSlot e s + 64 ≤ b → tblGet 0 t.dev.mem.hive b = tblGet 0 s.dev.mem.hive b

/-- A command has been read and its record is still to come: its slot is pending, and no byte of memory has changed. -/
def CommandKept (ring : RingId) (e : CmdEntry) (s t : State) : Prop :=
  CommandRead ring e s t ∧ SameMemory s t ∧
    getReg t.dev (R.RNG_PENDING e.ring) = getReg s.dev (R.RNG_PENDING e.ring) + 1

/-- Requests, tokens, ledgers, sequences, cache control, load slots and cells are as they were. -/
def WorkKept (s t : State) : Prop :=
  t.dev.ent.reqs = s.dev.ent.reqs ∧ t.dev.ent.tokens = s.dev.ent.tokens ∧ t.dev.ent.ledgers = s.dev.ent.ledgers ∧
    t.dev.ent.seqTab = s.dev.ent.seqTab ∧ t.dev.cache = s.dev.cache ∧ t.dev.wgt = s.dev.wgt ∧ t.dev.cells = s.dev.cells

/-- No REGISTERS entry of an image's sections is one that R367 refuses. -/
def SectionsGood (b : List Byte) : Prop :=
  ∀ x, x ∈ imgTable b → x.typ = 2 → ∀ e, e ∈ regEntries b x → badRegEntry e.1 = false

end Sys2Proof.Machine
end

