-- ==== Sys2Proof/WellFormed.lean ====
section
/-!
DEFINITION. Well-formed commands: what can be judged of a command without the state of the block. A frame row carries a
frame of its type; an instruction row carries a word that passes the stateless checks of the version-load check (R87);
a register row names a register it is about.
-/

namespace Sys2Proof

open Sys2Proof.Machine

/-- A product word of one of the four kinds, whose GANG may not match at run time (R115). -/
def productWord (w : IWord) : Bool := prodWord w 0x11 || prodWord w 0x12 || prodWord w 0x14 || prodWord w 0x15

/-- The command is well formed. -/
def wellFormed (i : Instr) : Bool :=
  match i with
  | .porst _ => true
  | .wrst lowNs => decide (1000 ≤ lowNs)
  | .stageWinter _ fuses _ => decide (fuses.length = 4) && fuses.all (fun x => decide (x.length = 48))
  | .stageImage _ flash _ => decide (flash.slots.length ≤ 4)
  | .stageRegulators _ _ _ => true
  | .stageClocks _ _ _ => true
  | .stageHbm _ _ => true
  | .stageD2d _ training => training.all (fun t => !isSpine t.port)
  | .stageSpine _ training => training.all (fun t => isSpine t.port)
  | .stageJoin => true
  | .bringupFail err _ => decide (1 ≤ err.toNat) && decide (err.toNat ≤ 0xB)
  | .lockCheck => true
  | .joinTimeout => true
  | .workerJoin _ frame => decide (frame.typ = tBEACON)
  | .rejoinStart => true
  | .tickStart => true
  | .dvfsUpStep => true
  | .inputClose => true
  | .tokenSkip _ => true
  | .admitClose => true
  | .drainStart => true
  | .beaconStart _ => true
  | .admitFrame _ frame => decide (frame.typ = tADMIT)
  | .expressRelease _ => true
  | .tokenStart _ => true
  | .input _ frame => decide (frame.typ = tINPUT)
  | .expbuf _ frame => decide (frame.typ = tEXPBUF)
  | .syncWait _ frame => decide (frame.typ = tSYNC_WAIT)
  | .syncWaitAnswer _ _ => true
  | .syncWaitTimeout _ _ => true
  | .hello _ frame => decide (frame.typ = tHELLO)
  | .helloTimeout _ => true
  | .echo _ frame => decide (frame.typ = tECHO)
  | .echoIntervalExpiry => true
  | .beacon _ frame => decide (frame.typ = tBEACON)
  | .beaconMissing => true
  | .domainLeave => true
  | .tickInEdge _ _ => true
  | .report _ frame => decide (frame.typ = tREPORT)
  | .reportSilence _ => true
  | .regRd _ frame => decide (frame.typ = tREG_RD)
  | .regWr _ frame => decide (frame.typ = tREG_WR)
  | .registerWrite _ off size _ => decide (size = 4) && decide (off.toNat % 4 = 0)
  | .memRd _ frame => decide (frame.typ = tMEM_RD)
  | .memWr _ frame => decide (frame.typ = tMEM_WR)
  | .i3cPrivateWrite bytes => decide (bytes.length = 4) || decide (bytes.length = 8)
  | .i3cPrivateRead => true
  | .i3cWinterWake _ => true
  | .pwrFrame _ frame => decide (frame.typ = tPWR)
  | .wchunk _ frame => decide (frame.typ = tWEIGHT)
  | .chunkVerify _ _ _ _ => true
  | .wack _ frame => decide (frame.typ = tWEIGHT)
  | .wnack _ frame => decide (frame.typ = tWEIGHT)
  | .wfail _ frame => decide (frame.typ = tWEIGHT)
  | .chunkMissing _ => true
  | .loadFail _ reason => decide (1 ≤ reason.toNat)
  | .loadEnd _ _ _ => true
  | .hotCopyEnd _ => true
  | .swapStart _ => true
  | .swapLayer _ => true
  | .swapEnd _ => true
  | .revertEnd _ => true
  | .hotBlockRecopy _ => true
  | .rngDoorbellCompletion _ _ _ => true
  | .rngDoorbellCommand _ _ _ => true
  | .rngEnable _ _ val => bit val 0
  | .ringWipeEnd _ => true
  | .rngDisable _ _ val => !bit val 0
  | .synValueWrite _ _ _ => true
  | .synAddWrite _ _ _ => true
  | .tcxWrite _ _ off _ => decide (off.toNat % 4 = 0)
  | .entCreditScaleWrite _ off _ =>
    decide (off.toNat = R.ENT_CREDIT_SCALE) ||
      (decide (R.TICK_BUDGET 0 ≤ off.toNat) && decide (off.toNat < R.TICK_BUDGET 256))
  | .pwrBoostWrite _ _ => true
  | .pwrStateReqWrite _ _ => true
  | .pwrHintFifoRead _ => true
  | .grdAck _ _ => true
  | .grdForce _ _ => true
  | .grdFlagsClear _ _ => true
  | .winWakeSrcClear _ _ => true
  | .kprWdog _ _ => true
  | .keeperWatchdogExpiry _ _ => true
  | .ctxActivate _ => true
  | .ctxKill _ => true
  | .reqKill _ => true
  | .seqKill _ => true
  | .seqOpen _ => true
  | .seqFork _ => true
  | .forkEnd _ => true
  | .seqRelease _ => true
  | .releaseEnd _ => true
  | .seqSet _ => true
  | .ctLoad _ => true
  | .syncSet _ => true
  | .badCmd _ => true
  | .wgtKeyLoad _ _ _ => true
  | .wgtKeyClear _ => true
  | .wgtLoad _ => true
  | .wgtCancel _ => true
  | .wgtSwap _ => true
  | .wgtActivate _ => true
  | .wgtAbort _ => true
  | .completionRecordWrite _ => true
  | .reduction _ _ _ => true
  | .combineToken _ => true
  | .timingRecord _ => true
  | .nop _ word => nopOk word
  | .hint _ word => hintOk word
  | .bar _ word => barOk word
  | .loopInstr _ word => loopOk word
  | .endTok _ word => endOk word
  | .reservedOpcode _ word => !opcodeKnown (iOpc word) || productWord word
  | .lds _ word => ldsOk word
  | .mmr _ word _ => prodWord word 0x11
  | .mmc _ word _ => prodWord word 0x12
  | .dist _ word _ => prodWord word 0x14
  | .cmpx _ word _ => prodWord word 0x15
  | .nectLoad _ word => nectLoadOk word
  | .nectDot _ word => nectDotOk word
  | .nectAcc _ word => nectAccOk word
  | .nectRead _ word => nectReadOk word
  | .accrd _ word => accrdOk word false
  | .accwr _ word => accwrOk word
  | .accxRead _ word => accxReadOk word
  | .accxWrite _ word => accxWriteOk word
  | .accxClear _ word => accxClearOk word
  | .topk _ word => topkOk word
  | .vop _ word => vopOk word
  | .lookup _ word => lookupOk word
  | .epoch _ word => epochOk word
  | .vprog _ word words => vprogOk word words
  | .vbcast _ word => vbcastOk word
  | .vmask _ word => vmaskOk word
  | .vcvt _ word => vcvtOk word
  | .vred _ word => vredOk word
  | .rowstat _ word => rowstatOk word
  | .rmsstat _ word => rmsstatOk word
  | .sfu _ word => sfuOk word
  | .mov _ word => movOk false word || movOk true word
  | .ldt _ word => ldtOk word
  | .stt _ word => sttOk word
  | .appendStage _ word => appendStageWord word
  | .appendPage _ word => appendPageWord word
  | .pgwalk _ word => pgwalkWord word
  | .send _ _ => true
  | .fatt _ word => fattWord word
  | .score _ word => scoreWord word
  | .corr _ word => corrWord word
  | .scoutGather _ word => gatherWord word
  | .scoutList _ word => listWord word
  | .hbmRequest _ _ _ _ _ => true
  | .hbmRefresh _ _ => true
  | .cacheDrainWork _ => true
  | .wipeEnd _ => true
  | .bankGateClose _ => true
  | .bankOffReached _ => true
  | .bankWakeStart _ => true
  | .bankWakeEnd _ => true
  | .errorReport report => report.corrected || unitFits report.code report.unit
  | .droopCrossing => true
  | .stretchEnd _ => true
  | .arrayHalt => true
  | .haltEnd => true
  | .voltageAck _ => true
  | .voltAckTimeout => true
  | .pmAlert _ _ _ => true
  | .powerSample _ _ _ _ _ _ => true
  | .thermTrip _ => true
  | .clockLoss _ => true
  | .powerEntryAttempt => true
  | .powerEntryStep => true
  | .winterImageWrite => true
  | .entryAbort => true
  | .powerWake _ => true
  | .restoreStep _ => true
  | .linkRetrainPending port lane _ => isSpine port || decide (lane.val < 8)
  | .linkRetrain _ => true
  | .spineResend port _ _ _ => isSpine port
  | .linkRetrainEnd _ => true
  | .linkDown _ => true
  | .pwrAnswer _ frame => decide (frame.typ = tPWR)
  | .reservedFrame _ _ => true
  | .i3cDynamicAddress _ => true
  | .jtagInstruction _ => true
  | .tickOutFall => true
  | .pwrKprVoteWrite _ _ => true
  | .kprWaitExpiry => true
  | .porstAssert => true
  | .keeperLoRead access => decide (access.size ∈ [1, 2, 4, 8])

end Sys2Proof
end

