-- ==== Sys2Proof/Certificates/Slice0/Obligations.lean ====
section
/-!
DEFINITION. The statements about the model. Each docstring names the rules it formalises and what it rests on.
-/

open Sys2Proof Sys2Proof.Machine

/-- State.reset has PORST_N low, so no unit acts; its queue is empty, its timebase is 0, every register of the window
holds its reset value (the values of log 1 where the spec gives none), cell and hive memory are zero, every owner tag
is CLEAN, and the memories are in canonical form. (14 R361, 14 R363, 10 R269) -/
def Obligations.ResetIsStated : Prop :=
  State.reset.pending = [] ∧ State.reset.dev.die.porstLow = true ∧ alive State.reset.dev = false ∧
    now State.reset.dev = 0 ∧ (∀ o, getReg State.reset.dev o = regReset o) ∧
    (∀ a, tblGet 0 State.reset.dev.mem.cm a = 0 ∧ tblGet 0 State.reset.dev.mem.hive a = 0) ∧
    (∀ k, tblGet .clean State.reset.dev.mem.tags k = .clean) ∧ MemCanonical State.reset

/-- A fall of PORST_N leaves every register at its reset value, the timebase at 0, the byte memories and tags empty
and the die in reset, in every state. A rise of PORST_N in reset starts stage WINTER with ID_RESET_CAUSE 1 and the I3C
address 0x58 plus the sampled I3C_SA; every other register holds its reset value. The queue stays as it was. (14 R361,
14 R363, 12 R325) -/
def Obligations.PowerOnResetBringsUp : Prop :=
  (∀ s : State, Completes .porstAssert s (fun t => t.pending = s.pending ∧ t.dev.die.porstLow = true ∧
    now t.dev = 0 ∧ (∀ o, getReg t.dev o = regReset o) ∧ t.dev.mem.cm = [] ∧ t.dev.mem.hive = [] ∧
    t.dev.mem.tags = [])) ∧
  ∀ (s : State) (sa : BitVec 2), s.dev.die.porstLow = true →
    Completes (.porst sa) s (fun t => t.pending = s.pending ∧ t.dev.die.porstLow = false ∧
      bootStage t.dev = 1 ∧ now t.dev = 0 ∧ getReg t.dev R.ID_RESET_CAUSE = 1 ∧
      getReg t.dev R.LNK_I3C_ADDR = BitVec.ofNat 32 (0x58 + sa.toNat) ∧
      ∀ o, o ∉ [R.ID_RESET_CAUSE, R.LNK_I3C_ADDR, R.ID_BOOT_STATUS] → getReg t.dev o = regReset o)

/-- A warm reset of at least 1 µs on a die whose keeper memory holds a verified image starts stage WINTER again. WIN
registers, RWS registers and counters keep their values and every other register takes its reset value, the three that
the reset itself writes apart; the cause is bit 1, with bit 2 beside it where the die was stopped or bring-up had
failed. Keeper memory, THERM_TRIP_N and the guard's records are kept, cell and hive memory and the tags are cleared,
requests, sequences and port state are gone, and the stop is lifted. (14 R362, 14 R363, 15 R387) -/
def Obligations.WarmResetKeeps : Prop :=
  ∀ (s : State) (lowNs : Nat), s.dev.die.porstLow = false → 1000 ≤ lowNs → failedDigest s.dev = false →
    s.dev.die.digested.isSome = true →
    Completes (.wrst lowNs) s (fun t => t.pending = s.pending ∧ bootStage t.dev = 1 ∧
      t.dev.tick.time = (elapse lowNs s.dev).tick.time ∧
      getReg t.dev R.ID_RESET_CAUSE = (if s.dev.guard.stopped || bootFailed s.dev then 6 else 2) ∧
      (∀ o, o ∉ [R.ID_RESET_CAUSE, R.LNK_I3C_ADDR, R.ID_BOOT_STATUS] →
        getReg t.dev o = if keptWarm o then getReg s.dev o else regReset o) ∧
      t.dev.die.keeperMem = s.dev.die.keeperMem ∧ t.dev.die.thermTripLow = s.dev.die.thermTripLow ∧
      t.dev.guard.queue = s.dev.guard.queue ∧ t.dev.guard.fatal = s.dev.guard.fatal ∧ t.dev.guard.stopped = false ∧
      t.dev.mem.cm = [] ∧ t.dev.mem.hive = [] ∧ t.dev.mem.tags = [] ∧ t.dev.ent.reqs = [] ∧
      t.dev.cache.seqs = [] ∧ t.dev.ports = [])

/-- Each stage of Table 14-4 that runs within its bound and finds nothing wrong completes and starts the next: WINTER
reads the fused digests and shows the non-empty ones in ID_FUSE_KEYS; IMAGE, after a warm reset that finds in keeper
memory the digest of winter SRAM or after power-on with the first slot that passes, copies that slot's image at power-
on, stores its digest, raises CFG_DONE and shows the image's version where no REGISTERS entry of its sections is bad;
REGULATORS turns the rails on and shows 550 mV; CLOCKS shows P3 in all three places of PWR_OP_SCHED; HBM, in 40 ms
after power-on and in 1 ms after a warm reset, shows every stack port up; D2D, with a port of 0 to 3 that trained,
leaves those ports as their training leaves them, and SPINE does so for ports 4 and 5; JOIN on a solo or queen die
sets S(0) to the timebase rounded up to a microsecond plus two periods, and on a worker begins its join. (14 R369, 14
R365, 14 R367, 14 R371) -/
def Obligations.StagesRunInOrder : Prop :=
  ∀ (s : State) (us : Nat),
    (∀ fuses, inStage s.dev 1 = true → us ≤ 100 →
      Completes (.stageWinter us fuses true) s (fun t => t.pending = s.pending ∧ bootStage t.dev = 2 ∧
        t.dev.die.fuseKeys = fuses ∧
        ∀ i, i < 4 → bit (getReg t.dev R.ID_FUSE_KEYS) i = fuseUsed (fuses.getD i []))) ∧
    (∀ flash found, let m := found.getD s.dev.die.keeperMem
      inStage s.dev 2 = true → s.dev.die.warm = true → us ≤ 2000 → s.dev.die.digested = some (digestOf m) →
      SectionsGood m →
      Completes (.stageImage us flash found) s (fun t => t.pending = s.pending ∧ bootStage t.dev = 3 ∧
        t.dev.die.cfgDone = true ∧ t.dev.die.keeperMem = m ∧
        getReg t.dev R.ID_IMG_VERSION = BitVec.ofNat 32 (imgVersion m))) ∧
    (∀ flash found i x, inStage s.dev 2 = true → s.dev.die.warm = false → us ≤ imageBound s.dev flash →
      flash.sfdp = true → (slotsTried flash).find? (fun e => slotPasses s.dev e.2) = some (i, x) →
      SectionsGood (x.take (imgBytes x)) →
      Completes (.stageImage us flash found) s (fun t => t.pending = s.pending ∧ bootStage t.dev = 3 ∧
        t.dev.die.cfgDone = true ∧ t.dev.die.keeperMem = x.take (imgBytes x) ∧
        t.dev.die.digested = some (digestOf (x.take (imgBytes x))) ∧
        getReg t.dev R.ID_IMG_VERSION = BitVec.ofNat 32 (imgVersion (x.take (imgBytes x))))) ∧
    (inStage s.dev 3 = true → us ≤ 2000 → rmapOk s.dev = true →
      Completes (.stageRegulators us none true) s (fun t => t.pending = s.pending ∧ bootStage t.dev = 4 ∧
        t.dev.power.railsOn = true ∧ getReg t.dev R.PWR_VDDC_MV = 550)) ∧
    (inStage s.dev 4 = true → us ≤ 1000 →
      Completes (.stageClocks us true 0) s (fun t => t.pending = s.pending ∧ bootStage t.dev = 5 ∧
        getReg t.dev R.PWR_OP_SCHED = 0x3F)) ∧
    (inStage s.dev 5 = true → us ≤ (if s.dev.die.warm then 1000 else 40000) →
      Completes (.stageHbm us 0xFF) s (fun t => t.pending = s.pending ∧ bootStage t.dev = 6 ∧
        ∀ k, k < 8 → regFld t.dev (R.HBM_STATUS k) 1 0 = 2)) ∧
    (∀ tr, let trained := trainPorts tr [0, 1, 2, 3] (elapse (1000 * us) s.dev)
      inStage s.dev 6 = true → us ≤ 20000 → ([0, 1, 2, 3] : List PortId).any (portUp trained) = true →
      Completes (.stageD2d us tr) s (fun t => t.pending = s.pending ∧ bootStage t.dev = 7 ∧
        t.dev.ports = trained.ports ∧ ∀ p : PortId, portState t.dev p = portState trained p ∧
          getReg t.dev (R.LNK_WIDTH p.val) = getReg trained (R.LNK_WIDTH p.val))) ∧
    (∀ tr, let trained := trainPorts tr [4, 5] (elapse (1000 * us) s.dev)
      inStage s.dev 7 = true → us ≤ 100000 →
      Completes (.stageSpine us tr) s (fun t => t.pending = s.pending ∧ bootStage t.dev = 8 ∧
        t.dev.ports = trained.ports ∧ ∀ p : PortId, portState t.dev p = portState trained p ∧
          getReg t.dev (R.LNK_WIDTH p.val) = getReg trained (R.LNK_WIDTH p.val))) ∧
    (inStage s.dev 8 = true → s.dev.tick.joined = false → s.dev.tick.joining = false →
      Completes .stageJoin s (fun t => t.pending = s.pending ∧
        (role s.dev ≠ 2 → t.dev.tick.joined = true ∧
          t.dev.tick.start = ceilDiv s.dev.tick.time 1000 * 1000 + 2 * periodNs s.dev) ∧
        (role s.dev = 2 → t.dev.tick.joining = true ∧ t.dev.tick.joinStart = s.dev.tick.time)))

/-- Stage IMAGE fails with DIGEST where keeper memory after a warm reset has another digest than winter SRAM; after
power-on it fails with NO_FLASH where SFDP does not answer and, where no slot passes, with SIGNATURE when some slot
tried is in form and with FORMAT otherwise; no unit of the die acts after it. BRINGUP_FAIL with a code of the running
stage sets FAILED and shows the code and the detail; the stage shown stays, every register but the two of bring-up is
unchanged, memory is unchanged, and no unit of the die acts after it. (14 R366, 14 R368, 14 R369) -/
def Obligations.BringUpFailureStops : Prop :=
  (∀ (s : State) (us : Nat) (flash : Flash) (found : Option (List Byte)), inStage s.dev 2 = true →
    us ≤ imageBound s.dev flash →
    let fails := fun (err : Nat) (t : State) => t.pending = s.pending ∧ bootFailed t.dev = true ∧
      regFld t.dev R.ID_BOOT_STATUS 15 8 = err ∧ bootStage t.dev = 2 ∧ alive t.dev = false ∧ SameMemory s t
    (s.dev.die.warm = true → s.dev.die.digested ≠ some (digestOf (found.getD s.dev.die.keeperMem)) →
      Completes (.stageImage us flash found) s (fails 0xB)) ∧
    (s.dev.die.warm = false → flash.sfdp = false → Completes (.stageImage us flash found) s (fails 1)) ∧
    (s.dev.die.warm = false → flash.sfdp = true →
      (∀ e, e ∈ slotsTried flash → ¬ (formatOk e.2 = true ∧ (keySlotOf s.dev e.2).isSome = true ∧ signatureOk e.2 = true)) →
      Completes (.stageImage us flash found) s
        (fails (if (slotsTried flash).any (fun e => formatOk e.2) then 2 else 3)))) ∧
  ∀ (s : State) (err : BitVec 8) (info : W32), powered s.dev = true → s.dev.guard.stopped = false →
    err.toNat ∈ stageCodes (bootStage s.dev) →
    Completes (.bringupFail err info) s (fun t => t.pending = s.pending ∧ bootFailed t.dev = true ∧
      regFld t.dev R.ID_BOOT_STATUS 15 8 = err.toNat ∧ getReg t.dev R.ID_BOOT_ERR_INFO = info ∧
      bootStage t.dev = bootStage s.dev ∧ alive t.dev = false ∧
      RegsExcept [R.ID_BOOT_STATUS, R.ID_BOOT_ERR_INFO] s t ∧ SameMemory s t)

/-- At the lock check, and at a join timeout, a die that meets every condition of R375 locks: ID_LOCK reads 1, STAGE 9
and DONE are shown, ID_BOOT_TIME holds the timebase, and the keeper runs. A die that fails one is stopped with CONFIG
and the offset of the first condition that fails, and stays unlocked. The state checked is the one at S of the next
tick, or at the end of the timeout, where the worker has left its join and its domain. (14 R375, 14 R373, 14 R371) -/
def Obligations.LockCheckDecides : Prop :=
  ∀ s : State, inStage s.dev 8 = true →
    (s.dev.tick.joined = true → Completes .lockCheck s (fun t => t.pending = s.pending ∧
      t.dev = lockCheck (advanceTo (nextStart s.dev) s.dev))) ∧
    (s.dev.tick.joining = true → Completes .joinTimeout s (fun t => t.pending = s.pending ∧
      t.dev.tick.joining = false ∧ t.dev.tick.member = false ∧
      t.dev = lockCheck { advanceTo (s.dev.tick.joinStart + 1000000 * regFld s.dev R.TICK_JOIN_TIMEOUT 15 0) s.dev with
        tick := { (advanceTo (s.dev.tick.joinStart + 1000000 * regFld s.dev R.TICK_JOIN_TIMEOUT 15 0) s.dev).tick with
          joining := false, echoSent := none, member := false } })) ∧
    ∀ d : Dev,
      (lockFault d = none → locked (lockCheck d) = true ∧ bootStage (lockCheck d) = 9 ∧
        bit (getReg (lockCheck d) R.ID_BOOT_STATUS) 4 = true ∧
        getReg64 (lockCheck d) R.ID_BOOT_TIME_LO R.ID_BOOT_TIME_HI = now d ∧
        (lockCheck d).keeper.running = true) ∧
      (∀ off, lockFault d = some off → bootFailed (lockCheck d) = true ∧
        regFld (lockCheck d) R.ID_BOOT_STATUS 15 8 = 5 ∧
        getReg (lockCheck d) R.ID_BOOT_ERR_INFO = BitVec.ofNat 32 off ∧ locked (lockCheck d) = locked d)

/-- After structural lock a write to any RWL register, from any path, adds one to the saturating counter
ID_LOCK_WR_CNT and changes nothing else. A frame that carries such a write is a wake event as well (R356, log 77),
which may mark the running entry attempt of the power controller and touches nothing else. (R7, R356) -/
def Obligations.LockedWritesAreCounted : Prop :=
  ∀ (s : State) (path : Path) (off : BitVec 24) (val : W32), PathActs s path → locked s.dev = true →
    regAccess? off.toNat = some .rwl → off.toNat % 4 = 0 →
    Completes (.registerWrite path off 4 val) s (fun t => t.pending = s.pending ∧
      getReg t.dev R.ID_LOCK_WR_CNT = counted (getReg s.dev R.ID_LOCK_WR_CNT) 1 ∧
      RegsExcept [R.ID_LOCK_WR_CNT] s t ∧
      t.dev = { portWake path s.dev with regs := t.dev.regs } ∧
      portWake path s.dev = { s.dev with power := (portWake path s.dev).power } ∧
      ((∀ p, path ≠ .port p) → t.dev.power = s.dev.power))

/-- On a live die, a write of another size than four bytes, off a four-byte boundary, or to a reserved offset reaches
no register (a reserved offset below 0x80 of a context that is not FREE goes the way of its registers, R80); from the
keeper, or at an offset of the list of R377 after lock, it changes none. Before lock, every write from I3C or from a
port, one that reaches no register too, is ignored and counted in ID_DENY_WR_CNT; after lock, so is every one from
those paths outside the list of R377, but for writes to RWL registers, which R7 counts. A keeper write to an entrance
or cell register in the execute phase is put behind the deferred writes and counted in KPR_DEFER_CNT. No other
register changes, and memory does not. (R5, R6, R370, R377, R27) -/
def Obligations.WriteFatesFollowPathAndLock : Prop :=
  ∀ (s : State) (path : Path) (off : BitVec 24) (size : Nat) (val : W32), PathActs s path →
    ((size ≠ 4 ∨ off.toNat % 4 ≠ 0 ∨ (regRow? off.toNat = none ∧ reservedTcx s.dev off.toNat = false)) →
      (path = .keeper ∨ (locked s.dev = true ∧ openToPorts off.toNat = true)) →
      Completes (.registerWrite path off size val) s (fun t => t.pending = s.pending ∧ RegsExcept [] s t ∧
        SameMemory s t)) ∧
    (path ≠ .keeper →
      (locked s.dev = false ∨ (openToPorts off.toNat = false ∧
        (size ≠ 4 ∨ off.toNat % 4 ≠ 0 ∨ regAccess? off.toNat ≠ some .rwl))) →
      Completes (.registerWrite path off size val) s (fun t => t.pending = s.pending ∧
        getReg t.dev R.ID_DENY_WR_CNT = counted (getReg s.dev R.ID_DENY_WR_CNT) 1 ∧
        RegsExcept [R.ID_DENY_WR_CNT] s t ∧ SameMemory s t)) ∧
    (size = 4 → off.toNat % 4 = 0 → (regRow? off.toNat).isSome = true → path = .keeper → locked s.dev = true →
      regAccess? off.toNat ≠ some .rwl → deferredForKeeper off.toNat = true → inExecute s.dev = true →
      Completes (.registerWrite path off size val) s (fun t => t.pending = s.pending ∧
        t.dev.keeper.deferred = s.dev.keeper.deferred ++ [(off.toNat, val)] ∧
        getReg t.dev R.KPR_DEFER_CNT = counted (getReg s.dev R.KPR_DEFER_CNT) 1 ∧
        RegsExcept [R.KPR_DEFER_CNT] s t ∧ SameMemory s t))

/-- A write that the path rules let through, to an RW, RWL or RWS register that has no rule of its own, stores the
value in the register's implemented bits; every other register and all memory keep their values. So does the same
write in an I3C private write of eight bytes, and in a REG_WR frame, which is answered with an empty payload, and with
TENANT, ADDR and AUX zero (log 7). The registers of the rings have their own statement. (R6, R377, R324, R325, Table
00-6) -/
def Obligations.PlainRegistersStore : Prop :=
  ∀ (s : State) (off : BitVec 24) (val : W32),
    (regAccess? off.toNat = some .rw ∨ regAccess? off.toNat = some .rwl ∨ regAccess? off.toNat = some .rws) →
    ¬(0x40000 ≤ off.toNat ∧ off.toNat < 0xA0000) → ¬(0x100000 ≤ off.toNat ∧ off.toNat < 0x200000) →
    ¬(R.TICK_BUDGET 0 ≤ off.toNat ∧ off.toNat < R.TICK_BUDGET 256) →
    off.toNat ∉ [R.ENT_CREDIT_SCALE, R.PWR_BOOST, R.PWR_STATE_REQ, R.GRD_ACK, R.GRD_FORCE, R.KPR_WDOG] →
    (∀ path, WriteApplies s path off.toNat →
      Completes (.registerWrite path off 4 val) s (fun t => t.pending = s.pending ∧
        getReg t.dev off.toNat = val &&& regMask off.toNat ∧ RegsExcept [off.toNat] s t ∧ SameMemory s t)) ∧
    (WriteApplies s .i3c off.toNat →
      Completes (.i3cPrivateWrite (leBytes 4 off.toNat ++ leBytes 4 val.toNat)) s (fun t => t.pending = s.pending ∧
        getReg t.dev off.toNat = val &&& regMask off.toNat ∧ RegsExcept [off.toNat] s t ∧ SameMemory s t ∧
        t.dev.die.i3cNack = false)) ∧
    ∀ p f, Accepted s p f tREG_WR → f.addr.toNat = off.toNat → f.payload = leBytes 4 val.toNat →
      (getPort s.dev p).retraining = false → WriteApplies s (.port p) off.toNat →
      Completes (.regWr p f) s (fun t => t.pending = s.pending ∧
        getReg t.dev off.toNat = val &&& regMask off.toNat ∧ RegsExcept [off.toNat] s t ∧ SameMemory s t ∧
        Answered p f [] s t)

/-- A write that applies to GRD_FLAGS or to WIN_WAKE_SRC clears exactly the bits it writes as 1, whichever row sends
it. A write that applies to SYN_VALUE sets the object and one to SYN_ADD adds to it modulo 2^32. Every other register
and all memory keep their values. (Table 00-6, R382, R360, R77, Table 03-7) -/
def Obligations.SharedRegisterWritesCombine : Prop :=
  (∀ (s : State) (path : Path) (val : W32),
    (WriteApplies s path R.GRD_FLAGS → Completes (.grdFlagsClear path val) s (fun t => t.pending = s.pending ∧
      getReg t.dev R.GRD_FLAGS = getReg s.dev R.GRD_FLAGS &&& ~~~val ∧ RegsExcept [R.GRD_FLAGS] s t ∧
      SameMemory s t)) ∧
    (WriteApplies s path R.WIN_WAKE_SRC → Completes (.winWakeSrcClear path val) s (fun t => t.pending = s.pending ∧
      getReg t.dev R.WIN_WAKE_SRC = getReg s.dev R.WIN_WAKE_SRC &&& ~~~val ∧ RegsExcept [R.WIN_WAKE_SRC] s t ∧
      SameMemory s t))) ∧
  ∀ (s : State) (path : Path) (sync : BitVec 14) (val : W32),
    (WriteApplies s path (R.SYN_VALUE sync.toNat) →
      Completes (.synValueWrite path sync val) s (fun t => t.pending = s.pending ∧
        getReg t.dev (R.SYN_VALUE sync.toNat) = val ∧ RegsExcept [R.SYN_VALUE sync.toNat] s t ∧ SameMemory s t)) ∧
    (WriteApplies s path (R.SYN_ADD sync.toNat) →
      Completes (.synAddWrite path sync val) s (fun t => t.pending = s.pending ∧
        (getReg t.dev (R.SYN_VALUE sync.toNat)).toNat =
          ((getReg s.dev (R.SYN_VALUE sync.toNat)).toNat + val.toNat) % 2 ^ 32 ∧
        RegsExcept [R.SYN_VALUE sync.toNat] s t ∧ SameMemory s t))

/-- A write that the path rules let through stores the implemented bits of an RW context register while the context is
FREE, from every path. In an ACTIVE context a write to TCX_MODE sets HOT to its bit 0 and leaves bits [31:1]; where it
carries another value in [31:1], ENT_TCX_IGN_CNT counts once. Every other write to a context that is not FREE changes
no register but ENT_TCX_IGN_CNT, which counts it. Any bit of [31:1] counts so, reserved ones included (log 77). (R80)
-/
def Obligations.ContextWritesNeedFree : Prop :=
  ∀ (s : State) (path : Path) (tenant : TenantId) (off : BitVec 8) (val : W32),
    let o := 0x100000 + 256 * tenant.toNat + off.toNat
    WriteApplies s path o →
    Completes (.tcxWrite path tenant off val) s (fun t => t.pending = s.pending ∧ SameMemory s t ∧
      (tcxState s.dev tenant.toNat = 0 → regAccess? o = some .rw →
        getReg t.dev o = val &&& regMask o ∧ RegsExcept [o] s t) ∧
      (tcxState s.dev tenant.toNat = 1 → off = 4 →
        bit (getReg t.dev o) 0 = bit val 0 ∧ getReg t.dev o &&& 0xFFFFFFFE = getReg s.dev o &&& 0xFFFFFFFE ∧
        getReg t.dev R.ENT_TCX_IGN_CNT =
          counted (getReg s.dev R.ENT_TCX_IGN_CNT)
            (if val &&& 0xFFFFFFFE = getReg s.dev o &&& 0xFFFFFFFE then 0 else 1) ∧
        RegsExcept [o, R.ENT_TCX_IGN_CNT] s t) ∧
      (tcxState s.dev tenant.toNat ≠ 0 → ¬(tcxState s.dev tenant.toNat = 1 ∧ off = 4) →
        getReg t.dev R.ENT_TCX_IGN_CNT = counted (getReg s.dev R.ENT_TCX_IGN_CNT) 1 ∧
        RegsExcept [R.ENT_TCX_IGN_CNT] s t))

/-- A write that applies to PWR_BOOST stores its low six bits, and 40 in place of 41 to 63, so the boost stored never
exceeds 40 mV; the core target never exceeds 840 mV in any state. A write that applies to ENT_CREDIT_SCALE or to a
TICK_BUDGET register stores 256 in place of 257 to 511 in each nine-bit field. Every other register and all memory
keep their values. (R353, R339, R58) -/
def Obligations.BudgetsAndBoostAreClamped : Prop :=
  ∀ (s : State) (path : Path) (val : W32),
    (WriteApplies s path R.PWR_BOOST → Completes (.pwrBoostWrite path val) s (fun t => t.pending = s.pending ∧
      (getReg t.dev R.PWR_BOOST).toNat = (if val.toNat % 64 ≤ 40 then val.toNat % 64 else 40) ∧
      coreTarget t.dev ≤ 840 ∧ RegsExcept [R.PWR_BOOST] s t ∧ SameMemory s t)) ∧
    (∀ d : Dev, coreTarget d ≤ 840) ∧
    (∀ off : BitVec 24, off.toNat = R.ENT_CREDIT_SCALE → WriteApplies s path off.toNat →
      Completes (.entCreditScaleWrite path off val) s (fun t => t.pending = s.pending ∧
        (getReg t.dev off.toNat).toNat = min (val.toNat % 512) 256 ∧ RegsExcept [off.toNat] s t ∧ SameMemory s t)) ∧
    ∀ (off : BitVec 24) (m : Nat), m < 256 → off.toNat = R.TICK_BUDGET m → WriteApplies s path off.toNat →
      Completes (.entCreditScaleWrite path off val) s (fun t => t.pending = s.pending ∧
        fld (getReg t.dev off.toNat) 8 0 = min (fld val 8 0) 256 ∧
        fld (getReg t.dev off.toNat) 24 16 = min (fld val 24 16) 256 ∧ RegsExcept [off.toNat] s t ∧ SameMemory s t)

/-- A doorbell that applies to an enabled command ring sets RNG_TAIL to its value where the value lies between 1 and
the free entries beyond the tail, and otherwise only counts in RNG_ERR_CNT; no other register, and no memory, changes.
(R72) -/
def Obligations.CommandRingDoorbells : Prop :=
  ∀ (s : State) (path : Path) (r : RingId) (v : W32), WriteApplies s path (R.RNG_DOORBELL r.toNat) →
    bit (getReg s.dev (R.RNG_CFG r.toNat)) 0 = true → bit (getReg s.dev (R.RNG_CFG r.toNat)) 1 = true →
    Completes (.rngDoorbellCommand path r v) s (fun t => t.pending = s.pending ∧ SameMemory s t ∧
      ((1 ≤ (v - getReg s.dev (R.RNG_TAIL r.toNat)).toNat ∧ (v - getReg s.dev (R.RNG_TAIL r.toNat)).toNat ≤
          2 ^ fld (getReg s.dev (R.RNG_CFG r.toNat)) 6 2 -
            (getReg s.dev (R.RNG_TAIL r.toNat) - getReg s.dev (R.RNG_HEAD r.toNat)).toNat) →
        getReg t.dev (R.RNG_TAIL r.toNat) = v ∧ RegsExcept [R.RNG_TAIL r.toNat] s t) ∧
      (¬(1 ≤ (v - getReg s.dev (R.RNG_TAIL r.toNat)).toNat ∧ (v - getReg s.dev (R.RNG_TAIL r.toNat)).toNat ≤
          2 ^ fld (getReg s.dev (R.RNG_CFG r.toNat)) 6 2 -
            (getReg s.dev (R.RNG_TAIL r.toNat) - getReg s.dev (R.RNG_HEAD r.toNat)).toNat) →
        getReg t.dev (R.RNG_ERR_CNT r.toNat) = counted (getReg s.dev (R.RNG_ERR_CNT r.toNat)) 1 ∧
        RegsExcept [R.RNG_ERR_CNT r.toNat] s t))

/-- A doorbell that applies to an enabled completion ring sets RNG_HEAD to its value where the value lies at most
RNG_TAIL beyond the head and every slot between holds its record; otherwise it only counts in RNG_ERR_CNT. No other
register, and no memory, changes. (R70) -/
def Obligations.CompletionRingDoorbells : Prop :=
  ∀ (s : State) (path : Path) (r : RingId) (v : W32), WriteApplies s path (R.RNG_DOORBELL r.toNat) →
    bit (getReg s.dev (R.RNG_CFG r.toNat)) 0 = true → bit (getReg s.dev (R.RNG_CFG r.toNat)) 1 = false →
    let head := getReg s.dev (R.RNG_HEAD r.toNat)
    let ok := (v - head).toNat ≤ (getReg s.dev (R.RNG_TAIL r.toNat) - head).toNat ∧
      ∀ i, i < (v - head).toNat → slotWritten s.dev r.toNat ((head.toNat + i) % 2 ^ 32) = true
    Completes (.rngDoorbellCompletion path r v) s (fun t => t.pending = s.pending ∧ SameMemory s t ∧
      (ok → getReg t.dev (R.RNG_HEAD r.toNat) = v ∧ RegsExcept [R.RNG_HEAD r.toNat] s t) ∧
      (¬ok → getReg t.dev (R.RNG_ERR_CNT r.toNat) = counted (getReg s.dev (R.RNG_ERR_CNT r.toNat)) 1 ∧
        RegsExcept [R.RNG_ERR_CNT r.toNat] s t))

/-- A write that applies and sets EN on a disabled ring is counted in RNG_ERR_CNT where a case of R66 holds; otherwise
it stores the configuration and sets head, tail and pending to zero, and where every unit of the buffer is CLEAN or
RING it tags the units RING at once and marks every completion slot with lap parity 1, or else makes the dirty units
WIPING and leaves the ring waiting. When its units have been wiped the ring stops waiting. On an enabled ring a write
that clears EN alone disables it, unless it is a completion ring with records pending; any other write of RNG_CFG
there, with EN set or clear, is counted. A write with EN clear to a disabled ring is stored. RNG_BASE is stored while
the ring is disabled, in its implemented bits, and a write to it is counted in RNG_ERR_CNT while the ring is enabled;
RNG_SYNC is stored either way. A doorbell to a disabled ring, of either kind, only counts in RNG_ERR_CNT. No other
register changes. (R65, R66, R271) -/
def Obligations.RingsEnableAndDisable : Prop :=
  ∀ (s : State) (path : Path) (r : RingId) (v : W32),
    let n := r.toNat
    (WriteApplies s path (R.RNG_CFG n) → bit v 0 = true → ringEn s.dev n = false →
      ringMayEnable s.dev n (v &&& 0xFFFFF) = false →
      Completes (.rngEnable path r v) s (fun t => t.pending = s.pending ∧ SameMemory s t ∧
        getReg t.dev (R.RNG_ERR_CNT n) = counted (getReg s.dev (R.RNG_ERR_CNT n)) 1 ∧
        RegsExcept [R.RNG_ERR_CNT n] s t)) ∧
    (WriteApplies s path (R.RNG_CFG n) → bit v 0 = true → ringEn s.dev n = false →
      ringMayEnable s.dev n (v &&& 0xFFFFF) = true →
      Completes (.rngEnable path r v) s (fun t => t.pending = s.pending ∧
        getReg t.dev (R.RNG_CFG n) = v &&& 0xFFFFF ∧ getReg t.dev (R.RNG_HEAD n) = 0 ∧
        getReg t.dev (R.RNG_TAIL n) = 0 ∧ getReg t.dev (R.RNG_PENDING n) = 0 ∧
        RegsExcept [R.RNG_CFG n, R.RNG_HEAD n, R.RNG_TAIL n, R.RNG_PENDING n] s t ∧
        ((∀ u ∈ ringUnits t.dev n, hiveTag s.dev u = .clean ∨ hiveTag s.dev u = .ring) →
          t.dev.ent = s.dev.ent ∧ (∀ u ∈ ringUnits t.dev n, hiveTag t.dev u = .ring) ∧
          (ringIsCmd t.dev n = false → ∀ i, i < ringSize t.dev n →
            bit (tblGet 0 t.dev.mem.hive (ringBase t.dev n + 64 * i + 6)) 7 = true)) ∧
        (∀ u ∈ ringUnits t.dev n, ¬(hiveTag s.dev u = .clean ∨ hiveTag s.dev u = .ring) →
          hiveTag t.dev u = .wipingRing ∧ ringWaitsWipe t.dev n = true))) ∧
    (alive s.dev = true → ringWaitsWipe s.dev n = true →
      (∀ u ∈ ringUnits s.dev n, (hiveTag s.dev u).isWiping = false) →
      Completes (.ringWipeEnd r) s (fun t => t.pending = s.pending ∧ RegsExcept [] s t ∧
        ringWaitsWipe t.dev n = false ∧ ∀ u ∈ ringUnits s.dev n, hiveTag t.dev u = .ring)) ∧
    (WriteApplies s path (R.RNG_CFG n) → bit v 0 = false → ringEn s.dev n = true →
      Completes (.rngDisable path r v) s (fun t => t.pending = s.pending ∧ SameMemory s t ∧
        ((v &&& 0xFFFFF = setBit (getReg s.dev (R.RNG_CFG n)) 0 false ∧
            (ringIsCmd s.dev n = true ∨ getReg s.dev (R.RNG_PENDING n) = 0)) →
          getReg t.dev (R.RNG_CFG n) = v &&& 0xFFFFF ∧ ringEn t.dev n = false ∧ RegsExcept [R.RNG_CFG n] s t) ∧
        (¬(v &&& 0xFFFFF = setBit (getReg s.dev (R.RNG_CFG n)) 0 false ∧
            (ringIsCmd s.dev n = true ∨ getReg s.dev (R.RNG_PENDING n) = 0)) →
          getReg t.dev (R.RNG_ERR_CNT n) = counted (getReg s.dev (R.RNG_ERR_CNT n)) 1 ∧
          RegsExcept [R.RNG_ERR_CNT n] s t))) ∧
    (WriteApplies s path (R.RNG_CFG n) → bit v 0 = true → ringEn s.dev n = true →
      Completes (.rngEnable path r v) s (fun t => t.pending = s.pending ∧ SameMemory s t ∧
        getReg t.dev (R.RNG_ERR_CNT n) = counted (getReg s.dev (R.RNG_ERR_CNT n)) 1 ∧
        RegsExcept [R.RNG_ERR_CNT n] s t)) ∧
    (WriteApplies s path (R.RNG_CFG n) → bit v 0 = false → ringEn s.dev n = false →
      Completes (.rngDisable path r v) s (fun t => t.pending = s.pending ∧ SameMemory s t ∧
        getReg t.dev (R.RNG_CFG n) = v &&& 0xFFFFF ∧ RegsExcept [R.RNG_CFG n] s t)) ∧
    let ignored := fun t : State => t.pending = s.pending ∧ SameMemory s t ∧
      getReg t.dev (R.RNG_ERR_CNT n) = counted (getReg s.dev (R.RNG_ERR_CNT n)) 1 ∧ RegsExcept [R.RNG_ERR_CNT n] s t
    let stored := fun (off : Nat) (w : W32) (t : State) => t.pending = s.pending ∧ SameMemory s t ∧
      getReg t.dev off = w ∧ RegsExcept [off] s t
    (∀ off : BitVec 24, off.toNat = R.RNG_BASE n → WriteApplies s path off.toNat →
      (ringEn s.dev n = false → Completes (.registerWrite path off 4 v) s (stored (R.RNG_BASE n) (v &&& 0xFFFF))) ∧
      (ringEn s.dev n = true → Completes (.registerWrite path off 4 v) s ignored)) ∧
    (∀ off : BitVec 24, off.toNat = R.RNG_SYNC n → WriteApplies s path off.toNat →
      Completes (.registerWrite path off 4 v) s (stored (R.RNG_SYNC n) (v &&& 0xBFFF))) ∧
    (WriteApplies s path (R.RNG_DOORBELL n) → ringEn s.dev n = false →
      (ringIsCmd s.dev n = true → Completes (.rngDoorbellCommand path r v) s ignored) ∧
      (ringIsCmd s.dev n = false → Completes (.rngDoorbellCompletion path r v) s ignored))

/-- A write that applies to GRD_ACK with the SEQNUM of the head record frees its place; any other value is counted in
GRD_ACK_ERR_CNT and frees nothing. A write of 0xFA7A_0001 to GRD_FORCE escalates KEEPER_FATAL: the die is stopped, and
where the fatal slot was free it holds the record; every other value changes nothing. A write to KPR_WDOG restarts the
watchdog at the tick in force. (R386, R393, R383, R385, R390) -/
def Obligations.GuardRegisterWrites : Prop :=
  ∀ (s : State) (path : Path) (val : W32),
    (WriteApplies s path R.GRD_ACK → Completes (.grdAck path val) s (fun t => t.pending = s.pending ∧ SameMemory s t ∧
      (∀ q rest, s.dev.guard.queue = q :: rest → q.seqnum = val →
        t.dev.guard = { s.dev.guard with queue := rest } ∧ RegsExcept [] s t) ∧
      ((∀ q rest, s.dev.guard.queue = q :: rest → q.seqnum ≠ val) → t.dev.guard = s.dev.guard ∧
        getReg t.dev R.GRD_ACK_ERR_CNT = counted (getReg s.dev R.GRD_ACK_ERR_CNT) 1 ∧
        RegsExcept [R.GRD_ACK_ERR_CNT] s t))) ∧
    (WriteApplies s path R.GRD_FORCE → Completes (.grdForce path val) s (fun t => t.pending = s.pending ∧
      SameMemory s t ∧
      (val = 0xFA7A0001 → t.dev.guard.stopped = true ∧ alive t.dev = false ∧
        (s.dev.guard.fatal = none → ∃ q, t.dev.guard.fatal = some q ∧ q.code = 0x45 ∧ q.cls = 2 ∧
          q.seqnum = getReg s.dev R.GRD_NEXT_SEQ)) ∧
      (val ≠ 0xFA7A0001 → RegsExcept [] s t ∧ t.dev.guard = s.dev.guard))) ∧
    (WriteApplies s path R.KPR_WDOG → Completes (.kprWdog path val) s (fun t => t.pending = s.pending ∧
      t.dev.keeper = { s.dev.keeper with wdogTick := s.dev.tick.num } ∧ RegsExcept [] s t ∧ SameMemory s t))

/-- A write of 1, 2 or 3 to PWR_STATE_REQ in Active, with no attempt and no exit running, starts an attempt toward
that state and shows it in PWR_STATE_REQ and as running in PWR_STATE; any other non-zero value written changes no
register and no memory. A write of 0 during an attempt without a wake source marks it with source 3 (with source 5,
the write from a port itself, where it comes from a port and the target is Winter), and in Idle or Doze it is a
pending wake event of source 3. The keeper's vote is stored; where an attempt waits for it and it is not zero it
concludes the ask: a grant with every other block granting lets entry proceed, a refusal with no other refusal ends
the attempt and counts in PWR_REFUSE_CNT[7]. Without a vote the wait's expiry concludes the ask as a delay, having
advanced the timebase to the wait's end: the attempt stays, or ends where the limit of delays is reached. (R354, R355,
R356) -/
def Obligations.PowerStateRequests : Prop :=
  ∀ (s : State) (path : Path) (val : W32),
    (WriteApplies s path R.PWR_STATE_REQ → Completes (.pwrStateReqWrite path val) s (fun t => t.pending = s.pending ∧
      SameMemory s t ∧
      (val.toNat % 4 ≠ 0 → powerState s.dev = 0 → s.dev.power.attempt = none → s.dev.power.restore = [] →
        t.dev.power = { s.dev.power with attempt := some { target := val.toNat % 4 } } ∧
        (getReg t.dev R.PWR_STATE_REQ).toNat = val.toNat % 4 ∧ bit (getReg t.dev R.PWR_STATE) 5 = true ∧
        RegsExcept [R.PWR_STATE_REQ, R.PWR_STATE] s t) ∧
      (val.toNat % 4 ≠ 0 → (powerState s.dev ≠ 0 ∨ s.dev.power.attempt.isSome = true ∨ s.dev.power.restore ≠ []) →
        RegsExcept [] s t) ∧
      (val.toNat % 4 = 0 → RegsExcept [] s t ∧
        (∀ a, s.dev.power.attempt = some a → a.wake = none →
          (((∀ p, path ≠ .port p) ∨ a.target ≠ 3) → t.dev.power.attempt = some { a with wake := some 3 }) ∧
          (∀ p, path = .port p → a.target = 3 → t.dev.power.attempt = some { a with wake := some 5 })) ∧
        (s.dev.power.attempt = none → powerState s.dev = 1 ∨ powerState s.dev = 2 →
          s.dev.power.pendingWake = none → t.dev.power.pendingWake = some 3)))) ∧
    (WriteApplies s path R.PWR_KPR_VOTE →
      Completes (.pwrKprVoteWrite path val) s (fun t => t.pending = s.pending ∧ SameMemory s t ∧
        getReg t.dev R.PWR_KPR_VOTE = val &&& regMask R.PWR_KPR_VOTE ∧
        (s.dev.power.attempt = none → RegsExcept [R.PWR_KPR_VOTE] s t ∧ t.dev.power = s.dev.power) ∧
        ∀ a, s.dev.power.attempt = some a →
          ((a.asked = none ∨ val.toNat % 4 = 0) → RegsExcept [R.PWR_KPR_VOTE] s t ∧ t.dev.power = s.dev.power) ∧
          (a.asked.isSome = true → a.answers = [] → val.toNat % 4 = 1 →
            t.dev.power.attempt = some { a with asked := none, step := 1 }) ∧
          (a.asked.isSome = true → (∀ x ∈ a.answers, x.2.1 = false) → val.toNat % 4 = 3 →
            t.dev.power.attempt = none ∧
            getReg t.dev (R.PWR_REFUSE_CNT 7) = counted (getReg s.dev (R.PWR_REFUSE_CNT 7)) 1))) ∧
    (∀ a t0, alive s.dev = true → s.dev.power.attempt = some a → a.asked = some t0 →
      regFld s.dev R.PWR_KPR_VOTE 1 0 = 0 → (∀ x ∈ a.answers, x.2.1 = false) →
      Completes .kprWaitExpiry s (fun t => t.pending = s.pending ∧
        t.dev.tick.time = max s.dev.tick.time (t0 + 1000 * regFld s.dev R.PWR_ENTRY_CFG 15 8) ∧ SameMemory s t ∧
        (a.delays + 1 < regFld s.dev R.PWR_ENTRY_CFG 3 0 → RegsExcept [] s t ∧
          t.dev.power.attempt = some { a with asked := none, answers := [], delays := a.delays + 1 }) ∧
        (regFld s.dev R.PWR_ENTRY_CFG 3 0 ≤ a.delays + 1 → t.dev.power.attempt = none)))

/-- A read of another size or alignment answers 0, and a reserved offset reads 0. A keeper read answers so too, and
otherwise the register's value where no capture of the offset stands on its path; one of a _LO register captures the
matching _HI register: whatever happens to the rest of the die, the next read of that _HI register on the keeper's
path answers the value captured. TICK_PHASE shows the open windows and the phase; GRD_STATUS the records queued, the
fatal slot and the stop; ENT_CREDIT_LEFT what the oldest open ledger leaves of a cell's credit; PWR_HINT_NEXT the
oldest of several open ledgers' sum of hints; KVC_FREE the units of the free frames; ENT_WSLOT_STATE the state, reason
and tenant of a load slot. A REG_RD frame is answered with what a read of its offset on the port's path answers, which
is the register's value where no capture of the offset stands, on a live die and on a stopped one; an I3C private
write of four bytes sets the offset that the next private read reads on the I3C path, and a read with no offset set
(log 27), or a write of neither four nor eight bytes, is NACKed; each is an address match (R356). The REG_RD answer
carries TENANT, ADDR and AUX zero (log 7). A read of PWR_HINT_FIFO answers the oldest entry and takes it from the
queue. No read changes a register or a byte of memory. (R5, R6, R8, R324, R325, R351) -/
def Obligations.RegisterReads : Prop :=
  (∀ (d : Dev) path off size, size ≠ 4 ∨ off % 4 ≠ 0 → (regRead path off size d).1 = 0) ∧
    (∀ (d : Dev) off, regRow? off = none → regValue d off = 0) ∧
    (∀ d : Dev,
      (bit (regValue d R.TICK_PHASE) 0 = d.tick.admitOpen ∧ bit (regValue d R.TICK_PHASE) 1 = d.tick.inputOpen ∧
        fld (regValue d R.TICK_PHASE) 3 2 = (match d.tick.phase with | .execute => 0 | .drain => 1 | .beacon => 2)) ∧
      (d.guard.queue.length ≤ 64 → fld (regValue d R.GRD_STATUS) 6 0 = d.guard.queue.length ∧
        bit (regValue d R.GRD_STATUS) 7 = d.guard.fatal.isSome ∧ bit (regValue d R.GRD_STATUS) 8 = d.guard.stopped) ∧
      (∀ (c : CellId) g rest, d.ent.ledgers.filter (fun g => g.isOpen) = g :: rest →
        regValue d (R.ENT_CREDIT_LEFT c.val) = BitVec.ofNat 32
          ((if bit (getReg d R.ENT_ADMIT_CFG) 0 = true ∧ c.val < 4 then 0 else g.credit) - tblGet 0 g.used c.val)) ∧
      (∀ g h rest, d.ent.ledgers.filter (fun g => g.isOpen) = g :: h :: rest →
        regValue d R.PWR_HINT_NEXT = BitVec.ofNat 32 g.hint) ∧
      regValue d R.KVC_FREE = BitVec.ofNat 32 (d.cache.freeFrames.map (fun e => 2 ^ e.2)).sum ∧
      (∀ i, i < 8 → (wSlot d i).reason < 256 → (wSlot d i).tenant < 4096 →
        let w := regValue d (R.ENT_WSLOT_STATE i)
        fld w 2 0 = slotCode (wSlot d i).st ∧ fld w 15 8 = (wSlot d i).reason ∧ fld w 27 16 = (wSlot d i).tenant)) ∧
    ∀ s : State,
    (∀ x : WindowRead, alive s.dev = true → s.dev.keeper.running = true →
      Completes (.keeperLoRead x) s (fun t => t.pending = s.pending ∧ RegsExcept [] s t ∧ SameMemory s t ∧
        (x.size ≠ 4 ∨ x.off.toNat % 4 ≠ 0 → t.dev.die.readData = 0) ∧
        (x.size = 4 → x.off.toNat % 4 = 0 →
          (∀ v, s.dev.die.capture.find? (fun c => decide (c.1 = .keeper ∧ c.2.1 = x.off.toNat)) =
            some (.keeper, x.off.toNat, v) → t.dev.die.readData = v) ∧
          ((∀ c ∈ s.dev.die.capture, ¬(c.1 = .keeper ∧ c.2.1 = x.off.toNat)) →
            t.dev.die.readData = regValue s.dev x.off.toNat ∧
            (regIsLo x.off.toNat = true →
              ∀ d : Dev, d.die.capture = t.dev.die.capture → readAnswers d .keeper = true →
                (regRead .keeper (x.off.toNat + 4) 4 d).1 = regValue s.dev (x.off.toNat + 4)))))) ∧
    (∀ path off, off % 4 = 0 → readAnswers s.dev path = true →
      (∀ c ∈ s.dev.die.capture, ¬(c.1 = path ∧ c.2.1 = off)) → (regRead path off 4 s.dev).1 = regValue s.dev off) ∧
    (∀ p f, (getPort s.dev p).retraining = false → (Accepted s p f tREG_RD ∨
        (powered s.dev = true ∧ s.dev.guard.stopped = true ∧ f.typ = tREG_RD ∧ portUp s.dev p = true ∧
          frameFate s.dev p f = .accept ∧ answersNothing f = false)) →
      Completes (.regRd p f) s (fun t => t.pending = s.pending ∧
        Answered p f (leBytes 4 (regRead (.port p) f.addr.toNat 4 s.dev).1.toNat) s t ∧ RegsExcept [] s t ∧
        SameMemory s t)) ∧
    (∀ off : BitVec 24, i3cAnswers s.dev = true →
      Completes (.i3cPrivateWrite (leBytes 4 off.toNat)) s (fun t => t.pending = s.pending ∧
        t.dev.die.i3cOff = some off.toNat ∧ t.dev.die.i3cNack = false ∧ RegsExcept [] s t ∧ SameMemory s t)) ∧
    (∀ bytes : List Byte, i3cAnswers s.dev = true → bytes.length ≠ 4 → bytes.length ≠ 8 →
      Completes (.i3cPrivateWrite bytes) s (fun t => t.pending = s.pending ∧
        t.dev = { i3cMatch s.dev with die := { s.dev.die with i3cNack := true } })) ∧
    (i3cMatch s.dev = { s.dev with power := (i3cMatch s.dev).power } ∧
      (s.dev.power.attempt = none → i3cMatch s.dev = s.dev)) ∧
    (∀ off : Nat, i3cAnswers s.dev = true → s.dev.die.i3cOff = some off →
      Completes .i3cPrivateRead s (fun t => t.pending = s.pending ∧
        t.dev.die.i3cData = (regRead .i3c off 4 s.dev).1 ∧
        t.dev.die.i3cOff = none ∧ t.dev.die.i3cNack = false ∧ RegsExcept [] s t ∧ SameMemory s t)) ∧
    (i3cAnswers s.dev = true → s.dev.die.i3cOff = none →
      Completes .i3cPrivateRead s (fun t => t.pending = s.pending ∧
        t.dev = { i3cMatch s.dev with die := { s.dev.die with i3cNack := true } })) ∧
    (∀ path, readAnswers s.dev path = true →
      (∀ c ∈ s.dev.die.capture, ¬(c.1 = path ∧ c.2.1 = R.PWR_HINT_FIFO)) →
      Completes (.pwrHintFifoRead path) s (fun t => t.pending = s.pending ∧
        t.dev.die.readData = s.dev.power.hints.headD 0 &&& regMask R.PWR_HINT_FIFO ∧
        t.dev.power = { s.dev.power with hints := s.dev.power.hints.drop 1 } ∧ RegsExcept [] s t ∧ SameMemory s t))

/-- A dynamic address that a controller assigns is the address in force from then on. In Winter a transfer to the
die's address is NACKed and, where the I3C source is enabled, recorded as the wake source, with the six restore steps
to do. The TAP takes an instruction that is none of its own as BYPASS, before lock too (log 27), and after lock it
obeys BYPASS, IDCODE and SAMPLE/PRELOAD alone and takes every other instruction as BYPASS; IDCODE gives MAJOR 1,
0x0008, 0x6B2 and 1. TICK_OUT falls one microsecond after it rose. None of them changes memory. (R325, R326, R328,
R330) -/
def Obligations.SidebandCommands : Prop :=
  ∀ s : State,
    (∀ addr, s.dev.die.porstLow = false → Completes (.i3cDynamicAddress addr) s (fun t => t.pending = s.pending ∧
      i3cAddress t.dev = addr ∧ RegsExcept [R.LNK_I3C_ADDR] s t ∧ SameMemory s t)) ∧
    (asleep s.dev = true → Completes (.i3cWinterWake (i3cAddress s.dev)) s (fun t => t.pending = s.pending ∧
      t.dev.die.i3cNack = true ∧ SameMemory s t ∧
      (bit (getReg s.dev R.WIN_WAKE_CFG) 2 = true → t.dev.power.restore = [10, 11, 12, 13, 14, 15] ∧
        bit (getReg t.dev R.WIN_WAKE_SRC) 2 = true ∧ RegsExcept [R.WIN_WAKE_SRC] s t) ∧
      (bit (getReg s.dev R.WIN_WAKE_CFG) 2 = false → t.dev.power = s.dev.power ∧ RegsExcept [] s t))) ∧
    (∀ code, s.dev.die.porstLow = false →
      Completes (.jtagInstruction code) s (fun t => t.pending = s.pending ∧ RegsExcept [] s t ∧ SameMemory s t ∧
        (locked s.dev = true →
          t.dev.die.tap = (if code = .idcode ∨ code = .samplePreload then code else .bypass)) ∧
        (locked s.dev = false → t.dev.die.tap = (if code = .other then .bypass else code)) ∧
        (code = .idcode → fld t.dev.die.tapData 31 28 = 1 ∧ fld t.dev.die.tapData 27 12 = 8 ∧
          fld t.dev.die.tapData 11 1 = 0x6B2 ∧ bit t.dev.die.tapData 0 = true))) ∧
    (alive s.dev = true → s.dev.tick.tickOut = true → Completes .tickOutFall s (fun t => t.pending = s.pending ∧
      t.dev.tick.tickOut = false ∧ t.dev.tick.time = max s.dev.tick.time (s.dev.tick.tickOutRise + 1000) ∧
      RegsExcept [] s t ∧ SameMemory s t))

/-- A MEM_WR frame whose every block lies in enabled command rings stores its payload and is answered empty; every
byte of hive memory outside the payload reads as before. A MEM_RD frame whose every block lies in enabled rings is
answered with the bytes, zeros standing for a buffer that awaits its wipe. A frame with any block elsewhere changes no
byte, is counted once in ENT_HIVE_DENY_CNT, and a read is answered with zeros. The answers carry TENANT, ADDR and AUX
zero (log 7). (R67, R271, R324) -/
def Obligations.HiveAccessByFrame : Prop :=
  ∀ (s : State) (p : PortId) (f : Frame), (getPort s.dev p).retraining = false →
    (Accepted s p f tMEM_WR →
      (inRings s.dev (ringIsCmd s.dev) f.addr.toNat f.payload.length = true →
        Completes (.memWr p f) s (fun t => t.pending = s.pending ∧ Answered p f [] s t ∧ RegsExcept [] s t ∧
          hiveRead t.dev f.addr.toNat f.payload.length = f.payload ∧ t.dev.mem.cm = s.dev.mem.cm ∧
          ∀ a, a < f.addr.toNat ∨ f.addr.toNat + f.payload.length ≤ a →
            tblGet 0 t.dev.mem.hive a = tblGet 0 s.dev.mem.hive a)) ∧
      (inRings s.dev (ringIsCmd s.dev) f.addr.toNat f.payload.length = false →
        Completes (.memWr p f) s (fun t => t.pending = s.pending ∧ Answered p f [] s t ∧ SameMemory s t ∧
          getReg t.dev R.ENT_HIVE_DENY_CNT = counted (getReg s.dev R.ENT_HIVE_DENY_CNT) 1 ∧
          RegsExcept [R.ENT_HIVE_DENY_CNT] s t))) ∧
    (Accepted s p f tMEM_RD →
      (inRings s.dev (fun _ => true) f.addr.toNat f.aux.toNat = true →
        Completes (.memRd p f) s (fun t => t.pending = s.pending ∧ SameMemory s t ∧ RegsExcept [] s t ∧
          Answered p f (ringRead s.dev f.addr.toNat f.aux.toNat) s t)) ∧
      (inRings s.dev (fun _ => true) f.addr.toNat f.aux.toNat = false →
        Completes (.memRd p f) s (fun t => t.pending = s.pending ∧ SameMemory s t ∧
          Answered p f (zeroBytes f.aux.toNat) s t ∧
          getReg t.dev R.ENT_HIVE_DENY_CNT = counted (getReg s.dev R.ENT_HIVE_DENY_CNT) 1 ∧
          RegsExcept [R.ENT_HIVE_DENY_CNT] s t)))

/-- A SYNC_WAIT whose comparison (SYN_VALUE − T) mod 2^32 is below 2^31 is answered at once with the value and TIMEOUT
clear; another is held while its port holds fewer than 64, and answered with BUSY otherwise. A held wait whose
comparison passes is answered with TIMEOUT clear; one whose timeout passes first is answered, at its deadline, with
TIMEOUT set; either leaves the port. On a stopped die a SYNC_WAIT is answered at once with TIMEOUT set. STOP itself
answers every wait that a port holds, in their order, with the value and TIMEOUT set, and the port holds none after
it. No register and no byte of memory changes. The answers carry TENANT, ADDR and AUX zero (log 7). (R79, R385) -/
def Obligations.SyncWaits : Prop :=
  ∀ (s : State) (p : PortId), (getPort s.dev p).retraining = false →
    (∀ f, Accepted s p f tSYNC_WAIT →
      let v := getReg s.dev (R.SYN_VALUE (leAt f.payload 0 4 % 2 ^ 14))
      let passes := (v - BitVec.ofNat 32 (leAt f.payload 4 4)).toNat < 2 ^ 31
      Completes (.syncWait p f) s (fun t => t.pending = s.pending ∧ RegsExcept [] s t ∧ SameMemory s t ∧
        (passes → Answered p f (waitAnswer v false false) s t) ∧
        (¬passes → (getPort s.dev p).waits.length < 64 → (getPort t.dev p).tx = (getPort s.dev p).tx ∧
          ∃ w, (getPort t.dev p).waits = (getPort s.dev p).waits ++ [w] ∧ w.tag = f.tag ∧
            w.deadline = s.dev.tick.time + 1000 * leAt f.payload 8 4) ∧
        (¬passes → 64 ≤ (getPort s.dev p).waits.length → Answered p f (waitAnswer v false true) s t))) ∧
    (∀ f, powered s.dev = true → s.dev.guard.stopped = true → portUp s.dev p = true → f.typ = tSYNC_WAIT →
      answersNothing f = false → frameFate s.dev p f = .accept →
      Completes (.syncWait p f) s (fun t => t.pending = s.pending ∧ RegsExcept [] s t ∧ SameMemory s t ∧
        Answered p f (waitAnswer (getReg s.dev (R.SYN_VALUE (leAt f.payload 0 4 % 2 ^ 14))) true false) s t)) ∧
    (∀ tag w, alive s.dev = true → portUp s.dev p = true → heldWait s.dev p tag (waitPasses s.dev) = some w →
      Completes (.syncWaitAnswer p tag) s (fun t => t.pending = s.pending ∧ RegsExcept [] s t ∧ SameMemory s t ∧
        (getPort t.dev p).waits = (getPort s.dev p).waits.erase w ∧
        (getPort t.dev p).tx = (getPort s.dev p).tx ++ [mkFrame s.dev tSYNC_WAIT 1 w.tag w.src.toNat 0 0 0
          (waitAnswer (getReg s.dev (R.SYN_VALUE w.obj.toNat)) false false)])) ∧
    (∀ tag w, alive s.dev = true → portUp s.dev p = true →
      heldWait s.dev p tag (fun w => !waitPasses s.dev w) = some w →
      Completes (.syncWaitTimeout p tag) s (fun t => t.pending = s.pending ∧ RegsExcept [] s t ∧ SameMemory s t ∧
        t.dev.tick.time = max s.dev.tick.time w.deadline ∧
        (getPort t.dev p).waits = (getPort s.dev p).waits.erase w ∧
        (getPort t.dev p).tx = (getPort s.dev p).tx ++ [mkFrame s.dev tSYNC_WAIT 1 w.tag w.src.toNat 0 0 0
          (waitAnswer (getReg s.dev (R.SYN_VALUE w.obj.toNat)) true false)])) ∧
    (∀ path, WriteApplies s path R.GRD_FORCE → portUp s.dev p = true →
      Completes (.grdForce path 0xFA7A0001) s (fun t => (getPort t.dev p).waits = [] ∧
        ∃ notice, (role s.dev ≠ 2 → notice = []) ∧
          (getPort t.dev p).tx = (getPort s.dev p).tx ++ (getPort s.dev p).waits.map (fun w =>
            mkFrame s.dev tSYNC_WAIT 1 w.tag w.src.toNat 0 0 0
              (waitAnswer (getReg s.dev (R.SYN_VALUE w.obj.toNat)) true false)) ++ notice))

/-- A HELLO of sixteen bytes at a port that trains or is UP settles the lower of the two VER_MAX values: the port is
UP at that version where it is not zero and not below VER_MIN, and FAILED otherwise. One that is no answer is answered
with this die's own HELLO where the port is UP and does not retrain. A port whose HELLO does not arrive within 100
microseconds is FAILED then. No register but the port's status changes. In Winter a HELLO is counted in
LNK_DISCARD_CNT alone. (R313) -/
def Obligations.HelloSettlesTheLink : Prop :=
  ∀ (s : State) (p : PortId),
    (∀ f, alive s.dev = true → f.typ = tHELLO →
      (portState s.dev p = 2 ∨ (portState s.dev p = 1 ∧ (getPort s.dev p).helloSince.isSome = true)) →
      frameFate s.dev p f = .accept → f.payload.length = 16 →
      let v := min 2 (leAt f.payload 0 1)
      Completes (.hello p f) s (fun t => t.pending = s.pending ∧ SameMemory s t ∧
        (getPort t.dev p).helloSince = none ∧ RegsExcept [R.LNK_STATUS p.val] s t ∧
        (regFld s.dev (R.LNK_CFG p.val) 3 2 ≤ v → v ≠ 0 → portState t.dev p = 2 ∧ portVer t.dev p = v ∧
          (isAnswer f = false → (getPort s.dev p).retraining = false → Answered p f (helloPayload s.dev) s t)) ∧
        ((v < regFld s.dev (R.LNK_CFG p.val) 3 2 ∨ v = 0) → portState t.dev p = 3))) ∧
    (∀ t0, alive s.dev = true → (getPort s.dev p).helloSince = some t0 →
      Completes (.helloTimeout p) s (fun t => t.pending = s.pending ∧ portState t.dev p = 3 ∧
        t.dev.tick.time = max s.dev.tick.time (t0 + 100000) ∧ RegsExcept [R.LNK_STATUS p.val] s t ∧ SameMemory s t)) ∧
    (∀ f, inWinter s.dev = true → f.typ = tHELLO →
      Completes (.hello p f) s (fun t => t.pending = s.pending ∧ t.dev = { s.dev with regs := t.dev.regs } ∧
        getReg t.dev (R.LNK_DISCARD_CNT p.val) = counted (getReg s.dev (R.LNK_DISCARD_CNT p.val)) 1 ∧
        RegsExcept [R.LNK_DISCARD_CNT p.val] s t))

/-- An INPUT frame of an ordinary request that the port's ADMIT was accepted for, before input close of its tick and
within the request's input length, stores its bytes in the request at their offset; any other is counted in
LNK_DISCARD_CNT alone. An EXPBUF frame on a die-to-die port, for a buffer that is not busy and within its 16 KiB,
stores its bytes and fills the buffer when MORE is clear; one beyond the 16 KiB is counted in LNK_DISCARD_CNT alone,
and one for a busy buffer, or on a spine port, in LNK_EXP_DISCARD_CNT alone. Memory does not change. (R320, R321) -/
def Obligations.InputAndExpressBuffers : Prop :=
  ∀ (s : State) (p : PortId) (f : Frame),
    (Accepted s p f tINPUT →
      (∀ r, inputReq s.dev p f = some r → s.dev.tick.running = true → s.dev.tick.inputOpen = true →
        f.addr.toNat + f.payload.length ≤ inputLen s.dev r.desc →
        Completes (.input p f) s (fun t => t.pending = s.pending ∧ RegsExcept [] s t ∧ SameMemory s t ∧
          ∀ r' ∈ t.dev.ent.reqs, r'.uid = r.uid → ∀ i, i < f.payload.length →
            tblFind r'.input (f.addr.toNat + i) = f.payload[i]?)) ∧
      ((∀ r, inputReq s.dev p f = some r → s.dev.tick.running = false ∨ s.dev.tick.inputOpen = false ∨
          inputLen s.dev r.desc < f.addr.toNat + f.payload.length) →
        Completes (.input p f) s (fun t => t.pending = s.pending ∧ SameMemory s t ∧ t.dev.ent = s.dev.ent ∧
          getReg t.dev (R.LNK_DISCARD_CNT p.val) = counted (getReg s.dev (R.LNK_DISCARD_CNT p.val)) 1 ∧
          RegsExcept [R.LNK_DISCARD_CNT p.val] s t))) ∧
    (Accepted s p f tEXPBUF →
      (isSpine p = false → (expBufOf (getPort s.dev p) (decide (f.aux = 1))).busy = false →
        f.addr.toNat + f.payload.length ≤ 16384 →
        Completes (.expbuf p f) s (fun t => t.pending = s.pending ∧ RegsExcept [] s t ∧ SameMemory s t ∧
          (∀ i, i < f.payload.length →
            tblFind (expBufOf (getPort t.dev p) (decide (f.aux = 1))).bytes (f.addr.toNat + i) = f.payload[i]?) ∧
          (expBufOf (getPort t.dev p) (decide (f.aux = 1))).full =
            ((expBufOf (getPort s.dev p) (decide (f.aux = 1))).full || !hasMore f))) ∧
      (isSpine p = false → (expBufOf (getPort s.dev p) (decide (f.aux = 1))).busy = false →
        16384 < f.addr.toNat + f.payload.length →
        Completes (.expbuf p f) s (fun t => t.pending = s.pending ∧ SameMemory s t ∧ t.dev.ports = s.dev.ports ∧
          getReg t.dev (R.LNK_DISCARD_CNT p.val) = counted (getReg s.dev (R.LNK_DISCARD_CNT p.val)) 1 ∧
          RegsExcept [R.LNK_DISCARD_CNT p.val] s t)) ∧
      ((isSpine p = true ∨ (expBufOf (getPort s.dev p) (decide (f.aux = 1))).busy = true) →
        Completes (.expbuf p f) s (fun t => t.pending = s.pending ∧ SameMemory s t ∧
          t.dev.ports = (linkIn p s.dev).ports ∧
          getReg t.dev (R.LNK_EXP_DISCARD_CNT p.val) = counted (getReg s.dev (R.LNK_EXP_DISCARD_CNT p.val)) 1 ∧
          RegsExcept [R.LNK_EXP_DISCARD_CNT p.val] s t)))

/-- A frame that a port which is UP receives and that breaks R315 in its type, a field or its destination adds one to
LNK_DISCARD_CNT and changes nothing else, but that a spine port counts it among the frames received, for its
acknowledgements (log 105). One whose CRC fails does so too and is reported as a contained LINK_FRAME error of the
port. So is every frame but HELLO at a port that trains (log 115). In Winter every frame but ADMIT is counted alone,
and so is, between Winter and the rejoin, a frame that neither the links nor the join need (log 114), such as REG_WR.
None is answered, and memory does not change. (R315, R397, R313, R357) -/
def Obligations.BadFramesAreDiscarded : Prop :=
  ∀ (s : State) (p : PortId) (f : Frame),
    let dropped := fun t : State => t.pending = s.pending ∧ RegsExcept [R.LNK_DISCARD_CNT p.val] s t ∧
      getReg t.dev (R.LNK_DISCARD_CNT p.val) = counted (getReg s.dev (R.LNK_DISCARD_CNT p.val)) 1
    let reported := fun t : State => t.pending = s.pending ∧
      getReg t.dev (R.LNK_DISCARD_CNT p.val) = counted (getReg s.dev (R.LNK_DISCARD_CNT p.val)) 1 ∧
      getReg t.dev R.GRD_CONT_CNT = counted (getReg s.dev R.GRD_CONT_CNT) 1 ∧
      t.dev.ports = (linkIn p s.dev).ports ∧ SameMemory s t ∧
      (s.dev.guard.queue.length < 64 → ∃ q, t.dev.guard.queue = s.dev.guard.queue ++ [q] ∧ q.code = 0x30 ∧ q.cls = 1 ∧
        q.unit = unitPort p ∧ q.seqnum = getReg s.dev R.GRD_NEXT_SEQ)
    (alive s.dev = true → portUp s.dev p = true →
      (frameFate s.dev p f = .discard → Completes (.reservedFrame p f) s (fun t => dropped t ∧
        t.dev = { linkIn p s.dev with regs := t.dev.regs })) ∧
      (frameFate s.dev p f = .badCrc → Completes (.reservedFrame p f) s reported) ∧
      (frameFate s.dev p f = .accept → f.typ = tREG_WR → s.dev.tick.fromWinter = true →
        Completes (.regWr p f) s (fun t => dropped t ∧
          t.dev = { linkIn p s.dev with regs := t.dev.regs, power := t.dev.power }))) ∧
    (alive s.dev = true → portTraining s.dev p = true →
      (crcPasses f = true →
        (frameFate s.dev p f ≠ .accept → Completes (.reservedFrame p f) s (fun t => dropped t ∧
          t.dev = { linkIn p s.dev with regs := t.dev.regs })) ∧
        (f.typ = tREG_WR → Completes (.regWr p f) s (fun t => dropped t ∧
          t.dev = { linkIn p s.dev with regs := t.dev.regs }))) ∧
      (crcPasses f = false → Completes (.reservedFrame p f) s reported)) ∧
    (inWinter s.dev = true →
      (frameFate s.dev p f ≠ .accept → Completes (.reservedFrame p f) s (fun t => dropped t ∧
        t.dev = { s.dev with regs := t.dev.regs })) ∧
      (f.typ = tREG_WR → Completes (.regWr p f) s (fun t => dropped t ∧ t.dev = { s.dev with regs := t.dev.regs })))

/-- Retries of a module add to LNK_RETRY_CNT and to the module's sum of the running tick and, where that sum passes
ERR_LIMIT, set RETRAIN_PEND and mark the module; a drain start marks the ports with RETRAIN_PEND, and in that drain
phase a marked port begins a retrain, counted once. At its end RETRAIN_PEND is clear, the width loses the marked
modules, and the port is FAILED where fewer than MIN_WIDTH remain; where enough remain the held frames leave, class C
before D before B. On a spine port the frames beyond the acknowledgement are sent again under their own sequence
numbers and counted, corrected codewords are counted at the port and, without a record, at the guard, and one that the
FEC could not correct has the port ask again from the next number it expects (log 105). The end of a retrain and a
resend take place on a stopped die too. A lost link leaves the port DOWN at width 0. A failed or lost port holds no
frame. Memory does not change. (R306, R307, R309, R310, R317, R322, R379, R385) -/
def Obligations.LinkRecovery : Prop :=
  ∀ (s : State) (p : PortId), (getPort (retrainsDue s.dev) p).retrainDue =
      ((getPort s.dev p).retrainDue || bit (getReg s.dev (R.LNK_STATUS p.val)) 4) ∧ (alive s.dev = true →
    (∀ (lane : Fin 16) n, portUp s.dev p = true → bit (getReg s.dev (R.LNK_WIDTH p.val)) lane.val = true →
      let sum := tblGet 0 (getPort s.dev p).retries lane.val + n
      Completes (.linkRetrainPending p lane n) s (fun t => t.pending = s.pending ∧ SameMemory s t ∧
        getReg t.dev (R.LNK_RETRY_CNT p.val) = counted (getReg s.dev (R.LNK_RETRY_CNT p.val)) n ∧
        RegsExcept [R.LNK_RETRY_CNT p.val, R.LNK_STATUS p.val] s t ∧
        (getPort t.dev p).retries = tblSet 0 (getPort s.dev p).retries lane.val sum ∧
        (regFld s.dev (R.LNK_CFG p.val) 31 16 < sum → bit (getReg t.dev (R.LNK_STATUS p.val)) 4 = true ∧
          bit (getPort t.dev p).badLanes lane.val = true) ∧
        (sum ≤ regFld s.dev (R.LNK_CFG p.val) 31 16 → (getPort t.dev p).badLanes = (getPort s.dev p).badLanes ∧
          getReg t.dev (R.LNK_STATUS p.val) = getReg s.dev (R.LNK_STATUS p.val)))) ∧
    (inDrain s.dev = true → (getPort s.dev p).retrainDue = true → (getPort s.dev p).retraining = false →
      Completes (.linkRetrain p) s (fun t => t.pending = s.pending ∧ (getPort t.dev p).retraining = true ∧
        (getPort t.dev p).retrainDue = false ∧
        getReg t.dev (R.LNK_RETRAIN_CNT p.val) = counted (getReg s.dev (R.LNK_RETRAIN_CNT p.val)) 1 ∧
        RegsExcept [R.LNK_RETRAIN_CNT p.val] s t ∧ SameMemory s t)) ∧
    (portUp s.dev p = true → Completes (.linkDown p) s (fun t => t.pending = s.pending ∧ SameMemory s t ∧
      portState t.dev p = 0 ∧ getReg t.dev (R.LNK_WIDTH p.val) = 0 ∧ (getPort t.dev p).held = [] ∧
      (getPort t.dev p).tx = (getPort s.dev p).tx))) ∧
    (portsRun s.dev = true →
    ((getPort s.dev p).retraining = true →
      let left := remainingWidth s.dev p (getPort s.dev p).badLanes
      Completes (.linkRetrainEnd p) s (fun t => t.pending = s.pending ∧ SameMemory s t ∧
      (getPort t.dev p).retraining = false ∧ (getPort t.dev p).held = [] ∧ (getPort t.dev p).badLanes = 0 ∧
      bit (getReg t.dev (R.LNK_STATUS p.val)) 4 = false ∧
      getReg t.dev (R.LNK_WIDTH p.val) = BitVec.ofNat 32 left.toNat ∧
      (popCount left < regFld s.dev (R.LNK_CFG p.val) 12 8 → portState t.dev p = 3 ∧
        (getPort t.dev p).tx = (getPort s.dev p).tx) ∧
      (regFld s.dev (R.LNK_CFG p.val) 12 8 ≤ popCount left → RegsExcept [R.LNK_WIDTH p.val, R.LNK_STATUS p.val] s t ∧
        (portUp s.dev p = true → portVer s.dev p = 2 →
          (getPort t.dev p).tx = (getPort s.dev p).tx ++ byClass (getPort s.dev p).held)))) ∧
    (∀ acked corr unc, isSpine p = true → portUp s.dev p = true →
      let rest := (getPort s.dev p).unacked.drop acked
      Completes (.spineResend p acked corr unc) s (fun t => t.pending = s.pending ∧ SameMemory s t ∧
        (getPort t.dev p).unacked = rest ∧ (getPort t.dev p).tx = (getPort s.dev p).tx ++ rest ∧
        (getPort t.dev p).trailers = (getPort s.dev p).trailers ++ (List.range rest.length).map (fun i =>
          ((getPort s.dev p).sent - BitVec.ofNat 32 (rest.length - i), (getPort s.dev p).rcvd)) ∧
        (getPort t.dev p).nacks = (getPort s.dev p).nacks ++ (if unc = 0 then [] else [(getPort s.dev p).rcvd]) ∧
        getReg t.dev (R.LNK_FEC_UNC_CNT p.val) = counted (getReg s.dev (R.LNK_FEC_UNC_CNT p.val)) unc ∧
        getReg64 t.dev (R.LNK_FEC_CORR_LO p.val) (R.LNK_FEC_CORR_HI p.val) =
          (getReg64 s.dev (R.LNK_FEC_CORR_LO p.val) (R.LNK_FEC_CORR_HI p.val) + corr) % 2 ^ 64 ∧
        getReg t.dev (R.LNK_RETRY_CNT p.val) = counted (getReg s.dev (R.LNK_RETRY_CNT p.val)) rest.length ∧
        getReg t.dev R.GRD_CORR_CNT = counted (getReg s.dev R.GRD_CORR_CNT) corr ∧
        t.dev.guard = s.dev.guard)))

/-- At S(N) on a locked die that has joined, the tick runs with number N and start S(N), in its execute phase, with
admission and input open; the timebase has reached S(N). The second latched point of PWR_OP_SCHED becomes the first
and PWR_OP_NEXT the second. The newest ledger is that of N + 2, open and uncharged, with the base and credit that R35
and R36 give for the two latched points; every express cell is free at cycle 176. The credit of R35 never exceeds the
base where budget and scale do not exceed 256. (R35, R36, R338, R52, Table 02-1) -/
def Obligations.TickStartOpensATick : Prop :=
  (∀ s : State, alive s.dev = true → s.dev.tick.joined = true → s.dev.tick.joining = false → locked s.dev = true →
    (s.dev.tick.running = false ∨ s.dev.tick.phase = .beacon) →
    let n := nextNum s.dev
    let f := ledgerFreqOf (regFld s.dev R.PWR_OP_SCHED 5 4) (regFld s.dev R.PWR_OP_NEXT 1 0)
    Completes .tickStart s (fun t => t.pending = s.pending ∧ t.dev.tick.running = true ∧ t.dev.tick.num = n ∧
      t.dev.tick.start = nextStart s.dev ∧ t.dev.tick.time = max s.dev.tick.time (nextStart s.dev) ∧
      t.dev.tick.phase = .execute ∧ t.dev.tick.admitOpen = true ∧ t.dev.tick.inputOpen = true ∧
      regFld t.dev R.PWR_OP_SCHED 3 2 = regFld s.dev R.PWR_OP_SCHED 5 4 ∧
      regFld t.dev R.PWR_OP_SCHED 5 4 = regFld s.dev R.PWR_OP_NEXT 1 0 ∧
      (∃ g, t.dev.ent.ledgers.getLast? = some g ∧ g.tick = n + 2 ∧ g.isOpen = true ∧ g.used = [] ∧
        g.base = ledgerBase s.dev f ∧ g.credit = ledgerCredit s.dev f n (budgetFor s.dev (n + 2))) ∧
      ∀ e, e < 4 → getReg t.dev (R.ENT_EXPRESS_FREE e) = 176)) ∧
    ∀ (d : Dev) (f n b : Nat), b ≤ 256 → ledgerScale d n ≤ 256 → ledgerCredit d f n b ≤ ledgerBase d f

/-- Each boundary acts in its turn, at its offset from S(N): input close ends input and a pending up-step; admit close
closes the ledgers up to tick N + 1 and no other register or ledger changes; the drain start enters the drain phase
with no deferred write left, a deferred ENT_CREDIT_SCALE write having been stored; it marks the tick late exactly
where some cell has work of it left: a token of it that has not ended, or on the cell that gives the result a request
of it whose record is not written. The beacon start enters the beacon phase, shows the keeper's share of busy cycles,
at most 1,000, and starts a new power mean. (R33, R34, R27, R46, R48, R341, R388, R337, Table 02-1) -/
def Obligations.TickPhasesClose : Prop :=
  ∀ s : State, alive s.dev = true →
    (inExecute s.dev = true → s.dev.tick.inputOpen = true → Completes .inputClose s (fun t => t.pending = s.pending ∧
      t.dev.tick.inputOpen = false ∧ t.dev.tick.admitOpen = s.dev.tick.admitOpen ∧ t.dev.tick.phase = .execute ∧
      t.dev.tick.time = max s.dev.tick.time (s.dev.tick.start + inputCloseNs s.dev) ∧
      t.dev.power.upPending = false ∧ SameMemory s t)) ∧
    (inExecute s.dev = true → s.dev.tick.inputOpen = false → s.dev.tick.admitOpen = true →
      Completes .admitClose s (fun t => t.pending = s.pending ∧ t.dev.tick.admitOpen = false ∧
        t.dev.tick.phase = .execute ∧
        t.dev.tick.time = max s.dev.tick.time (s.dev.tick.start + admitCloseNs s.dev) ∧
        t.dev.ent.ledgers = s.dev.ent.ledgers.map
          (fun g => if g.tick ≤ s.dev.tick.num + 1 then { g with isOpen := false } else g) ∧
        RegsExcept [] s t ∧ SameMemory s t)) ∧
    (inExecute s.dev = true → s.dev.tick.admitOpen = false → Completes .drainStart s (fun t => t.pending = s.pending ∧
      t.dev.tick.phase = .drain ∧ t.dev.keeper.deferred = [] ∧
      t.dev.tick.time = max s.dev.tick.time (s.dev.tick.start + drainStartNs s.dev) ∧
      (lateCells s.dev s.dev.tick.num = [] → t.dev.ent.late = s.dev.ent.late.filter (fun l => !l.taken)) ∧
      (lateCells s.dev s.dev.tick.num ≠ [] → ∃ l ∈ t.dev.ent.late, l.tick = s.dev.tick.num ∧
        l.cells = lateCells s.dev s.dev.tick.num) ∧
      ∀ v, s.dev.keeper.deferred = [(R.ENT_CREDIT_SCALE, v)] →
        (getReg t.dev R.ENT_CREDIT_SCALE).toNat = min (v.toNat % 512) 256)) ∧
    ∀ busy, inDrain s.dev = true → Completes (.beaconStart busy) s (fun t => t.pending = s.pending ∧
      t.dev.tick.phase = .beacon ∧ t.dev.tick.time = max s.dev.tick.time (s.dev.tick.start + beaconStartNs s.dev) ∧
      (getReg t.dev R.KPR_BUSY).toNat = min busy 1000 ∧ t.dev.power.samples = 0 ∧ t.dev.power.sumMw = 0)

/-- At S(T) TICK_START moves from the point q in force toward p(T), the first latched point: upward, with the droop
flag clear for 2 microseconds, to the fastest point between them whose voltage is acknowledged; where none is, q stays
and PWR_DVFS_DEFER_CNT counts, and so it does where the flag is not clear, the up-step then being pending; downward to
p(T), or with the flag not clear q stays and PWR_DVFS_ABANDON_CNT counts. A pending up-step takes place once the droop
flag is clear, at the earliest 2 microseconds after it cleared, to the fastest point between the old and the wanted
one whose voltage is acknowledged, if that instant lies before input close; if it does not, the point in force stays.
Input close leaves the point as it is and no up-step pending; where work of the tick on an ordinary cell then runs
below the frequency of its ledger, PWR_DVFS_SHORT_CNT counts and a DVFS_SHORT record is written. With TICK_IN as the
source, an edge within 1 microsecond of the nearer expected start, after a high time of 10 ns or more, is shown as the
alignment error, slewed out, and counts for the tick; an edge after a shorter high time changes nothing. (R341, R342,
R343, R345, R331, R54) -/
def Obligations.PointsSwitchAndAlign : Prop :=
  ∀ s : State, alive s.dev = true →
    (∀ r, s.dev.power.upPending = true → s.dev.tick.inputOpen = true → s.dev.power.droopFlag = false →
      max s.dev.tick.time (s.dev.power.droopClear + 2000) < s.dev.tick.start + inputCloseNs s.dev →
      upTarget s.dev (pointInForce s.dev) s.dev.power.upTo = some r →
      Completes .dvfsUpStep s (fun t => t.pending = s.pending ∧ pointInForce t.dev = r ∧ t.dev.power.upPending = false ∧
        t.dev.tick.time = max s.dev.tick.time (s.dev.power.droopClear + 2000) ∧ RegsExcept [R.PWR_OP_SCHED] s t ∧
        SameMemory s t)) ∧
    (s.dev.tick.start + inputCloseNs s.dev ≤ max s.dev.tick.time (s.dev.power.droopClear + 2000) →
      Completes .dvfsUpStep s (fun t => t = s)) ∧
    (s.dev.tick.joined = true → s.dev.tick.joining = false → locked s.dev = true →
      (s.dev.tick.running = false ∨ s.dev.tick.phase = .beacon) →
      let q := pointInForce s.dev
      let p := regFld s.dev R.PWR_OP_SCHED 3 2
      let quiet := s.dev.power.droopFlag = false ∧
        (s.dev.power.droopClear + 2000 ≤ max s.dev.tick.time (nextStart s.dev) ∨ s.dev.power.droopClear = 0)
      let same := fun (t : State) off => getReg t.dev off = getReg s.dev off
      let counts := fun (t : State) off => getReg t.dev off = counted (getReg s.dev off) 1
      Completes .tickStart s (fun t => t.pending = s.pending ∧
        (∀ r, p < q → upTarget s.dev q p = some r → quiet → pointInForce t.dev = r ∧ t.dev.power.upPending = false ∧
          same t R.PWR_DVFS_DEFER_CNT ∧ same t R.PWR_DVFS_ABANDON_CNT) ∧
        (∀ r, p < q → upTarget s.dev q p = some r → ¬quiet → pointInForce t.dev = q ∧ t.dev.power.upPending = true ∧
          t.dev.power.upTo = p ∧ counts t R.PWR_DVFS_DEFER_CNT ∧ same t R.PWR_DVFS_ABANDON_CNT) ∧
        (p < q → upTarget s.dev q p = none → pointInForce t.dev = q ∧ t.dev.power.upPending = false ∧
          counts t R.PWR_DVFS_DEFER_CNT ∧ same t R.PWR_DVFS_ABANDON_CNT) ∧
        (q < p → quiet → pointInForce t.dev = p ∧ same t R.PWR_DVFS_DEFER_CNT ∧ same t R.PWR_DVFS_ABANDON_CNT) ∧
        (q < p → ¬quiet → pointInForce t.dev = q ∧ same t R.PWR_DVFS_DEFER_CNT ∧ counts t R.PWR_DVFS_ABANDON_CNT) ∧
        (p = q → pointInForce t.dev = q ∧ same t R.PWR_DVFS_DEFER_CNT ∧ same t R.PWR_DVFS_ABANDON_CNT))) ∧
    (inExecute s.dev = true → s.dev.tick.inputOpen = true →
      let short := freqMhz s.dev < tblGet 0 s.dev.power.ledgerFreq s.dev.tick.num ∧
        ∃ k ∈ s.dev.ent.tokens, k.tick = s.dev.tick.num ∧ ¬(expressEn s.dev = true ∧ k.cell.val < 4)
      Completes .inputClose s (fun t => t.pending = s.pending ∧ pointInForce t.dev = pointInForce s.dev ∧
        t.dev.power.upPending = false ∧
        (short → getReg t.dev R.PWR_DVFS_SHORT_CNT = counted (getReg s.dev R.PWR_DVFS_SHORT_CNT) 1 ∧
          (s.dev.guard.queue.length < 64 → ∃ q, t.dev.guard.queue = s.dev.guard.queue ++ [q] ∧ q.code = 3 ∧ q.cls = 0 ∧
            q.unit = unitPower)) ∧
        (¬short → getReg t.dev R.PWR_DVFS_SHORT_CNT = getReg s.dev R.PWR_DVFS_SHORT_CNT ∧
          t.dev.guard = s.dev.guard))) ∧
    ∀ edgeNs highNs : Nat, s.dev.tick.joined = true → bit (getReg s.dev R.TICK_CFG) 2 = true →
      let e := (edgeNs : Int) - (getReg s.dev R.LNK_TICKIN_DELAY).toInt - (s.dev.tick.start : Int)
      let e' := (edgeNs : Int) - (getReg s.dev R.LNK_TICKIN_DELAY).toInt - (nextStart s.dev : Int)
      let err := if e.natAbs ≤ e'.natAbs then e else e'
      (10 ≤ highNs → err.natAbs ≤ 1000 → Completes (.tickInEdge edgeNs highNs) s (fun t => t.pending = s.pending ∧
        getReg t.dev R.TICK_ALIGN_ERR = BitVec.ofInt 32 err ∧ t.dev.tick.slew = err ∧ t.dev.tick.edgeSeen = true ∧
        RegsExcept [R.TICK_ALIGN_ERR, R.TICK_RATE_TRIM] s t ∧ SameMemory s t)) ∧
      ((highNs < 10 ∨ 1000 < err.natAbs) → Completes (.tickInEdge edgeNs highNs) s (fun t => t = s))

/-- An ECHO that is no answer is answered with its t1, the receive time and the send time. The parent's answer to the
echo in flight gives half of what the round trip took beyond the parent's own time: it joins the last eight
measurements, the echo is no longer in flight, and TICK_HOP_DELAY holds their mean, saturated; where the mean exceeds
the declared latency a LINK_LATENCY record is written. Once the interval has passed, a worker in its domain sends the
next ECHO to its parent with the time it leaves. (R53, R312, R316) -/
def Obligations.HopDelayEchoes : Prop :=
  ∀ (s : State) (p : PortId), (getPort s.dev p).retraining = false →
    (∀ f, Accepted s p f tECHO → portVer s.dev p ≠ 1 → isAnswer f = false →
      Completes (.echo p f) s (fun t => t.pending = s.pending ∧ RegsExcept [] s t ∧ SameMemory s t ∧
        Answered p f (f.payload ++ leBytes 8 (now s.dev) ++ leBytes 8 (now s.dev)) s t)) ∧
    (∀ f tag t1, Accepted s p f tECHO → isAnswer f = true → s.dev.tick.echoSent = some (tag, t1) →
      parentPort s.dev = some p → f.tag = tag → f.payload.length = 24 → s.dev.tick.joining = false →
      let h := ((now s.dev - t1) - (leAt f.payload 16 8 - leAt f.payload 8 8)) / 2
      let hops := (h :: s.dev.tick.hops).take 8
      Completes (.echo p f) s (fun t => t.pending = s.pending ∧ t.dev.tick.hops = hops ∧ t.dev.tick.echoSent = none ∧
        (getReg t.dev R.TICK_HOP_DELAY).toNat = min (hops.sum / hops.length) 0xFFFF ∧ SameMemory s t ∧
        (hops.sum / hops.length ≤ regFld s.dev (R.LNK_DECL_LAT p.val) 15 0 → RegsExcept [R.TICK_HOP_DELAY] s t ∧
          t.dev.guard = s.dev.guard) ∧
        (regFld s.dev (R.LNK_DECL_LAT p.val) 15 0 < hops.sum / hops.length → s.dev.guard.queue.length < 64 →
          ∃ q, t.dev.guard.queue = s.dev.guard.queue ++ [q] ∧ q.code = 0x2F ∧ q.unit = unitPort p))) ∧
    (alive s.dev = true → role s.dev = 2 → s.dev.tick.running = true → s.dev.tick.member = true →
      (getReg s.dev R.TICK_ECHO_INTERVAL).toNat ≤ s.dev.tick.echoAge → parentPort s.dev = some p →
      portUp s.dev p = true → portVer s.dev p ≠ 1 →
      Completes .echoIntervalExpiry s (fun t => t.pending = s.pending ∧ RegsExcept [] s t ∧ SameMemory s t ∧
        t.dev.tick.echoSent = some ((getPort s.dev p).nextTag, now s.dev) ∧ t.dev.tick.echoAge = 0 ∧
        (getPort t.dev p).tx = (getPort s.dev p).tx ++ [mkFrame s.dev tECHO 0 (getPort s.dev p).nextTag 0x1FF 0 0 0
          (leBytes 8 (now s.dev))]))

/-- A worker in its domain that receives, in time, the beacon of the tick that starts next, with its own period, keeps
that number, has missed none, and holds its budget for the ledger of two ticks later, a budget above 256 as 256; a
beacon of another tick or period is a cause to leave. A beacon that has not arrived 1 microsecond before S(K) is
counted in TICK_MISS_CNT. A worker that leaves is no member, reports DOMAIN_LOST, and sends its report. (R54, R56,
R57, R58, R392) -/
def Obligations.BeaconsAtAWorker : Prop :=
  ∀ s : State, role s.dev = 2 →
    (∀ p f, Accepted s p f tBEACON → parentPort s.dev = some p → s.dev.tick.joined = true → s.dev.tick.joining = false →
      s.dev.tick.leaveDue = false →
      (s.dev.tick.alone = false → bcnTick f.payload = nextNum s.dev →
        bcnPeriod f.payload = (getReg s.dev R.TICK_PERIOD).toNat → s.dev.tick.missed = false →
        s.dev.tick.time + 1000 ≤ nextStart s.dev →
        Completes (.beacon p f) s (fun t => t.pending = s.pending ∧ SameMemory s t ∧
          t.dev.tick.lastBeacon = nextNum s.dev ∧ t.dev.tick.misses = 0 ∧
          ∃ b, tblFind t.dev.tick.budgets (nextNum s.dev + 2) = some b ∧ b ≤ 256 ∧
            b = min (leAt f.payload (0xC0 + 2 * (dieIndex s.dev).toNat) 2 % 512) 256)) ∧
      (s.dev.tick.alone = false → (bcnTick f.payload ≠ nextNum s.dev ∨
          bcnPeriod f.payload ≠ (getReg s.dev R.TICK_PERIOD).toNat) →
        Completes (.beacon p f) s (fun t => t.pending = s.pending ∧ t.dev.tick.leaveDue = true ∧ RegsExcept [] s t ∧
          SameMemory s t))) ∧
    (alive s.dev = true → s.dev.tick.running = true → s.dev.tick.member = true → s.dev.tick.missed = false →
      s.dev.tick.lastBeacon ≠ nextNum s.dev → Completes .beaconMissing s (fun t => t.pending = s.pending ∧
        t.dev.tick.missed = true ∧ t.dev.tick.misses = s.dev.tick.misses + 1 ∧
        t.dev.tick.time = max s.dev.tick.time (nextStart s.dev - 1000) ∧
        getReg t.dev R.TICK_MISS_CNT = counted (getReg s.dev R.TICK_MISS_CNT) 1 ∧ RegsExcept [R.TICK_MISS_CNT] s t ∧
        SameMemory s t)) ∧
    (alive s.dev = true → s.dev.tick.member = true →
      (s.dev.tick.leaveDue = true ∨ regFld s.dev R.TICK_MISS_LIMIT 7 0 ≤ s.dev.tick.misses) →
      (parentPort s.dev).isSome = true → s.dev.guard.queue.length < 64 →
      Completes .domainLeave s (fun t => t.pending = s.pending ∧ t.dev.tick.member = false ∧
        t.dev.tick.leaveDue = false ∧ SameMemory s t ∧
        getReg t.dev R.TEL_RPT_SENT_CNT = counted (getReg s.dev R.TEL_RPT_SENT_CNT) 1 ∧
        ∃ q, t.dev.guard.queue = s.dev.guard.queue ++ [q] ∧ q.code = 0x33 ∧ q.cls = 1 ∧ q.unit = unitTick))

/-- A joining worker with eight measurements that receives a beacon of its own period and domain size takes the
queen's tick, S(K) and timebase, and is no longer joining. A die out of its domain with no token left and no charge in
an open ledger starts its rejoin: a worker measures again, a queen sets S(0) to the next whole microsecond plus two
periods. A queen notes a report's die as heard; its out-of-domain flag, or a silence of TICK_MISS_LIMIT intervals,
sets the die's bit in TEL_RPT_OUT. A worker sends a child's report on through its PARENT port and counts it. (R371,
R372, R374, R392) -/
def Obligations.WorkersJoinAndReport : Prop :=
  ∀ s : State,
    (∀ p f, Accepted s p f tBEACON → role s.dev = 2 → parentPort s.dev = some p → s.dev.tick.joining = true →
      s.dev.tick.hops.length = 8 → bcnPeriod f.payload = (getReg s.dev R.TICK_PERIOD).toNat →
      bcnSize f.payload = (getReg s.dev R.TICK_DOMAIN_SIZE).toNat →
      Completes (.workerJoin p f) s (fun t => t.pending = s.pending ∧ t.dev.tick.joined = true ∧
        t.dev.tick.joining = false ∧ t.dev.tick.num = bcnTick f.payload ∧ t.dev.tick.start = bcnStart f.payload ∧
        t.dev.tick.time = bcnSent f.payload + s.dev.tick.hops.sum / 8 ∧ t.dev.tick.member = false ∧ SameMemory s t)) ∧
    (alive s.dev = true → locked s.dev = true → s.dev.tick.member = false → s.dev.tick.joining = false →
      (role s.dev = 2 ∨ s.dev.tick.running = false) → (∀ k ∈ s.dev.ent.tokens, k.st = .finished) →
      (∀ g ∈ s.dev.ent.ledgers, g.isOpen = false ∨ ledgerCharged g = 0) →
      Completes .rejoinStart s (fun t => t.pending = s.pending ∧ SameMemory s t ∧ RegsExcept [] s t ∧
        (role s.dev = 2 → t.dev.tick.joining = true ∧ t.dev.tick.rejoin = true ∧ t.dev.tick.hops = [] ∧
          t.dev.tick.joinStart = s.dev.tick.time) ∧
        (role s.dev ≠ 2 → t.dev.tick.joined = true ∧
          t.dev.tick.start = ceilDiv s.dev.tick.time 1000 * 1000 + 2 * periodNs s.dev))) ∧
    (∀ p f, Accepted s p f tREPORT → role s.dev = 1 → p ∈ childPorts s.dev →
      let die := leAt f.payload 0 2 % 512
      Completes (.report p f) s (fun t => t.pending = s.pending ∧ SameMemory s t ∧
        BitVec.ofNat 9 die ∈ t.dev.tel.seen ∧ tblGet 0 t.dev.tel.silent die = 0 ∧
        rptOut t.dev die = decide (leAt f.payload 2 2 / 8 % 2 = 1))) ∧
    (∀ p q f, Accepted s p f tREPORT → role s.dev = 2 → p ∈ childPorts s.dev → parentPort s.dev = some q →
      portUp s.dev q = true → portVer s.dev q = 2 → (getPort s.dev q).retraining = false →
      Completes (.report p f) s (fun t => t.pending = s.pending ∧ SameMemory s t ∧
        (getPort t.dev q).tx = (getPort s.dev q).tx ++ [sealFrame { f with dst := 0x1FF }] ∧
        getReg t.dev R.TEL_RPT_SENT_CNT = counted (getReg s.dev R.TEL_RPT_SENT_CNT) 1 ∧
        RegsExcept [R.TEL_RPT_SENT_CNT] s t)) ∧
    (∀ die : Fin 512, alive s.dev = true → role s.dev = 1 → s.dev.tick.running = true → rptOut s.dev die.val = false →
      die.val < (getReg s.dev R.TICK_DOMAIN_SIZE).toNat →
      regFld s.dev R.TICK_MISS_LIMIT 7 0 ≤ tblGet 0 s.dev.tel.silent die.val → s.dev.guard.queue.length < 64 →
      Completes (.reportSilence die) s (fun t => t.pending = s.pending ∧ SameMemory s t ∧
        rptOut t.dev die.val = true ∧ ∃ q, t.dev.guard.queue = s.dev.guard.queue ++ [q] ∧ q.code = 0x34 ∧
          q.info = BitVec.ofNat 160 (die.val + 512)))

/-- An ADMIT that repeats one of the kept answers is answered with the same sixteen bytes and decides nothing. A new
one is answered REFUSED NO_BEACON on a die out of its domain, stopped, or in Winter whatever the state of its port
(log 114), REFUSED DESCRIPTOR where it uses a reserved encoding or its cost entry is absent, REFUSED TENANT where its
context is not ACTIVE, REFUSED LENGTH beyond position 524,288, HELD behind a barrier, and RECOMPUTE with the dropped
range where it would read one; every refusal that the decision of R43 comes to is answered with its reason and tick.
Each adds one to its counter, charges no ledger, takes no completion slot, and leaves every other register and the
memory as they were; the answer's other header fields are those of log 7. (R43, R57, R60, R84, R319, Table 02-7, Table
02-8) -/
def Obligations.AdmitsThatAreNotAccepted : Prop :=
  ∀ (s : State) (p : PortId) (f : Frame), admitCredit s.dev p ≠ 0 → (getPort s.dev p).retraining = false →
    let x : BitVec 512 := BitVec.ofNat 512 (leNat f.payload)
    let unchanged := fun t : State => t.pending = s.pending ∧ SameMemory s t ∧ t.dev.ent = s.dev.ent
    let answers := fun (n : Nat) (bs : List Byte) => Completes (.admitFrame p f) s (fun t => unchanged t ∧
      Answered p f bs s t ∧ getReg t.dev n = counted (getReg s.dev n) 1 ∧ RegsExcept [n] s t)
    let refused := fun (reason tick : Nat) =>
      answers R.ENT_REFUSE_CNT (admitAnswer false 7 reason 0 (dReqId x) tick)
    let exempt := isPrefill (dOp x) && !dFirstChunk x && (seqEntry s.dev (dSeq x)).prefillOpen
    (alive s.dev = false → powered s.dev = true → f.typ = tADMIT → (portUp s.dev p = true ∨ inWinter s.dev = true) →
      answersNothing f = false →
      frameFate s.dev p f = .accept → keptFor s.dev p f = none → refused 6 (2 ^ 64 - 1)) ∧
    (Accepted s p f tADMIT → ∀ k, keptFor s.dev p f = some k →
      Completes (.admitFrame p f) s (fun t => unchanged t ∧ Answered p f k.answer s t ∧ RegsExcept [] s t)) ∧
    (Accepted s p f tADMIT → keptFor s.dev p f = none →
      (∀ reason tick, decideAdmit s.dev p x = .refuse reason tick → refused reason tick) ∧
      ((s.dev.tick.member = false ∨ s.dev.tick.running = false ∨ locked s.dev = false) → refused 6 (2 ^ 64 - 1)) ∧
      (s.dev.tick.member = true → s.dev.tick.running = true → locked s.dev = true →
        (reservedEncoding s.dev x = true → refused 4 (2 ^ 64 - 1)) ∧
        (reservedEncoding s.dev x = false →
          (tcxState s.dev (dTenant x) ≠ 1 → refused 3 (2 ^ 64 - 1)) ∧
          (tcxState s.dev (dTenant x) = 1 → tcxBarrier s.dev (dTenant x) = true → exempt = false →
            answers R.ENT_HELD_CNT (admitAnswer false 4 0 0 (dReqId x) 0)) ∧
          (tcxState s.dev (dTenant x) = 1 → (tcxBarrier s.dev (dTenant x) = false ∨ exempt = true) →
            (524288 < dPos x + dRows x → refused 8 (2 ^ 64 - 1)) ∧
            (dPos x + dRows x ≤ 524288 → costBase (costEntry s.dev x) = 0xFFFFFFFF → refused 4 (2 ^ 64 - 1)) ∧
            (dPos x + dRows x ≤ 524288 → costBase (costEntry s.dev x) ≠ 0xFFFFFFFF →
              lowestRead s.dev x < (seqEntry s.dev (dSeq x)).dropHi → (seqEntry s.dev (dSeq x)).dropLo < dPos x →
              answers R.ENT_RECOMPUTE_CNT (admitAnswer false 3 0 0 (dReqId x)
                ((seqEntry s.dev (dSeq x)).dropLo + (seqEntry s.dev (dSeq x)).dropHi * 2 ^ 32)))))))

/-- Where the decision of R43 takes an ordinary request into the ledger of g, the answer is ACCEPTED with the slot and
g, or g + 1 where the home die of a multi-die sequence takes a combine region; ENT_ACCEPT_CNT counts it; RNG_TAIL and
RNG_PENDING of its ring rise by one; a request is added that holds the descriptor, the tick, the version in force and
the counter value reserved; one queued token stands for every cell charged in either ledger; and every ledger of g,
and for a region of g + 1, is charged, cell by cell, with exactly those charges, every other ledger being as it was.
Where the decision takes an express request, the answer is ACCEPTED with the running tick, its cell is free again
after its charge, its buffer is busy, and one token stands on the cell. A ledger with room for the charges of each
cell, whose cells are distinct, charges no cell beyond its credit. (R34, R38, R43, R52, R61, R68, R190) -/
def Obligations.AcceptedRequestsAreCharged : Prop :=
  (∀ (s : State) (p : PortId) (f : Frame), Accepted s p f tADMIT → admitCredit s.dev p ≠ 0 →
    (getPort s.dev p).retraining = false → keptFor s.dev p f = none →
    let x : BitVec 512 := BitVec.ofNat 512 (leNat f.payload)
    let tail := getReg s.dev (R.RNG_TAIL (dRing x))
    let slotTaken := fun (t : State) (tick : Nat) => t.pending = s.pending ∧ SameMemory s t ∧
      Answered p f (admitAnswer true 0 0 (tail.toNat % ringSize s.dev (dRing x)) (dReqId x) tick) s t ∧
      getReg t.dev (R.RNG_TAIL (dRing x)) = tail + 1 ∧
      getReg t.dev (R.RNG_PENDING (dRing x)) = getReg s.dev (R.RNG_PENDING (dRing x)) + 1 ∧
      getReg t.dev R.ENT_ACCEPT_CNT = counted (getReg s.dev R.ENT_ACCEPT_CNT) 1 ∧
      ∃ r, t.dev.ent.reqs = s.dev.ent.reqs ++ [r] ∧ r.uid = s.dev.ent.nextUid ∧ r.desc = x ∧ r.tick = tick ∧
        r.ctr = tail ∧ r.port = p ∧ r.version = getReg s.dev (R.TCX_VERSION (dTenant x))
    let charge := fun (tick hint : Nat) (cs : List (CellId × Nat)) (ls : List Ledger) =>
      ls.map (fun l => if l.tick = tick then { l with
        hint := l.hint + hint
        used := cs.foldl (fun u c => tblSet 0 u c.1.val (tblGet 0 u c.1.val + c.2)) l.used } else l)
    (∀ g region, decideAdmit s.dev p x = .ordinary g region →
      let cs := chargesNow s.dev x (costEntry s.dev x)
      let next := chargesNext s.dev x (costEntry s.dev x)
      let tick := if region then g + 1 else g
      Completes (.admitFrame p f) s (fun t => slotTaken t tick ∧
        RegsExcept [R.RNG_TAIL (dRing x), R.RNG_PENDING (dRing x), R.ENT_ACCEPT_CNT] s t ∧
        t.dev.ent.tokens.map (fun k => (k.uid, k.cell, k.tick, k.charge, k.combine)) =
          s.dev.ent.tokens.map (fun k => (k.uid, k.cell, k.tick, k.charge, k.combine)) ++
            cs.map (fun c => (s.dev.ent.nextUid, c.1, g, c.2, false)) ++
            next.map (fun c => (s.dev.ent.nextUid, c.1, tick, c.2, true)) ∧
        t.dev.ent.ledgers = (let ls := charge g (dHint x) cs s.dev.ent.ledgers
          if region then charge (g + 1) 0 next ls else ls))) ∧
    (∀ c start free, decideAdmit s.dev p x = .express c start free →
      Completes (.admitFrame p f) s (fun t => slotTaken t s.dev.tick.num ∧
        getReg t.dev (R.ENT_EXPRESS_FREE c.val) = BitVec.ofNat 32 free ∧
        RegsExcept [R.RNG_TAIL (dRing x), R.RNG_PENDING (dRing x), R.ENT_ACCEPT_CNT, R.ENT_EXPRESS_FREE c.val] s t ∧
        (expBufOf (getPort t.dev p) (dExpBuf x)).busy = true ∧ t.dev.ent.ledgers = s.dev.ent.ledgers ∧
        t.dev.ent.tokens.map (fun k => (k.uid, k.cell, k.tick, k.charge)) =
          s.dev.ent.tokens.map (fun k => (k.uid, k.cell, k.tick, k.charge)) ++
            [(s.dev.ent.nextUid, c, s.dev.tick.num, free - start)]))) ∧
    ∀ (d : Dev) (l : Ledger) (cs : List (CellId × Nat)), (cs.map (·.1)).Nodup → hasRoom d l cs = true →
      (∀ c, tblGet 0 l.used c ≤ l.credit) → ∀ c,
        tblGet 0 (cs.foldl (fun u c => tblSet 0 u c.1.val (tblGet 0 u c.1.val + c.2)) l.used) c ≤ l.credit

/-- A free cell whose turn is an ordinary token with complete input, an express token, or the combine token of a
request whose region has been combined starts it: the token runs, its start is the cycle of the timebase, and no
register and no byte changes, but that a diagnostic program on the cell ends first. A work token takes the tick
program that the image lists for its OP and bucket; the input rows, an express token's from its buffer, stand in the
moving-side buffer of a cell that takes them (log 102); an express token frees its buffer. A token under a kill ends
instead, and its request is killed and suppressed. With input missing before input close nothing changes. After input
close the cell skips the token (log 62): an INPUT_MISSING record is stored, the request's record is written with
KILLED, and its ring's pending count falls. The token of a COMMIT on a head cell acts at its start (log 64): under BAD
the SPEC field goes, the request is killed and SPEC_INCOMPLETE is recorded, LENGTH staying as it was; without it, on
the last cell to start, LENGTH rises by ROWS, the SPEC field goes and KVC_COMMIT_CNT counts. An express token is
released once its cycle start has come. (R22, R23, R33, R50, R52, R82, R86, R88, R253, R254, R10) -/
def Obligations.TokensStartOrAreSkipped : Prop :=
  ∀ (s : State) (c : CellId), alive s.dev = true → cellClocked s.dev c = true →
    (∀ k r, turnOf s.dev c = some (k, r) →
      let starts := fun t : State => t.pending = s.pending ∧ RegsExcept [] s t ∧
        t.dev.mem = (if s.dev.mem.diagUnits.any (fun k => decide (k.1 = c.val)) then diagEnd c s.dev else s.dev).mem ∧
        ∃ k' ∈ t.dev.ent.tokens, k'.uid = r.uid ∧ k'.cell = c ∧ k'.st = .running ∧ k'.startCyc = ccount s.dev
      let takesProgram := fun t : State => ∀ ws,
        tickProgram s.dev (dTenant r.desc) (dOp r.desc) r.bucket = some ws →
          (cellOf t.dev c).prog = ws ∧ (cellOf t.dev c).pc = 0
      (killApplies r k = true → Completes (.tokenStart c) s (fun t => t.pending = s.pending ∧ RegsExcept [] s t ∧
        SameMemory s t ∧ (∀ r' ∈ t.dev.ent.reqs, r'.uid = r.uid → r'.killed = true ∧ r'.suppressed = true) ∧
        ∃ k' ∈ t.dev.ent.tokens, k'.uid = r.uid ∧ k'.cell = c ∧ k'.st = .finished)) ∧
      (killApplies r k = false → k.combine = true → r.combined = true → Completes (.tokenStart c) s starts) ∧
      (killApplies r k = false → k.combine = false → dOp r.desc ≠ opCOMMIT →
        (r.express = none → inputComplete s.dev r = true →
          Completes (.tokenStart c) s (fun t => starts t ∧ takesProgram t ∧ t.dev.ent.reqs = s.dev.ent.reqs ∧
            let row := 2 * dModel s.dev (dTenant r.desc)
            let n := row * min (dRows r.desc) (0x8000 / row)
            (takesInput s.dev r c = true → ∀ i, i < n →
              tblGet 0 (cellOf t.dev c).mov i = (inputBytes r 0 n).getD i 0))) ∧
        (r.express.isSome = true → Completes (.tokenStart c) s (fun t => starts t ∧ takesProgram t ∧
          ∀ p b, r.expBuf = some (p, b) → expBufOf (getPort t.dev p) b = {} ∧
            let n := 2 * dModel s.dev (dTenant r.desc)
            (takesInput s.dev r c = true → dRows r.desc = 1 → n ≤ 0x8000 → n ≤ inputLen s.dev r.desc → ∀ i, i < n →
              tblGet 0 (cellOf t.dev c).mov i = tblGet 0 (expBufOf (getPort s.dev p) b).bytes i)))) ∧
      (killApplies r k = false → k.combine = false → dOp r.desc = opCOMMIT → r.express = none →
        headCell s.dev (dTenant r.desc) c = true → ∀ sp, (seqDesc s.dev (dSeq r.desc)).spec = some sp →
        ((sp.bad = true ∨ r.checkFailed = true) → s.dev.guard.queue.length < 64 →
          Completes (.tokenStart c) s (fun t => t.pending = s.pending ∧
            (∀ r' ∈ t.dev.ent.reqs, r'.uid = r.uid → r'.killed = true) ∧ (seqDesc t.dev (dSeq r.desc)).spec = none ∧
            (seqDesc t.dev (dSeq r.desc)).length = (seqDesc s.dev (dSeq r.desc)).length ∧
            ∃ q, t.dev.guard.queue = s.dev.guard.queue ++ [q] ∧ q.code = 0x2D ∧ q.unit = unitCell c)) ∧
        (sp.bad = false → r.checkFailed = false →
          (∀ k' ∈ s.dev.ent.tokens, k'.uid = r.uid → k'.combine = false ∧ (k'.st = .queued → k'.cell = c)) →
          Completes (.tokenStart c) s (fun t => t.pending = s.pending ∧
            (seqDesc t.dev (dSeq r.desc)).length = (seqDesc s.dev (dSeq r.desc)).length + dRows r.desc ∧
            (seqDesc t.dev (dSeq r.desc)).spec = none ∧
            getReg t.dev R.KVC_COMMIT_CNT = counted (getReg s.dev R.KVC_COMMIT_CNT) 1))) ∧
      (killApplies r k = false → k.combine = false → r.express = none → inputComplete s.dev r = false →
        Completes (.tokenStart c) s (fun t => t = s)) ∧
      (killApplies r k = false → k.combine = false → r.express = none → inputComplete s.dev r = false →
        inputClosed s.dev k.tick = true → r.recordWritten = false → s.dev.guard.queue.length < 64 →
        Completes (.tokenSkip c) s (fun t => t.pending = s.pending ∧
          getReg t.dev (R.RNG_PENDING (dRing r.desc)) = getReg s.dev (R.RNG_PENDING (dRing r.desc)) - 1 ∧
          (∃ q, t.dev.guard.queue = s.dev.guard.queue ++ [q] ∧ q.code = 0x27 ∧ q.cls = 1 ∧ q.unit = unitCell c) ∧
          tblGet 0 t.dev.mem.hive (slotAddr s.dev (dRing r.desc) r.ctr.toNat + 6) =
            (if lapParity s.dev (dRing r.desc) r.ctr.toNat then 0x82 else 0x02)))) ∧
    ∀ r, s.dev.ent.reqs.find? (fun r => decide (r.express = some c) && !r.released) = some r →
      (r.tick < s.dev.tick.num ∨ r.expStart ≤ tickCycles s.dev (sinceStart s.dev)) →
      Completes (.expressRelease c) s (fun t => t.pending = s.pending ∧ RegsExcept [] s t ∧ SameMemory s t ∧
        ∀ r' ∈ t.dev.ent.reqs, r'.uid = r.uid → r'.released = true)

/-- The record of a request whose work is done is written into its slot, 64 bytes of Table 03-6 with the lap parity of
its counter value; every other byte of hive memory, and all cell memory and HBM, read as before. RNG_PENDING falls by
one; the request's sync add, where enabled, and the ring's have been applied to their objects, and no other register
has changed. The request waits no longer for its record. (R10, R68, R69, R77, Table 03-6) -/
def Obligations.CompletionRecords : Prop :=
  ∀ (s : State) (uid : Nat) (r : Req), alive s.dev = true → findReq s.dev uid = some r → recordDue s.dev r = true →
    let ring := dRing r.desc
    let a := slotAddr s.dev ring r.ctr.toNat
    let rec' := completionBytes (completionOf s.dev r) (lapParity s.dev ring r.ctr.toNat) (now s.dev)
      (r.ctr.toNat % ringSize s.dev ring)
    Completes (.completionRecordWrite uid) s (fun t => t.pending = s.pending ∧
      hiveRead t.dev a 64 = rec' ∧ rec'.length = 64 ∧
      (∀ b, b < a ∨ a + 64 ≤ b → tblGet 0 t.dev.mem.hive b = tblGet 0 s.dev.mem.hive b) ∧
      t.dev.mem.cm = s.dev.mem.cm ∧ t.dev.mem.hbm = s.dev.mem.hbm ∧
      getReg t.dev (R.RNG_PENDING ring) = getReg s.dev (R.RNG_PENDING ring) - 1 ∧
      (∀ o, o < 2 ^ 14 → getReg t.dev (R.SYN_VALUE o) = getReg s.dev (R.SYN_VALUE o) +
        (if dSyncEn r.desc = true ∧ dSync r.desc = o then dSyncAdd r.desc else 0) + ringAdd s ring o) ∧
      (∀ off, off ≠ R.RNG_PENDING ring → (∀ o, o < 2 ^ 14 → off ≠ R.SYN_VALUE o) → getReg t.dev off = getReg s.dev off) ∧
      ∀ r' ∈ t.dev.ent.reqs, r'.uid = r.uid → r'.recordWritten = true)

/-- A tile of a request's output whose partial rows are all there is reduced once: the tile's bytes are those of the
home segment over the sum of its partial rows, and no register or byte of memory changes. A SEND that the cell comes
to runs in every form: it does what its form does and counts as run on the cell. One whose frame would go into a
WIPING unit waits, and one whose frame would go into a band that is not ON takes that error; a damaged program word is
an error of the weights. A tile row that a cell sends joins the request's partial rows where its sequence stays on one
die, its words being those that the chain forms (log 98), and a second one for the same place changes no request (log
66). Rows of a SPLIT 1 sequence leave toward the home die as the frames of one partial frame; of a sequence in one
part nothing leaves, and the program goes on. Statistics that are saved stand in HBM, and the request shows it once
each of its cells has saved them. Gradients leave as DWR frames, each run of words at its place in the result. Once
every tile has been reduced, SEND of the result sends its bytes through OUT_PORT to the requester as DWR frames at
OUT_ADDR, or keeps them for the end of the port's retrain, and the result has left; on a port that is not UP the
request fails with ECC_FAIL and a LINK_DOWN record. A result that a kill or an error keeps from forming leaves no
byte. The header fields that no rule gives a DWR or PWR frame, its DST among them, are those of log 7. (R28, R170,
R187, R191, R196, R199, R270, R275, R299, R316, R322) -/
def Obligations.ResultsLeaveThroughTheHomeCell : Prop :=
  ∀ (s : State), alive s.dev = true →
    (∀ uid r tile bs, findReq s.dev uid = some r → noResult s.dev r = false → tile < outTiles s.dev r →
      tblFind r.tiles tile = none → reduceTile s.dev r tile = some bs →
      let n := rowTiles s.dev (dTenant r.desc)
      Completes (.reduction uid (tile / n) (tile % n)) s (fun t => t.pending = s.pending ∧ RegsExcept [] s t ∧ SameMemory s t ∧
        ∀ r' ∈ t.dev.ent.reqs, r'.uid = r.uid → tblFind r'.tiles tile = some bs)) ∧
    (∀ c k r what a, cellClocked s.dev c = true → cellToken s.dev c = some k → findReq s.dev k.uid = some r →
      badFetch (cellOf s.dev c) = some a →
      Completes (.send c what) s (fun t => t.pending = s.pending ∧ t.dev = applyTrip c k r (.weight a) s.dev)) ∧
    (∀ c k r, cellClocked s.dev c = true → cellToken s.dev c = some k → findReq s.dev k.uid = some r →
      sendFetch (cellOf s.dev c) = true →
      (∀ what, sendOk c what r s.dev = true → sendBeyond c what s.dev = false →
        (sendWaits c what r s.dev = true → Completes (.send c what) s (fun t => t = s)) ∧
        (sendWaits c what r s.dev = false →
          (∀ x, sendTrip c what r s.dev = some x →
            Completes (.send c what) s (fun t => t.pending = s.pending ∧ t.dev = applyTrip c k r x s.dev)) ∧
          (sendTrip c what r s.dev = none → Completes (.send c what) s (fun t => t.pending = s.pending ∧
            t.dev = instrDone c (sendAct c what r s.dev))))) ∧
      (sendOk c .partials r s.dev = true → multiDie s.dev (dSeq r.desc) = false →
        Completes (.send c .partials) s (fun t => t.pending = s.pending ∧ t.dev = instrDone c s.dev)) ∧
      (sendOk c .result r s.dev = true → (r.killed = true ∨ resultReady s.dev r = false) →
        Completes (.send c .result) s (fun t => t.pending = s.pending ∧ RegsExcept [] s t ∧ SameMemory s t ∧
          t.dev.ports = s.dev.ports ∧ ∀ r' ∈ t.dev.ent.reqs, r'.uid = r.uid → r'.resultDone = true)) ∧
      (sendsNothing c r s.dev = false →
        (∀ row tile, sendOk c (.rows row tile) r s.dev = true → framesRows s.dev r = false →
          Completes (.send c (.rows row tile)) s (fun t => t.pending = s.pending ∧ RegsExcept [] s t ∧
            SameMemory s t ∧
            (∀ q, partialAt r c row tile = some q → t.dev.ent = s.dev.ent) ∧
            (partialAt r c row tile = none → ∀ r' ∈ t.dev.ent.reqs, r'.uid = r.uid →
              ∃ q, partialAt r' c row tile = some q ∧ q.words = chainTile s.dev r c row tile ∧
                q.firstHead = firstQuery s.dev r c))) ∧
        (∀ p, sendOk c .partials r s.dev = true → multiDie s.dev (dSeq r.desc) = true →
          isHomeDie s.dev (dSeq r.desc) = false → routePort s.dev (seqDesc s.dev (dSeq r.desc)).homeDie = some p → portUp20 s.dev p = true →
          (getPort s.dev p).retraining = false →
          Completes (.send c .partials) s (fun t => t.pending = s.pending ∧ RegsExcept [] s t ∧ SameMemory s t ∧
            (getPort t.dev p).tx = (getPort s.dev p).tx ++ trainFrames s.dev tPWR (getPort s.dev p).nextTag
              (seqDesc s.dev (dSeq r.desc)).homeDie (dTenant r.desc) 0 0
              (partialFrame s.dev c r (splitBody s.dev c r).1 (splitBody s.dev c r).2))) ∧
        (sendOk c .stats r s.dev = true → savesStats s.dev r = true → sendBeyond c .stats s.dev = false →
          Completes (.send c .stats) s (fun t => t.pending = s.pending ∧ RegsExcept [] s t ∧
            t.dev.mem = (saveStats c r s.dev).mem ∧ t.dev.mem.cm = s.dev.mem.cm ∧ t.dev.mem.hive = s.dev.mem.hive ∧
            ∀ r' ∈ t.dev.ent.reqs, r'.uid = r.uid →
              r'.statsSaved = (statsCells s.dev r).all (fun e => decide (e = c) || r.statsBy.contains e))) ∧
        (∀ p, sendOk c .grads r s.dev = true → outPort r = some p → portUp s.dev p = true →
          (getPort s.dev p).retraining = false →
          Completes (.send c .grads) s (fun t => t.pending = s.pending ∧ RegsExcept [] s t ∧ SameMemory s t ∧
            ∀ g ∈ gradRuns s.dev r c, ∃ tag, ∀ f ∈ trainFrames s.dev tDWR tag r.src.toNat (dTenant r.desc)
              (dOutAddr r.desc + 4 * g.1) (dReqId r.desc).toNat (g.2.flatMap (fun v => leBytes 4 v.toNat)),
              f ∈ (getPort t.dev p).tx)) ∧
        (∀ p, sendOk c .result r s.dev = true → r.killed = false → resultReady s.dev r = true → outPort r = some p →
          let fs := trainFrames s.dev tDWR (getPort s.dev p).nextTag r.src.toNat (dTenant r.desc) (dOutAddr r.desc)
            (dReqId r.desc).toNat (resultBytes s.dev r)
          Completes (.send c .result) s (fun t => t.pending = s.pending ∧ SameMemory s t ∧
            (∀ r' ∈ t.dev.ent.reqs, r'.uid = r.uid → r'.resultDone = true) ∧
            (portUp s.dev p = true → (getPort s.dev p).retraining = false →
              (getPort t.dev p).tx = (getPort s.dev p).tx ++ fs) ∧
            (portUp s.dev p = true → (getPort s.dev p).retraining = true →
              (getPort t.dev p).held = (getPort s.dev p).held ++ fs) ∧
            (portUp s.dev p = false → (∀ r' ∈ t.dev.ent.reqs, r'.uid = r.uid → r'.eccFail = true) ∧
              (s.dev.guard.queue.length < 64 → ∃ q, t.dev.guard.queue = s.dev.guard.queue ++ [q] ∧ q.code = 0x31))))))

/-- A PWR frame with MORE joins its train. The last frame of a train completes a partial frame: it is stored in the
combine region of the request it names (of two, the first one's: log 100) where that takes it, its bytes standing in
the tenant's combine area (log 65), or else counted in ENT_CMB_DISCARD_CNT and recorded as PARTIAL_DISCARD; either way
every frame of the train is answered, with the header of log 7. The answer to a frame of a train that a request waits
for is one fewer to wait for. When its token's turn has come on every combining cell (log 66) and every needed frame
is present, a request's region is combined; with one missing after input close the combine is skipped and counted, and
recorded as PARTIAL_MISSING. (R191, R192, R193, R323) -/
def Obligations.PartialFramesMeetTheirRegion : Prop :=
  ∀ (s : State),
    (∀ p f, Accepted s p f tPWR → isAnswer f = false → (getPort s.dev p).retraining = false →
      let train := takeTrain p f (linkIn p s.dev)
      let answers := fun t : State => (getPort t.dev p).tx = (getPort s.dev p).tx ++
        List.replicate (f.addr.toNat / 4096 + 1) (mkFrame s.dev f.typ 1 f.tag f.src.toNat 0 0 0 [])
      (hasMore f = true → Completes (.pwrFrame p f) s (fun t => t.pending = s.pending ∧ RegsExcept [] s t ∧
        SameMemory s t ∧ t.dev.ent = s.dev.ent ∧ t.dev.ports = train.2.ports)) ∧
      (∀ m r, train.1 = some m → regionOf s.dev m = some r → regionTakes s.dev r m = true →
        Completes (.pwrFrame p f) s (fun t => t.pending = s.pending ∧ RegsExcept [] s t ∧
          hiveRead t.dev (regionAddr s.dev r) m.length = m ∧ t.dev.mem.cm = s.dev.mem.cm ∧
          t.dev.mem.hbm = s.dev.mem.hbm ∧
          (∀ a, a < regionAddr s.dev r ∨ regionAddr s.dev r + m.length ≤ a →
            tblGet 0 t.dev.mem.hive a = tblGet 0 s.dev.mem.hive a) ∧
          answers t ∧ ∀ r' ∈ t.dev.ent.reqs, r'.uid = r.uid → m ∈ r'.cmb)) ∧
      (∀ m, train.1 = some m → (∀ r, regionOf s.dev m = some r → regionTakes s.dev r m = false) →
        s.dev.guard.queue.length < 64 →
        Completes (.pwrFrame p f) s (fun t => t.pending = s.pending ∧ SameMemory s t ∧ t.dev.ent = s.dev.ent ∧
          getReg t.dev R.ENT_CMB_DISCARD_CNT = counted (getReg s.dev R.ENT_CMB_DISCARD_CNT) 1 ∧ answers t ∧
          ∃ q, t.dev.guard.queue = s.dev.guard.queue ++ [q] ∧ q.code = 0x28 ∧ q.unit = unitEntrance))) ∧
    (∀ p f, Accepted s p f tPWR → isAnswer f = true → Completes (.pwrAnswer p f) s (fun t => t.pending = s.pending ∧
      RegsExcept [] s t ∧ SameMemory s t ∧
      t.dev.ent.reqs = s.dev.ent.reqs.map (fun r => { r with awaiting := r.awaiting.erase (p, f.tag) }))) ∧
    (∀ uid r, alive s.dev = true → findReq s.dev uid = some r → r.region = true → r.combined = false → r.killAt = none →
      (combineCells s.dev (dTenant r.desc)).all (combineTurn s.dev r) = true →
      (framesThere s.dev r = true → Completes (.combineToken uid) s (fun t => t.pending = s.pending ∧ SameMemory s t ∧
        ∀ r' ∈ t.dev.ent.reqs, r'.uid = r.uid → r'.combined = true)) ∧
      (framesThere s.dev r = false → inputClosed s.dev r.tick = true → s.dev.guard.queue.length < 64 →
        let c := homeCell s.dev (dTenant r.desc)
        Completes (.combineToken uid) s (fun t => t.pending = s.pending ∧
          getReg t.dev (R.CEL_CMB_SKIP_CNT c.val) = counted (getReg s.dev (R.CEL_CMB_SKIP_CNT c.val)) 1 ∧
          getReg t.dev (R.RNG_PENDING (dRing r.desc)) = getReg s.dev (R.RNG_PENDING (dRing r.desc)) - 1 ∧
          ∃ q, t.dev.guard.queue = s.dev.guard.queue ++ [q] ∧ q.code = 0x29 ∧ q.unit = unitCell c)))

/-- A corrected error makes no record: it is counted in GRD_CORR_CNT, in the interval's figure and by its unit. A
report whose unit does not report its code changes nothing. A report that merges into a stored record marks it
MULTIPLE, adds one to its REPEAT up to 0xFFFF and to GRD_MULTI_CNT, sets the flag and takes no sequence number, before
its unit's own action; on a stopped die there is none. One that merges into no record takes the next sequence number,
skipping 0 on wrap: with room in the queue it is stored there with its class, code, unit and the tick in force; into a
queue of 64 it is lost: OVERFLOW is set, its class's GRD_LOST_CNT counts it, and GRD_LOST_SEQ takes its number unless
it is fatal; one of the codes 0x20 to 0x26 is stored with its address before its unit's own action; a fatal one stops
the die, and the first one takes the fatal slot, a later one counting in GRD_FATAL_CNT. A late tick all of whose late
cells have finished is reported once as TIMING with its own tick number. A keeper that has not written KPR_WDOG in
time is reported, counted as restarted, and runs on only where its digest holds. No other report changes a byte of
memory. (R378, R379, R380, R381, R382, R383, R385, R390, R394, R397) -/
def Obligations.ReportsReachTheGuard : Prop :=
  ∀ (s : State),
    (∀ r, powered s.dev = true → powerState s.dev ≠ 3 → r.corrected = true →
      Completes (.errorReport r) s (fun t => t.pending = s.pending ∧ SameMemory s t ∧ t.dev.guard = s.dev.guard ∧
        t.dev.tel.errCorr = s.dev.tel.errCorr + 1 ∧
        getReg t.dev R.GRD_CORR_CNT = counted (getReg s.dev R.GRD_CORR_CNT) 1 ∧
        getReg t.dev R.GRD_NEXT_SEQ = getReg s.dev R.GRD_NEXT_SEQ ∧
        (r.unit.toNat < 64 → r.place = .accumulator → regFld t.dev (R.CEL_ACC_ECC_CNT r.unit.toNat) 15 0 =
          min (regFld s.dev (R.CEL_ACC_ECC_CNT r.unit.toNat) 15 0 + 1) 0xFFFF))) ∧
    (∀ r, r.corrected = false → unitFits r.code r.unit = false → Completes (.errorReport r) s (fun t => t = s)) ∧
    (∀ r m, powered s.dev = true → powerState s.dev ≠ 3 → r.corrected = false → unitFits r.code r.unit = true →
      mergesInto s.dev r = some m →
      let u := (guardTake r (if s.dev.guard.stopped then markBad r s.dev else countDetected r (markBad r s.dev))).2
      Completes (.errorReport r) s (fun t => t.pending = s.pending ∧
        u.guard.queue = s.dev.guard.queue.map (fun q => if q.seqnum = m.seqnum then { q with
          multiple := true, rep := if q.rep = 0xFFFF then 0xFFFF else q.rep + 1 } else q) ∧
        getReg u R.GRD_MULTI_CNT = counted (getReg s.dev R.GRD_MULTI_CNT) 1 ∧ bit (getReg u R.GRD_FLAGS) 1 = true ∧
        getReg u R.GRD_NEXT_SEQ = getReg s.dev R.GRD_NEXT_SEQ ∧ getReg u R.GRD_CONT_CNT = counted (getReg s.dev R.GRD_CONT_CNT) 1 ∧
        u.guard.fatal = s.dev.guard.fatal ∧
        t.dev = (if s.dev.guard.stopped then u
          else stopMet r m.seqnum (metTokens s.dev r) (weightAct r (errorAct r m.seqnum u))))) ∧
    (∀ r, powered s.dev = true → powerState s.dev ≠ 3 → r.corrected = false → unitFits r.code r.unit = true →
      mergesInto s.dev r = none →
      let n := getReg s.dev R.GRD_NEXT_SEQ
      (0x20 ≤ r.code.toNat → r.code.toNat ≤ 0x26 → s.dev.guard.queue.length < 64 →
        Completes (.errorReport r) s (fun t => t.pending = s.pending ∧
          ∃ q ∈ t.dev.guard.queue, q.seqnum = n ∧ q.code = r.code ∧ q.unit = r.unit ∧ q.addr = r.addr)) ∧
      ((0x27 ≤ r.code.toNat ∨ r.code.toNat < 0x20) →
      Completes (.errorReport r) s (fun t => t.pending = s.pending ∧ t.dev.mem.cm = s.dev.mem.cm ∧
        t.dev.mem.hive = s.dev.mem.hive ∧ t.dev.mem.hbm = s.dev.mem.hbm ∧
        getReg t.dev R.GRD_NEXT_SEQ = (if n = 0xFFFFFFFF then 1 else n + 1) ∧
        (s.dev.guard.queue.length < 64 → ∃ q, t.dev.guard.queue = s.dev.guard.queue ++ [q] ∧
          q.seqnum = n ∧ q.code = r.code ∧ q.unit = r.unit ∧ q.cls = BitVec.ofNat 2 (errClass r.code) ∧
          q.tick = s.dev.tick.num ∧ q.info = r.info ∧ q.time = now s.dev) ∧
        (¬s.dev.guard.queue.length < 64 → t.dev.guard.queue = s.dev.guard.queue ∧ bit (getReg t.dev R.GRD_FLAGS) 0 = true ∧
          getReg t.dev (R.GRD_LOST_CNT (errClass r.code)) = counted (getReg s.dev (R.GRD_LOST_CNT (errClass r.code))) 1 ∧
          getReg t.dev R.GRD_LOST_SEQ = (if errClass r.code = 2 then getReg s.dev R.GRD_LOST_SEQ else n)) ∧
        (errClass r.code ≠ 2 → t.dev.guard.stopped = s.dev.guard.stopped) ∧
        (errClass r.code = 2 → t.dev.guard.stopped = true ∧
          (s.dev.guard.fatal = none → ∃ q, t.dev.guard.fatal = some q ∧ q.seqnum = n ∧ q.code = r.code) ∧
          (∀ q, s.dev.guard.fatal = some q → t.dev.guard.fatal = some q ∧
            getReg t.dev R.GRD_FATAL_CNT = counted (getReg s.dev R.GRD_FATAL_CNT) 1))))) ∧
    (∀ tick l, alive s.dev = true → s.dev.ent.late.find? (fun l => l.tick = tick) = some l → l.taken = false →
      (∀ c ∈ l.cells, ∃ o ∈ l.overruns, o.1 = c) → s.dev.guard.queue.length < 64 →
      Completes (.timingRecord tick) s (fun t => t.pending = s.pending ∧ SameMemory s t ∧
        (∃ q, t.dev.guard.queue = s.dev.guard.queue ++ [q] ∧ q.code = 0x01 ∧ q.cls = 0 ∧ q.tick = tick ∧
          fld q.info 5 0 = l.cells.length % 64) ∧
        ∀ x ∈ t.dev.ent.late, x.tick = tick → x.taken = true)) ∧
    (∀ unc found, alive s.dev = true → s.dev.keeper.running = true →
      (unc = true ∨ s.dev.keeper.wdogTick + regFld s.dev R.KPR_WDOG_TICKS 7 0 < s.dev.tick.num) →
      Completes (.keeperWatchdogExpiry unc found) s (fun t => t.pending = s.pending ∧ SameMemory s t ∧
        (t.dev.keeper.running = true ↔ s.dev.die.digested = some (digestOf (found.getD s.dev.die.keeperMem))) ∧ t.dev.keeper.wdogTick = s.dev.tick.num ∧
        getReg t.dev R.KPR_RESTART_CNT = counted (getReg s.dev R.KPR_RESTART_CNT) 1 ∧ alive t.dev = true ∧
        (s.dev.guard.queue.length < 64 → ∃ q, t.dev.guard.queue = s.dev.guard.queue ++ [q] ∧ q.code = 0x35)))

/-- A reserved code is answered BAD_CMD, as is a SYNC_SET with a reserved bit set; nothing but the reader's registers
and the record changes. SYNC_SET puts its value into its object, to which the record's own sync add may come. CT_LOAD
consumes 65 entries and installs its 256 entries at its table, whose valid bit it sets, or is answered BAD_CMD where
an entry uses a reserved bit. A SYNC_SET whose RING names no enabled completion ring is consumed without effect,
without a record, and counted in RNG_ERR_CNT. One with a damaged word is not carried out: its record says ECC_FAIL and
names the guard record of the error. (R73, R74, R76, R77, R276, Table 03-6, Table 03-7, Table 03-8) -/
def Obligations.CommandsAreReadInOrder : Prop :=
  ∀ (s : State) (ring : RingId) (e : CmdEntry),
    (CommandAt s ring e.code e → (e.code = 0 ∨ (0x0A < e.code ∧ e.code < 0x10) ∨ 0x16 < e.code) →
      Completes (.badCmd ring) s (fun t => CommandAnswered ring e resBadCmd s t ∧ RegsExcept (doneRegs ring e s) s t ∧
        WorkKept s t)) ∧
    (CommandAt s ring 0x0A e → Completes (.syncSet ring) s (fun t => CommandAnswered ring e resDone s t ∧
      getReg t.dev (R.SYN_VALUE (e.arg 13 0)) = BitVec.ofNat 32 (e.arg 63 32) + ringAdd s e.ring (e.arg 13 0) ∧
      (∀ o, o < 2 ^ 14 → o ≠ e.arg 13 0 →
        getReg t.dev (R.SYN_VALUE o) = getReg s.dev (R.SYN_VALUE o) + ringAdd s e.ring o) ∧
      RegsExcept (R.SYN_VALUE (e.arg 13 0) :: doneRegs ring e s) s t ∧ WorkKept s t)) ∧
    (CommandFront s ring 0x0A e → ringIsCompletion s.dev e.ring = true → badEntry s.dev ring.toNat 1 = none → e.bad = true →
      Completes (.syncSet ring) s (fun t => CommandAnswered ring e resBadCmd s t ∧ RegsExcept (doneRegs ring e s) s t ∧
        WorkKept s t)) ∧
    (CommandFront s ring 0x0A e → ringIsCompletion s.dev e.ring = false →
      Completes (.syncSet ring) s (fun t => t.pending = s.pending ∧ SameMemory s t ∧ WorkKept s t ∧
        getReg t.dev (R.RNG_HEAD ring.toNat) = getReg s.dev (R.RNG_HEAD ring.toNat) + 1 ∧
        getReg t.dev (R.RNG_ERR_CNT ring.toNat) = counted (getReg s.dev (R.RNG_ERR_CNT ring.toNat)) 1 ∧
        RegsExcept [R.RNG_HEAD ring.toNat, R.RNG_ERR_CNT ring.toNat, R.ENT_CMD_CNT, R.ENT_CMD_NEXT] s t)) ∧
    (∀ chunk, CommandFront s ring 0x0A e → ringIsCompletion s.dev e.ring = true → badEntry s.dev ring.toNat 1 = some chunk →
      s.dev.guard.queue.length < 64 →
      (∀ q ∈ s.dev.guard.queue, q.code = 0x21 → q.addr ≠ BitVec.ofNat 64 (16 * chunk)) →
      Completes (.syncSet ring) s (fun t =>
        leNat (hiveRead t.dev (cmdSlot e s) 4) = e.cmdId.toNat ∧
        tblGet 0 t.dev.mem.hive (cmdSlot e s + 6) &&& 0xF = 6 ∧
        leNat (hiveRead t.dev (cmdSlot e s + 0x30) 4) = (getReg s.dev R.GRD_NEXT_SEQ).toNat ∧
        (∃ q, t.dev.guard.queue = s.dev.guard.queue ++ [q] ∧ q.code = 0x21 ∧
          q.addr = BitVec.ofNat 64 (16 * chunk)) ∧
        getReg t.dev (R.SYN_VALUE (e.arg 13 0)) =
          getReg s.dev (R.SYN_VALUE (e.arg 13 0)) + ringAdd s e.ring (e.arg 13 0) ∧ WorkKept s t)) ∧
    (CommandAt s ring 0x09 e →
      let es := ctEntries ((List.range 64).map (fun k => cmdEntryAt s.dev ring.toNat (k + 1)))
      let i := e.arg 8 0
      ((∃ c ∈ es, fld c 127 96 ≠ 0) → Completes (.ctLoad ring) s (fun t => CommandAnswered ring e resBadCmd s t ∧
        RegsExcept (doneRegs ring e s) s t ∧ WorkKept s t ∧ t.dev.ent.cost = s.dev.ent.cost)) ∧
      ((∀ c ∈ es, fld c 127 96 = 0) → Completes (.ctLoad ring) s (fun t => CommandAnswered ring e resDone s t ∧
        bit (getReg t.dev (R.ENT_CT_VALID (i / 32))) (i % 32) = true ∧
        RegsExcept (R.ENT_CT_VALID (i / 32) :: doneRegs ring e s) s t ∧ WorkKept s t ∧
        (∀ k, k < 256 → tblGet 0 t.dev.ent.cost (256 * i + k) = es.getD k 0) ∧
        ∀ k, k < 256 * i ∨ 256 * i + 256 ≤ k → tblGet 0 t.dev.ent.cost k = tblGet 0 s.dev.ent.cost k)))

/-- Each is answered BAD_CMD for a sequence outside the tenant's range, and BAD_STATE where the context is not ACTIVE
or the sequence is not in the state it needs. SEQ_OPEN of a FREE sequence makes it OPEN with its attributes and an
empty dropped range, or answers NO_SPACE. SEQ_FORK of a FREE sequence from an OPEN parent, and SEQ_RELEASE, answer
BUSY while LAST_TICK has not passed; else the fork or the release begins and its record is kept. SEQ_SET sets the
eviction attribute. SEQ_KILL marks the sequence's requests killed from the next tick, and leaves all of cache control
as it was, rows held provisionally with it (the model's reading, log 32). (R85, R209, R222, R223, R228, R250, Table
03-8, Table 03-14) -/
def Obligations.SequenceCommands : Prop :=
  ∀ (s : State) (ring : RingId) (e : CmdEntry),
    let inRange := seqInRange s.dev e.tenant e.seq
    let x := seqDesc s.dev e.seq
    let active := tcxState s.dev e.tenant = 1
    let refuses := fun (c : Instr) (res : Nat) => Completes c s (fun t =>
      CommandAnswered ring e res s t ∧ RegsExcept (doneRegs ring e s) s t ∧ WorkKept s t)
    let others := fun t : State => ∀ q, q ≠ e.seq → seqDesc t.dev q = seqDesc s.dev q ∧ seqEntry t.dev q = seqEntry s.dev q
    (CommandAt s ring 0x08 e →
      (inRange = false → refuses (.seqSet ring) resBadCmd) ∧
      (inRange = true → (¬ active ∨ seqOpen s.dev e.seq = false) → refuses (.seqSet ring) resBadState) ∧
      (inRange = true → active → seqOpen s.dev e.seq = true → Completes (.seqSet ring) s (fun t =>
        CommandAnswered ring e resDone s t ∧ RegsExcept (doneRegs ring e s) s t ∧ others t ∧
        seqDesc t.dev e.seq = { x with evictable := decide (e.arg 0 0 = 1) }))) ∧
    (CommandAt s ring 0x04 e →
      (inRange = false → refuses (.seqKill ring) resBadCmd) ∧
      (inRange = true → (¬ active ∨ seqOpen s.dev e.seq = false) → refuses (.seqKill ring) resBadState) ∧
      (inRange = true → active → seqOpen s.dev e.seq = true → Completes (.seqKill ring) s (fun t =>
        CommandAnswered ring e resDone s t ∧ RegsExcept (doneRegs ring e s) s t ∧ t.dev.cache = s.dev.cache ∧
        t.dev.ent.reqs.map (fun r => (r.uid, r.desc)) = s.dev.ent.reqs.map (fun r => (r.uid, r.desc)) ∧
        (∀ r ∈ t.dev.ent.reqs, dTenant r.desc = e.tenant → dSeq r.desc = e.seq → r.recordWritten = false →
          ∃ k, r.killAt = some k ∧ k ≤ s.dev.tick.num + 1) ∧
        (seqEntry t.dev e.seq).prefillOpen = false ∧ tblFind t.dev.ent.spec e.seq = none))) ∧
    (CommandAt s ring 0x05 e →
      (seqOpenBad e s.dev = true → refuses (.seqOpen ring) resBadCmd) ∧
      (seqOpenBad e s.dev = false → (¬ active ∨ x.st ≠ .free) → refuses (.seqOpen ring) resBadState) ∧
      (seqOpenBad e s.dev = false → active → x.st = .free → openDirs e.tenant s.dev = none →
        refuses (.seqOpen ring) resNoSpace) ∧
      (seqOpenBad e s.dev = false → active → x.st = .free → (openDirs e.tenant s.dev).isSome = true →
        Completes (.seqOpen ring) s (fun t => CommandAnswered ring e resDone s t ∧ RegsExcept (doneRegs ring e s) s t ∧
          others t ∧ seqOpen t.dev e.seq = true ∧ (seqDesc t.dev e.seq).tenant = e.tenant ∧
          (seqDesc t.dev e.seq).length = 0 ∧ (seqDesc t.dev e.seq).evictable = decide (e.arg 0 0 = 1) ∧
          (seqDesc t.dev e.seq).homeDie = e.arg 111 96 ∧ (seqDesc t.dev e.seq).parts = e.arg 31 16 ∧
          seqEntry t.dev e.seq = { isOpen := true } ∧ tblFind t.dev.ent.spec e.seq = none))) ∧
    (CommandAt s ring 0x07 e →
      (inRange = false → refuses (.seqRelease ring) resBadCmd) ∧
      (inRange = true → (¬ active ∨ seqOpen s.dev e.seq = false) → refuses (.seqRelease ring) resBadState) ∧
      (inRange = true → active → seqOpen s.dev e.seq = true → seqBusy s.dev e.seq = true →
        refuses (.seqRelease ring) resBusy) ∧
      (inRange = true → active → seqOpen s.dev e.seq = true → seqBusy s.dev e.seq = false →
        Completes (.seqRelease ring) s (fun t => CommandKept ring e s t ∧ others t ∧
          RegsExcept (R.RNG_PENDING e.ring :: R.KVC_LOST :: cmdRegs ring e) s t ∧
          (x.damaged = false → getReg t.dev R.KVC_LOST = getReg s.dev R.KVC_LOST) ∧
          (seqDesc t.dev e.seq).st = .releasing ∧
          (seqDesc t.dev e.seq).cmd.map (·.ctr) = some (getReg s.dev (R.RNG_TAIL e.ring)) ∧
          (seqEntry t.dev e.seq).isOpen = false ∧ (seqEntry t.dev e.seq).prefillOpen = false))) ∧
    (CommandAt s ring 0x06 e →
      let p := seqDesc s.dev (e.arg 17 0)
      let n := e.arg 63 32
      ((inRange = false ∨ seqInRange s.dev e.tenant (e.arg 17 0) = false ∨ n = 0 ∨ p.length < n ∨ 1 < p.parts ∨
        (n < p.prefixLen ∧ n % prefixTokens s.dev e.tenant ≠ 0)) → refuses (.seqFork ring) resBadCmd) ∧
      (inRange = true → seqInRange s.dev e.tenant (e.arg 17 0) = true → 0 < n → n ≤ p.length → p.parts ≤ 1 →
        (p.prefixLen ≤ n ∨ n % prefixTokens s.dev e.tenant = 0) →
        ((¬ active ∨ x.st ≠ .free ∨ seqOpen s.dev (e.arg 17 0) = false ∨ p.forkParent = true) →
          refuses (.seqFork ring) resBadState) ∧
        (active → x.st = .free → seqOpen s.dev (e.arg 17 0) = true → p.forkParent = false →
          (seqBusy s.dev (e.arg 17 0) = true → refuses (.seqFork ring) resBusy) ∧
          (seqBusy s.dev (e.arg 17 0) = false → openDirs e.tenant s.dev = none → refuses (.seqFork ring) resNoSpace) ∧
          (seqBusy s.dev (e.arg 17 0) = false → (openDirs e.tenant s.dev).isSome = true →
            Completes (.seqFork ring) s (fun t => CommandKept ring e s t ∧
              RegsExcept (R.RNG_PENDING e.ring :: cmdRegs ring e) s t ∧
              (seqDesc t.dev e.seq).st = .live ∧ (seqDesc t.dev e.seq).forkChild = true ∧
              (seqDesc t.dev e.seq).forkPeer = e.arg 17 0 ∧ (seqDesc t.dev e.seq).forkLen = n ∧
              seqDesc t.dev (e.arg 17 0) = { p with forkParent := true, forkPeer := e.seq } ∧
              t.dev.ent.seqTab = s.dev.ent.seqTab)))))

/-- CTX_ACTIVATE on a context that is not FREE is answered BAD_STATE; where a check fails, CHECK_FAIL, the context
stays FREE and REASON takes the lowest failing code. Else it becomes ACTIVE under BARRIER, its image's base is set,
its load slot and VERSION_NEXT are cleared, and the units of its windows in hive memory and on its cells are its own
or being wiped for it. CTX_KILL ends the ACTIVE state, marks the tenant's requests killed from the next tick, and
leaves no load or swap of the tenant. REQ_KILL finds a request of a later tick or answers NOT_FOUND. A key set is
loaded or cleared only while its handle is unused, and its epoch rises: WGT_KEY_LOAD, where the entry at the front is
the one that the row names (log 19), stores what the first 104 bytes of its payload unwrap to where the two XTS halves
differ, and answers CHECK_FAIL with reason KEY where the unwrap fails or they do not. (R81, R82, R83, R269, R277,
R278, R290, R298, Table 03-8, Table 03-12) -/
def Obligations.ContextAndKeyCommands : Prop :=
  ∀ (s : State) (ring : RingId) (e : CmdEntry),
    let T := e.tenant
    let refuses := fun (c : Instr) (res : Nat) => Completes c s (fun t =>
      CommandAnswered ring e res s t ∧ RegsExcept (doneRegs ring e s) s t ∧ WorkKept s t)
    let killed := fun (t : State) (hit : Req → Prop) =>
      t.dev.ent.reqs.map (fun r => (r.uid, r.desc)) = s.dev.ent.reqs.map (fun r => (r.uid, r.desc)) ∧
      ∀ r ∈ t.dev.ent.reqs, hit r → r.recordWritten = false → ∃ k, r.killAt = some k ∧ k ≤ s.dev.tick.num + 1
    (CommandAt s ring 0x01 e →
      (tcxState s.dev T ≠ 0 → refuses (.ctxActivate ring) resBadState) ∧
      (∀ n, tcxState s.dev T = 0 → activationReason s.dev T = n → n ≠ 0 → Completes (.ctxActivate ring) s (fun t =>
        CommandAnswered ring e resCheckFail s t ∧ tcxState t.dev T = 0 ∧ fld (getReg t.dev (R.TCX_STATE T)) 15 8 = n ∧
        RegsExcept (R.TCX_STATE T :: doneRegs ring e s) s t ∧ WorkKept s t)) ∧
      (∀ i, tcxState s.dev T = 0 → activationReason s.dev T = 0 → verifiedSlot s.dev T = some i →
        Completes (.ctxActivate ring) s (fun t => CommandAnswered ring e resDone s t ∧ tcxState t.dev T = 1 ∧
          tcxBarrier t.dev T = true ∧ weightBase t.dev T = (wSlot s.dev i).dest % 2 ^ 64 ∧
          getReg t.dev (R.TCX_VERSION_NEXT T) = 0 ∧ (wSlot t.dev i).st = .idle ∧ T ∈ t.dev.wgt.copies ∧
          RegsExcept (R.TCX_STATE T :: R.TCX_VERSION_NEXT T :: R.TCX_WEIGHT_BASE_LO T :: R.TCX_WEIGHT_BASE_HI T ::
            R.TCX_PROG_BASE_LO T :: R.TCX_PROG_BASE_HI T :: doneRegs ring e s) s t ∧
          t.dev.ent.reqs = s.dev.ent.reqs ∧ t.dev.cache = s.dev.cache ∧
          (∀ u, (hvWindow s.dev T).1 / 4096 ≤ u → u < (hvWindow s.dev T).2 / 4096 →
            ∃ h k, tblGet .clean t.dev.mem.tags (65536 + u) = .tenant (BitVec.ofNat 12 T) h k ∨
              tblGet .clean t.dev.mem.tags (65536 + u) = .wipingTenant (BitVec.ofNat 12 T) h k) ∧
          ∀ (c : CellId) u, usesCell s.dev T c = true → (cmWindow s.dev T).1 ≤ u → u < (cmWindow s.dev T).2 →
            ∃ h k, tblGet .clean t.dev.mem.tags (1024 * c.val + u) = .tenant (BitVec.ofNat 12 T) h k ∨
              tblGet .clean t.dev.mem.tags (1024 * c.val + u) = .wipingTenant (BitVec.ofNat 12 T) h k)) ∧
    (CommandAt s ring 0x02 e →
      (tcxState s.dev T ≠ 1 → refuses (.ctxKill ring) resBadState) ∧
      (tcxState s.dev T = 1 → Completes (.ctxKill ring) s (fun t => t.pending = s.pending ∧
        CommandResult e resDone s t ∧ tcxState t.dev T ≠ 1 ∧
        ((∃ k ∈ s.dev.ent.tokens, k.st ≠ .finished ∧ ∃ r, findReq s.dev k.uid = some r ∧ dTenant r.desc = T) →
          tcxState t.dev T = 2) ∧
        killed t (fun r => dTenant r.desc = T) ∧
        ∀ i, i < 8 → (wSlot t.dev i).tenant = T → (wSlot t.dev i).st = .idle ∨ (wSlot t.dev i).st = .reverting))) ∧
    (CommandAt s ring 0x03 e →
      let hit := fun r : Req => dTenant r.desc = T ∧ (dReqId r.desc).toNat = e.arg 31 0
      let found := ∃ r ∈ s.dev.ent.reqs, hit r ∧ r.recordWritten = false ∧ s.dev.tick.num + 1 ≤ r.tick
      (tcxState s.dev T ≠ 1 → refuses (.reqKill ring) resBadState) ∧
      (tcxState s.dev T = 1 → ¬ found → refuses (.reqKill ring) resNotFound) ∧
      (tcxState s.dev T = 1 → found → Completes (.reqKill ring) s (fun t => CommandAnswered ring e resDone s t ∧
        RegsExcept (doneRegs ring e s) s t ∧ killed t hit ∧ t.dev.cache = s.dev.cache ∧ t.dev.wgt = s.dev.wgt))) ∧
    (CommandAt s ring 0x11 e →
      let h := e.arg 11 0
      (handleBusy s.dev h = true → refuses (.wgtKeyClear ring) resBadState) ∧
      (handleBusy s.dev h = false → Completes (.wgtKeyClear ring) s (fun t => CommandAnswered ring e resDone s t ∧
        RegsExcept (doneRegs ring e s) s t ∧ keySet t.dev h = { epoch := (keySet s.dev h).epoch + 1 } ∧
        ∀ g, g ≠ h → keySet t.dev g = keySet s.dev g))) ∧
    let load := fun (e : CmdEntry) (h : Nat) => Instr.wgtKeyLoad ring e.cmdId (BitVec.ofNat 12 h)
    (∀ id h, isKeyLoad s.dev ring id h = false → Completes (.wgtKeyLoad ring id h) s (fun t => t = s)) ∧
    (CommandAt s ring 0x10 e →
      let h := e.arg 11 0
      let payload := cmdEntryAt s.dev ring.toNat 1 ++ cmdEntryAt s.dev ring.toNat 2
      ((∃ b ∈ payload.drop 104, b ≠ 0) → refuses (load e h) resBadCmd) ∧
      ((∀ b ∈ payload.drop 104, b = 0) →
        (handleBusy s.dev h = true → refuses (load e h) resBadState) ∧
        (handleBusy s.dev h = false →
          match unwrapKeys (payload.take 104) with
          | some keys => keys.length = 96 ∧ keys.take 32 ≠ (keys.drop 32).take 32 ∧
            Completes (load e h) s (fun t => CommandAnswered ring e resDone s t ∧
              RegsExcept (doneRegs ring e s) s t ∧
              keySet t.dev h = { bytes := keys, valid := true, epoch := (keySet s.dev h).epoch + 1 } ∧
              ∀ g, g ≠ h → keySet t.dev g = keySet s.dev g)
          | none =>
            Completes (load e h) s (fun t => CommandAnswered ring e resCheckFail s t ∧
              fld (getReg t.dev R.ENT_KEY_REASON) 7 0 = 5 ∧
              RegsExcept (R.ENT_KEY_REASON :: doneRegs ring e s) s t ∧ WorkKept s t)))))

/-- WGT_LOAD of a version takes the lowest IDLE slot, which becomes LOADING, and sets VERSION_NEXT; its record is
kept. Version 0 or a port that is not UP at 2.0 gives BAD_CMD, no IDLE slot BUSY, keys that are not valid or a bad
place CHECK_FAIL with the reason. WGT_CANCEL ends a LOADING or VERIFIED load with reason CANCEL. WGT_SWAP of a
VERIFIED version whose shape and footprints fit makes it SWAPPING under BARRIER; a mismatch is CHECK_FAIL with reason
SHAPE in the slot, a cost table that is not valid one with reason 9. WGT_ACTIVATE on a solo die or a queen takes the
lowest free entry with its activation tick. WGT_ABORT of a swap that has no activation tick makes it REVERTING, and a
swap whose record is due ends with CHECK_FAIL. Each gives BAD_STATE without a slot in the state it needs. (R282, R291,
R294, R297, R314, Table 03-8, Table 11-2, Table 11-3) -/
def Obligations.WeightCommands : Prop :=
  ∀ (s : State) (ring : RingId) (e : CmdEntry),
    let T := e.tenant
    let v := e.version
    let refuses := fun (c : Instr) (res : Nat) => Completes c s (fun t =>
      CommandAnswered ring e res s t ∧ RegsExcept (doneRegs ring e s) s t ∧ WorkKept s t)
    (CommandAt s ring 0x12 e →
      let portsOk := wgtPortOk s.dev (e.arg 34 32) = true ∧ (e.arg 38 36 = 7 ∨ wgtPortOk s.dev (e.arg 38 36) = true)
      let may := tcxState s.dev T < 2 ∧ getReg s.dev (R.TCX_VERSION_NEXT T) = 0 ∧
        (tcxState s.dev T = 1 → v = getReg s.dev (R.TCX_VERSION T) → quarantined s.dev T = true)
      let idle := (List.range 8).find? (fun i => decide ((wSlot s.dev i).st = .idle))
      let fails := fun (reason : Nat) => Completes (.wgtLoad ring) s (fun t => CommandAnswered ring e resCheckFail s t ∧
        fld (getReg t.dev R.ENT_WGT_CMD_REASON) 7 0 = reason ∧
        RegsExcept (R.ENT_WGT_CMD_REASON :: doneRegs ring e s) s t ∧ WorkKept s t)
      ((v = 0 ∨ ¬ portsOk) → refuses (.wgtLoad ring) resBadCmd) ∧
      (v ≠ 0 → portsOk →
        (¬ may → refuses (.wgtLoad ring) resBadState) ∧
        (may → idle = none → refuses (.wgtLoad ring) resBusy) ∧
        ∀ i, may → idle = some i →
          ((keySet s.dev (keyHandle s.dev T)).valid = false → fails 5) ∧
          ((keySet s.dev (keyHandle s.dev T)).valid = true → destBad s.dev (e.arg 127 64) = true → fails 4) ∧
          ((keySet s.dev (keyHandle s.dev T)).valid = true → destBad s.dev (e.arg 127 64) = false →
            Completes (.wgtLoad ring) s (fun t => CommandKept ring e s t ∧ (wSlot t.dev i).st = .loading ∧
              (wSlot t.dev i).tenant = T ∧ (wSlot t.dev i).version = v ∧ (wSlot t.dev i).dest = e.arg 127 64 ∧
              (∀ j, j ≠ i → wSlot t.dev j = wSlot s.dev j) ∧ getReg t.dev (R.TCX_VERSION_NEXT T) = v ∧
              RegsExcept (R.TCX_VERSION_NEXT T :: R.RNG_PENDING e.ring :: cmdRegs ring e) s t)))) ∧
    (CommandAt s ring 0x13 e →
      let slot := slotIn? s.dev T v (fun st => decide (st = .loading ∨ st = .verified))
      (slot = none → refuses (.wgtCancel ring) resBadState) ∧
      (∀ i, slot = some i → (∀ x, (wSlot s.dev i).loadCmd = some x → x.ring < 4096) → Completes (.wgtCancel ring) s (fun t => t.pending = s.pending ∧
        CommandResult e resDone s t ∧ (wSlot t.dev i).st = .idle ∧ (wSlot t.dev i).reason = 8 ∧
        getReg t.dev (R.TCX_VERSION_NEXT (wSlot s.dev i).tenant) = 0 ∧
        (∀ j, j ≠ i → wSlot t.dev j = wSlot s.dev j) ∧ t.dev.mem.cm = s.dev.mem.cm ∧ t.dev.mem.hbm = s.dev.mem.hbm))) ∧
    (CommandAt s ring 0x14 e →
      let slot := slotIn? s.dev T v (fun st => decide (st = .verified))
      ((slot = none ∨ tcxState s.dev T ≠ 1) → refuses (.wgtSwap ring) resBadState) ∧
      ∀ i, slot = some i → tcxState s.dev T = 1 →
        let fits := shapeMatches s.dev T (wSlot s.dev i).dest && footprintFits s.dev T (wSlot s.dev i).dest
        (fits = false → Completes (.wgtSwap ring) s (fun t => CommandAnswered ring e resCheckFail s t ∧
          RegsExcept (doneRegs ring e s) s t ∧ wSlot t.dev i = { wSlot s.dev i with reason := 6 })) ∧
        (fits = true → costTableValid s.dev (e.arg 48 40) = false →
          Completes (.wgtSwap ring) s (fun t => CommandAnswered ring e resCheckFail s t ∧
          RegsExcept (doneRegs ring e s) s t ∧ wSlot t.dev i = { wSlot s.dev i with reason := 9 })) ∧
        (fits = true → costTableValid s.dev (e.arg 48 40) = true →
          Completes (.wgtSwap ring) s (fun t => CommandKept ring e s t ∧ (wSlot t.dev i).st = .swapping ∧
            (wSlot t.dev i).kvDrop = decide (e.arg 32 32 = 1) ∧ (wSlot t.dev i).costTable = e.arg 48 40 ∧
            tcxBarrier t.dev T = true ∧ (∀ j, j ≠ i → wSlot t.dev j = wSlot s.dev j) ∧
            RegsExcept (R.TCX_STATE T :: R.RNG_PENDING e.ring :: cmdRegs ring e) s t))) ∧
    (CommandAt s ring 0x15 e →
      let n := s.dev.tick.num
      let at' := if role s.dev = 0 then max (e.arg 127 64) (n + 2)
        else max (e.arg 127 64) (n + 1 + regFld s.dev R.TICK_MISS_LIMIT 7 0)
      ((role s.dev ≠ 0 ∧ role s.dev ≠ 1) → refuses (.wgtActivate ring) resBadState) ∧
      ((role s.dev = 0 ∨ role s.dev = 1) →
        (freeAct s.dev = none → refuses (.wgtActivate ring) resBusy) ∧
        ∀ j, freeAct s.dev = some j → Completes (.wgtActivate ring) s (fun t => CommandKept ring e s t ∧
          getReg t.dev (R.ENT_WACT_ID j) = BitVec.ofNat 32 (T + 2 ^ 31) ∧ getReg t.dev (R.ENT_WACT_VERSION j) = v ∧
          getReg64 t.dev (R.ENT_WACT_TICK_LO j) (R.ENT_WACT_TICK_HI j) = at' % 2 ^ 64 ∧
          RegsExcept (R.ENT_WACT_ID j :: R.ENT_WACT_VERSION j :: R.ENT_WACT_TICK_LO j :: R.ENT_WACT_TICK_HI j ::
            R.RNG_PENDING e.ring :: cmdRegs ring e) s t))) ∧
    (CommandAt s ring 0x16 e →
      let slot := slotIn? s.dev T v (fun st => decide (st = .swapping ∨ st = .ready))
      (slot = none → refuses (.wgtAbort ring) resBadState) ∧
      (∀ i, slot = some i → (wSlot s.dev i).act ≠ 0 → refuses (.wgtAbort ring) resBadState) ∧
      (∀ i, slot = some i → (wSlot s.dev i).act = 0 → Completes (.wgtAbort ring) s (fun t => t.pending = s.pending ∧
        (wSlot t.dev i).st = .reverting ∧ (wSlot t.dev i).reason = 8 ∧ (wSlot t.dev i).swapCmd = none ∧
        (∀ j, j ≠ i → wSlot t.dev j = wSlot s.dev j) ∧ t.dev.mem.cm = s.dev.mem.cm ∧ t.dev.mem.hbm = s.dev.mem.hbm ∧
        ∀ x, (wSlot s.dev i).swapCmd = some x →
          tblGet 0 t.dev.mem.hive (slotAddr s.dev x.ring x.ctr.toNat + 0x2E) = 5)) ∧
      ∀ i, slot = some i → (wSlot s.dev i).act = 0 → (wSlot s.dev i).swapCmd = none →
        Completes (.wgtAbort ring) s (fun t => CommandKept ring e s t ∧
          (wSlot t.dev i).st = .reverting ∧ (wSlot t.dev i).reason = 8 ∧
          (∀ j, j ≠ i → wSlot t.dev j = wSlot s.dev j) ∧
          RegsExcept (R.RNG_PENDING e.ring :: cmdRegs ring e) s t))

/-- At the end of a wipe the unit holds zeros, carries the owner tag that a wipe for a tenant was begun with, and is
counted; one wiped to become CLEAN is CLEAN, and so is one wiped for a ring, until RING_WIPE_END (this is the model's
reading, log 47); every other byte is as it was; outside drain and beacon phases, or for a unit that is not WIPING,
nothing changes. A bank or band requested OFF that nothing blocks begins to close in a drain phase; one that is
blocked stays ON, and is counted once in the phase. A closing one becomes OFF, one wanted back begins to wake in a
drain phase, and one that has woken is ON, holds zeros, and its units are CLEAN. No other bank or band changes its
state. (R270, R272, R273, R274, Table 10-7) -/
def Obligations.BanksAndWipes : Prop :=
  (∀ (s : State) (place : MemPlace), alive s.dev = true →
    let key := placeKey place
    let cnt := match place with | .cell c _ => R.CEL_WIPE_CNT c.val | .hive _ => R.HIV_WIPE_CNT
    let mine := fun (hive : Bool) (a : Nat) => match place with
      | .cell c u => hive = false ∧ cmBase c + 4096 * u.toNat ≤ a ∧ a < cmBase c + 4096 * u.toNat + 4096
      | .hive u => hive = true ∧ 4096 * u.toNat ≤ a ∧ a < 4096 * u.toNat + 4096
    ((inDrainOrBeacon s.dev = false ∨ (tblGet .clean s.dev.mem.tags key).isWiping = false) →
      Completes (.wipeEnd place) s (fun t => t = s)) ∧
    (inDrainOrBeacon s.dev = true → (tblGet .clean s.dev.mem.tags key).isWiping = true →
      Completes (.wipeEnd place) s (fun t => t.pending = s.pending ∧
        (∀ o h e, tblGet .clean s.dev.mem.tags key = .wipingTenant o h e →
          tblGet .clean t.dev.mem.tags key = .tenant o h e) ∧
        ((tblGet .clean s.dev.mem.tags key = .wipingRing ∨ tblGet .clean s.dev.mem.tags key = .wipingClean) →
          tblGet .clean t.dev.mem.tags key = .clean) ∧
        (∀ k, k ≠ key → tblGet .clean t.dev.mem.tags k = tblGet .clean s.dev.mem.tags k) ∧
        (∀ a, (mine false a → tblGet 0 t.dev.mem.cm a = 0) ∧
          (¬ mine false a → tblGet 0 t.dev.mem.cm a = tblGet 0 s.dev.mem.cm a)) ∧
        (∀ a, (mine true a → tblGet 0 t.dev.mem.hive a = 0) ∧
          (¬ mine true a → tblGet 0 t.dev.mem.hive a = tblGet 0 s.dev.mem.hive a)) ∧
        t.dev.mem.hbm = s.dev.mem.hbm ∧ getReg t.dev cnt = counted (getReg s.dev cnt) 1 ∧ RegsExcept [cnt] s t))) ∧
  ∀ (s : State) (bank : BankId), alive s.dev = true →
    let reg := match bank with | .cell c _ => R.CEL_BANK_STATE c.val | .hive _ => R.HIV_BAND_STATE
    let cnt := match bank with | .cell c _ => R.CEL_BANK_REFUSE_CNT c.val | .hive _ => R.HIV_BAND_REFUSE_CNT
    let others := fun t : State => t.pending = s.pending ∧ ∀ b, b ≠ bank → gateState t.dev b = gateState s.dev b
    let empty := fun t : State => match bank with
      | .cell c b => (∀ o, o < 0x80000 → tblGet 0 t.dev.mem.cm (cmBase c + 0x80000 * b.val + o) = 0) ∧
          ∀ u, u < 128 → cellTag t.dev c (128 * b.val + u) = .clean
      | .hive k => (∀ o, o < 0x1000000 → tblGet 0 t.dev.mem.hive (0x1000000 * k.val + o) = 0) ∧
          ∀ u, u < 4096 → hiveTag t.dev (4096 * k.val + u) = .clean
    (inDrain s.dev = true → offReq s.dev bank = true → gateState s.dev bank = 0 →
      (gateBlocked s.dev bank = false → Completes (.bankGateClose bank) s (fun t => others t ∧
        gateState t.dev bank = 1 ∧ RegsExcept [reg] s t ∧ SameMemory s t)) ∧
      (gateBlocked s.dev bank = true → gateKey bank ∈ s.dev.mem.gateRefused →
        Completes (.bankGateClose bank) s (fun t => t = s)) ∧
      (gateBlocked s.dev bank = true → gateKey bank ∉ s.dev.mem.gateRefused →
        Completes (.bankGateClose bank) s (fun t => others t ∧ gateState t.dev bank = 0 ∧
          gateKey bank ∈ t.dev.mem.gateRefused ∧ getReg t.dev cnt = counted (getReg s.dev cnt) 1 ∧
          RegsExcept [cnt] s t))) ∧
    (gateState s.dev bank = 1 → Completes (.bankOffReached bank) s (fun t => others t ∧ gateState t.dev bank = 2 ∧
      empty t ∧ RegsExcept [reg] s t ∧ t.dev.mem.hbm = s.dev.mem.hbm)) ∧
    (inDrain s.dev = true → offReq s.dev bank = false → gateState s.dev bank = 2 →
      Completes (.bankWakeStart bank) s (fun t => others t ∧ gateState t.dev bank = 3 ∧ RegsExcept [reg] s t ∧
        SameMemory s t)) ∧
    (gateState s.dev bank = 3 → Completes (.bankWakeEnd bank) s (fun t => others t ∧ gateState t.dev bank = 0 ∧
      empty t ∧ RegsExcept [reg] s t ∧ t.dev.mem.hbm = s.dev.mem.hbm))

/-- Outside a drain phase no work of cache control is done. In one, any number of operations leaves the queue, the
cells, the tokens, the requests and cell memory as they were, and a DRAINING context none of whose tokens remains
becomes RELEASING, or FREE where it has no sequence. The first operation frees every FREEING frame. Eviction begins
only while fewer units are free than the watermark, and ends once the high mark or the budget is met; an operation of
top-up reserves nothing beyond the cell's reserve. A fork whose work is done gives the child the parent's attributes,
the shared length and the part of the dropped range below it, makes it OPEN, and clears the fork marks. A release
whose work is done makes the sequence FREE, and its context FREE with the last one. Each writes its command's record.
(R84, R207, R208, R223, R226, R228, R229) -/
def Obligations.CacheWorkInADrain : Prop :=
  (∀ (s : State) (n : Nat), (alive s.dev && inDrain s.dev) = false →
    Completes (.cacheDrainWork n) s (fun t => t = s)) ∧
  (∀ (s : State) (n : Nat), alive s.dev = true → inDrain s.dev = true →
    Completes (.cacheDrainWork n) s (fun t => t.pending = s.pending ∧ t.dev.cells = s.dev.cells ∧
      t.dev.ent.tokens = s.dev.ent.tokens ∧ t.dev.ent.reqs = s.dev.ent.reqs ∧ t.dev.tick = s.dev.tick ∧
      t.dev.mem.cm = s.dev.mem.cm ∧ t.dev.ent.ledgers = s.dev.ent.ledgers ∧
      ∀ T, T < 4096 → tcxState s.dev T = 2 → tenantTokens s.dev T = false →
        (tcxState t.dev T = 3 ∨ tcxState t.dev T = 0))) ∧
  (∀ s : State, alive s.dev = true → inDrain s.dev = true → contextsReleasing s.dev = s.dev →
    let low := freeUnits s.dev < regFld s.dev R.KVC_WATERMARK 19 0 * 1024
    (s.dev.cache.step = 1 → tblSorted s.dev.cache.frames = true → Completes (.cacheDrainWork 1) s (fun t => t.dev.cache.step = 2 ∧ RegsExcept [] s t ∧
      SameMemory s t ∧ ∀ u x, frameOf s.dev u = some x →
        frameOf t.dev u = if x.st = .freeing then none else some x)) ∧
    (s.dev.cache.step = 4 → Completes (.cacheDrainWork 1) s (fun t => RegsExcept [] s t ∧ SameMemory s t ∧
      t.dev.cache = { s.dev.cache with step := if low then 5 else 6 })) ∧
    (s.dev.cache.step = 5 → (regFld s.dev R.KVC_WATERMARK_HI 19 0 * 1024 ≤ freeUnits s.dev ∨
        regFld s.dev R.KVC_EVICT_BUDGET 15 0 ≤ s.dev.cache.evicted) →
      Completes (.cacheDrainWork 1) s (fun t => RegsExcept [] s t ∧ SameMemory s t ∧
        t.dev.cache = { s.dev.cache with step := 6 })) ∧
    (s.dev.cache.step = 6 → ∀ c : CellId, s.dev.cache.topCell = c.val →
      Completes (.cacheDrainWork 1) s (fun t => t.dev.cache.topCell = c.val + 1 ∧ SameMemory s t ∧
        RegsExcept [R.KVC_TOPUP_SHORT_CNT] s t ∧ t.dev.cache.seqs = s.dev.cache.seqs ∧
        (∀ k, k < 11 → reserveCount t.dev c k ≤ max (reserveCount s.dev c k) (regFld s.dev (R.KVC_RESERVE k) 15 0)) ∧
        t.dev.cache.heads = s.dev.cache.heads))) ∧
  (∀ (s : State) (q : SeqId), alive s.dev = true → inDrain s.dev = true →
    let x := seqDesc s.dev q.toNat
    let p := seqDesc s.dev x.forkPeer
    let e := seqEntry s.dev x.forkPeer
    x.forkChild = true → x.workDone = true → x.forkPeer ≠ q.toNat →
    (∀ c, x.cmd = some c → c.ring < 4096) →
      Completes (.forkEnd q) s (fun t => t.pending = s.pending ∧
        (let y := seqDesc t.dev q.toNat
         y.length = x.forkLen ∧ y.prefixLen = min x.forkLen p.prefixLen ∧ y.parent = x.forkPeer ∧ y.posLo = p.posLo ∧
           y.posHi = p.posHi ∧ y.evictable = p.evictable ∧ y.forkChild = false ∧ y.st = x.st) ∧
        seqDesc t.dev x.forkPeer = { p with forkParent := false, forkPeer := 0 } ∧
        (seqEntry t.dev q.toNat).isOpen = decide (x.st = .live) ∧
        (e.dropHi ≤ e.dropLo → (seqEntry t.dev q.toNat).dropLo = 0 ∧ (seqEntry t.dev q.toNat).dropHi = 0) ∧
        (seqEntry t.dev q.toNat).dropHi ≤ p.posLo + x.forkLen ∧
        (x.cmd = none → SameMemory s t ∧ RegsExcept [] s t) ∧
        (∀ c, x.cmd = some c → tblGet 0 t.dev.mem.hive (slotAddr s.dev c.ring c.ctr.toNat + 0x2E) = 0 ∧
          leNat (hiveRead t.dev (slotAddr s.dev c.ring c.ctr.toNat + 0x20) 4) = x.forkLen % 2 ^ 32 ∧
          RegsExcept (R.RNG_PENDING c.ring :: ringSync s c.ring) s t))) ∧
  ∀ (s : State) (q : SeqId), alive s.dev = true → inDrain s.dev = true →
    let x := seqDesc s.dev q.toNat
    x.st = .releasing → x.forkChild = false → x.forkParent = false → x.workDone = true →
    (∀ c, x.cmd = some c → c.ring < 4096) →
      Completes (.releaseEnd q) s (fun t => t.pending = s.pending ∧ (seqDesc t.dev q.toNat).st = .free ∧
        (seqEntry t.dev q.toNat).isOpen = false ∧
        (∀ k, k ≠ q.toNat → seqDesc t.dev k = seqDesc s.dev k ∧ seqEntry t.dev k = seqEntry s.dev k) ∧
        (tcxState s.dev x.tenant ≠ 3 → tcxState t.dev x.tenant = tcxState s.dev x.tenant) ∧
        (tcxState s.dev x.tenant = 3 →
          (∀ k, k ≠ q.toNat → (seqDesc s.dev k).tenant = x.tenant → (seqDesc s.dev k).st = .free) →
          tblSorted s.dev.cache.seqs = true → tcxState t.dev x.tenant = 0 ∧ tcxBarrier t.dev x.tenant = false) ∧
        (∀ c, x.cmd = some c →
          tblGet 0 t.dev.mem.hive (slotAddr s.dev c.ring c.ctr.toNat + 0x2E) = 0))

/-- A frame of a longer train only joins it, and a message of another kind is none of these. A WCHUNK for a LOADING
slot that the port feeds takes a relay entry, or is discarded and counted where it comes outside drain and beacon
phases, finds no free entry, or has a wrong length. Without such a slot it is discarded, counted and answered WNACK
NO_LOAD. WACK frees the verified chunk's relay entry. WNACK NO_LOAD stops forwarding; CORRUPT or MISSING sends the
chunk again, from its relay entry or read back from the image, in a drain or beacon phase in which no flush engine
waits for a controller of it and no entry has stopped the engine; until then its index is kept; a chunk that cannot be
read back counts as corrupt. WFAIL from upstream ends the load with reason UPSTREAM. What is sent while the port
retrains is held back. (R283, R285, R288, Table 11-6, Table 11-7) -/
def Obligations.WeightMessages : Prop :=
  ∀ (s : State) (p : PortId) (f : Frame), Accepted s p f tWEIGHT →
    let r := takeTrain p f s.dev
    let kind := frameKind s.dev p f
    let kept := fun t : State => t.pending = s.pending ∧ SameMemory s t
    let sends := fun (t : State) (gs : List Frame) =>
      ((getPort s.dev p).retraining = false → (getPort t.dev p).tx = (getPort s.dev p).tx ++ gs) ∧
      ((getPort s.dev p).retraining = true → (getPort t.dev p).held = (getPort s.dev p).held ++ gs)
    let message := fun n : Nat => if n = 1 then Instr.wchunk p f else if n = 2 then Instr.wack p f
      else if n = 3 then Instr.wnack p f else Instr.wfail p f
    (∀ n, 1 ≤ n → n ≤ 4 →
      (kind ≠ n → Completes (message n) s (fun t => t.pending = s.pending ∧ t.dev = linkIn p s.dev)) ∧
      (kind = n → r.1 = none → Completes (message n) s (fun t => t.pending = s.pending ∧
        t.dev = (takeTrain p f (linkIn p s.dev)).2))) ∧
    ∀ m, r.1 = some m →
      let T := mTenant m
      let v := mVersion m
      let fed := (slotsWith s.dev (fun x => decide (x.st = .loading) && decide (x.tenant = T) && decide (x.version = v) &&
        decide (x.up = p.val))).head?
      let n := mLength m
      let toward := slotToward s.dev p m
      (kind = 1 → fed = none → Completes (.wchunk p f) s (fun t => kept t ∧ t.dev.wgt = s.dev.wgt ∧
        getReg t.dev R.ENT_WGT_NACK_CNT = counted (getReg s.dev R.ENT_WGT_NACK_CNT) 1 ∧
        getReg t.dev R.ENT_WGT_DISCARD_CNT = counted (getReg s.dev R.ENT_WGT_DISCARD_CNT) 1 ∧
        RegsExcept [R.ENT_WGT_NACK_CNT, R.ENT_WGT_DISCARD_CNT] s t ∧
        ∃ g, sends t [g] ∧ g.typ = tWEIGHT ∧ g.payload = wgtMsg 3 3 T v (mIndex m))) ∧
      (∀ i, kind = 1 → fed = some i →
        let fits := inDrainOrBeacon s.dev = true ∧ (wSlot s.dev i).relays.length < 32 ∧ 64 ≤ n ∧ n ≤ 0x100000 ∧
          n % 64 = 0 ∧ m.length = 0x20 + n + 16
        (fits → Completes (.wchunk p f) s (fun t => kept t ∧ RegsExcept [] s t ∧
          { index := mIndex m, bytes := m.drop 0x20 } ∈ (wSlot t.dev i).relays ∧
          (wSlot t.dev i).lastAt = s.dev.tick.time ∧ ∀ j, j ≠ i → wSlot t.dev j = wSlot s.dev j)) ∧
        (¬ fits → Completes (.wchunk p f) s (fun t => kept t ∧ t.dev.wgt = s.dev.wgt ∧
          getReg t.dev R.ENT_WGT_DISCARD_CNT = counted (getReg s.dev R.ENT_WGT_DISCARD_CNT) 1 ∧
          RegsExcept [R.ENT_WGT_DISCARD_CNT] s t))) ∧
      (kind = 2 → Completes (.wack p f) s (fun t => kept t ∧ RegsExcept [] s t ∧
        (toward = none → t.dev.wgt = s.dev.wgt) ∧
        ∀ i, toward = some i → (∀ j, j ≠ i → wSlot t.dev j = wSlot s.dev j) ∧ wSlot t.dev i = { wSlot s.dev i with
          relays := (wSlot s.dev i).relays.filter (fun x => x.index ≠ mIndex m ∨ x.verified = false) })) ∧
      (kind = 3 → ¬ (mReason m = 1 ∨ mReason m = 2) → Completes (.wnack p f) s (fun t => kept t ∧ RegsExcept [] s t ∧
        (toward = none → t.dev.wgt = s.dev.wgt) ∧
        ∀ i, toward = some i →
          mReason m = 3 → (wSlot t.dev i).down = none ∧ (wSlot t.dev i).resend = [] ∧
            ∀ x ∈ (wSlot t.dev i).relays, x.verified = false)) ∧
      (∀ i, kind = 3 → toward = some i → (mReason m = 1 ∨ mReason m = 2) →
        let x := wSlot s.dev i
        let k := mIndex m
        let inRelay := x.relays.any (fun r => decide (r.index = k))
        let a := if inRelay then relayBase s.dev else x.dest + (k - 1) * 0x100000
        let others := fun t : State => ∀ j, j ≠ i → wSlot t.dev j = wSlot s.dev j
        (tblFind x.sealed k = none → Completes (.wnack p f) s (fun t => kept t ∧ RegsExcept [] s t ∧
          t.dev.wgt = s.dev.wgt)) ∧
        ∀ bs, tblFind x.sealed k = some bs →
          let turn := inDrainOrBeacon s.dev = true ∧ flushWaits s.dev a bs.length = false ∧ entryStopped s.dev = false
          let bad := !inRelay && hbmRangeBad s.dev a (bs.length - 16)
          (¬ turn → Completes (.wnack p f) s (fun t => kept t ∧ RegsExcept [] s t ∧ others t ∧
            wSlot t.dev i = { x with resend := k :: x.resend } ∧ sends t [])) ∧
          (turn → bad = false → Completes (.wnack p f) s (fun t => kept t ∧ RegsExcept [] s t ∧ others t ∧
            wSlot t.dev i = x ∧ ∃ fs, sends t fs ∧ (∀ g ∈ fs, g.typ = tWEIGHT) ∧
              (fs.map (·.payload)).flatten = wgtChunk x.tenant x.version k bs)) ∧
          (turn → bad = true →
            (x.st ≠ .loading → Completes (.wnack p f) s (fun t => kept t ∧ RegsExcept [] s t ∧ others t ∧
              wSlot t.dev i = x)) ∧
            (x.st = .loading → tblGet 0 x.nacks k < regFld s.dev R.ENT_WGT_RETRY 7 0 →
              Completes (.wnack p f) s (fun t => kept t ∧ others t ∧
                wSlot t.dev i = { x with nacks := tblPut x.nacks k (tblGet 0 x.nacks k + 1) } ∧
                getReg t.dev R.ENT_WGT_NACK_CNT = counted (getReg s.dev R.ENT_WGT_NACK_CNT) 1 ∧
                RegsExcept [R.ENT_WGT_NACK_CNT] s t)) ∧
            (x.st = .loading → regFld s.dev R.ENT_WGT_RETRY 7 0 ≤ tblGet 0 x.nacks k →
              (∀ c, x.loadCmd = some c → c.ring < 4096) →
              Completes (.wnack p f) s (fun t => t.pending = s.pending ∧ (wSlot t.dev i).st = .idle ∧
                (wSlot t.dev i).reason = 2 ∧ getReg t.dev (R.TCX_VERSION_NEXT T) = 0 ∧ others t ∧
                t.dev.mem.cm = s.dev.mem.cm ∧ t.dev.mem.hbm = s.dev.mem.hbm)))) ∧
      (kind = 4 → (fed = none → Completes (.wfail p f) s (fun t => kept t ∧ RegsExcept [] s t ∧ t.dev.wgt = s.dev.wgt)) ∧
        ∀ i, fed = some i → (∀ x, (wSlot s.dev i).loadCmd = some x → x.ring < 4096) →
          Completes (.wfail p f) s (fun t => t.pending = s.pending ∧ (wSlot t.dev i).st = .idle ∧
            (wSlot t.dev i).reason = 7 ∧ getReg t.dev (R.TCX_VERSION_NEXT T) = 0 ∧
            (∀ j, j ≠ i → wSlot t.dev j = wSlot s.dev j) ∧ t.dev.mem.cm = s.dev.mem.cm ∧
            t.dev.mem.hbm = s.dev.mem.hbm))

/-- Chunk 0 that does not open, or whose fields are wrong, ends the load with reason MANIFEST, a place that does not
hold the image with reason PLACE; one that verifies sets the manifest, the image's length and its number of chunks. A
later chunk, whose digest and seal are checked under the tenant's shard key, waits for drain and beacon phases, for
any flush engine that waits for a controller that the relay or the image needs, and while an entry has stopped the
engine, as does the reading of the image at the end; one that verifies is written to its place in the image, and every
other byte of HBM reads as before under the tenant's key; one that does not is taken out of the relay, asked for again
and counted, and the load fails with reason RETRY where the count would pass ENT_WGT_RETRY. A row that names another
tenant or version than the slot's (log 19) changes nothing. Missing chunks, by a gap and, once the timeout has passed,
any that has not verified, are asked for, at most four at a time, or the load fails likewise. With every chunk
verified, an image whose header and programs pass makes the slot VERIFIED and the record says DONE, or the load fails
with reason IMAGE. What the image's tables hold comes with LOAD_END (log 10). A load that fails leaves the slot IDLE
with its reason, and sets VERSION_NEXT to 0. (R280, R283, R284, R287, R288, R289, Table 11-3) -/
def Obligations.LoadsVerifyOrFail : Prop :=
  ∀ (s : State) (i : Fin 8), alive s.dev = true → (wSlot s.dev i.val).st = .loading →
    (∀ x, (wSlot s.dev i.val).loadCmd = some x → x.ring < 4096) →
    let x := wSlot s.dev i.val
    let key := tenantKey s.dev x.tenant
    let retry := regFld s.dev R.ENT_WGT_RETRY 7 0
    let failed := fun (reason : Nat) (t : State) => t.pending = s.pending ∧ (wSlot t.dev i.val).st = .idle ∧
      (wSlot t.dev i.val).reason = reason ∧ getReg t.dev (R.TCX_VERSION_NEXT x.tenant) = 0 ∧
      (∀ j, j ≠ i.val → wSlot t.dev j = wSlot s.dev j)
    let base := fun k : Nat => x.dest + (k - 1) * 0x100000
    let turn := fun a n : Nat => inDrainOrBeacon s.dev = true ∧ flushWaits s.dev a n = false ∧ entryStopped s.dev = false
    let waits := fun k : Nat => ¬ turn (relayBase s.dev) 0x100000 ∨ (k ≠ 0 ∧ (x.chunks < k ∨ ¬ turn (base k) 0x100000))
    let T := BitVec.ofNat 12 x.tenant
    (∀ (k : Nat) (t' : TenantId) v, (x.tenant ≠ t'.toNat ∨ x.version ≠ v) →
      Completes (.chunkVerify i t' v k) s (fun t => t = s)) ∧
    (∀ k : Nat, (waits k ∨
        x.relays.find? (fun r => decide (r.index = k) && !r.verified) = none) →
      Completes (.chunkVerify i T x.version k) s (fun t => t = s)) ∧
    (∀ (k : Nat) (e : Relay), x.tenant < 4096 → ¬ waits k →
      x.relays.find? (fun r => decide (r.index = k) && !r.verified) = some e →
      (k = 0 → checkedChunk s.dev x k e.bytes = none → Completes (.chunkVerify i T x.version k) s (failed 1)) ∧
      (∀ plain, k = 0 → checkedChunk s.dev x k e.bytes = some plain →
        (extentBad s.dev i.val x.dest (leAt plain 8 8) = true → Completes (.chunkVerify i T x.version k) s (failed 4)) ∧
        (extentBad s.dev i.val x.dest (leAt plain 8 8) = false → Completes (.chunkVerify i T x.version k) s (fun t =>
          t.pending = s.pending ∧ RegsExcept [] s t ∧ SameMemory s t ∧ (wSlot t.dev i.val).st = .loading ∧
          (wSlot t.dev i.val).manifest = plain ∧ (wSlot t.dev i.val).imageBytes = leAt plain 8 8 ∧
          (wSlot t.dev i.val).chunks = leAt plain 0x10 4 ∧ 0 ∈ (wSlot t.dev i.val).done))) ∧
      (∀ plain, k ≠ 0 → checkedChunk s.dev x k e.bytes = some plain →
        Completes (.chunkVerify i T x.version k) s (fun t => t.pending = s.pending ∧ RegsExcept [] s t ∧
          t.dev.mem.cm = s.dev.mem.cm ∧ t.dev.mem.hive = s.dev.mem.hive ∧ k ∈ (wSlot t.dev i.val).done ∧
          hbmRead t.dev key (base k) plain.length = plain ∧
          ∀ a, a < base k ∨ base k + plain.length ≤ a → hbmByteKey t.dev key a = hbmByteKey s.dev key a)) ∧
      (k ≠ 0 → checkedChunk s.dev x k e.bytes = none →
        (tblGet 0 x.nacks k < retry → Completes (.chunkVerify i T x.version k) s (fun t =>
          t.pending = s.pending ∧ SameMemory s t ∧ (wSlot t.dev i.val).st = .loading ∧
          tblGet 0 (wSlot t.dev i.val).nacks k = tblGet 0 x.nacks k + 1 ∧
          (∀ r ∈ (wSlot t.dev i.val).relays, r.index = k → r.verified = true) ∧
          getReg t.dev R.ENT_WGT_NACK_CNT = counted (getReg s.dev R.ENT_WGT_NACK_CNT) 1 ∧
          RegsExcept [R.ENT_WGT_NACK_CNT] s t)) ∧
        (retry ≤ tblGet 0 x.nacks k → Completes (.chunkVerify i T x.version k) s (failed 2)))) ∧
    (let due := x.lastAt + 1000 * regFld s.dev R.ENT_WGT_TIMEOUT 15 0
      let ms := (if (gapMissing x).isEmpty ∨ due ≤ s.dev.tick.time then unverified x (max x.arrived (x.chunks + 1))
        else gapMissing x).take 4
      ((∀ k ∈ ms, tblGet 0 x.nacks k < retry) →
        Completes (.chunkMissing i) s (fun t => t.pending = s.pending ∧ SameMemory s t ∧
          (wSlot t.dev i.val).st = .loading ∧ (∀ k ∈ ms, tblGet 0 (wSlot t.dev i.val).nacks k = tblGet 0 x.nacks k + 1) ∧
          (∀ k, k ∉ ms → tblGet 0 (wSlot t.dev i.val).nacks k = tblGet 0 x.nacks k) ∧
          (wSlot t.dev i.val).lastAt = t.dev.tick.time ∧
          getReg t.dev R.ENT_WGT_NACK_CNT = counted (getReg s.dev R.ENT_WGT_NACK_CNT) ms.length ∧
          RegsExcept [R.ENT_WGT_NACK_CNT] s t)) ∧
      ((∃ k ∈ ms, retry ≤ tblGet 0 x.nacks k) → Completes (.chunkMissing i) s (failed 2))) ∧
    (∀ reason : BitVec 4, ((1 ≤ reason.toNat ∧ reason.toNat ≤ 9) →
        Completes (.loadFail i reason) s (failed reason.toNat)) ∧
      (¬ (1 ≤ reason.toNat ∧ reason.toNat ≤ 9) → Completes (.loadFail i reason) s (fun t => t = s))) ∧
    ∀ (n wfmt : Nat) (progs : List ProgArea),
      let passes := arrayFmt wfmt && imageOk s.dev i.val && versionOk s.dev x.tenant x.dest x.imageBytes progs
      ((x.chunks = 0 ∨ unverified x (x.chunks + 1) ≠ [] ∨ ¬ turn x.dest x.imageBytes) →
        Completes (.loadEnd i n ⟨wfmt, progs⟩) s (fun t => t = s)) ∧
      (x.chunks ≠ 0 → unverified x (x.chunks + 1) = [] → turn x.dest x.imageBytes →
        (passes = true → Completes (.loadEnd i n ⟨wfmt, progs⟩) s (fun t => t.pending = s.pending ∧
          wSlot t.dev i.val =
            { x with st := .verified, loadCmd := none, kvHeads := n, wfmt := wfmt, progs := progs } ∧
          (∀ j, j ≠ i.val → wSlot t.dev j = wSlot s.dev j) ∧ t.dev.mem.hbm = s.dev.mem.hbm ∧
          t.dev.mem.cm = s.dev.mem.cm ∧
          ∀ c, x.loadCmd = some c → tblGet 0 t.dev.mem.hive (slotAddr s.dev c.ring c.ctr.toNat + 0x2E) = 0)) ∧
        (passes = false → Completes (.loadEnd i n ⟨wfmt, progs⟩) s (failed 3)))

/-- A swap starts only in a drain phase whose start found R292's conditions true: speculations of the tenant's
sequences end, and under KV_DROP every OPEN sequence of another version has its whole length in its dropped range, and
where there is one the swap waits while a LAST_TICK of theirs lies beyond the tick or a request of it is open. Nothing
is copied while a flush engine waits for a controller or an entry has stopped the engine. Each layer step copies the
layer's hot block, where it has one, from the new image into the hive window, and counts the layer; after the last the
rotary table is copied, the slot is READY and the command's record says DONE. A revert's end brings back every hot
block of the current image, the highest layer first, and its rotary table, and leaves the slot IDLE with its reason. A
first copy takes the hot blocks and the rotary table of the current image, after the wipe; a copy after a damage takes
the damaged blocks whose tick is due, and no other, from the images that they were copied from. No other byte of
memory changes, and each of the three clears BARRIER where nothing else holds it. (R45, R283, R290, R291, R292, R293,
R297, R299, R300) -/
def Obligations.SwapsAndHotCopies : Prop :=
  ∀ (s : State) (tenant : TenantId), alive s.dev = true → inDrain s.dev = true →
    let T := tenant.toNat
    let good := s.dev.mem.badHbm = []
    let turn := flushWaits s.dev 0 0x2000 = false ∧ entryStopped s.dev = false
    let quiet := fun t : State => t.pending = s.pending ∧ t.dev.mem.cm = s.dev.mem.cm ∧ t.dev.mem.hbm = s.dev.mem.hbm
    let hv := hvBase s.dev T
    let rope := 4096 * regFld s.dev (R.TCX_ROPE_BASE T) 15 0
    let src := fun a : Nat => hbmByteKey s.dev (tenantKey s.dev T) a
    let inHot := fun (dest l b : Nat) => let e := layerEntry s.dev T dest l
      e.2.2.1 = true ∧ hv + e.2.2.2 ≤ b ∧ b < hv + e.2.2.2 + e.2.1
    let inRope := fun (dest b : Nat) => rope ≤ b ∧ b < rope + (ropeEntry s.dev T dest).2
    let hotByte := fun (dest l b : Nat) => let e := layerEntry s.dev T dest l
      src (dest + e.1 + (b - (hv + e.2.2.2)))
    let ropeByte := fun (dest b : Nat) => src (dest + (ropeEntry s.dev T dest).1 + (b - rope))
    let apart := fun (c : Option CmdRef) (b : Nat) => ∀ x, c = some x →
      b < slotAddr s.dev x.ring x.ctr.toNat ∨ slotAddr s.dev x.ring x.ctr.toNat + 64 ≤ b
    let done := fun (c : Option CmdRef) (t : State) => ∀ x, c = some x →
      tblGet 0 t.dev.mem.hive (slotAddr s.dev x.ring x.ctr.toNat + 0x2E) = 0
    let imageCopied := fun (dest : Nat) (after : Nat → Nat → Prop) (c : Option CmdRef) (t : State) =>
      ∀ b, apart c b → (inRope dest b → tblGet 0 t.dev.mem.hive b = ropeByte dest b) ∧
        (¬ inRope dest b →
          (∀ l, l < layersOf s.dev T → inHot dest l b →
            (∀ k, k < layersOf s.dev T → after l k → ¬ inHot dest k b) →
            tblGet 0 t.dev.mem.hive b = hotByte dest l b) ∧
          ((∀ l, l < layersOf s.dev T → ¬ inHot dest l b) →
            tblGet 0 t.dev.mem.hive b = tblGet 0 s.dev.mem.hive b))
    let holds := fun j => (wSlot s.dev j).tenant = T ∧ ((wSlot s.dev j).st = .swapping ∨ (wSlot s.dev j).st = .ready ∨
      (wSlot s.dev j).st = .reverting)
    let barrier := fun (free : Prop) (t : State) => tcxState t.dev T = tcxState s.dev T ∧
      (free → tcxBarrier t.dev T = false) ∧ (¬ free → tcxBarrier t.dev T = tcxBarrier s.dev T)
    (∀ i, slotIn s.dev T .swapping = some i →
      let x := wSlot s.dev i
      let mayDrop := x.kvDrop = false ∨ dropsAllowed s.dev (kvDropped s.dev T x.version) = true
      ((x.clear = false ∨ ¬ mayDrop) → Completes (.swapStart tenant) s (fun t => t = s)) ∧
      (x.clear = true → x.started = false → mayDrop → Completes (.swapStart tenant) s (fun t => quiet t ∧
        (wSlot t.dev i).started = true ∧
        (∀ q, (seqDesc s.dev q).tenant = T → tblFind s.dev.cache.seqs q ≠ none →
          tblFind t.dev.ent.spec q = none ∧ (seqDesc t.dev q).spec = none) ∧
        (x.kvDrop = false → t.dev.ent.seqTab = s.dev.ent.seqTab) ∧
        (x.kvDrop = true → ∀ q, (seqDesc s.dev q).tenant = T → (seqEntry s.dev q).isOpen = true →
          0 < (seqDesc s.dev q).length → (seqDesc s.dev q).pinVersion ≠ x.version →
          livePrefix s.dev q % prefixTokens s.dev T = 0 →
          (seqEntry t.dev q).dropLo ≤ (seqDesc s.dev q).posLo ∧
          (seqDesc s.dev q).posLo + (seqDesc s.dev q).length ≤ (seqEntry t.dev q).dropHi))) ∧
      (x.started = true → dropsDone s.dev T = true → x.layer < layersOf s.dev T → good → turn →
        Completes (.swapLayer tenant) s (fun t => quiet t ∧ RegsExcept [] s t ∧
          wSlot t.dev i = { x with layer := x.layer + 1 } ∧
          ∀ b, (inHot x.dest x.layer b → tblGet 0 t.dev.mem.hive b = hotByte x.dest x.layer b) ∧
            (¬ inHot x.dest x.layer b → tblGet 0 t.dev.mem.hive b = tblGet 0 s.dev.mem.hive b))) ∧
      (x.started = true → x.layer = layersOf s.dev T → good → turn →
        (∀ c, x.swapCmd = some c → c.ring < 4096) →
        Completes (.swapEnd tenant) s (fun t => quiet t ∧
          wSlot t.dev i = { x with st := .ready, rope := true, swapCmd := none } ∧ done x.swapCmd t ∧
          ∀ b, apart x.swapCmd b →
            (inRope x.dest b → tblGet 0 t.dev.mem.hive b = ropeByte x.dest b) ∧
            (¬ inRope x.dest b → tblGet 0 t.dev.mem.hive b = tblGet 0 s.dev.mem.hive b)))) ∧
    (∀ i, slotIn s.dev T .reverting = some i → good → turn →
      let x := wSlot s.dev i
      (∀ c, x.abortCmd = some c → c.ring < 4096) →
      Completes (.revertEnd tenant) s (fun t => quiet t ∧ (wSlot t.dev i).st = .idle ∧
        (wSlot t.dev i).reason = x.reason ∧ getReg t.dev (R.TCX_VERSION_NEXT T) = 0 ∧ done x.abortCmd t ∧
        imageCopied (weightBase s.dev T) (fun l k => k < l) x.abortCmd t ∧
        barrier (quarantined s.dev T = false ∧ (∀ j, j < 8 → j ≠ i → ¬ holds j) ∧ T ∉ s.dev.wgt.copies ∧
          ∀ e ∈ s.dev.wgt.recopies, e.1 ≠ T) t)) ∧
    (¬ turn → ∀ cmd ∈ [Instr.swapLayer tenant, .swapEnd tenant, .revertEnd tenant, .hotCopyEnd tenant, .hotBlockRecopy tenant],
      Completes cmd s (fun t => t = s)) ∧
    ((T ∉ s.dev.wgt.copies ∨ windowWiping s.dev T = true) → Completes (.hotCopyEnd tenant) s (fun t => t = s)) ∧
    (T ∈ s.dev.wgt.copies → windowWiping s.dev T = false → good → turn → Completes (.hotCopyEnd tenant) s (fun t => quiet t ∧
      T ∉ t.dev.wgt.copies ∧ RegsExcept [R.TCX_STATE T] s t ∧
      imageCopied (weightBase s.dev T) (fun l k => l < k) none t ∧
      barrier (quarantined s.dev T = false ∧ (∀ j, j < 8 → ¬ holds j) ∧ ∀ e ∈ s.dev.wgt.recopies, e.1 ≠ T) t)) ∧
    (let due := recopiesDue s.dev T
      let inBlock := fun (e : Nat × Option Nat × Nat) (b : Nat) => match e.2.1 with
        | some l => inHot (layerImage s.dev T l) l b
        | none => inRope (ropeImage s.dev T) b
      let blockByte := fun (e : Nat × Option Nat × Nat) (b : Nat) => match e.2.1 with
        | some l => hotByte (layerImage s.dev T l) l b
        | none => ropeByte (ropeImage s.dev T) b
      (due = [] → Completes (.hotBlockRecopy tenant) s (fun t => t = s)) ∧
      (due ≠ [] → good → turn → Completes (.hotBlockRecopy tenant) s (fun t => quiet t ∧
        t.dev.wgt.recopies = s.dev.wgt.recopies.filter (fun e => decide (e ∉ due)) ∧ RegsExcept [R.TCX_STATE T] s t ∧
        (∀ b, ((∀ e ∈ due, ¬ inBlock e b) → tblGet 0 t.dev.mem.hive b = tblGet 0 s.dev.mem.hive b) ∧
          ∀ e ∈ due, inBlock e b → (∀ k ∈ due, k ≠ e → ¬ inBlock k b) → tblGet 0 t.dev.mem.hive b = blockByte e b) ∧
        barrier (quarantined s.dev T = false ∧ (∀ j, j < 8 → ¬ holds j) ∧ T ∉ s.dev.wgt.copies ∧
          ∀ e ∈ s.dev.wgt.recopies, e.1 = T → e ∈ due) t)))

/-- On a cell with a running token a word that is not the one it comes to in its program leaves the state as it was,
and a program word that is damaged in HBM stops the token as a damaged weight does. NOP takes the cell to its next
instruction and changes nothing else. HINT does too, and its entry joins the power controller's queue of 64, or counts
in PWR_HINT_DROP_CNT where that is full. BAR makes the next product wait for the cell's wave slot, but not on an
express lane, and no later LDS waits for a product before it. LOOP starts a loop over the next instructions, COUNT
times. END waits for the queues of the vector engine and of the mover, holding the cell's issue; then the cell is
cleared, its token's work ends with its cycles taken, its SATURATED flag joins the request's, the rows of a chain that
reach NORMALISE fully masked or INVALID are counted, for both paths (logs 57 and 98), and a cell that is no express
cell leaves all memory as it was. A reserved opcode at the word that the cell comes to, or a GANG that differs from
the tile's, stops the token: its request fails with ECC_FAIL and its results are suppressed; any other word leaves the
state as it was. (R86, R87, R94, R100, R112, R113, R114, R115, R184, R299, R396, Table 13-10) -/
def Obligations.ProgramOrderInstructions : Prop :=
  ∀ (s : State) (c : CellId) (k : Token) (r : Req) (w : IWord), RunsOn s c k r →
    let x := cellOf s.dev c
    (fetchOk x w = false → ∀ (ws : List (BitVec 128)) (p : Option Nat), ∀ i ∈ ([.reservedOpcode c w, .nop c w, .hint c w, .bar c w, .loopInstr c w, .endTok c w, .lds c w, .mmr c w p,
        .mmc c w p, .dist c w p, .cmpx c w p, .nectLoad c w, .nectDot c w, .nectAcc c w, .nectRead c w,
        .accrd c w, .accwr c w, .topk c w, .vop c w, .lookup c w, .epoch c w, .vprog c w ws, .vbcast c w, .vmask c w,
        .vcvt c w, .vred c w, .rowstat c w, .rmsstat c w, .sfu c w, .mov c w, .ldt c w, .stt c w, .appendStage c w,
        .appendPage c w, .pgwalk c w, .fatt c w, .score c w, .corr c w, .scoutGather c w, .scoutList c w] : List Instr),
      (badFetch x = none → Completes i s (fun t => t = s)) ∧
      ∀ a, badFetch x = some a → Completes i s (fun t => t.pending = s.pending ∧ t.dev = applyTrip c k r (.weight a) s.dev)) ∧
    (fetchOk x w = true →
      (nopOk w = true → Completes (.nop c w) s (fun t => CellOnly c [] s t ∧ cellOf t.dev c = nextInstr 1 x)) ∧
      (hintOk w = true → Completes (.hint c w) s (fun t => CellOnly c [R.PWR_HINT_DROP_CNT] s t ∧
        cellOf t.dev c = nextInstr 1 x ∧
        t.dev.power.hints = (if s.dev.power.hints.length < 64 then s.dev.power.hints ++ [hintEntry c w]
          else s.dev.power.hints) ∧
        getReg t.dev R.PWR_HINT_DROP_CNT = counted (getReg s.dev R.PWR_HINT_DROP_CNT)
          (if s.dev.power.hints.length < 64 then 0 else 1))) ∧
      (barOk w = true → Completes (.bar c w) s (fun t => CellOnly c [] s t ∧ cellOf t.dev c = nextInstr 1 { x with
          arrays := x.arrays.map (fun e => (e.1, { e.2 with ran := false })) } ∧
        ∀ e, e ∈ t.dev.tick.waves ↔ e ∈ s.dev.tick.waves ∨ (e = c ∧ ¬(expressEn s.dev = true ∧ c.val < 4)))) ∧
      (loopOk w = true → Completes (.loopInstr c w) s (fun t => CellOnly c [] s t ∧
        cellOf t.dev c = { x with
          pc := x.pc + 1, held := none
          loops := { start := x.pc + 1, len := instrSpan x.prog (x.pc + 1) (fld w 71 64), left := iCount w } :: x.loops })) ∧
      (endOk w = true → (x.vq ≠ [] ∨ x.mq ≠ []) → Holds (.endTok c w) c k r w [] s) ∧
      (endOk w = true → x.vq = [] → x.mq = [] →
        let rows := if normalises s.dev r c then (sendOrder s.dev r).map (fun e => (attention s.dev r c e.1 e.2).sm) else []
        let empties := (rows.filter (fun y => y.empty && !y.invalid)).length
        Completes (.endTok c w) s (fun t => t.pending = s.pending ∧ cellOf t.dev c = {} ∧
          (∀ e, e ≠ c → cellOf t.dev e = cellOf s.dev e) ∧ t.dev.guard = s.dev.guard ∧
          t.dev.mem.hive = s.dev.mem.hive ∧ t.dev.mem.hbm = s.dev.mem.hbm ∧
          (r.express = none → (∀ q ∈ s.dev.ent.reqs, q.uid = r.uid → q.express = none) → SameMemory s t) ∧
          RegsExcept [R.CEL_EMPTY_ROW_CNT c.val, R.CEL_ROW_INVALID_CNT c.val] s t ∧
          getReg t.dev (R.CEL_EMPTY_ROW_CNT c.val) = counted (getReg s.dev (R.CEL_EMPTY_ROW_CNT c.val)) empties ∧
          getReg t.dev (R.CEL_ROW_INVALID_CNT c.val) =
            counted (getReg s.dev (R.CEL_ROW_INVALID_CNT c.val)) ((rows.filter (·.invalid)).length) ∧
          (∀ q ∈ t.dev.ent.reqs, q.uid = k.uid → (0 < empties → q.emptyRow = true) ∧
            (x.saturated = true → q.saturated = true)) ∧
          ((∀ j ∈ s.dev.ent.tokens, j.uid = k.uid → j.cell = c → j = k) →
            ∀ j ∈ t.dev.ent.tokens, j.uid = k.uid → j.cell = c → j.st = .finished ∧ j.cycles = tokenCycles s.dev k)))) ∧
    (fetchOk x w = true → (opcodeKnown (iOpc w) = false ∨ gangMismatch x w = true) →
      Completes (.reservedOpcode c w) s (fun t => t.pending = s.pending ∧ cellOf t.dev c = {} ∧
        (∀ q ∈ t.dev.ent.reqs, q.uid = k.uid → q.eccFail = true ∧ q.suppressed = true) ∧
        t.dev.mem.hive = s.dev.mem.hive ∧ t.dev.mem.hbm = s.dev.mem.hbm)) ∧
    (fetchOk x w = true → opcodeKnown (iOpc w) = true → gangMismatch x w = false →
      Completes (.reservedOpcode c w) s (fun t => t = s))

/-- Of the word that the cell comes to: LDS, once every earlier transfer into the chunks that it reads is done, gives
each array that it names its columns of the tile, and no other; it can have waited only where a product has run
against an old tile. A product takes each moving vector of each stream through its tile: OUT 0 writes the results into
their accumulator words, OUT 1 adds them there, OUT 2 appends them to the stream's tile-queue input, which can have
been full where it has been sent more than 1,024 words; no other accumulator word or input changes. Without COMP in a
floating domain, by rows, of one array, the result of vector i and row n is the reduction of the terms of vector i
with row n. LDS, a product or a NECT LOAD whose sources are still to be written holds the cell's issue, and so does a
product under a halt. A parity failure, its broadcast made in the wave slot, or a GANG that is not the tile's, stops
the token with ECC_FAIL. NECT LOAD fills rows of its bank. DOT and ACC take their tokens from the stream, or hold
every later instruction while it has too few; DOT sends its scores to tile-queue input 5, ACC adds its tile sums, with
the error terms in a table of their own (log 93), and READ sends the accumulators, which keep, rows and elements
ascending (log 92). The places of a stream's words are those of log 80. The vector engine then goes on. (R94, R95,
R98, R100, R101, R107, R108, R110, R111, R115, R127, Table 04-6) -/
def Obligations.ArraysAndNectar : Prop :=
  ∀ (s : State) (c : CellId) (k : Token) (r : Req) (w : IWord), RunsWord s c k r w →
    let x := cellOf s.dev c
    let ran := fun (offs : List Nat) (t : State) => CellOnly c offs s t ∧ NextInstr 1 c s t ∧
      (cellOf t.dev c).regs = x.regs ∧ (cellOf t.dev c).masks = x.masks ∧ (cellOf t.dev c).sta = x.sta ∧
      (cellOf t.dev c).mov = x.mov ∧ (cellOf t.dev c).rows = x.rows ∧ (cellOf t.dev c).vq = x.vq ∧
      (cellOf t.dev c).mq = x.mq
    let used := (List.range 4).any (fun a => (fld w 67 64).testBit a && (tblGet {} x.arrays a).ran)
    (ldsOk w = true → sourcesReady c r [] (ldsLocs w) s.dev = false → Holds (.lds c w) c k r w [] s) ∧
    (ldsOk w = true → sourcesReady c r [] (ldsLocs w) s.dev = true → Completes (.lds c w) s (fun t => ran (if used then [R.CEL_LDS_WAIT_CNT c.val] else []) t ∧
      (cellOf t.dev c).acc = x.acc ∧
      (∀ a, (4 ≤ a ∨ (fld w 67 64).testBit a = false) →
        tblGet {} (cellOf t.dev c).arrays a = tblGet {} x.arrays a) ∧
      ∀ a, a < 4 → (fld w 67 64).testBit a = true →
        let y := tblGet {} (cellOf t.dev c).arrays a
        y.fmt = iFmtIn w ∧ y.gang = fld w 69 68 ∧ y.ran = false ∧ ∀ n e, n < 16 → e < 64 → tblGet 0 y.tile (64 * n + e) =
          bufElem x.sta (64 * fld w 89 80 + n * tileRowBytes (iFmtIn w) (fld w 69 68)) (fmtBits (iFmtIn w))
            (64 * (a % gangWidth (fld w 69 68)) + e))) ∧
    (∀ (opc : Nat) (parity : Option Nat), opc ∈ [0x11, 0x12, 0x14, 0x15] →
      let cmd : Instr := if opc = 0x11 then .mmr c w parity else if opc = 0x12 then .mmc c w parity
        else if opc = 0x14 then .dist c w parity else .cmpx c w parity
      let stopped := fun t : State => t.pending = s.pending ∧ cellOf t.dev c = {} ∧
        ∀ q ∈ t.dev.ent.reqs, q.uid = k.uid → q.eccFail = true ∧ q.suppressed = true
      let regs := [R.CEL_NAN_CNT c.val, R.CEL_SAT_CNT c.val, R.CEL_ZGATE_LO c.val, R.CEL_ZGATE_HI c.val,
        R.CEL_MAC_CYC_LO c.val, R.CEL_MAC_CYC_HI c.val, R.CEL_COMP_CNT_LO c.val, R.CEL_COMP_CNT_HI c.val] ++
        (if c ∈ s.dev.tick.waves then [R.CEL_WAVE_WAIT_CNT c.val] else []) ++
        (if fld w 73 72 = 2 ∧ ∃ b ∈ prodBases w, 1024 < tblGet 0 x.tqSeen (b + 1) + streamWords w then
          [R.CEL_TQ_HOLD_CNT c.val] else [])
      let ready := sourcesReady c r (prodReads w) (prodLocs w) s.dev
      let ok := prodOk w opc (ax4Mode s.dev (dTenant r.desc)) c s.dev
      prodWord w opc = true →
      ((gangBad x w = true ∨ ok = true) → (ready = false ∨ s.dev.power.halted = true) → Holds cmd c k r w [] s) ∧
      (s.dev.power.halted = false → ready = true →
        (gangBad x w = true → Completes cmd s stopped) ∧
        (gangBad x w = false → ok = true → ∀ n, parity = some n → n < 16 → Completes cmd s (fun t => stopped t ∧
          c ∉ t.dev.tick.waves ∧
          getReg t.dev (R.CEL_ARR_PAR_CNT c.val) = counted (getReg s.dev (R.CEL_ARR_PAR_CNT c.val)) 1)) ∧
        (gangBad x w = false → ok = true → (∀ n, parity = some n → 16 ≤ n) → CompletesQueued cmd c k r s (fun t =>
          let y := cellOf t.dev c
          let m := (prodBases w).length
          let res := fun i j : Nat => (vectorResults x w ((prodBases w).getD j 0)
            (movVal x w (movLen w) (i * m + j)) (movOff x w (movLen w) (i * m + j))).1
          let err := fun j : Nat =>
            1024 * (slotEntries (prodRow w) (fld w 69 68) (modeWidth x w ((prodBases w).getD j 0)) (iComp w) / 2)
          let key := fun i j n : Nat =>
            let mw := modeWidth x w ((prodBases w).getD j 0)
            1024 * (iDst w * slotEntries (prodRow w) (fld w 69 68) mw (iComp w) +
              j * valueEntries (prodRow w) (fld w 69 68) mw / shapeStreams (fld w 69 68)) + (res i j).length * i + n
          ran regs t ∧ y.nect = x.nect ∧ c ∉ t.dev.tick.waves ∧
          (∀ a, a < 4 → tblGet {} y.arrays a =
            { tblGet {} x.arrays a with ran := (tblGet {} x.arrays a).ran || (fld w 67 64).testBit a }) ∧
          (fld w 73 72 = 2 → y.acc = x.acc ∧
            (∀ q, (∀ b ∈ prodBases w, q ≠ b + 1) → tqWords y q = tqWords x q) ∧
            (∀ b ∈ prodBases w, tblGet 0 y.tqSeen (b + 1) = tblGet 0 x.tqSeen (b + 1) + streamWords w) ∧
            ∀ j b, (prodBases w)[j]? = some b → tqWords y (b + 1) = tqWords x (b + 1) ++
              (List.range (iCount w)).flatMap (fun i => (res i j).map (·.getD 0))) ∧
          (fld w 73 72 ≠ 2 → y.tq = x.tq ∧
            (∀ q, (∀ i j n v, i < iCount w → j < m → (res i j)[n]? = some (some v) →
              q ≠ key i j n ∧ (iComp w = true → q ≠ key i j n + err j)) → tblFind y.acc q = tblFind x.acc q) ∧
            ∀ i j n v, i < iCount w → j < m → (res i j)[n]? = some (some v) →
              let b := (prodBases w).getD j 0
              let q := key i j n
              (fld w 73 72 = 0 → tblFind y.acc q = some v ∧ (iComp w = true → tblFind y.acc (q + err j) = some 0)) ∧
              (fld w 73 72 = 1 → iComp w = true →
                tblFind y.acc q = some (compAdd (accWord x q) (accWord x (q + err j)) v).1 ∧
                tblFind y.acc (q + err j) = some (compAdd (accWord x q) (accWord x (q + err j)) v).2) ∧
              (fld w 73 72 = 1 → iComp w = false → tblFind y.acc q = some (if prodIntOut x w b then
                (satAdd32 (accWord x q) v).1 else fAdd (accWord x q) v))) ∧
          ∀ b i n, fld w 69 68 = 0 → fld w 67 64 = 2 ^ b → b < 4 → prodRow w = true → iComp w = false →
            prodInt x w b = false → (prodSta x b).sigma = none → fld w 73 72 = 0 → i < iCount w → n < 16 →
            (∀ e, e < 64 → movOff x w 64 i e = false) →
            let a := tblGet {} x.arrays b
            rowOn w a n = true →
            tblFind y.acc (1024 * (iDst w * slotEntries true 0 (modeWidth x w b) false) + 16 * i + n) =
              some (reduceTerms (prodKind w) false none ((List.range (min 64 (fld w 120 112))).map (fun e =>
                elemOp (prodKind w) (movVal x w 64 i e) (tileVal a n e)))))))) ∧
    (nectLoadOk w = true → sourcesReady c r ((List.range (nRows w)).map (iSrcA w + ·)) [] s.dev = false →
      Holds (.nectLoad c w) c k r w [] s) ∧
    (nectLoadOk w = true → sourcesReady c r ((List.range (nRows w)).map (iSrcA w + ·)) [] s.dev = true →
      Completes (.nectLoad c w) s (fun t => ran [] t ∧ (cellOf t.dev c).acc = x.acc ∧
      (cellOf t.dev c).nect.acc = x.nect.acc ∧
      (if bit w 66 then (cellOf t.dev c).nect.bank0 = x.nect.bank0 else (cellOf t.dev c).nect.bank1 = x.nect.bank1) ∧
      (nBank (cellOf t.dev c).nect w).fmt = iFmtIn w ∧
      ∀ i e, i < nRows w → e < iCount w → tblGet 0 (nBank (cellOf t.dev c).nect w).elems (256 * i + e) =
        (lane x (iSrcA w + i) e).toNat % 2 ^ fmtBits (iFmtIn w))) ∧
    (nectDotOk w = true →
      (takeTokens w (iCount w) x.nect = none → Holds (.nectDot c w) c k r w [R.CEL_NECT_STALL_CNT c.val] s) ∧
      ∀ ts n, takeTokens w (iCount w) x.nect = some (ts, n) → CompletesQueued (.nectDot c w) c k r s (fun t =>
        ran [R.CEL_NECT_STALL_CNT c.val, R.CEL_NECT_CYC_LO c.val, R.CEL_NECT_CYC_HI c.val, R.CEL_NAN_CNT c.val,
          R.CEL_SAT_CNT c.val] t ∧ (cellOf t.dev c).nect = n ∧
        tqWords (cellOf t.dev c) 5 = tqWords x 5 ++ ts.flatMap (fun q =>
          (List.range (nRows w)).map (fun i => (dotScore (nBank x.nect w) w q i).1)))) ∧
    (nectAccOk w = true → (iComp w = true → ax4Mode s.dev (dTenant r.desc) = false ∧
        ¬(fmtIsInt (nBank x.nect w).fmt = true ∧ fmtIsInt (iFmtIn w) = true)) →
      (takeTokens w (iCount w) x.nect = none → Holds (.nectAcc c w) c k r w [R.CEL_NECT_STALL_CNT c.val] s) ∧
      ∀ ts n, takeTokens w (iCount w) x.nect = some (ts, n) → CompletesQueued (.nectAcc c w) c k r s (fun t =>
        let y := (cellOf t.dev c).nect
        let b := nBank x.nect w
        let int := nectInt b w ((ts.head?.map (·.sigma)).getD none)
        ran [R.CEL_NECT_STALL_CNT c.val, R.CEL_NECT_CYC_LO c.val, R.CEL_NECT_CYC_HI c.val, R.CEL_NAN_CNT c.val,
          R.CEL_SAT_CNT c.val, R.CEL_COMP_CNT_LO c.val, R.CEL_COMP_CNT_HI c.val] t ∧
        y.fifo = n.fifo ∧ y.comp = iComp w ∧ (cellOf t.dev c).acc = x.acc ∧ (cellOf t.dev c).tq = x.tq ∧
        ∀ i e, i < nRows w → e < nDim w →
          let z := (runsOf 16 ts.length (ts.mapIdx (fun a q => (a, q)))).foldl (fun z q =>
            accAdd (iComp w) int z (tileSum b w q i e))
            (if bit w 71 then 0 else tblGet 0 x.nect.acc (256 * i + e),
              if bit w 71 then 0 else tblGet 0 x.nect.err (256 * i + e), 0, 0)
          tblGet 0 y.acc (256 * i + e) = z.1 ∧ tblGet 0 y.err (256 * i + e) = z.2.1)) ∧
    (nectReadOk w = true → CompletesQueued (.nectRead c w) c k r s (fun t => ran [] t ∧
      (cellOf t.dev c).nect = x.nect ∧ tqWords (cellOf t.dev c) 5 = tqWords x 5 ++ (List.range (nRows w)).flatMap (fun i =>
        (List.range (nDim w)).map (fun e => if x.nect.comp then
          fAdd (tblGet 0 x.nect.acc (256 * i + e)) (tblGet 0 x.nect.err (256 * i + e))
          else tblGet 0 x.nect.acc (256 * i + e)))))

/-- Of the word that the cell comes to: ACCRD casts the words of its slot to registers or to tile-queue input 6, and
with CLEAR makes them and their error terms invalid; else accumulator memory stays. ACCWR, once its registers are
written, until when it holds the cell's issue, makes its words valid with their values, a NaN under FP32 as the
canonical one, and no other word changes. TOPK issues into the vector engine's queue, unless it merges with a list of
another k, ORDER or format; run at once, it ranks its candidates with the running list, keeps the first k with fills
in the places left (log 94), and writes values and positions to two registers, with fills behind. The explicit index
forms read, write and clear the words they name, on a cell where no token runs; the valid bits of a RAW read follow
from the next register on (log 51). No register of the window but their counters changes, and no byte of memory.
(R117, R118, R126, R128, R129, R131, R132, R133, R146, Table 05-5, Table 05-6, Table 05-7) -/
def Obligations.AccumulatorInstructions : Prop :=
  (∀ (s : State) (c : CellId) (k : Token) (r : Req) (w : IWord), RunsWord s c k r w →
    let x := cellOf s.dev c
    let n := iCount w
    let ran := fun (offs : List Nat) (t : State) => CellOnly c offs s t ∧ NextInstr 1 c s t ∧
      (cellOf t.dev c).vq = x.vq ∧ (cellOf t.dev c).mq = x.mq ∧ (cellOf t.dev c).arrays = x.arrays ∧
      (cellOf t.dev c).nect = x.nect ∧ (cellOf t.dev c).masks = x.masks
    (accrdOk w (ax4Mode s.dev (dTenant r.desc)) = true →
      let a := accKey w (iSrcA w)
      let err := 1024 * (accEntries w / 2)
      CompletesQueued (.accrd c w) c k r s (fun t => ran [R.CEL_SAT_CNT c.val] t ∧
        (bit w 67 = false → (cellOf t.dev c).tq = x.tq ∧
          (∀ e, e < n → lane (cellOf t.dev c) (iDst w) e = (accCast w r x a e).1) ∧
          ∀ j, j < 256 * iDst w ∨ 256 * iDst w + n ≤ j → tblGet 0 (cellOf t.dev c).regs j = tblGet 0 x.regs j) ∧
        (bit w 67 = true → (cellOf t.dev c).regs = x.regs ∧
          tqWords (cellOf t.dev c) 6 = tqWords x 6 ++ (List.range n).map (fun e => (accCast w r x a e).1)) ∧
        (bit w 68 = false → (cellOf t.dev c).acc = x.acc) ∧
        (bit w 68 = true → ∀ j, tblFind (cellOf t.dev c).acc j =
          if (a ≤ j ∧ j < a + n) ∨ (iComp w = true ∧ a + err ≤ j ∧ j < a + err + n) then none else tblFind x.acc j))) ∧
    (accwrOk w = true →
      let a := accKey w (iDst w)
      (sourcesReady c r (regRange (iSrcA w) n) [] s.dev = false → Holds (.accwr c w) c k r w [] s) ∧
      (sourcesReady c r (regRange (iSrcA w) n) [] s.dev = true →
        Completes (.accwr c w) s (fun t => ran [] t ∧ (cellOf t.dev c).regs = x.regs ∧
          (∀ e, e < n → tblFind (cellOf t.dev c).acc (a + e) =
            some (if iFmtIn w = 0 then canonNan (lane x (iSrcA w) e) else lane x (iSrcA w) e)) ∧
          ∀ j, j < a ∨ a + n ≤ j → tblFind (cellOf t.dev c).acc j = tblFind x.acc j))) ∧
    (topkOk w = true →
      (x.vq = [] → topkFits w x = false → Completes (.topk c w) s (fun t => t = s)) ∧
      (x.vq ≠ [] ∨ topkFits w x = true → Issues (.topk c w) c k r w [] s) ∧
      (x.vq = [] → x.mq = [] → entryReady x w = true → Completes (.topk c w) s (fun t =>
        ran [R.CEL_TOPK_CNT c.val, R.CEL_VE_QFULL_CNT c.val, R.CEL_VE_TQWAIT_CNT c.val] t ∧
        (cellOf t.dev c).acc = x.acc ∧ (cellOf t.dev c).topk = topRank w x ++
          List.replicate (fld w 69 64 + 1 - (topRank w x).length) (topFill (decide (iFmtIn w = 9))) ∧
        (cellOf t.dev c).topkKey = some (topKey w) ∧ (cellOf t.dev c).topk.length = fld w 69 64 + 1 ∧
        (∀ i, i < 256 → lane (cellOf t.dev c) (iDst w) i = ((topRank w x).getD i (topFill (decide (iFmtIn w = 9)))).1 ∧
          lane (cellOf t.dev c) (iDst w + 1) i = ((topRank w x).getD i (topFill (decide (iFmtIn w = 9)))).2) ∧
        getReg t.dev (R.CEL_TOPK_CNT c.val) = counted (getReg s.dev (R.CEL_TOPK_CNT c.val)) 1)))) ∧
  ∀ (s : State) (c : CellId) (w : IWord), alive s.dev = true → cellClocked s.dev c = true → cellToken s.dev c = none →
    let x := cellOf s.dev c
    let n := iCount w
    (accxReadOk w = true → Completes (.accxRead c w) s (fun t => CellOnly c [] s t ∧ (cellOf t.dev c).acc = x.acc ∧
      (∀ e v, e < n → tblFind x.acc (accxKey w + e) = some v → lane (cellOf t.dev c) (iDst w) e = v) ∧
      (bit w 81 = false → ∀ e, e < n → tblFind x.acc (accxKey w + e) = none → lane (cellOf t.dev c) (iDst w) e = 0) ∧
      (bit w 81 = true → ∀ e, e < n → lane (cellOf t.dev c) (iDst w + ceilDiv n 256) e =
        if (tblFind x.acc (accxKey w + e)).isSome then 1 else 0))) ∧
    (accxWriteOk w = true → Completes (.accxWrite c w) s (fun t => CellOnly c [] s t ∧ (cellOf t.dev c).regs = x.regs ∧
      (∀ e, e < n → tblFind (cellOf t.dev c).acc (accxKey w + e) = some (lane x (iSrcA w) e)) ∧
      ∀ j, j < accxKey w ∨ accxKey w + n ≤ j → tblFind (cellOf t.dev c).acc j = tblFind x.acc j)) ∧
    (accxClearOk w = true → Completes (.accxClear c w) s (fun t => CellOnly c [] s t ∧
      (cellOf t.dev c).regs = x.regs ∧ (∀ e, e < n → tblFind (cellOf t.dev c).acc (accxKey w + e) = none) ∧
      ∀ j, j < accxKey w ∨ accxKey w + n ≤ j → tblFind (cellOf t.dev c).acc j = tblFind x.acc j))

/-- Each issues to the end of the vector engine's queue, or holds the cell while that has 8 entries; an RMSSTAT
segment whose row count differs from its START's does not issue. At the head of the queue, with no earlier transfer of
the mover waiting, it waits for the words it takes from a tile-queue input; once they have arrived, it removes them
and writes its results: element by element a function of its operands where the mask enables it, the old value or +0
where it does not; a reduction or the statistics row by row; a mask's bits; the scales of an MX cast after its
elements. A missing table entry gives a NaN and is counted, and EPOCH exchanges the table banks. Registers outside the
results, accumulators, tiles, the row store and the operand buffers stay, and of the window only the cell's counters
change. (R144, R146, R148, R150, R151, R152, R153, R154, R155, R159, R161, R163) -/
def Obligations.VectorInstructions : Prop :=
  ∀ (s : State) (c : CellId) (k : Token) (r : Req) (w : IWord), RunsWord s c k r w →
    let x := cellOf s.dev c
    let n := iCount w
    let regs := [R.CEL_VE_TQWAIT_CNT c.val, R.CEL_VE_QFULL_CNT c.val, R.CEL_VE_CYC_LO c.val, R.CEL_VE_CYC_HI c.val,
      R.CEL_SFU_CYC_LO c.val, R.CEL_SFU_CYC_HI c.val, R.CEL_SAT_CNT c.val, R.CEL_LUT_MISS_CNT c.val]
    let a := fun e : Nat => (vecA x w).getD e 0
    let put := fun (y : CellSt) (f : Nat → W32) => ∀ e, e < n → lane y (iDst w) e =
      if maskOn x (iMask w) e then f e else if vMzero w then 0 else lane x (iDst w) e
    let runs := fun (i : Instr) (ok : Bool) (ws : List (BitVec 128)) (len : Nat) (post : CellSt → Prop) =>
      ok = true → inlineOk x ws = true →
      (x.vq = [] → entryFits w x = false → Completes i s (fun t => t = s)) ∧
      (x.vq ≠ [] ∨ entryFits w x = true → Issues i c k r w ws s) ∧
      (x.vq = [] → x.mq = [] → entryFits w x = true → tqReady x (vTq w) n = false → Completes i s (fun t =>
        CellOnly c [R.CEL_VE_QFULL_CNT c.val] s t ∧
        cellOf t.dev c = nextInstr (1 + ws.length) { x with vq := [{ word := w, inline := ws }] })) ∧
      (x.vq = [] → x.mq = [] → entryFits w x = true → tqReady x (vTq w) n = true → Completes i s (fun t => CellOnly c regs s t ∧
        NextInstr (1 + ws.length) c s t ∧ post (cellOf t.dev c) ∧
        (let y := cellOf t.dev c
         y.vq = [] ∧ y.mq = [] ∧ y.acc = x.acc ∧ y.arrays = x.arrays ∧ y.nect = x.nect ∧ y.rows = x.rows ∧
           y.sta = x.sta ∧ y.mov = x.mov ∧
           (∀ j, j < 256 * iDst w ∨ 256 * iDst w + len ≤ j → tblGet 0 y.regs j = tblGet 0 x.regs j) ∧
           ∀ q, 1 ≤ q → tqWords y q = if q = vTq w then (tqWords x q).drop n else tqWords x q)))
    runs (.vop c w) (vopOk w) [] n (fun y => y.masks = x.masks ∧ put y (fun e =>
      (vfn (vFn w) (vRnd w) (vRowLen w) e (vImm w) (if vfnA (vFn w) then a e else 0) (vecB x w e)
        (lane x (vSrcC w) e)).1)) ∧
    runs (.lookup c w) (lookupOk w) [] n (fun y =>
      y.masks = x.masks ∧ put y (fun e => (lutEntry x (a e)).getD f32Nan)) ∧
    runs (.epoch c w) (epochOk w) [] 0 (fun y => y.masks = x.masks ∧ y.lutBank = !x.lutBank) ∧
    (∀ ws, runs (.vprog c w ws) (vprogOk w ws) ws n (fun y => y.masks = x.masks ∧ put y (fun e =>
      (progRun w e (a e) (vecB x w e) (lane x (vSrcC w) e) (progOps w ws) [] (0, 0)).1))) ∧
    runs (.vbcast c w) (vbcastOk w) [] n (fun y => y.masks = x.masks ∧ put y (fun e =>
      (vfn (vFn w) (vRnd w) (vRowLen w) e (vImm w) (if vfnA (vFn w) then a e else 0) (bcastB x w e) (bcastC x w e)).1)) ∧
    runs (.vmask c w) (vmaskOk w) [] 0 (fun y => (∀ m, m ≠ iDst w → tblGet 0 y.masks m = tblGet 0 x.masks m) ∧
      ∀ e, (tblGet 0 y.masks (iDst w)).testBit e =
        (decide (e < n) && vmaskBit x w (if mOp w = 0 then vecA x w else []) e)) ∧
    runs (.vcvt c w) (vcvtOk w) [] (if fmtIsMx (iFmtOut w) then 256 * groups256 n + n / 32 else n) (fun y =>
      y.masks = x.masks ∧
      (fmtIsMx (iFmtOut w) = false → put y (fun e =>
        BitVec.ofNat 32 (castTo (iFmtOut w) (cvtRnd w r e) (cvtVal w (vecA x w) e (a e))).1)) ∧
      (fmtIsMx (iFmtOut w) = true →
        let q := fun b : Nat => quantBlock (iFmtOut w) (fun i => cvtRnd w r (32 * b + i)) ((List.range 32).map (fun i =>
          if maskOn x (iMask w) (32 * b + i) then cvtVal w (vecA x w) (32 * b + i) (a (32 * b + i)) else vZero false))
        put y (fun e => BitVec.ofNat 32 ((q (e / 32)).2.getD (e % 32) 0)) ∧
        ∀ b, b < n / 32 → lane y (iDst w + groups256 n) b = BitVec.ofNat 32 (q b).1.toNat)) ∧
    runs (.vred c w) (vredOk w) [] (vRows w) (fun y => y.masks = x.masks ∧ ∀ i, i < vRows w →
      lane y (iDst w) i = (vredRow (vFn w) (rowElems x w (vecA x w) i)).1) ∧
    runs (.rowstat c w) (rowstatOk w) [] (8 * vRows w) (fun y => y.masks = x.masks ∧ ∀ i j, i < vRows w → j < 8 →
      let z := rowStat (rowElems x w (vecA x w) i)
      lane y (iDst w) (8 * i + j) =
        (statWords (if bit w 64 then mergeStat (heldStat x (iSrcB w) i) z else z)).getD j 0) ∧
    runs (.rmsstat c w) (rmsstatOk w) [] (if bit w 65 then 2 * vRows w else 0) (fun y => y.masks = x.masks ∧
      y.rmsRows = (if bit w 65 then none else some (vRows w)) ∧
      ∀ i, i < vRows w →
        let z := (rowElems x w (vecA x w) i).foldl rmsAdd (if bit w 64 then {} else tblGet {} x.rms i)
        tblGet {} y.rms i = z ∧ (bit w 65 = true → lane y (iDst w) (2 * i) = (rmsFinal z (vImm w)).1 ∧
          lane y (iDst w) (2 * i + 1) = (rmsFinal z (vImm w)).2)) ∧
    runs (.sfu c w) (sfuOk w) [] n (fun y => y.masks = x.masks ∧ put y (fun e =>
      sfuApply (ax4Mode s.dev (dTenant r.desc)) (vFn w) (a e)))

/-- Of the word that the cell comes to: a transfer of any kind that would reach a WIPING unit waits at issue (log
119). One that an earlier instruction of the cell's queues holds back joins the mover's queue of 16, or while that is
full holds the cell's issue; the cell goes on. Any other starts at once, and where every access completes: LDT puts
byte b of tile row i into its operand buffer from the address that the axis gives, and STT stores its registers'
elements at those addresses; no byte outside the tile changes. A MOV within cell memory copies its bytes as they were;
one from hive memory fills the stationary-side buffer, one to NECTAR joins the stream. An access that trips stops the
token: its request fails with ECC_FAIL, or BANK_OFF for a write to a bank that is not ON; what a MOV has read before
it has been written. A MOV of weights whose HBM address lies above the stacks is a fault of the model's own (log 85).
On a cell without a token they run as a diagnostic program's, at the memory's own addresses (log 106): units that are
not CLEAN read as zeros and are not written, and those written become WIPING when END ends it. (R257, R258, R259,
R260, R261, R262, R263, R266, R270, R272, Table 10-3, Table 10-4) -/
def Obligations.MoverTransfers : Prop :=
  (∀ (s : State) (c : CellId) (k : Token) (r : Req) (w : IWord), RunsWord s c k r w →
    let x := cellOf s.dev c
    let win := cmBase c + (cellWindow s.dev r).1
    let wait := R.CEL_MOVER_WAIT_CNT c.val
    let trips := fun (write : Bool) (offs : List Nat) => (untilTrip (cmAccess s.dev c r write) offs).2
    let stored := fun t : State => t.pending = s.pending ∧ RegsExcept [wait] s t ∧ t.dev.ent = s.dev.ent ∧
      t.dev.guard = s.dev.guard ∧ t.dev.mem.hive = s.dev.mem.hive ∧ t.dev.mem.hbm = s.dev.mem.hbm ∧
      (∃ ks, cellOf t.dev c = nextInstr 1 { x with cmMasked := ks }) ∧ ∀ e, e ≠ c → cellOf t.dev e = cellOf s.dev e
    let stopped := fun (y : Trip) (t : State) => t.pending = s.pending ∧ cellOf t.dev c = {} ∧
      ∀ q ∈ t.dev.ent.reqs, q.uid = k.uid → q.suppressed = true ∧
        if y.isBankOff then q.bankOff = true else q.eccFail = true
    let place := fun (f i b : Nat) => if lAxis w then
        lAddr w + b / (fmtBits f / 8) * lPitch w + i * (fmtBits f / 8) + b % (fmtBits f / 8)
      else lAddr w + i * lPitch w + b
    (∀ e ∈ ([(.ldt c w, ldtOk w), (.stt c w, sttOk w), (.mov c w, movOk false w && !movBeyond c w s.dev),
        (.appendStage c w, appendStageOk w r s.dev), (.appendPage c w, appendPageOk w r s.dev),
        (.pgwalk c w, pgwalkWord w && decide (fld w 65 64 < headsPerCell s.dev (dTenant r.desc))),
        (.scoutGather c w, gatherOk w r s.dev), (.scoutList c w, listOk w r s.dev)] : List (Instr × Bool)), e.2 = true →
      (moverWipes c w r s.dev = true → Completes e.1 s (fun t => t = s)) ∧
      (moverWipes c w r s.dev = false → moverHeld c r w x.vq x.mq s.dev = true →
        (16 ≤ x.mq.length → Holds e.1 c k r w [] s) ∧
        (x.mq.length < 16 → Completes e.1 s (fun t => CellOnly c [] s t ∧
          cellOf t.dev c = nextInstr 1 { x with mq := x.mq ++ [{ word := w, ahead := x.vq.length }] })))) ∧
    (ldtOk w = true → MoverFree c r w s →
        (∀ y, trips false (tileOffs w) = some y → Completes (.ldt c w) s (stopped y)) ∧
        (trips false (tileOffs w) = none → Completes (.ldt c w) s (fun t => CellOnly c [wait] s t ∧ NextInstr 1 c s t ∧
          (cellOf t.dev c).regs = x.regs ∧ (cellOf t.dev c).acc = x.acc ∧ (cellOf t.dev c).vq = x.vq ∧
          (cellOf t.dev c).mq = x.mq ∧
          (let buf := if bit w 64 then (cellOf t.dev c).mov else (cellOf t.dev c).sta
           let old := if bit w 64 then x.mov else x.sta
           (∀ i b, i < iCount w → b < lRowBytes w → tblGet 0 buf (lBuf w + i * lRowBytes w + b) =
             tblGet 0 s.dev.mem.cm (win + place (iFmtIn w) i b)) ∧
           ∀ j, j < lBuf w ∨ lBuf w + tileBytes w ≤ j → tblGet 0 buf j = tblGet 0 old j)))) ∧
    (sttOk w = true → MoverFree c r w s →
        (∀ y, trips true (tileOffs w) = some y → Completes (.stt c w) s (stopped y)) ∧
        (trips true (tileOffs w) = none → Completes (.stt c w) s (fun t => stored t ∧
          (let tile := packElems (fmtBits (iFmtIn w)) ((lanes x (iSrcA w) (iCount w * tileElems w (iFmtIn w))).map
             (fun v => v.toNat % 2 ^ fmtBits (iFmtIn w)))
           (∀ i b, i < iCount w → b < lRowBytes w →
             tblGet 0 t.dev.mem.cm (win + place (iFmtIn w) i b) = tile.getD (i * lRowBytes w + b) 0) ∧
           ∀ j, (∀ i b, i < iCount w → b < lRowBytes w → j ≠ win + place (iFmtIn w) i b) →
             tblGet 0 t.dev.mem.cm j = tblGet 0 s.dev.mem.cm j)))) ∧
    (movOk false w = true →
      (mSkind w = 2 → weightBeyond s.dev r (64 * mSrc w) (mBytes w) = true →
        exec (.mov c w) s = .fault .noHbmAddress) ∧
      (MoverFree c r w s →
        (mSkind w = 0 → mDkind w = 0 →
          trips false (chunkOffs (16 * mSrc w) (4 * iCount w)) = none →
          trips true (chunkOffs (16 * mDst w) (4 * iCount w)) = none →
          Completes (.mov c w) s (fun t => stored t ∧
            (∀ b, b < mBytes w → tblGet 0 t.dev.mem.cm (win + 16 * mDst w + b) =
              tblGet 0 s.dev.mem.cm (win + 16 * mSrc w + b)) ∧
            ∀ j, j < win + 16 * mDst w ∨ win + 16 * mDst w + mBytes w ≤ j →
              tblGet 0 t.dev.mem.cm j = tblGet 0 s.dev.mem.cm j)) ∧
        (mSkind w = 1 → mDkind w = 5 →
          (untilTrip (hvAccess s.dev r) (chunkOffs (16 * mSrc w) (4 * iCount w))).2 = none →
          Completes (.mov c w) s (fun t => CellOnly c [wait] s t ∧ NextInstr 1 c s t ∧
            (∀ b, b < mBytes w → tblGet 0 (cellOf t.dev c).sta (64 * mDst w + b) =
              tblGet 0 s.dev.mem.hive ((hiveWindow s.dev r).1 + 16 * mSrc w + b)) ∧
            ∀ j, j < 64 * mDst w ∨ 64 * mDst w + mBytes w ≤ j →
              tblGet 0 (cellOf t.dev c).sta j = tblGet 0 x.sta j)) ∧
        (mDkind w = 2 → movBeyond c w s.dev = false → (movRead c r w s.dev).2 = (none, s.dev) →
          Completes (.mov c w) s (fun t => CellOnly c [wait] s t ∧ NextInstr 1 c s t ∧
            (cellOf t.dev c).nect.fifo = x.nect.fifo ++ (movRead c r w s.dev).1 ∧ (cellOf t.dev c).regs = x.regs)) ∧
        (∀ y, movBeyond c w s.dev = false → (movRead c r w s.dev).2.1 = some y →
          Completes (.mov c w) s (fun t => t.pending = s.pending ∧ cellOf t.dev c = {} ∧
            ∀ q ∈ t.dev.ent.reqs, q.uid = k.uid → q.suppressed = true)) ∧
        (let z := movRead c r w s.dev
         ∀ y, movBeyond c w s.dev = false → movFits w z.1.length = true → z.2.1 = some y →
          (movWrite c r w z.1 z.2.2).2 = none →
          Completes (.mov c w) s (fun t =>
            let u := movRead c r w (bumpFree wait s.dev)
            t.dev = applyTrip c k r y (movWrite c r w u.1 u.2.2).1))))) ∧
  ∀ (s : State) (c : CellId) (w : IWord), alive s.dev = true → cellClocked s.dev c = true → cellToken s.dev c = none →
    let x := cellOf s.dev c
    let at' := fun j : Nat => cmBase c + j
    let reach := fun o : Nat => diagReaches s.dev c false o
    (ldtOk w = true → lAxis w = false → Completes (.ldt c w) s (fun t => CellOnly c [] s t ∧
      (cellOf t.dev c).regs = x.regs ∧ ∀ i b, i < iCount w → b < lRowBytes w →
        tblGet 0 (if bit w 64 then (cellOf t.dev c).mov else (cellOf t.dev c).sta) (lBuf w + i * lRowBytes w + b) =
          if reach (lAddr w + i * lPitch w + b / 16 * 16) then
            tblGet 0 s.dev.mem.cm (at' (lAddr w + i * lPitch w + b)) else 0)) ∧
    (sttOk w = true → Completes (.stt c w) s (fun t => t.pending = s.pending ∧ RegsExcept [] s t ∧
      t.dev.cells = s.dev.cells ∧ t.dev.mem.hive = s.dev.mem.hive ∧ t.dev.mem.hbm = s.dev.mem.hbm ∧
      (∀ j, (∀ o ∈ tileOffs w, reach o = true → j < at' o ∨ at' o + 16 ≤ j) →
        tblGet 0 t.dev.mem.cm j = tblGet 0 s.dev.mem.cm j) ∧
      ∀ o ∈ tileOffs w, reach o = true → (c.val, 1024 * c.val + o / 4096) ∈ t.dev.mem.diagUnits)) ∧
    (movOk true w = true → mSkind w = 0 → mDkind w = 1 → Completes (.mov c w) s (fun t => t.pending = s.pending ∧
      RegsExcept [] s t ∧ t.dev.cells = s.dev.cells ∧ t.dev.mem.cm = s.dev.mem.cm ∧ t.dev.mem.hbm = s.dev.mem.hbm ∧
      (∀ i b, i < 4 * iCount w → b < 16 → diagReaches s.dev c true (16 * mDst w + 16 * i) = true →
        tblGet 0 t.dev.mem.hive (16 * mDst w + 16 * i + b) =
          if reach (16 * mSrc w + 16 * i) then tblGet 0 s.dev.mem.cm (at' (16 * mSrc w + 16 * i + b)) else 0) ∧
      ∀ j, (∀ i, i < 4 * iCount w → diagReaches s.dev c true (16 * mDst w + 16 * i) = true →
        j < 16 * mDst w + 16 * i ∨ 16 * mDst w + 16 * i + 16 ≤ j) →
          tblGet 0 t.dev.mem.hive j = tblGet 0 s.dev.mem.hive j)) ∧
    (endOk w = true → Completes (.endTok c w) s (fun t => t.pending = s.pending ∧ RegsExcept [] s t ∧
      cellOf t.dev c = {} ∧ t.dev.mem.cm = s.dev.mem.cm ∧ t.dev.mem.hive = s.dev.mem.hive ∧
      (∀ u, (c.val, u) ∈ s.dev.mem.diagUnits → tblGet .clean t.dev.mem.tags u = .wipingClean) ∧
      (∀ u, (c.val, u) ∉ s.dev.mem.diagUnits → tblGet .clean t.dev.mem.tags u = tblGet .clean s.dev.mem.tags u) ∧
      ∀ u, u ∈ t.dev.mem.diagUnits ↔ u ∈ s.dev.mem.diagUnits ∧ u.1 ≠ c.val))

/-- Of the word that the cell comes to, once nothing before it holds it back: the first APPEND of a request whose
position, or whose segments (R240), are not valid kills the request and suppresses it, appends nothing, and its cell
records it. Rows appended in STAGE mode, one or several and packed ones too, carry the LENGTH of their sequences past
them. A row appended in STAGE mode to an open page stands in the page's group, counts in VALID unless it is
provisional, and carries LENGTH past it. A whole page appended in PAGE mode is FLUSHED with every row valid and
counted. Where the cell's reserve has no frame, KVC_RESERVE_FAIL_CNT counts it, the request is killed, and what this
token sends is suppressed. PGWALK writes one list entry of 16 bytes for each page, in order, and remembers the page
and head of each (log 59). (R213, R215, R216, R218, R220, R251, R397, Table 08-7, Table 08-8) -/
def Obligations.AppendsAndPageLists : Prop :=
  ∀ (s : State) (c : CellId) (k : Token) (r : Req) (w : IWord), RunsWord s c k r w →
    let x := cellOf s.dev c
    let q := dSeq r.desc
    let T := dTenant r.desc
    let dd := headDim s.dev T
    let l := dLayer r.desc
    let h := kvRank s.dev r c + fld w 67 66
    let pl := mapPrefix s.dev r q
    let y := seqDesc s.dev q
    let first := dPos r.desc + fld w 95 80
    let local' := first - y.posLo
    let i := pageIdx s.dev T pl local'
    let row := local' - pageStart s.dev T pl i
    let settled := r.appendChecked = true ∧ r.checkFailed = false ∧ k.checked = true ∧ isPacked r = false ∧
      y.posLo ≤ first
    let at' : AppendAt := { c := c, r := r, q := q, l := l, h := h, pl := pl }
    MoverFree c r w s →
    (appendStageOk w r s.dev = true → r.appendChecked = false → appendValid s.dev r = false →
      Completes (.appendStage c w) s (fun t => t.pending = s.pending ∧ SameMemory s t ∧ t.dev.cache = s.dev.cache ∧
        NextInstr 1 c s t ∧
        (k.checked = false → s.dev.guard.queue.length < 64 → ∃ g, t.dev.guard.queue = s.dev.guard.queue ++ [g] ∧
          g.code = (if isPacked r then 0x2C else 0x2B) ∧ g.unit = unitCell c) ∧
        getReg t.dev (R.CEL_PACK_BAD_CNT c.val) = counted (getReg s.dev (R.CEL_PACK_BAD_CNT c.val))
          (if k.checked = false ∧ isPacked r = true then 1 else 0) ∧
        ∀ e ∈ t.dev.ent.reqs, e.uid = r.uid → e.killed = true ∧ e.suppressed = true ∧ e.checkFailed = true)) ∧
    (∀ d, appendStageOk w r s.dev = true → r.appendChecked = true → r.checkFailed = false → k.checked = true →
      let rows := appendRows s.dev r (fld w 95 80) (iCount w)
      let place := fun q : Nat => ({ at' with q := q, pl := mapPrefix s.dev r q } : AppendAt)
      (appendAll (fun e => appendRow (place e.2.1) e.2.2 (bit w 68) ((regRows x (iSrcA w) (iCount w) dd).getD e.1 [])
        ((regRows x (iSrcB w) (iCount w) dd).getD e.1 [])) rows s.dev).2 = .done d →
      Completes (.appendStage c w) s (fun t => t.pending = s.pending ∧ t.dev.mem = d.mem ∧
        t.dev.cache.heads = d.cache.heads ∧ t.dev.regs = d.regs ∧
        (bit w 68 = false → ∀ e ∈ rows,
          e.2.2 + 1 - (seqDesc d e.2.1).posLo ≤ (seqDesc t.dev e.2.1).length))) ∧
    (∀ u, appendStageOk w r s.dev = true → settled → iCount w = 1 → fld w 95 80 < dRows r.desc →
      first < y.posHi → walkTrip s.dev q l h i = none → leafOf s.dev q l h i = some u → frameShared s.dev u = false →
      (headAt s.dev (16 * u + i % 16)).st = .staged → pageFull (headAt s.dev (16 * u + i % 16)) = false →
      row < 2 ^ (headAt s.dev (16 * u + i % 16)).pshift →
      let p := headAt s.dev (16 * u + i % 16)
      Completes (.appendStage c w) s (fun t => t.pending = s.pending ∧ RegsExcept [] s t ∧ NextInstr 1 c s t ∧
        t.dev.mem.cm = s.dev.mem.cm ∧ t.dev.ent = s.dev.ent ∧
        groupRow p dd false row t.dev = (lanes x (iSrcA w) dd).map (fun v => v.toNat % 65536) ∧
        groupRow p dd true row t.dev = (lanes x (iSrcB w) dd).map (fun v => v.toNat % 65536) ∧
        (headAt t.dev (16 * u + i % 16)).valid = (if bit w 68 then p.valid else max p.valid (row + 1)) ∧
        (bit w 68 = true → row ∈ (headAt t.dev (16 * u + i % 16)).prov) ∧
        (seqDesc t.dev q).length = (if bit w 68 then y.length else max y.length (local' + 1)))) ∧
    (appendPageOk w r s.dev = true → settled → fld w 95 80 + iCount w ≤ dRows r.desc → first + iCount w ≤ y.posHi →
      pageStart s.dev T pl i = local' → pageTokens s.dev T pl i = iCount w →
      let offs := chunkOffs (64 * fld w 111 96) (4 * iCount w * dd / 16)
      let bs := cmReadWin s.dev c r offs
      let out := appendPage at' i (byteRows bs.1 (iCount w) dd) (byteRows (bs.1.drop (2 * iCount w * dd)) (iCount w) dd) s.dev
      (bs.2 = none →
        (∀ d, out = .done d → Completes (.appendPage c w) s (fun t => t.pending = s.pending ∧ NextInstr 1 c s t ∧
          RegsExcept [R.KVC_COW_CNT, R.KVC_PIN_CNT, R.KVC_FLUSH_CNT] s t ∧
          getReg t.dev R.KVC_FLUSH_CNT = counted (getReg s.dev R.KVC_FLUSH_CNT) 1 ∧
          t.dev.mem.cm = s.dev.mem.cm ∧ t.dev.mem.hive = s.dev.mem.hive ∧
          (seqDesc t.dev q).length = max y.length (local' + iCount w) ∧
          ∃ u, (headAt t.dev (16 * u + i % 16)).st = .flushed ∧ (headAt t.dev (16 * u + i % 16)).tenant = T ∧
            (headAt t.dev (16 * u + i % 16)).valid = 2 ^ (headAt t.dev (16 * u + i % 16)).pshift)) ∧
        (out = .short → Completes (.appendPage c w) s (fun t => t.pending = s.pending ∧ NextInstr 1 c s t ∧
          getReg t.dev R.KVC_RESERVE_FAIL_CNT = counted (getReg s.dev R.KVC_RESERVE_FAIL_CNT) 1 ∧
          (∀ e ∈ t.dev.ent.reqs, e.uid = r.uid → e.killed = true) ∧
          ∀ j ∈ t.dev.ent.tokens, j.uid = r.uid → j.cell = c → j.suppressed = true)))) ∧
    (pgwalkWord w = true → fld w 65 64 < headsPerCell s.dev T →
      let g := kvRank s.dev r c + fld w 65 64
      let p0 := lowestPage s.dev r + fld w 95 80
      let o := 64 * fld w 111 96
      let win := cmBase c + (cellWindow s.dev r).1
      ((∀ e, e < iCount w → headTrip s.dev r g (p0 + e) = none) →
        (untilTrip (cmAccess s.dev c r true) (chunkOffs o (iCount w))).2 = none →
        Completes (.pgwalk c w) s (fun t => t.pending = s.pending ∧ NextInstr 1 c s t ∧
          RegsExcept [R.KVC_PTC_HIT_CNT, R.KVC_PTC_MISS_CNT] s t ∧ t.dev.ent = s.dev.ent ∧
          t.dev.mem.hive = s.dev.mem.hive ∧ t.dev.mem.hbm = s.dev.mem.hbm ∧ (cellOf t.dev c).regs = x.regs ∧
          (∀ e b, e < iCount w → b < 16 → tblGet 0 t.dev.mem.cm (win + o + 16 * e + b) =
            (listEntry s.dev (cellPage s.dev r g (p0 + e)).1 (cellPage s.dev r g (p0 + e)).2).getD b 0) ∧
          (∀ e, e < iCount w → tblFind (cellOf t.dev c).lists (o / 16 + e) = some { page := some (p0 + e), head := g }) ∧
          ∀ j, j < win + o ∨ win + o + 16 * iCount w ≤ j → tblGet 0 t.dev.mem.cm j = tblGet 0 s.dev.mem.cm j)))

/-- FATT, CORR and SCORE issue to the vector engine's queue; a FATT with 4 scale factors in flight, or a CORR with
none, does not issue into an empty one. Run at once: FATT brings each of its rows, empty under FIRST, into the state
that its unmasked scores give it, writes their p into registers, and counts; CEL_COMP_CNT stays (log 97). CORR takes
the oldest scale factor of each row, and joins the words of its operand to the slot's, scaled, or replaces them under
FIRST. SCORE stores its words as FP32, row by row, in cell memory, and the bytes beyond a row's last score stay (log
79). GATHER and LIST start once nothing before them holds them back: GATHER fills the stationary-side buffer with the
candidates' summaries and their mask, and keeps the extra pages. LIST writes selected and extra pages in ascending
order and then the empty places, remembers them with the places they are read at (log 59), and counts. (R146, R178,
R179, R180, R181, R185, R245, R246, R247, R248, Table 07-5, Table 09-2) -/
def Obligations.AttentionInstructions : Prop :=
  ∀ (s : State) (c : CellId) (k : Token) (r : Req) (w : IWord), RunsWord s c k r w →
    let x := cellOf s.dev c
    let n := vRowLen w
    let busy := [R.CEL_VE_TQWAIT_CNT c.val, R.CEL_VE_QFULL_CNT c.val, R.CEL_VE_CYC_LO c.val, R.CEL_VE_CYC_HI c.val]
    let win := cmBase c + (cellWindow s.dev r).1
    let issues := fun i : Instr =>
      (x.vq = [] → entryFits w x = false → Completes i s (fun t => t = s)) ∧
      (x.vq ≠ [] ∨ entryFits w x = true → Issues i c k r w [] s)
    (fattOk w r s.dev = true → issues (.fatt c w) ∧
      (x.vq = [] → x.mq = [] → entryReady x w = true → Completes (.fatt c w) s (fun t =>
        CellOnly c (R.CEL_SFU_CYC_LO c.val :: R.CEL_SFU_CYC_HI c.val :: R.CEL_ALPHA_ZERO_CNT c.val ::
          R.CEL_FATT_CNT c.val :: busy) s t ∧ NextInstr 1 c s t ∧
        getReg t.dev (R.CEL_FATT_CNT c.val) = counted (getReg s.dev (R.CEL_FATT_CNT c.val)) 1 ∧
        (cellOf t.dev c).acc = x.acc ∧ (cellOf t.dev c).vq = [] ∧
        (∀ i, i < fRbase w ∨ fRbase w + vRows w ≤ i → smRow (cellOf t.dev c) i = smRow x i) ∧
        ∀ i, i < vRows w →
          let o := fattRow (fattIn w r x s.dev i) (if fFirst w then {} else smRow x (fRbase w + i))
            ((List.range n).map (fun j => ((vecA x w).getD (i * n + j) 0, maskOn x (iMask w) (i * n + j))))
          smRow (cellOf t.dev c) (fRbase w + i) = o.1 ∧
            ∀ j, j < n → lane (cellOf t.dev c) (iDst w) (i * n + j) = BitVec.ofNat 32 (o.2.1.getD j 0)))) ∧
    (corrOk w r s.dev = true → issues (.corr c w) ∧
      (x.vq = [] → x.mq = [] → entryReady x w = true → Completes (.corr c w) s (fun t =>
        CellOnly c (R.CEL_COMP_CNT_LO c.val :: R.CEL_COMP_CNT_HI c.val :: busy) s t ∧ NextInstr 1 c s t ∧
        (cellOf t.dev c).regs = x.regs ∧ (cellOf t.dev c).vq = [] ∧
        (∀ i, i < vRows w →
          (smRow (cellOf t.dev c) (fRbase w + i)).alphas = (smRow x (fRbase w + i)).alphas.drop 1 ∧
          (smRow (cellOf t.dev c) (fRbase w + i)).o = some (iDst w, fEshift w, i * n, n, iComp w)) ∧
        (∀ i, i < iCount w →
          let key := slotKey (fEshift w) (iDst w) i
          let err := errDist (fEshift w)
          let v := canonNan (if vTq w = 0 then slotValue x (iComp w) (fEshift w) (slotKey (fEshift w) (iSrcA w) i)
            else (tqWords x (vTq w)).getD i 0)
          let p := if fFirst w then (v, f32Zero) else addPair (iComp w)
            (scalePair (iComp w) ((smRow x (fRbase w + i / n)).alphas.headD f32One) (accWord x key, accWord x (key + err))) v
          tblFind (cellOf t.dev c).acc key = some p.1 ∧
            (iComp w = true → tblFind (cellOf t.dev c).acc (key + err) = some p.2))))) ∧
    (scoreOk w r s.dev = true →
      let wordsIn := tqWords x (fEshift w)
      let place := fun i j : Nat => win + 64 * fld w 111 96 + i * (64 * fld w 127 112) + 4 * j
      (waitsWipe s.dev c r (scoreOffs w) [] = true → Completes (.score c w) s (fun t => t = s)) ∧
      (waitsWipe s.dev c r (scoreOffs w) [] = false → issues (.score c w) ∧
        (x.vq = [] → x.mq = [] → iCount w ≤ wordsIn.length → 4 * n ≤ 64 * fld w 127 112 →
          (untilTrip (cmAccess s.dev c r true) (scoreOffs w)).2 = none →
          Completes (.score c w) s (fun t => t.pending = s.pending ∧ RegsExcept busy s t ∧ t.dev.ent = s.dev.ent ∧
            NextInstr 1 c s t ∧ t.dev.mem.hive = s.dev.mem.hive ∧ t.dev.mem.hbm = s.dev.mem.hbm ∧
            tqWords (cellOf t.dev c) (fEshift w) = wordsIn.drop (iCount w) ∧
            (∀ i j b, i < iCount w / n → j < n → b < 4 → tblGet 0 t.dev.mem.cm (place i j + b) =
              (leBytes 4 (wordsIn.getD (i * n + j) 0).toNat).getD b 0) ∧
            ∀ a, (∀ i j b, i < iCount w / n → j < n → b < 4 → a ≠ place i j + b) →
              tblGet 0 t.dev.mem.cm a = tblGet 0 s.dev.mem.cm a)))) ∧
    (gatherOk w r s.dev = true → MoverFree c r w s →
      let h := kvRank s.dev r c + scHead w
      let dd := headDim s.dev (dTenant r.desc)
      (∀ e, e < iCount w → headTrip s.dev r h (scBoff w + e) = none) →
      Completes (.scoutGather c w) s (fun t => t.pending = s.pending ∧ SameMemory s t ∧ NextInstr 1 c s t ∧
        RegsExcept [R.KVC_PTC_HIT_CNT, R.KVC_PTC_MISS_CNT] s t ∧
        (∀ e, (tblGet 0 (cellOf t.dev c).masks (iDst w)).testBit e =
          (decide (e < iCount w) && isCandidate s.dev r h (scBoff w + e))) ∧
        (∀ e b, e < iCount w → b < 2 * dd → tblGet 0 (cellOf t.dev c).sta (scSta w + e * (2 * dd) + b) =
          if isCandidate s.dev r h (scBoff w + e) then
            (packElems 16 (cellPage s.dev r h (scBoff w + e)).2.summary).getD b 0 else 0) ∧
        (∀ e, e < iCount w → isExtra s.dev r h (scBoff w + e) = true →
          (scHead w, scBoff w + e) ∈ (cellOf t.dev c).extra) ∧
        (cellOf t.dev c).regs = x.regs)) ∧
    (listOk w r s.dev = true → MoverFree c r w s →
      let h := kvRank s.dev r c + scHead w
      let T := dTenant r.desc
      let o := 64 * fld w 121 106
      let extra := (x.extra.filter (fun e => e.1 = scHead w)).map (·.2)
      let sel := (lanes x (iSrcA w) (iCount w)).filterMap (fun v => if v = 0xFFFFFFFF then none else some v.toNat)
      let total := iCount w + extra.length
      (∀ p ∈ sel ++ extra, headTrip s.dev r h p = none) →
      (untilTrip (cmAccess s.dev c r true) (chunkOffs o total)).2 = none →
      Completes (.scoutList c w) s (fun t => t.pending = s.pending ∧ NextInstr 1 c s t ∧
        getReg t.dev (R.CEL_SCOUT_CNT c.val) = counted (getReg s.dev (R.CEL_SCOUT_CNT c.val)) 1 ∧
        getReg t.dev (R.CEL_SCOUT_EXTRA_CNT c.val) = counted (getReg s.dev (R.CEL_SCOUT_EXTRA_CNT c.val)) extra.length ∧
        getReg t.dev (R.CEL_SCOUT_SHORT_CNT c.val) =
          counted (getReg s.dev (R.CEL_SCOUT_SHORT_CNT c.val)) (if sel.length < iCount w then 1 else 0) ∧
        RegsExcept [R.CEL_SCOUT_CNT c.val, R.CEL_SCOUT_EXTRA_CNT c.val, R.CEL_SCOUT_SHORT_CNT c.val, R.KVC_PTC_HIT_CNT,
          R.KVC_PTC_MISS_CNT] s t ∧
        t.dev.ent = s.dev.ent ∧ t.dev.mem.hive = s.dev.mem.hive ∧ t.dev.mem.hbm = s.dev.mem.hbm ∧
        (∀ e, e ∈ (cellOf t.dev c).extra → e.1 ≠ scHead w) ∧
        ∃ ps : List Nat, ps.Pairwise (· ≤ ·) ∧ ps.Perm (sel ++ extra) ∧
          (∀ e p, ps[e]? = some p →
            (∀ b, b < 16 → tblGet 0 t.dev.mem.cm (win + o + 16 * e + b) =
              (listEntry s.dev (cellPage s.dev r h p).1 (cellPage s.dev r h p).2).getD b 0) ∧
            tblFind (cellOf t.dev c).lists (o / 16 + e) = some
              { page := some p, head := h, place := if p ∈ sel then scoutPlace s.dev T else 0 } ∧
            (e < 256 * (32 - iDst w) →
              lane (cellOf t.dev c) (iDst w) e = BitVec.ofNat 32 (pageSpan s.dev r p).1)) ∧
          ∀ e, ps.length ≤ e → e < total →
            (∀ b, b < 16 → tblGet 0 t.dev.mem.cm (win + o + 16 * e + b) = (listEntry s.dev .absent {}).getD b 0) ∧
            tblFind (cellOf t.dev c).lists (o / 16 + e) =
              some { page := none, head := h, place := scoutPlace s.dev T }))

/-- A droop raises the flag, begins a stretch and is counted; a down-step whose lower voltage is not acknowledged is
given up, and the voltage of the point left is held (log 110). Once HOLD cycles have run the stretch and the flag end,
and its cycles are counted. An array halt is counted, makes every cell's next first broadcast wait for its wave slot,
and holds until the flag is clear. A cell's HBM request for an address takes its bursts, counted by its bytes alone
(log 117), from the credit of the controller of that address, and one beyond the credit is not taken; delivery gives
them back, on a stopped die too. An address above the stacks is a fault of the model's own (log 85). A refresh, on a
stopped die too, shows its port's temperature and touches no other port's registers and no byte of memory. (R24, R112,
R303, R305, R342, R346, R347, R385) -/
def Obligations.DroopHaltAndHbm : Prop :=
  (∀ s : State, alive s.dev = true →
    (s.dev.power.stretching = true → Completes .droopCrossing s (fun t => t = s)) ∧
    (s.dev.power.stretching = false → Completes .droopCrossing s (fun t => t.pending = s.pending ∧ SameMemory s t ∧
      t.dev.power.stretching = true ∧ t.dev.power.droopFlag = true ∧ t.dev.power.stretchStart = s.dev.tick.time ∧
      getReg t.dev R.PWR_DROOP_CNT = counted (getReg s.dev R.PWR_DROOP_CNT) 1 ∧
      ((s.dev.power.leftPoint = none ∨ s.dev.power.acked = true) → RegsExcept [R.PWR_DROOP_CNT] s t) ∧
      ∀ q, s.dev.power.leftPoint = some q → s.dev.power.acked = false → t.dev.power.leftPoint = none ∧
        t.dev.power.holdMv = pointMv q ∧
        getReg t.dev R.PWR_DVFS_ABANDON_CNT = counted (getReg s.dev R.PWR_DVFS_ABANDON_CNT) 1)) ∧
    (∀ n, s.dev.power.stretching = true → n < regFld s.dev R.PWR_DROOP_CFG 27 16 →
      Completes (.stretchEnd n) s (fun t => t = s)) ∧
    (∀ n, s.dev.power.stretching = true → regFld s.dev R.PWR_DROOP_CFG 27 16 ≤ n →
      Completes (.stretchEnd n) s (fun t => t.pending = s.pending ∧ SameMemory s t ∧
        t.dev.power.stretching = false ∧ t.dev.power.droopFlag = false ∧ t.dev.power.droopClear = t.dev.tick.time ∧
        s.dev.tick.time ≤ t.dev.tick.time ∧
        getReg64 t.dev R.PWR_STRETCH_LO R.PWR_STRETCH_HI =
          (getReg64 s.dev R.PWR_STRETCH_LO R.PWR_STRETCH_HI + n) % 2 ^ 64 ∧
        RegsExcept [R.PWR_STRETCH_LO, R.PWR_STRETCH_HI] s t)) ∧
    (s.dev.power.halted = false → Completes .arrayHalt s (fun t => t.pending = s.pending ∧ SameMemory s t ∧
      t.dev.power.halted = true ∧ (∀ c : CellId, c ∈ t.dev.tick.waves) ∧
      getReg t.dev R.PWR_HALT_CNT = counted (getReg s.dev R.PWR_HALT_CNT) 1 ∧
      getReg t.dev R.GRD_CORR_CNT = counted (getReg s.dev R.GRD_CORR_CNT) 1 ∧ t.dev.guard.stopped = false)) ∧
    (s.dev.power.halted = true →
      (s.dev.power.droopFlag = true → Completes .haltEnd s (fun t => t = s)) ∧
      (s.dev.power.droopFlag = false → Completes .haltEnd s (fun t => t.pending = s.pending ∧ SameMemory s t ∧
        t.dev.power.halted = false ∧ RegsExcept [] s t ∧
        (s.dev.power.droopClear ≠ 0 → s.dev.power.droopClear + 2000 ≤ t.dev.tick.time))))) ∧
  (∀ (s : State) (c : CellId) (a : Nat) (write : Bool) (n : Nat),
    let p : Fin 8 := hbmPort a
    let out := tblGet 0 s.dev.mem.hbmOut (hbmOutKey c p write)
    let runs := fun given : Bool => if given then portsRun s.dev = true else alive s.dev = true ∧ cellClocked s.dev c = true
    let kept := fun t : State => t.pending = s.pending ∧ t.dev.mem.hbm = s.dev.mem.hbm ∧
      ((∀ i, i < 8 → (wSlot s.dev i).resend = []) → RegsExcept [] s t) ∧
      ∀ k, k ≠ hbmOutKey c p write → tblGet 0 t.dev.mem.hbmOut k = tblGet 0 s.dev.mem.hbmOut k
    p.val = a / 1024 % 8 ∧
    (hbmReady s.dev p = false → ∀ given, Completes (.hbmRequest c a write n given) s (fun t => t = s)) ∧
    (hbmReady s.dev p = true →
      (hbmCapacity s.dev ≤ a → (runs false → exec (.hbmRequest c a write n false) s = .fault .noHbmAddress) ∧
        Completes (.hbmRequest c a write n true) s (fun t => t = s)) ∧
      (a < hbmCapacity s.dev → runs false →
        (out + burstsOf n ≤ (if write then 32 else 64) → Completes (.hbmRequest c a write n false) s (fun t => kept t ∧
          tblGet 0 t.dev.mem.hbmOut (hbmOutKey c p write) = out + burstsOf n)) ∧
        ((if write then 32 else 64) < out + burstsOf n →
          Completes (.hbmRequest c a write n false) s (fun t => t = s))) ∧
      (a < hbmCapacity s.dev → runs true →
        (burstsOf n ≤ out → Completes (.hbmRequest c a write n true) s (fun t => kept t ∧
          tblGet 0 t.dev.mem.hbmOut (hbmOutKey c p write) = out - burstsOf n)) ∧
        (out < burstsOf n → (∀ i, i < 8 → (wSlot s.dev i).resend = []) →
          Completes (.hbmRequest c a write n true) s (fun t => t = s))))) ∧
  ∀ (s : State) (p : Fin 8) (temp : BitVec 12), powered s.dev = true → powerState s.dev ≠ 3 → hbmReady s.dev p = true →
    Completes (.hbmRefresh p temp) s (fun t => t.pending = s.pending ∧ SameMemory s t ∧
      getReg t.dev (R.HBM_TEMP p.val) = temp.zeroExtend 32 ∧
      fld (getReg t.dev (R.HBM_STATUS p.val)) 4 0 = fld (getReg s.dev (R.HBM_STATUS p.val)) 4 0 ∧
      RegsExcept [R.HBM_TEMP p.val, R.HBM_STATUS p.val, R.HBM_REF_STALL_CNT p.val] s t ∧
      t.dev.ent.reqs = s.dev.ent.reqs ∧ t.dev.ent.tokens = s.dev.ent.tokens ∧ t.dev.cells = s.dev.cells)

/-- A voltage within 10 mV of the request acknowledges it and shows it; any other changes nothing. An acknowledgement
that does not come is one contained record. A regulator that does not answer, reports a fault, or has lost power-good
on a rail of the die is fatal and stops the die; a warning, beside a fault too (log 111), is counted and cuts the
credit of the next ticks; any other status changes nothing. Which bits of STATUS_WORD are which is log 8, and that
PWR_VDDC_MV shows the voltage requested is log 16. A sample takes a sensor's temperature, and the current and voltage
of the entry of VDDC, into their registers, and no byte of memory changes; at 115 °C, and at a thermal trip, the pin
is pulled and the die stops, whether or not the pin was low. A lost clock stops it, the PLL's only after structural
lock. (R332, R337, R340, R349, R350, R385, Table 15-2) -/
def Obligations.VoltagesAndRegulators : Prop :=
  ∀ s : State, alive s.dev = true →
    let stops := fun t : State => t.pending = s.pending ∧ SameMemory s t ∧ t.dev.guard.stopped = true ∧
      t.dev.guard.fatal.isSome = true
    (∀ mv, s.dev.power.acked = false →
      ((mv ≤ s.dev.power.reqMv + 10 ∧ s.dev.power.reqMv ≤ mv + 10) → Completes (.voltageAck mv) s (fun t =>
        t.pending = s.pending ∧ SameMemory s t ∧ t.dev.power.acked = true ∧
        getReg t.dev R.PWR_VDDC_MV = BitVec.ofNat 32 s.dev.power.reqMv ∧ RegsExcept [R.PWR_VDDC_MV] s t)) ∧
      (¬ (mv ≤ s.dev.power.reqMv + 10 ∧ s.dev.power.reqMv ≤ mv + 10) →
        Completes (.voltageAck mv) s (fun t => t = s))) ∧
    (s.dev.power.acked = false → s.dev.power.ackMissed = false → Completes .voltAckTimeout s (fun t =>
      t.pending = s.pending ∧ SameMemory s t ∧ t.dev.power.ackMissed = true ∧ t.dev.guard.stopped = false ∧
      getReg t.dev R.GRD_CONT_CNT = counted (getReg s.dev R.GRD_CONT_CNT) 1)) ∧
    (s.dev.power.ackMissed = true → Completes .voltAckTimeout s (fun t => t = s)) ∧
    (∀ (i : Fin 16) (w : BitVec 16) (answered : Bool),
      (regulatorFault s.dev i.val w answered = true → Completes (.pmAlert i w answered) s (fun t => stops t ∧
        getReg t.dev R.PWR_ALERT_CNT = counted (getReg s.dev R.PWR_ALERT_CNT)
          (if answered = true ∧ statusWarn w = true then 1 else 0))) ∧
      (regulatorFault s.dev i.val w answered = false → statusWarn w = true → Completes (.pmAlert i w answered) s (fun t =>
        t.pending = s.pending ∧ SameMemory s t ∧ t.dev.guard.stopped = false ∧
        getReg t.dev R.PWR_ALERT_CNT = counted (getReg s.dev R.PWR_ALERT_CNT) 1 ∧
        getReg t.dev R.PWR_CAP_CUT_CNT = counted (getReg s.dev R.PWR_CAP_CUT_CNT) 1 ∧
        t.dev.power.capLeft = regFld s.dev R.PWR_CAP_CFG 23 16)) ∧
      (regulatorFault s.dev i.val w answered = false → statusWarn w = false →
        Completes (.pmAlert i w answered) s (fun t => t = s))) ∧
    (∀ (ma mv pout pin : Nat) (i : Fin 32) (temp : BitVec 12),
      Completes (.powerSample ma mv pout pin i temp) s (fun t => t.pending = s.pending ∧ SameMemory s t ∧
        (temp.toNat < 920 → t.dev.guard = s.dev.guard ∧ t.dev.ent = s.dev.ent ∧ t.dev.die = s.dev.die) ∧
        (920 ≤ temp.toNat → t.dev.guard.stopped = true ∧ t.dev.die.thermTripLow = true) ∧
        t.dev.power.samples = s.dev.power.samples + 1 ∧
        getReg t.dev (R.PWR_TEMP i.val) = temp.zeroExtend 32 ∧ temp.toNat ≤ (getReg t.dev R.PWR_TEMP_MAX).toNat ∧
        (∀ j, (List.range 16).find? (rmapCore s.dev) = some j →
          getReg t.dev (R.PWR_RMAP_MW j) = BitVec.ofNat 32 (ma * mv / 1000)) ∧
        t.dev.power.sumMw = s.dev.power.sumMw + diePower t.dev)) ∧
    (∀ i : Fin 32, Completes (.thermTrip i) s (fun t => stops t ∧
      t.dev.die.thermTripLow = true ∧ 920 ≤ regFld t.dev (R.PWR_TEMP i.val) 11 0)) ∧
    (∀ refclk : Bool, (refclk = true ∨ locked s.dev = true) → Completes (.clockLoss refclk) s stops) ∧
    (locked s.dev = false → Completes (.clockLoss false) s (fun t => t = s))

/-- At a drain start after the request the blocks are asked once, and the keeper's vote is cleared. Entry reaches Idle
in one step. Doze, once banks and bands have settled, takes the cells' work, empties each bank without RET and turns
it OFF, keeps every other byte, and puts every stack into self-refresh. Winter writes its image to its range of HBM,
keeping every other byte, and then leaves its domain, its links down and its rails off. A time, temperature or I3C
source met during an entry to Winter is a wake event. A wake event found during entry aborts it at the next abort
point, which is counted, and the state stays. A wake begins the restore steps of the state; the last that completes
makes the die Active, and one that fails is fatal; in the last after Winter a port trained with too few lanes is
FAILED. (R355, R356, R358, R359, R360, Table 13-6, Table 13-7, Table 13-8) -/
def Obligations.PowerEntryAndExit : Prop :=
  (∀ (s : State) (a : Attempt), alive s.dev = true → s.dev.power.attempt = some a →
    let status := [R.PWR_STATE, R.PWR_STATE_REQ, R.PWR_STATE_STATUS]
    ((inDrain s.dev = false ∨ a.step ≠ 0 ∨ a.due = false) → Completes .powerEntryAttempt s (fun t => t = s)) ∧
    (inDrain s.dev = true → a.step = 0 → a.asked = none → a.due = true →
      Completes .powerEntryAttempt s (fun t => t.pending = s.pending ∧ SameMemory s t ∧
        getReg t.dev R.PWR_KPR_VOTE = 0 ∧ RegsExcept [R.PWR_KPR_VOTE] s t ∧
        ∃ b, t.dev.power.attempt = some b ∧ b.asked = some s.dev.tick.time ∧ b.target = a.target ∧ b.due = false ∧
          (b.answers = [] ↔ blockRefusals s.dev a.target = [] ∧ blockDelays s.dev a.target = []))) ∧
    (a.target = 3 → a.wake = none →
      let woken := fun (src : Nat) (t : State) => t.pending = s.pending ∧ SameMemory s t ∧ RegsExcept [] s t ∧
        t.dev.power.attempt = some { a with wake := some src }
      let cfg := getReg s.dev R.WIN_WAKE_CFG
      let at' := getReg64 s.dev R.WIN_WAKE_TIME_LO R.WIN_WAKE_TIME_HI
      (bit cfg 0 = true → s.dev.tick.time ≤ at' → Completes (.powerWake 6) s (woken 6)) ∧
      (bit cfg 1 = true → Completes (.powerWake 7) s (woken 7)) ∧
      (bit cfg 2 = true → Completes (.powerWake 8) s (woken 8))) ∧
    (1 ≤ a.step →
      (a.wake.isSome = true → Completes .powerEntryStep s (fun t => t = s)) ∧
      (a.wake = none →
        (a.target = 1 → Completes .powerEntryStep s (fun t => t.pending = s.pending ∧ SameMemory s t ∧
          powerState t.dev = 1 ∧ t.dev.power.attempt = none ∧ getReg t.dev R.PWR_STATE_REQ = 0 ∧
          RegsExcept status s t ∧ t.dev.cells = s.dev.cells)) ∧
        ((a.target = 2 ∨ a.target = 3) → a.step = 1 → banksSettled s.dev = true → Completes .powerEntryStep s (fun t =>
          t.pending = s.pending ∧ SameMemory s t ∧ t.dev.power.attempt = some { a with step := 2 } ∧
          RegsExcept [R.PWR_STATE] s t)) ∧
        (a.target = 2 → 2 ≤ a.step → Completes .powerEntryStep s (fun t => t.pending = s.pending ∧
          powerState t.dev = 2 ∧ t.dev.power.attempt = none ∧ t.dev.cells = [] ∧
          t.dev.mem.hive = s.dev.mem.hive ∧ t.dev.mem.hbm = s.dev.mem.hbm ∧
          (∀ k : Fin 8, bit (getReg t.dev (R.HBM_STATUS k.val)) 4 = true) ∧
          ∀ (c : CellId) (b : Fin 8),
            (bankRet s.dev c b.val = false → bankState t.dev c b.val = 2 ∧
              ∀ o, o < 0x80000 → tblGet 0 t.dev.mem.cm (cmBase c + 0x80000 * b.val + o) = 0) ∧
            (bankRet s.dev c b.val = true → bankState t.dev c b.val = bankState s.dev c b.val ∧
              ∀ o, o < 0x80000 → tblGet 0 t.dev.mem.cm (cmBase c + 0x80000 * b.val + o) =
                tblGet 0 s.dev.mem.cm (cmBase c + 0x80000 * b.val + o)))) ∧
        (a.target = 3 → a.step = 2 → Completes .winterImageWrite s (fun t => t.pending = s.pending ∧
          t.dev.mem.cm = s.dev.mem.cm ∧ t.dev.mem.hive = s.dev.mem.hive ∧ t.dev.mem.tags = s.dev.mem.tags ∧
          ((s.dev.mem.imageAt = none ∨ s.dev.mem.imageAt = some (imageBase s.dev)) → ∀ k a,
            (a < imageBase s.dev ∨ imageBase s.dev + 0x22000000 ≤ a) → hbmByteKey t.dev k a = hbmByteKey s.dev k a) ∧
          t.dev.power.imageWritten = true ∧ t.dev.power.attempt = some { a with step := 3 } ∧
          RegsExcept [R.PWR_STATE] s t)) ∧
        (a.target = 3 → a.step = 3 → Completes .powerEntryStep s (fun t => t.pending = s.pending ∧ SameMemory s t ∧
          powerState t.dev = 3 ∧ t.dev.power.attempt = none ∧ t.dev.power.railsOn = false ∧
          t.dev.tick.member = false ∧ t.dev.tick.running = false ∧ t.dev.tick.fromWinter = true ∧ t.dev.keeper.running = false ∧
          (∀ p : PortId, portUp t.dev p = false) ∧
          getReg t.dev R.WIN_ENTRY_CNT = counted (getReg s.dev R.WIN_ENTRY_CNT) 1))) ∧
      (∀ src, a.wake = some src → Completes .entryAbort s (fun t => t.pending = s.pending ∧ SameMemory s t ∧
        powerState t.dev = powerState s.dev ∧ t.dev.power.attempt = none ∧ t.dev.power.imageWritten = false ∧
        getReg t.dev R.PWR_ABORT_CNT = counted (getReg s.dev R.PWR_ABORT_CNT) 1 ∧
        fld (getReg t.dev R.PWR_STATE_STATUS) 3 0 = 3 ∧
        RegsExcept (R.PWR_ABORT_CNT :: status) s t)))) ∧
  (∀ s : State, asleep s.dev = true →
    let woken := fun (b : Nat) (t : State) => t.pending = s.pending ∧ SameMemory s t ∧
      bit (getReg t.dev R.WIN_WAKE_SRC) b = true ∧ t.dev.power.restore = [10, 11, 12, 13, 14, 15] ∧
      RegsExcept [R.WIN_WAKE_SRC] s t
    let cfg := getReg s.dev R.WIN_WAKE_CFG
    let at' := getReg64 s.dev R.WIN_WAKE_TIME_LO R.WIN_WAKE_TIME_HI
    (bit cfg 0 = true → s.dev.tick.time ≤ at' →
      Completes (.powerWake 6) s (fun t => woken 0 t ∧ t.dev.tick.time = at')) ∧
    (bit cfg 1 = true → Completes (.powerWake 7) s (woken 1)) ∧ (bit cfg 2 = true → Completes (.powerWake 8) s (woken 2)) ∧
    (cfg = 0 → ∀ src, Completes (.powerWake src) s (fun t => t = s))) ∧
  (∀ (s : State) (src : Fin 9), alive s.dev = true → s.dev.power.restore = [] →
    s.dev.power.pendingWake = some src.val → (powerState s.dev = 1 ∨ powerState s.dev = 2) →
    Completes (.powerWake src) s (fun t => t.pending = s.pending ∧ SameMemory s t ∧ RegsExcept [] s t ∧
      t.dev.power.pendingWake = none ∧
      t.dev.power.restore = if powerState s.dev = 1 then [0] else [1, 2])) ∧
  ∀ (s : State) (k : Nat) (rest : List Nat), powered s.dev = true → s.dev.guard.stopped = false →
    s.dev.power.restore = k :: rest →
    (∀ l, rest ≠ [] → Completes (.restoreStep (some l)) s (fun t => t.pending = s.pending ∧ SameMemory s t ∧
      t.dev.power.restore = rest ∧ powerState t.dev = powerState s.dev)) ∧
    (∀ l, rest = [] → Completes (.restoreStep (some l)) s (fun t => t.pending = s.pending ∧ SameMemory s t ∧
      (k = 15 → ∀ p : PortId, bit (getReg s.dev (R.LNK_CFG p.val)) 0 = true →
        let w := trainedWidth p (((l.find? (fun x => decide (x.port = p))).map (·.width)).getD 0)
        getReg t.dev (R.LNK_WIDTH p.val) = BitVec.ofNat 32 w.toNat ∧
        ((popCount w < regFld s.dev (R.LNK_CFG p.val) 12 8 ∨ w = 0) → portState t.dev p = 3)) ∧
      t.dev.power.restore = [] ∧ powerState t.dev = 0 ∧
      (powerState s.dev = 3 → t.dev.keeper.running = true))) ∧
    Completes (.restoreStep none) s (fun t => t.pending = s.pending ∧ SameMemory s t ∧ t.dev.guard.stopped = true ∧
      t.dev.guard.fatal.isSome = true ∧ t.dev.power.restore = [])

/-- With a command at the front of the queue, a step is that command on the state with the queue's rest. On an empty
queue a die with PORST_N low stays as it is; any other runs its timebase for one nanosecond and changes no register,
no byte of memory and no unit (the model's choice, log 4). (block command queue) -/
def Obligations.StepRunsTheFrontCommand : Prop :=
  (∀ (c : Instr) (rest : List Instr) (s : State),
    step { s with pending := c :: rest } = exec c { s with pending := rest }) ∧
  ∀ s : State, s.pending = [] →
    (s.dev.die.porstLow = true → step s = .next s) ∧
    (s.dev.die.porstLow = false → ∃ t, step s = .next t ∧ t.pending = [] ∧ t.dev = elapse 1 s.dev ∧ SameMemory s t ∧
      RegsExcept [] s t ∧ t.dev.ent = s.dev.ent ∧ t.dev.cells = s.dev.cells)

/-- On a die that STOP has stopped, every command other than the two resets completes, leaves the die stopped with its
fatal record, changes no byte of memory, and leaves requests, tokens, ledgers, cells, cache control and the weight
engine as they are. (R385, Table 13-9, R361, R362) -/
def Obligations.AStoppedDieStaysStopped : Prop :=
  ∀ (i : Instr) (s : State), s.dev.guard.stopped = true →
    (∀ sa, i ≠ .porst sa) → i ≠ .porstAssert → (∀ n, i ≠ .wrst n) →
    Completes i s (fun t => t.pending = s.pending ∧ t.dev.guard.stopped = true ∧
      (s.dev.guard.fatal.isSome = true → t.dev.guard.fatal.isSome = true) ∧
      t.dev.mem.cm = s.dev.mem.cm ∧ t.dev.mem.hive = s.dev.mem.hive ∧ t.dev.mem.hbm = s.dev.mem.hbm ∧
      t.dev.ent = s.dev.ent ∧ t.dev.cells = s.dev.cells ∧ t.dev.cache = s.dev.cache ∧ t.dev.wgt = s.dev.wgt)

/-- The canonical form of the memories is the model's choice (log 78), and no rule states it. From every state whose
memories are in it, a step that answers a next state gives one whose memories are in canonical form; its queue is the
old one without its front, and a state with commands waiting loses exactly one. (R361, 10_on_die_memory.md) -/
def Obligations.EveryStepKeepsMemoryCanonical : Prop :=
  ∀ s t : State, step s = .next t → t.pending = s.pending.drop 1 ∧ (MemCanonical s → MemCanonical t)
end

