-- ==== Sys2Proof/Laws/Bits.lean ====
section
/-!
SUPPORT. Laws of bit fields: a field reads as written, every other field keeps its value, bit by bit.
-/

namespace Sys2Proof.Machine

open Sys2Proof

/-- Bits of a field. -/
theorem fld_testBit {w : Nat} (x : BitVec w) (hi lo i : Nat) :
    (fld x hi lo).testBit i = (decide (i < hi + 1 - lo) && x.getLsbD (lo + i)) := by
  simp [fld, Nat.testBit_mod_two_pow, Nat.testBit_shiftRight, BitVec.testBit_toNat]

/-- A field is below its size. -/
theorem fld_lt {w : Nat} (x : BitVec w) (hi lo : Nat) : fld x hi lo < 2 ^ (hi + 1 - lo) :=
  Nat.mod_lt _ (Nat.two_pow_pos _)

/-- Bits of a word with a field replaced. -/
theorem setFld_getLsbD {w : Nat} (x : BitVec w) (hi lo v i : Nat) (h : lo ≤ hi) (hw : hi < w) :
    (setFld x hi lo v).getLsbD i =
      if lo ≤ i ∧ i ≤ hi then v.testBit (i - lo) else x.getLsbD i := by
  have hsplit : hi + 1 - lo + lo = hi + 1 := by omega
  generalize hn : hi + 1 - lo = n at *
  have hold : x.toNat = 2 ^ lo * (2 ^ n * (x.toNat / 2 ^ lo / 2 ^ n) + x.toNat / 2 ^ lo % 2 ^ n) + x.toNat % 2 ^ lo := by
    rw [Nat.div_add_mod, Nat.div_add_mod]
  have hval : x.toNat - ((x.toNat >>> lo) % 2 ^ n) <<< lo + (v % 2 ^ n) <<< lo =
      2 ^ lo * (2 ^ n * (x.toNat / 2 ^ lo / 2 ^ n) + v % 2 ^ n) + x.toNat % 2 ^ lo := by
    rw [Nat.shiftRight_eq_div_pow, Nat.shiftLeft_eq, Nat.shiftLeft_eq]
    generalize hq : x.toNat / 2 ^ lo / 2 ^ n = q at *
    generalize hb : x.toNat / 2 ^ lo % 2 ^ n = b at *
    generalize hr : x.toNat % 2 ^ lo = r at *
    generalize hc : v % 2 ^ n = c at *
    rw [hold, Nat.mul_add, Nat.mul_add, Nat.mul_comm b, Nat.mul_comm c]
    omega
  have hlt : i < w → (setFld x hi lo v).getLsbD i =
      (x.toNat - ((x.toNat >>> lo) % 2 ^ n) <<< lo + (v % 2 ^ n) <<< lo).testBit i := by
    intro hi'
    simp only [setFld, hn]
    rw [BitVec.getLsbD_ofNat]
    simp [hi']
  by_cases hi' : i < w
  · rw [hlt hi', hval, Nat.testBit_two_pow_mul_add _ (Nat.mod_lt _ (Nat.two_pow_pos lo))]
    by_cases h1 : i < lo
    · have : ¬(lo ≤ i ∧ i ≤ hi) := by omega
      simp [h1, this, Nat.testBit_mod_two_pow, BitVec.testBit_toNat]
    · rw [if_neg h1, Nat.testBit_two_pow_mul_add _ (Nat.mod_lt _ (Nat.two_pow_pos n))]
      by_cases h2 : i - lo < n
      · have : lo ≤ i ∧ i ≤ hi := by omega
        simp [h2, this, Nat.testBit_mod_two_pow]
      · have h3 : ¬(lo ≤ i ∧ i ≤ hi) := by omega
        rw [if_neg h2, if_neg h3, Nat.testBit_div_two_pow, Nat.testBit_div_two_pow, BitVec.testBit_toNat]
        congr 1
        omega
  · have : ¬(lo ≤ i ∧ i ≤ hi) := by omega
    rw [if_neg this, BitVec.getLsbD_of_ge _ _ (by omega), BitVec.getLsbD_of_ge _ _ (by omega)]

/-- A field reads as the number written, cut to the field's size. -/
theorem fld_setFld_self {w : Nat} (x : BitVec w) (hi lo v : Nat) (h : lo ≤ hi) (hw : hi < w) :
    fld (setFld x hi lo v) hi lo = v % 2 ^ (hi + 1 - lo) := by
  apply Nat.eq_of_testBit_eq
  intro i
  rw [fld_testBit, setFld_getLsbD x hi lo v _ h hw, Nat.testBit_mod_two_pow]
  by_cases hi' : i < hi + 1 - lo
  · have : lo ≤ lo + i ∧ lo + i ≤ hi := by omega
    simp [hi', this]
  · simp [hi']

/-- A field apart from the one written keeps its value. -/
theorem fld_setFld_ne {w : Nat} (x : BitVec w) (hi lo v hi' lo' : Nat) (h : lo ≤ hi) (hw : hi < w)
    (hd : hi' < lo ∨ hi < lo') : fld (setFld x hi lo v) hi' lo' = fld x hi' lo' := by
  apply Nat.eq_of_testBit_eq
  intro i
  rw [fld_testBit, fld_testBit, setFld_getLsbD x hi lo v _ h hw]
  by_cases hi2 : i < hi' + 1 - lo'
  · have : ¬(lo ≤ lo' + i ∧ lo' + i ≤ hi) := by omega
    simp [this]
  · simp [hi2]

/-- A bit of a field that was written. -/
theorem bit_setFld {w : Nat} (x : BitVec w) (hi lo v i : Nat) (h : lo ≤ hi) (hw : hi < w) :
    bit (setFld x hi lo v) i = if lo ≤ i ∧ i ≤ hi then v.testBit (i - lo) else bit x i :=
  setFld_getLsbD x hi lo v i h hw

/-- Bits of a word with one bit set as given. -/
theorem bit_setBit {w : Nat} (x : BitVec w) (k i : Nat) (b : Bool) (hw : k < w) :
    bit (setBit x k b) i = if i = k then b else bit x i := by
  unfold setBit
  rw [bit_setFld x k k _ i (le_refl k) hw]
  by_cases h : i = k
  · subst h
    cases b <;> simp
  · have : ¬(k ≤ i ∧ i ≤ k) := by omega
    rw [if_neg this, if_neg h]

/-- A field that does not hold the bit set keeps its value. -/
theorem fld_setBit {w : Nat} (x : BitVec w) (k hi lo : Nat) (b : Bool) (hw : k < w) (hd : hi < k ∨ k < lo) :
    fld (setBit x k b) hi lo = fld x hi lo := by
  unfold setBit
  exact fld_setFld_ne x k k _ hi lo (le_refl k) hw hd

end Sys2Proof.Machine
end

