-- ==== Sys2Proof/Laws/Tables.lean ====
section
/-!
SUPPORT. Laws of the sparse tables: what a read gives after a write, and that every table operation keeps the canonical
form.
-/

namespace Sys2Proof.Machine

open Sys2Proof

variable {α : Type}

/-! ### Read after write -/

@[simp] theorem tblFind_nil (x : Nat) : tblFind ([] : Tbl α) x = none := rfl

theorem tblFind_put (t : Tbl α) (x : Nat) (v : α) (y : Nat) :
    tblFind (tblPut t x v) y = if y = x then some v else tblFind t y := by
  induction t with
  | nil => simp [tblPut, tblFind, eq_comm]
  | cons e t ih =>
    obtain ⟨k, w⟩ := e
    simp only [tblPut]
    split
    · simp [tblFind, eq_comm]
    · split
      · subst_vars
        simp only [tblFind, eq_comm (a := y)]
        split <;> rfl
      · simp only [tblFind, ih]
        by_cases h : k = y
        · subst h
          simp_all [eq_comm]
        · simp [h]

theorem tblFind_erase (t : Tbl α) (x y : Nat) :
    tblFind (tblErase t x) y = if y = x then none else tblFind t y := by
  induction t with
  | nil => simp [tblErase, tblFind]
  | cons e t ih =>
    obtain ⟨k, w⟩ := e
    simp only [tblErase]
    split
    · subst_vars
      rw [ih]
      by_cases h : y = k <;> simp [h, tblFind, eq_comm]
    · simp only [tblFind, ih]
      by_cases h : k = y
      · subst h
        simp_all [eq_comm]
      · simp [h]

/-- A read after a write gives the value written at its key, and the old value elsewhere. -/
theorem tblGet_set [DecidableEq α] (d : α) (t : Tbl α) (x : Nat) (v : α) (y : Nat) :
    tblGet d (tblSet d t x v) y = if y = x then v else tblGet d t y := by
  unfold tblGet tblSet
  split
  · subst_vars
    rw [tblFind_erase]
    split <;> simp
  · rw [tblFind_put]
    split <;> simp

/-! ### Canonical form -/

/-- Keys of a table are at least a bound. -/
def keysFrom (n : Nat) (t : Tbl α) : Prop := ∀ e ∈ t, n ≤ e.1

theorem tblSorted_cons (k : Nat) (w : α) (t : Tbl α) :
    tblSorted ((k, w) :: t) = true ↔ keysFrom (k + 1) t ∧ tblSorted t = true := by
  induction t generalizing k w with
  | nil => simp [tblSorted, keysFrom]
  | cons e t ih =>
    obtain ⟨j, u⟩ := e
    simp only [tblSorted, Bool.and_eq_true, decide_eq_true_eq, ih j u, keysFrom, List.mem_cons, forall_eq_or_imp]
    constructor
    · rintro ⟨h, h1, h2⟩
      exact ⟨⟨h, fun e he => by have := h1 e he; omega⟩, h1, h2⟩
    · rintro ⟨⟨h, _⟩, h1, h2⟩
      exact ⟨h, h1, h2⟩

theorem keysFrom_put (n : Nat) (t : Tbl α) (x : Nat) (v : α) (h : keysFrom n t) (hx : n ≤ x) :
    keysFrom n (tblPut t x v) := by
  induction t with
  | nil => simpa [tblPut, keysFrom] using hx
  | cons e t ih =>
    obtain ⟨k, w⟩ := e
    simp only [keysFrom, List.mem_cons, forall_eq_or_imp] at h
    simp only [tblPut]
    split
    · simp only [keysFrom, List.mem_cons, forall_eq_or_imp]
      exact ⟨hx, h.1, h.2⟩
    · split
      · simp only [keysFrom, List.mem_cons, forall_eq_or_imp]
        exact ⟨hx, h.2⟩
      · simp only [keysFrom, List.mem_cons, forall_eq_or_imp]
        exact ⟨h.1, ih h.2⟩

theorem tblSorted_put (t : Tbl α) (x : Nat) (v : α) (h : tblSorted t = true) : tblSorted (tblPut t x v) = true := by
  induction t with
  | nil => simp [tblPut, tblSorted]
  | cons e t ih =>
    obtain ⟨k, w⟩ := e
    have hk := (tblSorted_cons k w t).1 h
    simp only [tblPut]
    split
    · rename_i hx
      rw [tblSorted_cons]
      refine ⟨?_, h⟩
      simp only [keysFrom, List.mem_cons, forall_eq_or_imp]
      exact ⟨hx, fun e he => by have := hk.1 e he; omega⟩
    · split
      · subst_vars
        exact (tblSorted_cons _ v t).2 hk
      · exact (tblSorted_cons k w _).2 ⟨keysFrom_put _ _ _ _ hk.1 (by omega), ih hk.2⟩

theorem keysFrom_erase (n : Nat) (t : Tbl α) (x : Nat) (h : keysFrom n t) : keysFrom n (tblErase t x) := by
  induction t with
  | nil => simp [tblErase, keysFrom]
  | cons e t ih =>
    obtain ⟨k, w⟩ := e
    simp only [keysFrom, List.mem_cons, forall_eq_or_imp] at h
    simp only [tblErase]
    split
    · exact ih h.2
    · simp only [keysFrom, List.mem_cons, forall_eq_or_imp]
      exact ⟨h.1, ih h.2⟩

theorem tblSorted_erase (t : Tbl α) (x : Nat) (h : tblSorted t = true) : tblSorted (tblErase t x) = true := by
  induction t with
  | nil => simp [tblErase, tblSorted]
  | cons e t ih =>
    obtain ⟨k, w⟩ := e
    have hk := (tblSorted_cons k w t).1 h
    simp only [tblErase]
    split
    · exact ih hk.2
    · exact (tblSorted_cons k w _).2 ⟨keysFrom_erase _ _ _ hk.1, ih hk.2⟩

theorem tblSorted_filter (p : Nat × α → Bool) (t : Tbl α) (h : tblSorted t = true) :
    tblSorted (t.filter p) = true := by
  induction t with
  | nil => rfl
  | cons e t ih =>
    obtain ⟨k, w⟩ := e
    have hk := (tblSorted_cons k w t).1 h
    simp only [List.filter_cons]
    split
    · exact (tblSorted_cons k w _).2 ⟨fun e he => hk.1 e ((List.mem_filter.1 he).1), ih hk.2⟩
    · exact ih hk.2

theorem tblSorted_putList (vs : List α) (t : Tbl α) (x : Nat) (h : tblSorted t = true) :
    tblSorted (tblPutList t x vs) = true := by
  induction vs generalizing t x with
  | nil => exact h
  | cons v vs ih => exact ih _ _ (tblSorted_put t x v h)

theorem mem_put (t : Tbl α) (x : Nat) (v : α) (e : Nat × α) (h : e ∈ tblPut t x v) : e = (x, v) ∨ e ∈ t := by
  induction t with
  | nil => simp [tblPut] at h; exact .inl h
  | cons f t ih =>
    obtain ⟨k, w⟩ := f
    simp only [tblPut] at h
    split at h
    · simpa using h
    · split at h
      · simp only [List.mem_cons] at h ⊢
        rcases h with h | h
        · exact .inl h
        · exact .inr (.inr h)
      · simp only [List.mem_cons] at h ⊢
        rcases h with h | h
        · exact .inr (.inl h)
        · rcases ih h with h | h
          · exact .inl h
          · exact .inr (.inr h)

theorem mem_erase (t : Tbl α) (x : Nat) (e : Nat × α) (h : e ∈ tblErase t x) : e ∈ t := by
  induction t with
  | nil => simp [tblErase] at h
  | cons f t ih =>
    obtain ⟨k, w⟩ := f
    simp only [tblErase] at h
    split at h
    · exact List.mem_cons_of_mem _ (ih h)
    · simp only [List.mem_cons] at h ⊢
      rcases h with h | h
      · exact .inl h
      · exact .inr (ih h)

/-- Canonical form as a proposition. -/
theorem tblWf_iff [DecidableEq α] (d : α) (t : Tbl α) :
    tblWf d t = true ↔ tblSorted t = true ∧ ∀ e ∈ t, e.2 ≠ d := by
  simp [tblWf, List.all_eq_true]

theorem tblWf_set [DecidableEq α] (d : α) (t : Tbl α) (x : Nat) (v : α) (h : tblWf d t = true) :
    tblWf d (tblSet d t x v) = true := by
  rw [tblWf_iff] at h ⊢
  unfold tblSet
  split
  · exact ⟨tblSorted_erase t x h.1, fun e he => h.2 e (mem_erase t x e he)⟩
  · rename_i hv
    refine ⟨tblSorted_put t x v h.1, fun e he => ?_⟩
    rcases mem_put t x v e he with rfl | he
    · exact hv
    · exact h.2 e he

theorem tblWf_setList [DecidableEq α] (d : α) (vs : List α) (t : Tbl α) (x : Nat) (h : tblWf d t = true) :
    tblWf d (tblSetList d t x vs) = true := by
  induction vs generalizing t x with
  | nil => exact h
  | cons v vs ih => exact ih _ _ (tblWf_set d t x v h)

theorem tblWf_filter [DecidableEq α] (d : α) (p : Nat × α → Bool) (t : Tbl α) (h : tblWf d t = true) :
    tblWf d (t.filter p) = true := by
  rw [tblWf_iff] at h ⊢
  exact ⟨tblSorted_filter p t h.1, fun e he => h.2 e ((List.mem_filter.1 he).1)⟩

theorem tblWf_clear [DecidableEq α] (d : α) (t : Tbl α) (lo n : Nat) (h : tblWf d t = true) :
    tblWf d (tblClear t lo n) = true := tblWf_filter d _ t h

/-- Writing consecutive entries: a read inside gives the entry written, a read outside the old value. -/
theorem tblGet_setList [DecidableEq α] (d : α) (vs : List α) (t : Tbl α) (x y : Nat) :
    tblGet d (tblSetList d t x vs) y =
      if x ≤ y ∧ y < x + vs.length then vs.getD (y - x) d else tblGet d t y := by
  induction vs generalizing t x with
  | nil =>
    rw [if_neg (by simp only [List.length_nil]; omega)]
    rfl
  | cons v vs ih =>
    simp only [tblSetList, ih, tblGet_set, List.length_cons]
    by_cases h : y = x
    · subst h
      have h1 : ¬(y + 1 ≤ y ∧ y < y + 1 + vs.length) := by omega
      have h2 : y ≤ y ∧ y < y + (vs.length + 1) := by omega
      rw [if_neg h1, if_pos h2, if_pos rfl, Nat.sub_self]
      rfl
    · by_cases h2 : x + 1 ≤ y ∧ y < x + 1 + vs.length
      · have h3 : x ≤ y ∧ y < x + (vs.length + 1) := by omega
        have h4 : y - x = (y - (x + 1)) + 1 := by omega
        rw [if_pos h2, if_pos h3, h4]
        rfl
      · have h3 : ¬(x ≤ y ∧ y < x + (vs.length + 1)) := by omega
        rw [if_neg h2, if_neg h3, if_neg h]

end Sys2Proof.Machine
end

