-- ==== Sys2Proof/Laws/Registers.lean ====
section
/-!
SUPPORT. Laws of the register window: what a read gives after a write, a counted event, and a write of a pair.
-/

namespace Sys2Proof.Machine

open Sys2Proof

/-- A register reads as written last; every other register keeps its value. -/
theorem getReg_setReg (d : Dev) (o : Nat) (v : W32) (p : Nat) :
    getReg (setReg d o v) p = if p = o then v else getReg d p := by
  unfold getReg setReg
  by_cases h : p = o
  · subst h
    simp [tblGet_set]
  · simp only [h, if_false, tblGet, tblSet]
    split
    · rw [tblFind_erase, if_neg h]
    · rw [tblFind_put, if_neg h]

@[simp] theorem getReg_setReg_self (d : Dev) (o : Nat) (v : W32) : getReg (setReg d o v) o = v := by
  rw [getReg_setReg, if_pos rfl]

theorem getReg_setReg_ne (d : Dev) (o : Nat) (v : W32) (p : Nat) (h : p ≠ o) :
    getReg (setReg d o v) p = getReg d p := by
  rw [getReg_setReg, if_neg h]

/-- A counter holds the saturated sum after counting; every other register keeps its value. -/
theorem getReg_bumpBy (d : Dev) (o n p : Nat) :
    getReg (bumpBy d o n) p =
      if p = o then BitVec.ofNat 32 (min ((getReg d o).toNat + n) 0xFFFFFFFF) else getReg d p := by
  unfold bumpBy
  exact getReg_setReg d o _ p

theorem getReg_bump (d : Dev) (o p : Nat) :
    getReg (bump d o) p =
      if p = o then BitVec.ofNat 32 (min ((getReg d o).toNat + 1) 0xFFFFFFFF) else getReg d p :=
  getReg_bumpBy d o 1 p

/-- A counter never falls, and never passes its largest value. -/
theorem bumpBy_ge (d : Dev) (o n : Nat) : (getReg d o).toNat ≤ (getReg (bumpBy d o n) o).toNat := by
  rw [getReg_bumpBy, if_pos rfl]
  have h : (getReg d o).toNat < 2 ^ 32 := (getReg d o).isLt
  simp only [BitVec.toNat_ofNat]
  omega

theorem getReg_setReg64 (d : Dev) (lo hi v p : Nat) :
    getReg (setReg64 d lo hi v) p =
      if p = hi then BitVec.ofNat 32 (v / 2 ^ 32) else if p = lo then BitVec.ofNat 32 v else getReg d p := by
  unfold setReg64
  rw [getReg_setReg, getReg_setReg]

/-- Registers stand in one field. -/
theorem getReg_congr {d e : Dev} (h : e.regs = d.regs) (o : Nat) : getReg e o = getReg d o := by
  unfold getReg
  rw [h]

/-! ### What the register operations leave alone -/

@[simp] theorem setReg_die (d : Dev) (o : Nat) (v : W32) : (setReg d o v).die = d.die := rfl
@[simp] theorem setReg_mem (d : Dev) (o : Nat) (v : W32) : (setReg d o v).mem = d.mem := rfl
@[simp] theorem setReg_tick (d : Dev) (o : Nat) (v : W32) : (setReg d o v).tick = d.tick := rfl
@[simp] theorem setReg_ent (d : Dev) (o : Nat) (v : W32) : (setReg d o v).ent = d.ent := rfl
@[simp] theorem setReg_ports (d : Dev) (o : Nat) (v : W32) : (setReg d o v).ports = d.ports := rfl
@[simp] theorem setReg_power (d : Dev) (o : Nat) (v : W32) : (setReg d o v).power = d.power := rfl
@[simp] theorem setReg_guard (d : Dev) (o : Nat) (v : W32) : (setReg d o v).guard = d.guard := rfl
@[simp] theorem setReg_keeper (d : Dev) (o : Nat) (v : W32) : (setReg d o v).keeper = d.keeper := rfl
@[simp] theorem setReg_tel (d : Dev) (o : Nat) (v : W32) : (setReg d o v).tel = d.tel := rfl
@[simp] theorem setReg_cache (d : Dev) (o : Nat) (v : W32) : (setReg d o v).cache = d.cache := rfl
@[simp] theorem setReg_wgt (d : Dev) (o : Nat) (v : W32) : (setReg d o v).wgt = d.wgt := rfl
@[simp] theorem setReg_cells (d : Dev) (o : Nat) (v : W32) : (setReg d o v).cells = d.cells := rfl
@[simp] theorem setReg_freeIdx (d : Dev) (o : Nat) (v : W32) : (setReg d o v).freeIdx = d.freeIdx := rfl

@[simp] theorem bumpBy_die (d : Dev) (o n : Nat) : (bumpBy d o n).die = d.die := rfl
@[simp] theorem bumpBy_mem (d : Dev) (o n : Nat) : (bumpBy d o n).mem = d.mem := rfl
@[simp] theorem bumpBy_tick (d : Dev) (o n : Nat) : (bumpBy d o n).tick = d.tick := rfl
@[simp] theorem bumpBy_ent (d : Dev) (o n : Nat) : (bumpBy d o n).ent = d.ent := rfl
@[simp] theorem bumpBy_ports (d : Dev) (o n : Nat) : (bumpBy d o n).ports = d.ports := rfl
@[simp] theorem bumpBy_power (d : Dev) (o n : Nat) : (bumpBy d o n).power = d.power := rfl
@[simp] theorem bumpBy_guard (d : Dev) (o n : Nat) : (bumpBy d o n).guard = d.guard := rfl
@[simp] theorem bumpBy_keeper (d : Dev) (o n : Nat) : (bumpBy d o n).keeper = d.keeper := rfl
@[simp] theorem bumpBy_tel (d : Dev) (o n : Nat) : (bumpBy d o n).tel = d.tel := rfl
@[simp] theorem bumpBy_cache (d : Dev) (o n : Nat) : (bumpBy d o n).cache = d.cache := rfl
@[simp] theorem bumpBy_wgt (d : Dev) (o n : Nat) : (bumpBy d o n).wgt = d.wgt := rfl
@[simp] theorem bumpBy_cells (d : Dev) (o n : Nat) : (bumpBy d o n).cells = d.cells := rfl

@[simp] theorem bump_mem (d : Dev) (o : Nat) : (bump d o).mem = d.mem := rfl
@[simp] theorem bump_tick (d : Dev) (o : Nat) : (bump d o).tick = d.tick := rfl
@[simp] theorem bump_ent (d : Dev) (o : Nat) : (bump d o).ent = d.ent := rfl
@[simp] theorem bump_guard (d : Dev) (o : Nat) : (bump d o).guard = d.guard := rfl
@[simp] theorem bump_power (d : Dev) (o : Nat) : (bump d o).power = d.power := rfl
@[simp] theorem bump_die (d : Dev) (o : Nat) : (bump d o).die = d.die := rfl
@[simp] theorem bump_keeper (d : Dev) (o : Nat) : (bump d o).keeper = d.keeper := rfl
@[simp] theorem bump_cells (d : Dev) (o : Nat) : (bump d o).cells = d.cells := rfl
@[simp] theorem bump_cache (d : Dev) (o : Nat) : (bump d o).cache = d.cache := rfl
@[simp] theorem bump_ports (d : Dev) (o : Nat) : (bump d o).ports = d.ports := rfl

@[simp] theorem setRegFld_mem (d : Dev) (o hi lo v : Nat) : (setRegFld d o hi lo v).mem = d.mem := rfl
@[simp] theorem setReg64_mem (d : Dev) (lo hi v : Nat) : (setReg64 d lo hi v).mem = d.mem := rfl
@[simp] theorem bumpHalf_mem (d : Dev) (o lo n : Nat) : (bumpHalf d o lo n).mem = d.mem := rfl

/-- Gates read the register window and three flags only. -/
theorem alive_of_eq (d e : Dev) (h1 : getReg e R.ID_BOOT_STATUS = getReg d R.ID_BOOT_STATUS)
    (h2 : getReg e R.PWR_STATE = getReg d R.PWR_STATE) (h3 : e.die.porstLow = d.die.porstLow)
    (h4 : e.guard.stopped = d.guard.stopped) : alive e = alive d := by
  have hs : powerState e = powerState d := by simp only [powerState, regFld, h2]
  have hp : powered e = powered d := by simp only [powered, bootFailed, h1, h3]
  unfold alive
  rw [hs, hp, h4]

/-- `onlyIf` acts where its condition holds, and changes nothing where it does not. -/
@[simp] theorem onlyIf_true (f : Dev → Dev) (d : Dev) : onlyIf true f d = f d := rfl
@[simp] theorem onlyIf_false (f : Dev → Dev) (d : Dev) : onlyIf false f d = d := rfl

/-- A meaning over the device completes and leaves the queue alone. -/
theorem onDev_next (f : Dev → Dev) (s : State) : onDev f s = .next { s with dev := f s.dev } := rfl

end Sys2Proof.Machine
end

