-- ==== Sys2Proof/Laws/Memory.lean ====
section
/-!
SUPPORT. Laws of the memories: read after write, what a write leaves alone, and that every memory operation keeps the
canonical form.
-/

namespace Sys2Proof.Machine

open Sys2Proof

/-! ### The canonical form -/

theorem memWf_iff (m : MemSys) :
    memWf m = true ↔ tblWf 0 m.cm = true ∧ tblWf 0 m.hive = true ∧ tblSorted m.hbm = true := by
  simp [memWf, and_assoc]

/-- The canonical form depends on the three byte lists alone. -/
theorem memWf_congr (m n : MemSys) (h1 : n.cm = m.cm) (h2 : n.hive = m.hive) (h3 : n.hbm = m.hbm)
    (h : memWf m = true) : memWf n = true := by
  simpa [memWf, h1, h2, h3] using h

theorem memWf_hiveWrite (d : Dev) (a : Nat) (bs : List Byte) (h : memWf d.mem = true) :
    memWf (hiveWrite d a bs).mem = true := by
  rw [memWf_iff] at h ⊢
  exact ⟨h.1, tblWf_setList _ _ _ _ h.2.1, h.2.2⟩

theorem memWf_cmWrite (d : Dev) (c : CellId) (a : Nat) (bs : List Byte) (h : memWf d.mem = true) :
    memWf (cmWrite d c a bs).mem = true := by
  rw [memWf_iff] at h ⊢
  exact ⟨tblWf_setList _ _ _ _ h.1, h.2.1, h.2.2⟩

/-- Bytes of a unit under another key keep the canonical form. -/
theorem tblSorted_rekeyUnit (k : HbmKey) (u : Nat) (hbm : List Host.Cell) (d : Dev) (h : tblSorted hbm = true) :
    tblSorted (rekeyUnit k u hbm d) = true := by
  unfold rekeyUnit
  split
  · exact h
  · split
    · exact h
    · exact tblSorted_putList _ _ _ h

theorem memWf_hbmWrite (d : Dev) (k : HbmKey) (a : Nat) (bs : List Byte) (h : memWf d.mem = true) :
    memWf (hbmWrite d k a bs).mem = true := by
  rw [memWf_iff] at h ⊢
  refine ⟨h.1, h.2.1, tblSorted_putList _ _ _ ?_⟩
  split
  · exact h.2.2
  · exact tblSorted_rekeyUnit _ _ _ _ (tblSorted_rekeyUnit _ _ _ _ h.2.2)

theorem memWf_setTag (d : Dev) (k : Nat) (t : Tag) (h : memWf d.mem = true) : memWf (setTag d k t).mem = true :=
  memWf_congr d.mem _ rfl rfl rfl h

/-- The memories right after reset are in canonical form. -/
theorem memWf_reset : memWf State.reset.dev.mem = true := rfl

/-! ### Read after write -/

/-- A byte of hive memory. -/
theorem hive_after_write (d : Dev) (a : Nat) (bs : List Byte) (x : Nat) :
    tblGet 0 (hiveWrite d a bs).mem.hive x =
      if a ≤ x ∧ x < a + bs.length then bs.getD (x - a) 0 else tblGet 0 d.mem.hive x :=
  tblGet_setList 0 bs d.mem.hive a x

/-- A byte of the cell memories. -/
theorem cm_after_write (d : Dev) (c : CellId) (a : Nat) (bs : List Byte) (x : Nat) :
    tblGet 0 (cmWrite d c a bs).mem.cm x =
      if cmBase c + a ≤ x ∧ x < cmBase c + a + bs.length then bs.getD (x - (cmBase c + a)) 0
      else tblGet 0 d.mem.cm x :=
  tblGet_setList 0 bs d.mem.cm (cmBase c + a) x

@[simp] theorem hiveWrite_cm (d : Dev) (a : Nat) (bs : List Byte) : (hiveWrite d a bs).mem.cm = d.mem.cm := rfl
@[simp] theorem hiveWrite_hbm (d : Dev) (a : Nat) (bs : List Byte) : (hiveWrite d a bs).mem.hbm = d.mem.hbm := rfl
@[simp] theorem hiveWrite_regs (d : Dev) (a : Nat) (bs : List Byte) : (hiveWrite d a bs).regs = d.regs := rfl
@[simp] theorem cmWrite_hive (d : Dev) (c : CellId) (a : Nat) (bs : List Byte) :
    (cmWrite d c a bs).mem.hive = d.mem.hive := rfl
@[simp] theorem cmWrite_hbm (d : Dev) (c : CellId) (a : Nat) (bs : List Byte) :
    (cmWrite d c a bs).mem.hbm = d.mem.hbm := rfl
@[simp] theorem cmWrite_regs (d : Dev) (c : CellId) (a : Nat) (bs : List Byte) : (cmWrite d c a bs).regs = d.regs := rfl
@[simp] theorem hbmWrite_cm (d : Dev) (k : HbmKey) (a : Nat) (bs : List Byte) :
    (hbmWrite d k a bs).mem.cm = d.mem.cm := rfl
@[simp] theorem hbmWrite_hive (d : Dev) (k : HbmKey) (a : Nat) (bs : List Byte) :
    (hbmWrite d k a bs).mem.hive = d.mem.hive := rfl
@[simp] theorem hbmWrite_regs (d : Dev) (k : HbmKey) (a : Nat) (bs : List Byte) :
    (hbmWrite d k a bs).regs = d.regs := rfl

/-- Reading n bytes of hive memory gives n bytes. -/
@[simp] theorem tblGetList_length {α : Type} (dflt : α) (t : Tbl α) (x n : Nat) :
    (tblGetList dflt t x n).length = n := by
  induction n generalizing x with
  | zero => rfl
  | succ n ih => simp [tblGetList, ih]

/-- Reading back the bytes just written to hive memory. -/
theorem tblGetList_setList (bs : List Byte) (t : Tbl Byte) (x : Nat) :
    tblGetList 0 (tblSetList 0 t x bs) x bs.length = bs := by
  have key : ∀ (n k : Nat), k + n = bs.length →
      tblGetList 0 (tblSetList 0 t x bs) (x + k) n = bs.drop k := by
    intro n
    induction n with
    | zero =>
      intro k hk
      simp [tblGetList, List.drop_eq_nil_of_le (show bs.length ≤ k by omega)]
    | succ n ih =>
      intro k hk
      have hlt : k < bs.length := by omega
      rw [List.drop_eq_getElem_cons hlt]
      simp only [tblGetList]
      rw [show x + k + 1 = x + (k + 1) from by omega, ih (k + 1) (by omega), tblGet_setList]
      have hin : x ≤ x + k ∧ x + k < x + bs.length := by omega
      simp [hin, List.getD_eq_getElem?_getD, hlt]
  simpa using key bs.length 0 (by omega)

theorem hiveRead_hiveWrite (d : Dev) (a : Nat) (bs : List Byte) :
    hiveRead (hiveWrite d a bs) a bs.length = bs := tblGetList_setList bs d.mem.hive a

theorem cmRead_cmWrite (d : Dev) (c : CellId) (a : Nat) (bs : List Byte) :
    cmRead (cmWrite d c a bs) c a bs.length = bs := tblGetList_setList bs d.mem.cm (cmBase c + a)

end Sys2Proof.Machine
end

