-- ==== Sys2Proof/Laws/State.lean ====
section
/-!
SUPPORT. Every named update of the state, field by field: what it leaves alone, and what a read of the field gives after.
-/

namespace Sys2Proof.Machine

open Sys2Proof

/-! `setPort` changes `ports` alone. -/

@[simp] theorem setPort_regs (d : Dev) (p : PortId) (x : Port) : (setPort d p x).regs = d.regs := rfl
@[simp] theorem setPort_die (d : Dev) (p : PortId) (x : Port) : (setPort d p x).die = d.die := rfl
@[simp] theorem setPort_mem (d : Dev) (p : PortId) (x : Port) : (setPort d p x).mem = d.mem := rfl
@[simp] theorem setPort_tick (d : Dev) (p : PortId) (x : Port) : (setPort d p x).tick = d.tick := rfl
@[simp] theorem setPort_ent (d : Dev) (p : PortId) (x : Port) : (setPort d p x).ent = d.ent := rfl
@[simp] theorem setPort_power (d : Dev) (p : PortId) (x : Port) : (setPort d p x).power = d.power := rfl
@[simp] theorem setPort_guard (d : Dev) (p : PortId) (x : Port) : (setPort d p x).guard = d.guard := rfl
@[simp] theorem setPort_keeper (d : Dev) (p : PortId) (x : Port) : (setPort d p x).keeper = d.keeper := rfl
@[simp] theorem setPort_tel (d : Dev) (p : PortId) (x : Port) : (setPort d p x).tel = d.tel := rfl
@[simp] theorem setPort_cache (d : Dev) (p : PortId) (x : Port) : (setPort d p x).cache = d.cache := rfl
@[simp] theorem setPort_wgt (d : Dev) (p : PortId) (x : Port) : (setPort d p x).wgt = d.wgt := rfl
@[simp] theorem setPort_cells (d : Dev) (p : PortId) (x : Port) : (setPort d p x).cells = d.cells := rfl
@[simp] theorem setPort_freeIdx (d : Dev) (p : PortId) (x : Port) : (setPort d p x).freeIdx = d.freeIdx := rfl

/-! `setTag` changes `mem` alone. -/

@[simp] theorem setTag_regs (d : Dev) (k : Nat) (t : Tag) : (setTag d k t).regs = d.regs := rfl
@[simp] theorem setTag_die (d : Dev) (k : Nat) (t : Tag) : (setTag d k t).die = d.die := rfl
@[simp] theorem setTag_tick (d : Dev) (k : Nat) (t : Tag) : (setTag d k t).tick = d.tick := rfl
@[simp] theorem setTag_ent (d : Dev) (k : Nat) (t : Tag) : (setTag d k t).ent = d.ent := rfl
@[simp] theorem setTag_ports (d : Dev) (k : Nat) (t : Tag) : (setTag d k t).ports = d.ports := rfl
@[simp] theorem setTag_power (d : Dev) (k : Nat) (t : Tag) : (setTag d k t).power = d.power := rfl
@[simp] theorem setTag_guard (d : Dev) (k : Nat) (t : Tag) : (setTag d k t).guard = d.guard := rfl
@[simp] theorem setTag_keeper (d : Dev) (k : Nat) (t : Tag) : (setTag d k t).keeper = d.keeper := rfl
@[simp] theorem setTag_tel (d : Dev) (k : Nat) (t : Tag) : (setTag d k t).tel = d.tel := rfl
@[simp] theorem setTag_cache (d : Dev) (k : Nat) (t : Tag) : (setTag d k t).cache = d.cache := rfl
@[simp] theorem setTag_wgt (d : Dev) (k : Nat) (t : Tag) : (setTag d k t).wgt = d.wgt := rfl
@[simp] theorem setTag_cells (d : Dev) (k : Nat) (t : Tag) : (setTag d k t).cells = d.cells := rfl
@[simp] theorem setTag_freeIdx (d : Dev) (k : Nat) (t : Tag) : (setTag d k t).freeIdx = d.freeIdx := rfl

/-! `hiveWrite` changes `mem` alone. -/

@[simp] theorem hiveWrite_die (d : Dev) (a : Nat) (bs : List Byte) : (hiveWrite d a bs).die = d.die := rfl
@[simp] theorem hiveWrite_tick (d : Dev) (a : Nat) (bs : List Byte) : (hiveWrite d a bs).tick = d.tick := rfl
@[simp] theorem hiveWrite_ent (d : Dev) (a : Nat) (bs : List Byte) : (hiveWrite d a bs).ent = d.ent := rfl
@[simp] theorem hiveWrite_ports (d : Dev) (a : Nat) (bs : List Byte) : (hiveWrite d a bs).ports = d.ports := rfl
@[simp] theorem hiveWrite_power (d : Dev) (a : Nat) (bs : List Byte) : (hiveWrite d a bs).power = d.power := rfl
@[simp] theorem hiveWrite_guard (d : Dev) (a : Nat) (bs : List Byte) : (hiveWrite d a bs).guard = d.guard := rfl
@[simp] theorem hiveWrite_keeper (d : Dev) (a : Nat) (bs : List Byte) : (hiveWrite d a bs).keeper = d.keeper := rfl
@[simp] theorem hiveWrite_tel (d : Dev) (a : Nat) (bs : List Byte) : (hiveWrite d a bs).tel = d.tel := rfl
@[simp] theorem hiveWrite_cache (d : Dev) (a : Nat) (bs : List Byte) : (hiveWrite d a bs).cache = d.cache := rfl
@[simp] theorem hiveWrite_wgt (d : Dev) (a : Nat) (bs : List Byte) : (hiveWrite d a bs).wgt = d.wgt := rfl
@[simp] theorem hiveWrite_cells (d : Dev) (a : Nat) (bs : List Byte) : (hiveWrite d a bs).cells = d.cells := rfl
@[simp] theorem hiveWrite_freeIdx (d : Dev) (a : Nat) (bs : List Byte) : (hiveWrite d a bs).freeIdx = d.freeIdx := rfl

/-! `cmWrite` changes `mem` alone. -/

@[simp] theorem cmWrite_die (d : Dev) (c : CellId) (a : Nat) (bs : List Byte) : (cmWrite d c a bs).die = d.die := rfl
@[simp] theorem cmWrite_tick (d : Dev) (c : CellId) (a : Nat) (bs : List Byte) : (cmWrite d c a bs).tick = d.tick := rfl
@[simp] theorem cmWrite_ent (d : Dev) (c : CellId) (a : Nat) (bs : List Byte) : (cmWrite d c a bs).ent = d.ent := rfl
@[simp] theorem cmWrite_ports (d : Dev) (c : CellId) (a : Nat) (bs : List Byte) : (cmWrite d c a bs).ports = d.ports := rfl
@[simp] theorem cmWrite_power (d : Dev) (c : CellId) (a : Nat) (bs : List Byte) : (cmWrite d c a bs).power = d.power := rfl
@[simp] theorem cmWrite_guard (d : Dev) (c : CellId) (a : Nat) (bs : List Byte) : (cmWrite d c a bs).guard = d.guard := rfl
@[simp] theorem cmWrite_keeper (d : Dev) (c : CellId) (a : Nat) (bs : List Byte) : (cmWrite d c a bs).keeper = d.keeper := rfl
@[simp] theorem cmWrite_tel (d : Dev) (c : CellId) (a : Nat) (bs : List Byte) : (cmWrite d c a bs).tel = d.tel := rfl
@[simp] theorem cmWrite_cache (d : Dev) (c : CellId) (a : Nat) (bs : List Byte) : (cmWrite d c a bs).cache = d.cache := rfl
@[simp] theorem cmWrite_wgt (d : Dev) (c : CellId) (a : Nat) (bs : List Byte) : (cmWrite d c a bs).wgt = d.wgt := rfl
@[simp] theorem cmWrite_cells (d : Dev) (c : CellId) (a : Nat) (bs : List Byte) : (cmWrite d c a bs).cells = d.cells := rfl
@[simp] theorem cmWrite_freeIdx (d : Dev) (c : CellId) (a : Nat) (bs : List Byte) : (cmWrite d c a bs).freeIdx = d.freeIdx := rfl

/-! `hbmWrite` changes `mem` alone. -/

@[simp] theorem hbmWrite_die (d : Dev) (k : HbmKey) (a : Nat) (bs : List Byte) : (hbmWrite d k a bs).die = d.die := rfl
@[simp] theorem hbmWrite_tick (d : Dev) (k : HbmKey) (a : Nat) (bs : List Byte) : (hbmWrite d k a bs).tick = d.tick := rfl
@[simp] theorem hbmWrite_ent (d : Dev) (k : HbmKey) (a : Nat) (bs : List Byte) : (hbmWrite d k a bs).ent = d.ent := rfl
@[simp] theorem hbmWrite_ports (d : Dev) (k : HbmKey) (a : Nat) (bs : List Byte) : (hbmWrite d k a bs).ports = d.ports := rfl
@[simp] theorem hbmWrite_power (d : Dev) (k : HbmKey) (a : Nat) (bs : List Byte) : (hbmWrite d k a bs).power = d.power := rfl
@[simp] theorem hbmWrite_guard (d : Dev) (k : HbmKey) (a : Nat) (bs : List Byte) : (hbmWrite d k a bs).guard = d.guard := rfl
@[simp] theorem hbmWrite_keeper (d : Dev) (k : HbmKey) (a : Nat) (bs : List Byte) : (hbmWrite d k a bs).keeper = d.keeper := rfl
@[simp] theorem hbmWrite_tel (d : Dev) (k : HbmKey) (a : Nat) (bs : List Byte) : (hbmWrite d k a bs).tel = d.tel := rfl
@[simp] theorem hbmWrite_cache (d : Dev) (k : HbmKey) (a : Nat) (bs : List Byte) : (hbmWrite d k a bs).cache = d.cache := rfl
@[simp] theorem hbmWrite_wgt (d : Dev) (k : HbmKey) (a : Nat) (bs : List Byte) : (hbmWrite d k a bs).wgt = d.wgt := rfl
@[simp] theorem hbmWrite_cells (d : Dev) (k : HbmKey) (a : Nat) (bs : List Byte) : (hbmWrite d k a bs).cells = d.cells := rfl
@[simp] theorem hbmWrite_freeIdx (d : Dev) (k : HbmKey) (a : Nat) (bs : List Byte) : (hbmWrite d k a bs).freeIdx = d.freeIdx := rfl

/-! `updCell` changes `cells` alone. -/

@[simp] theorem updCell_regs (c : CellId) (f : CellSt → CellSt) (d : Dev) : (updCell c f d).regs = d.regs := rfl
@[simp] theorem updCell_die (c : CellId) (f : CellSt → CellSt) (d : Dev) : (updCell c f d).die = d.die := rfl
@[simp] theorem updCell_mem (c : CellId) (f : CellSt → CellSt) (d : Dev) : (updCell c f d).mem = d.mem := rfl
@[simp] theorem updCell_tick (c : CellId) (f : CellSt → CellSt) (d : Dev) : (updCell c f d).tick = d.tick := rfl
@[simp] theorem updCell_ent (c : CellId) (f : CellSt → CellSt) (d : Dev) : (updCell c f d).ent = d.ent := rfl
@[simp] theorem updCell_ports (c : CellId) (f : CellSt → CellSt) (d : Dev) : (updCell c f d).ports = d.ports := rfl
@[simp] theorem updCell_power (c : CellId) (f : CellSt → CellSt) (d : Dev) : (updCell c f d).power = d.power := rfl
@[simp] theorem updCell_guard (c : CellId) (f : CellSt → CellSt) (d : Dev) : (updCell c f d).guard = d.guard := rfl
@[simp] theorem updCell_keeper (c : CellId) (f : CellSt → CellSt) (d : Dev) : (updCell c f d).keeper = d.keeper := rfl
@[simp] theorem updCell_tel (c : CellId) (f : CellSt → CellSt) (d : Dev) : (updCell c f d).tel = d.tel := rfl
@[simp] theorem updCell_cache (c : CellId) (f : CellSt → CellSt) (d : Dev) : (updCell c f d).cache = d.cache := rfl
@[simp] theorem updCell_wgt (c : CellId) (f : CellSt → CellSt) (d : Dev) : (updCell c f d).wgt = d.wgt := rfl
@[simp] theorem updCell_freeIdx (c : CellId) (f : CellSt → CellSt) (d : Dev) : (updCell c f d).freeIdx = d.freeIdx := rfl

/-! `updReq` changes `ent` alone. -/

@[simp] theorem updReq_regs (u : Nat) (f : Req → Req) (d : Dev) : (updReq u f d).regs = d.regs := rfl
@[simp] theorem updReq_die (u : Nat) (f : Req → Req) (d : Dev) : (updReq u f d).die = d.die := rfl
@[simp] theorem updReq_mem (u : Nat) (f : Req → Req) (d : Dev) : (updReq u f d).mem = d.mem := rfl
@[simp] theorem updReq_tick (u : Nat) (f : Req → Req) (d : Dev) : (updReq u f d).tick = d.tick := rfl
@[simp] theorem updReq_ports (u : Nat) (f : Req → Req) (d : Dev) : (updReq u f d).ports = d.ports := rfl
@[simp] theorem updReq_power (u : Nat) (f : Req → Req) (d : Dev) : (updReq u f d).power = d.power := rfl
@[simp] theorem updReq_guard (u : Nat) (f : Req → Req) (d : Dev) : (updReq u f d).guard = d.guard := rfl
@[simp] theorem updReq_keeper (u : Nat) (f : Req → Req) (d : Dev) : (updReq u f d).keeper = d.keeper := rfl
@[simp] theorem updReq_tel (u : Nat) (f : Req → Req) (d : Dev) : (updReq u f d).tel = d.tel := rfl
@[simp] theorem updReq_cache (u : Nat) (f : Req → Req) (d : Dev) : (updReq u f d).cache = d.cache := rfl
@[simp] theorem updReq_wgt (u : Nat) (f : Req → Req) (d : Dev) : (updReq u f d).wgt = d.wgt := rfl
@[simp] theorem updReq_cells (u : Nat) (f : Req → Req) (d : Dev) : (updReq u f d).cells = d.cells := rfl
@[simp] theorem updReq_freeIdx (u : Nat) (f : Req → Req) (d : Dev) : (updReq u f d).freeIdx = d.freeIdx := rfl

/-! `updToken` changes `ent` alone. -/

@[simp] theorem updToken_regs (u : Nat) (c : CellId) (f : Token → Token) (d : Dev) : (updToken u c f d).regs = d.regs := rfl
@[simp] theorem updToken_die (u : Nat) (c : CellId) (f : Token → Token) (d : Dev) : (updToken u c f d).die = d.die := rfl
@[simp] theorem updToken_mem (u : Nat) (c : CellId) (f : Token → Token) (d : Dev) : (updToken u c f d).mem = d.mem := rfl
@[simp] theorem updToken_tick (u : Nat) (c : CellId) (f : Token → Token) (d : Dev) : (updToken u c f d).tick = d.tick := rfl
@[simp] theorem updToken_ports (u : Nat) (c : CellId) (f : Token → Token) (d : Dev) : (updToken u c f d).ports = d.ports := rfl
@[simp] theorem updToken_power (u : Nat) (c : CellId) (f : Token → Token) (d : Dev) : (updToken u c f d).power = d.power := rfl
@[simp] theorem updToken_guard (u : Nat) (c : CellId) (f : Token → Token) (d : Dev) : (updToken u c f d).guard = d.guard := rfl
@[simp] theorem updToken_keeper (u : Nat) (c : CellId) (f : Token → Token) (d : Dev) : (updToken u c f d).keeper = d.keeper := rfl
@[simp] theorem updToken_tel (u : Nat) (c : CellId) (f : Token → Token) (d : Dev) : (updToken u c f d).tel = d.tel := rfl
@[simp] theorem updToken_cache (u : Nat) (c : CellId) (f : Token → Token) (d : Dev) : (updToken u c f d).cache = d.cache := rfl
@[simp] theorem updToken_wgt (u : Nat) (c : CellId) (f : Token → Token) (d : Dev) : (updToken u c f d).wgt = d.wgt := rfl
@[simp] theorem updToken_cells (u : Nat) (c : CellId) (f : Token → Token) (d : Dev) : (updToken u c f d).cells = d.cells := rfl
@[simp] theorem updToken_freeIdx (u : Nat) (c : CellId) (f : Token → Token) (d : Dev) : (updToken u c f d).freeIdx = d.freeIdx := rfl

/-! `updCache` changes `cache` alone. -/

@[simp] theorem updCache_regs (f : CacheSt → CacheSt) (d : Dev) : (updCache f d).regs = d.regs := rfl
@[simp] theorem updCache_die (f : CacheSt → CacheSt) (d : Dev) : (updCache f d).die = d.die := rfl
@[simp] theorem updCache_mem (f : CacheSt → CacheSt) (d : Dev) : (updCache f d).mem = d.mem := rfl
@[simp] theorem updCache_tick (f : CacheSt → CacheSt) (d : Dev) : (updCache f d).tick = d.tick := rfl
@[simp] theorem updCache_ent (f : CacheSt → CacheSt) (d : Dev) : (updCache f d).ent = d.ent := rfl
@[simp] theorem updCache_ports (f : CacheSt → CacheSt) (d : Dev) : (updCache f d).ports = d.ports := rfl
@[simp] theorem updCache_power (f : CacheSt → CacheSt) (d : Dev) : (updCache f d).power = d.power := rfl
@[simp] theorem updCache_guard (f : CacheSt → CacheSt) (d : Dev) : (updCache f d).guard = d.guard := rfl
@[simp] theorem updCache_keeper (f : CacheSt → CacheSt) (d : Dev) : (updCache f d).keeper = d.keeper := rfl
@[simp] theorem updCache_tel (f : CacheSt → CacheSt) (d : Dev) : (updCache f d).tel = d.tel := rfl
@[simp] theorem updCache_wgt (f : CacheSt → CacheSt) (d : Dev) : (updCache f d).wgt = d.wgt := rfl
@[simp] theorem updCache_cells (f : CacheSt → CacheSt) (d : Dev) : (updCache f d).cells = d.cells := rfl
@[simp] theorem updCache_freeIdx (f : CacheSt → CacheSt) (d : Dev) : (updCache f d).freeIdx = d.freeIdx := rfl

/-! `updSeq` changes `cache` alone. -/

@[simp] theorem updSeq_regs (q : Nat) (f : SeqDesc → SeqDesc) (d : Dev) : (updSeq q f d).regs = d.regs := rfl
@[simp] theorem updSeq_die (q : Nat) (f : SeqDesc → SeqDesc) (d : Dev) : (updSeq q f d).die = d.die := rfl
@[simp] theorem updSeq_mem (q : Nat) (f : SeqDesc → SeqDesc) (d : Dev) : (updSeq q f d).mem = d.mem := rfl
@[simp] theorem updSeq_tick (q : Nat) (f : SeqDesc → SeqDesc) (d : Dev) : (updSeq q f d).tick = d.tick := rfl
@[simp] theorem updSeq_ent (q : Nat) (f : SeqDesc → SeqDesc) (d : Dev) : (updSeq q f d).ent = d.ent := rfl
@[simp] theorem updSeq_ports (q : Nat) (f : SeqDesc → SeqDesc) (d : Dev) : (updSeq q f d).ports = d.ports := rfl
@[simp] theorem updSeq_power (q : Nat) (f : SeqDesc → SeqDesc) (d : Dev) : (updSeq q f d).power = d.power := rfl
@[simp] theorem updSeq_guard (q : Nat) (f : SeqDesc → SeqDesc) (d : Dev) : (updSeq q f d).guard = d.guard := rfl
@[simp] theorem updSeq_keeper (q : Nat) (f : SeqDesc → SeqDesc) (d : Dev) : (updSeq q f d).keeper = d.keeper := rfl
@[simp] theorem updSeq_tel (q : Nat) (f : SeqDesc → SeqDesc) (d : Dev) : (updSeq q f d).tel = d.tel := rfl
@[simp] theorem updSeq_wgt (q : Nat) (f : SeqDesc → SeqDesc) (d : Dev) : (updSeq q f d).wgt = d.wgt := rfl
@[simp] theorem updSeq_cells (q : Nat) (f : SeqDesc → SeqDesc) (d : Dev) : (updSeq q f d).cells = d.cells := rfl
@[simp] theorem updSeq_freeIdx (q : Nat) (f : SeqDesc → SeqDesc) (d : Dev) : (updSeq q f d).freeIdx = d.freeIdx := rfl

/-! `updEntry` changes `ent` alone. -/

@[simp] theorem updEntry_regs (q : Nat) (f : SeqEntry → SeqEntry) (d : Dev) : (updEntry q f d).regs = d.regs := rfl
@[simp] theorem updEntry_die (q : Nat) (f : SeqEntry → SeqEntry) (d : Dev) : (updEntry q f d).die = d.die := rfl
@[simp] theorem updEntry_mem (q : Nat) (f : SeqEntry → SeqEntry) (d : Dev) : (updEntry q f d).mem = d.mem := rfl
@[simp] theorem updEntry_tick (q : Nat) (f : SeqEntry → SeqEntry) (d : Dev) : (updEntry q f d).tick = d.tick := rfl
@[simp] theorem updEntry_ports (q : Nat) (f : SeqEntry → SeqEntry) (d : Dev) : (updEntry q f d).ports = d.ports := rfl
@[simp] theorem updEntry_power (q : Nat) (f : SeqEntry → SeqEntry) (d : Dev) : (updEntry q f d).power = d.power := rfl
@[simp] theorem updEntry_guard (q : Nat) (f : SeqEntry → SeqEntry) (d : Dev) : (updEntry q f d).guard = d.guard := rfl
@[simp] theorem updEntry_keeper (q : Nat) (f : SeqEntry → SeqEntry) (d : Dev) : (updEntry q f d).keeper = d.keeper := rfl
@[simp] theorem updEntry_tel (q : Nat) (f : SeqEntry → SeqEntry) (d : Dev) : (updEntry q f d).tel = d.tel := rfl
@[simp] theorem updEntry_cache (q : Nat) (f : SeqEntry → SeqEntry) (d : Dev) : (updEntry q f d).cache = d.cache := rfl
@[simp] theorem updEntry_wgt (q : Nat) (f : SeqEntry → SeqEntry) (d : Dev) : (updEntry q f d).wgt = d.wgt := rfl
@[simp] theorem updEntry_cells (q : Nat) (f : SeqEntry → SeqEntry) (d : Dev) : (updEntry q f d).cells = d.cells := rfl
@[simp] theorem updEntry_freeIdx (q : Nat) (f : SeqEntry → SeqEntry) (d : Dev) : (updEntry q f d).freeIdx = d.freeIdx := rfl

/-! `setHead` changes `cache` alone. -/

@[simp] theorem setHead_regs (k : Nat) (x : PageHead) (d : Dev) : (setHead k x d).regs = d.regs := rfl
@[simp] theorem setHead_die (k : Nat) (x : PageHead) (d : Dev) : (setHead k x d).die = d.die := rfl
@[simp] theorem setHead_mem (k : Nat) (x : PageHead) (d : Dev) : (setHead k x d).mem = d.mem := rfl
@[simp] theorem setHead_tick (k : Nat) (x : PageHead) (d : Dev) : (setHead k x d).tick = d.tick := rfl
@[simp] theorem setHead_ent (k : Nat) (x : PageHead) (d : Dev) : (setHead k x d).ent = d.ent := rfl
@[simp] theorem setHead_ports (k : Nat) (x : PageHead) (d : Dev) : (setHead k x d).ports = d.ports := rfl
@[simp] theorem setHead_power (k : Nat) (x : PageHead) (d : Dev) : (setHead k x d).power = d.power := rfl
@[simp] theorem setHead_guard (k : Nat) (x : PageHead) (d : Dev) : (setHead k x d).guard = d.guard := rfl
@[simp] theorem setHead_keeper (k : Nat) (x : PageHead) (d : Dev) : (setHead k x d).keeper = d.keeper := rfl
@[simp] theorem setHead_tel (k : Nat) (x : PageHead) (d : Dev) : (setHead k x d).tel = d.tel := rfl
@[simp] theorem setHead_wgt (k : Nat) (x : PageHead) (d : Dev) : (setHead k x d).wgt = d.wgt := rfl
@[simp] theorem setHead_cells (k : Nat) (x : PageHead) (d : Dev) : (setHead k x d).cells = d.cells := rfl
@[simp] theorem setHead_freeIdx (k : Nat) (x : PageHead) (d : Dev) : (setHead k x d).freeIdx = d.freeIdx := rfl

/-! `setPtr` changes `cache` alone. -/

@[simp] theorem setPtr_regs (u e v : Nat) (d : Dev) : (setPtr u e v d).regs = d.regs := rfl
@[simp] theorem setPtr_die (u e v : Nat) (d : Dev) : (setPtr u e v d).die = d.die := rfl
@[simp] theorem setPtr_mem (u e v : Nat) (d : Dev) : (setPtr u e v d).mem = d.mem := rfl
@[simp] theorem setPtr_tick (u e v : Nat) (d : Dev) : (setPtr u e v d).tick = d.tick := rfl
@[simp] theorem setPtr_ent (u e v : Nat) (d : Dev) : (setPtr u e v d).ent = d.ent := rfl
@[simp] theorem setPtr_ports (u e v : Nat) (d : Dev) : (setPtr u e v d).ports = d.ports := rfl
@[simp] theorem setPtr_power (u e v : Nat) (d : Dev) : (setPtr u e v d).power = d.power := rfl
@[simp] theorem setPtr_guard (u e v : Nat) (d : Dev) : (setPtr u e v d).guard = d.guard := rfl
@[simp] theorem setPtr_keeper (u e v : Nat) (d : Dev) : (setPtr u e v d).keeper = d.keeper := rfl
@[simp] theorem setPtr_tel (u e v : Nat) (d : Dev) : (setPtr u e v d).tel = d.tel := rfl
@[simp] theorem setPtr_wgt (u e v : Nat) (d : Dev) : (setPtr u e v d).wgt = d.wgt := rfl
@[simp] theorem setPtr_cells (u e v : Nat) (d : Dev) : (setPtr u e v d).cells = d.cells := rfl
@[simp] theorem setPtr_freeIdx (u e v : Nat) (d : Dev) : (setPtr u e v d).freeIdx = d.freeIdx := rfl

/-! `updSlot` changes `wgt` alone. -/

@[simp] theorem updSlot_regs (i : Nat) (f : LoadSlot → LoadSlot) (d : Dev) : (updSlot i f d).regs = d.regs := rfl
@[simp] theorem updSlot_die (i : Nat) (f : LoadSlot → LoadSlot) (d : Dev) : (updSlot i f d).die = d.die := rfl
@[simp] theorem updSlot_mem (i : Nat) (f : LoadSlot → LoadSlot) (d : Dev) : (updSlot i f d).mem = d.mem := rfl
@[simp] theorem updSlot_tick (i : Nat) (f : LoadSlot → LoadSlot) (d : Dev) : (updSlot i f d).tick = d.tick := rfl
@[simp] theorem updSlot_ent (i : Nat) (f : LoadSlot → LoadSlot) (d : Dev) : (updSlot i f d).ent = d.ent := rfl
@[simp] theorem updSlot_ports (i : Nat) (f : LoadSlot → LoadSlot) (d : Dev) : (updSlot i f d).ports = d.ports := rfl
@[simp] theorem updSlot_power (i : Nat) (f : LoadSlot → LoadSlot) (d : Dev) : (updSlot i f d).power = d.power := rfl
@[simp] theorem updSlot_guard (i : Nat) (f : LoadSlot → LoadSlot) (d : Dev) : (updSlot i f d).guard = d.guard := rfl
@[simp] theorem updSlot_keeper (i : Nat) (f : LoadSlot → LoadSlot) (d : Dev) : (updSlot i f d).keeper = d.keeper := rfl
@[simp] theorem updSlot_tel (i : Nat) (f : LoadSlot → LoadSlot) (d : Dev) : (updSlot i f d).tel = d.tel := rfl
@[simp] theorem updSlot_cache (i : Nat) (f : LoadSlot → LoadSlot) (d : Dev) : (updSlot i f d).cache = d.cache := rfl
@[simp] theorem updSlot_cells (i : Nat) (f : LoadSlot → LoadSlot) (d : Dev) : (updSlot i f d).cells = d.cells := rfl
@[simp] theorem updSlot_freeIdx (i : Nat) (f : LoadSlot → LoadSlot) (d : Dev) : (updSlot i f d).freeIdx = d.freeIdx := rfl

/-! `setKeys` changes `wgt` alone. -/

@[simp] theorem setKeys_regs (h : Nat) (b : List Byte) (v : Bool) (d : Dev) : (setKeys h b v d).regs = d.regs := rfl
@[simp] theorem setKeys_die (h : Nat) (b : List Byte) (v : Bool) (d : Dev) : (setKeys h b v d).die = d.die := rfl
@[simp] theorem setKeys_mem (h : Nat) (b : List Byte) (v : Bool) (d : Dev) : (setKeys h b v d).mem = d.mem := rfl
@[simp] theorem setKeys_tick (h : Nat) (b : List Byte) (v : Bool) (d : Dev) : (setKeys h b v d).tick = d.tick := rfl
@[simp] theorem setKeys_ent (h : Nat) (b : List Byte) (v : Bool) (d : Dev) : (setKeys h b v d).ent = d.ent := rfl
@[simp] theorem setKeys_ports (h : Nat) (b : List Byte) (v : Bool) (d : Dev) : (setKeys h b v d).ports = d.ports := rfl
@[simp] theorem setKeys_power (h : Nat) (b : List Byte) (v : Bool) (d : Dev) : (setKeys h b v d).power = d.power := rfl
@[simp] theorem setKeys_guard (h : Nat) (b : List Byte) (v : Bool) (d : Dev) : (setKeys h b v d).guard = d.guard := rfl
@[simp] theorem setKeys_keeper (h : Nat) (b : List Byte) (v : Bool) (d : Dev) : (setKeys h b v d).keeper = d.keeper := rfl
@[simp] theorem setKeys_tel (h : Nat) (b : List Byte) (v : Bool) (d : Dev) : (setKeys h b v d).tel = d.tel := rfl
@[simp] theorem setKeys_cache (h : Nat) (b : List Byte) (v : Bool) (d : Dev) : (setKeys h b v d).cache = d.cache := rfl
@[simp] theorem setKeys_cells (h : Nat) (b : List Byte) (v : Bool) (d : Dev) : (setKeys h b v d).cells = d.cells := rfl
@[simp] theorem setKeys_freeIdx (h : Nat) (b : List Byte) (v : Bool) (d : Dev) : (setKeys h b v d).freeIdx = d.freeIdx := rfl

/-! `advanceTo` changes `tick` alone. -/

@[simp] theorem advanceTo_regs (t : Nat) (d : Dev) : (advanceTo t d).regs = d.regs := by
  unfold advanceTo
  split <;> rfl
@[simp] theorem advanceTo_die (t : Nat) (d : Dev) : (advanceTo t d).die = d.die := by
  unfold advanceTo
  split <;> rfl
@[simp] theorem advanceTo_mem (t : Nat) (d : Dev) : (advanceTo t d).mem = d.mem := by
  unfold advanceTo
  split <;> rfl
@[simp] theorem advanceTo_ent (t : Nat) (d : Dev) : (advanceTo t d).ent = d.ent := by
  unfold advanceTo
  split <;> rfl
@[simp] theorem advanceTo_ports (t : Nat) (d : Dev) : (advanceTo t d).ports = d.ports := by
  unfold advanceTo
  split <;> rfl
@[simp] theorem advanceTo_power (t : Nat) (d : Dev) : (advanceTo t d).power = d.power := by
  unfold advanceTo
  split <;> rfl
@[simp] theorem advanceTo_guard (t : Nat) (d : Dev) : (advanceTo t d).guard = d.guard := by
  unfold advanceTo
  split <;> rfl
@[simp] theorem advanceTo_keeper (t : Nat) (d : Dev) : (advanceTo t d).keeper = d.keeper := by
  unfold advanceTo
  split <;> rfl
@[simp] theorem advanceTo_tel (t : Nat) (d : Dev) : (advanceTo t d).tel = d.tel := by
  unfold advanceTo
  split <;> rfl
@[simp] theorem advanceTo_cache (t : Nat) (d : Dev) : (advanceTo t d).cache = d.cache := by
  unfold advanceTo
  split <;> rfl
@[simp] theorem advanceTo_wgt (t : Nat) (d : Dev) : (advanceTo t d).wgt = d.wgt := by
  unfold advanceTo
  split <;> rfl
@[simp] theorem advanceTo_cells (t : Nat) (d : Dev) : (advanceTo t d).cells = d.cells := by
  unfold advanceTo
  split <;> rfl
@[simp] theorem advanceTo_freeIdx (t : Nat) (d : Dev) : (advanceTo t d).freeIdx = d.freeIdx := by
  unfold advanceTo
  split <;> rfl

/-! ### Reads after named updates -/

theorem getPort_setPort (d : Dev) (p : PortId) (x : Port) (q : PortId) :
    getPort (setPort d p x) q = if q = p then x else getPort d q := by
  unfold getPort setPort
  rw [tblGet_set]
  simp [Fin.ext_iff]

theorem cellOf_updCell (c : CellId) (f : CellSt → CellSt) (d : Dev) (e : CellId) :
    cellOf (updCell c f d) e = if e = c then f (cellOf d c) else cellOf d e := by
  unfold updCell
  show tblGet {} (tblSet {} d.cells c.val (f (cellOf d c))) e.val = _
  rw [tblGet_set]
  simp only [Fin.ext_iff]
  rfl

theorem seqDesc_updSeq (q : Nat) (f : SeqDesc → SeqDesc) (d : Dev) (p : Nat) :
    seqDesc (updSeq q f d) p = if p = q then f (seqDesc d q) else seqDesc d p := by
  show tblGet {} (tblSet {} d.cache.seqs q (f (tblGet {} d.cache.seqs q))) p = _
  rw [tblGet_set]
  rfl

theorem seqEntry_updEntry (q : Nat) (f : SeqEntry → SeqEntry) (d : Dev) (p : Nat) :
    seqEntry (updEntry q f d) p = if p = q then f (seqEntry d q) else seqEntry d p := by
  show tblGet {} (tblSet {} d.ent.seqTab q (f (tblGet {} d.ent.seqTab q))) p = _
  rw [tblGet_set]
  rfl

theorem wSlot_updSlot (i : Nat) (f : LoadSlot → LoadSlot) (d : Dev) (j : Nat) :
    wSlot (updSlot i f d) j = if j = i then f (wSlot d i) else wSlot d j := by
  show tblGet {} (tblSet {} d.wgt.slots i (f (tblGet {} d.wgt.slots i))) j = _
  rw [tblGet_set]
  rfl

theorem tag_setTag (d : Dev) (k : Nat) (t : Tag) (j : Nat) :
    tblGet .clean (setTag d k t).mem.tags j = if j = k then t else tblGet .clean d.mem.tags j :=
  tblGet_set .clean d.mem.tags k t j

theorem keySet_setKeys (h : Nat) (b : List Byte) (v : Bool) (d : Dev) (j : Nat) :
    keySet (setKeys h b v d) j = if j = h then { bytes := b, valid := v, epoch := (keySet d h).epoch + 1 } else keySet d j := by
  show tblGet {} (tblSet {} d.wgt.keys h _) j = _
  rw [tblGet_set]
  rfl

/-- The timebase after it has been brought to a value. -/
theorem advanceTo_time (t : Nat) (d : Dev) : (advanceTo t d).tick.time = max t d.tick.time := by
  unfold advanceTo
  split
  · omega
  · show t = _
    omega

end Sys2Proof.Machine
end

