-- ==== Sys2Proof/Laws/Ops.lean ====
section
/-!
SUPPORT. One lemma for each shared operation: everything it can do.
-/

namespace Sys2Proof.Machine

open Sys2Proof

/-! ### Time -/

@[simp] theorem elapse_regs (n : Nat) (d : Dev) : (elapse n d).regs = d.regs := rfl
@[simp] theorem elapse_die (n : Nat) (d : Dev) : (elapse n d).die = d.die := rfl
@[simp] theorem elapse_mem (n : Nat) (d : Dev) : (elapse n d).mem = d.mem := rfl
@[simp] theorem elapse_ent (n : Nat) (d : Dev) : (elapse n d).ent = d.ent := rfl
@[simp] theorem elapse_ports (n : Nat) (d : Dev) : (elapse n d).ports = d.ports := rfl
@[simp] theorem elapse_power (n : Nat) (d : Dev) : (elapse n d).power = d.power := rfl
@[simp] theorem elapse_guard (n : Nat) (d : Dev) : (elapse n d).guard = d.guard := rfl
@[simp] theorem elapse_keeper (n : Nat) (d : Dev) : (elapse n d).keeper = d.keeper := rfl
@[simp] theorem elapse_cells (n : Nat) (d : Dev) : (elapse n d).cells = d.cells := rfl
@[simp] theorem elapse_cache (n : Nat) (d : Dev) : (elapse n d).cache = d.cache := rfl
@[simp] theorem elapse_wgt (n : Nat) (d : Dev) : (elapse n d).wgt = d.wgt := rfl
@[simp] theorem elapse_freeIdx (n : Nat) (d : Dev) : (elapse n d).freeIdx = d.freeIdx := rfl
@[simp] theorem getReg_elapse (n : Nat) (d : Dev) (o : Nat) : getReg (elapse n d) o = getReg d o := rfl
@[simp] theorem getReg_advanceTo (t : Nat) (d : Dev) (o : Nat) : getReg (advanceTo t d) o = getReg d o := by
  simp [getReg]

/-! ### Registers under other updates -/

@[simp] theorem getReg_hiveWrite (d : Dev) (a : Nat) (bs : List Byte) (o : Nat) :
    getReg (hiveWrite d a bs) o = getReg d o := rfl
@[simp] theorem getReg_cmWrite (d : Dev) (c : CellId) (a : Nat) (bs : List Byte) (o : Nat) :
    getReg (cmWrite d c a bs) o = getReg d o := rfl
@[simp] theorem getReg_hbmWrite (d : Dev) (k : HbmKey) (a : Nat) (bs : List Byte) (o : Nat) :
    getReg (hbmWrite d k a bs) o = getReg d o := rfl
@[simp] theorem getReg_setTag (d : Dev) (k : Nat) (t : Tag) (o : Nat) : getReg (setTag d k t) o = getReg d o := rfl
@[simp] theorem getReg_setPort (d : Dev) (p : PortId) (x : Port) (o : Nat) : getReg (setPort d p x) o = getReg d o := rfl
@[simp] theorem getReg_updCell (c : CellId) (f : CellSt → CellSt) (d : Dev) (o : Nat) :
    getReg (updCell c f d) o = getReg d o := rfl
@[simp] theorem getReg_updReq (u : Nat) (f : Req → Req) (d : Dev) (o : Nat) : getReg (updReq u f d) o = getReg d o := rfl
@[simp] theorem getReg_updCache (f : CacheSt → CacheSt) (d : Dev) (o : Nat) : getReg (updCache f d) o = getReg d o := rfl
@[simp] theorem getReg_updSeq (q : Nat) (f : SeqDesc → SeqDesc) (d : Dev) (o : Nat) :
    getReg (updSeq q f d) o = getReg d o := rfl
@[simp] theorem getReg_updEntry (q : Nat) (f : SeqEntry → SeqEntry) (d : Dev) (o : Nat) :
    getReg (updEntry q f d) o = getReg d o := rfl
@[simp] theorem getReg_updSlot (i : Nat) (f : LoadSlot → LoadSlot) (d : Dev) (o : Nat) :
    getReg (updSlot i f d) o = getReg d o := rfl

@[simp] theorem cellOf_setReg (d : Dev) (o : Nat) (v : W32) (c : CellId) : cellOf (setReg d o v) c = cellOf d c := rfl
@[simp] theorem cellOf_bumpBy (d : Dev) (o n : Nat) (c : CellId) : cellOf (bumpBy d o n) c = cellOf d c := rfl
@[simp] theorem cellOf_bump (d : Dev) (o : Nat) (c : CellId) : cellOf (bump d o) c = cellOf d c := rfl

/-! ### Bring-up -/

/-- A stage that ends within its bound does its work after the time it took. -/
theorem runStage_within (n us bound : Nat) (late work : Dev → Dev) (d : Dev) (h : inStage d n = true)
    (hb : us ≤ bound) : runStage n us bound late work d = work (elapse (1000 * us) d) := by
  simp [runStage, onlyIf, h, hb]

/-- A stage that is not running changes nothing. -/
theorem runStage_outside (n us bound : Nat) (late work : Dev → Dev) (d : Dev) (h : inStage d n = false) :
    runStage n us bound late work d = d := by
  simp [runStage, onlyIf, h]

/-- The stage shown after a stage has started. -/
theorem bootStage_nextStage (n : Nat) (d : Dev) : bootStage (nextStage n d) = n % 16 := by
  show fld (getReg (setReg d R.ID_BOOT_STATUS _) R.ID_BOOT_STATUS) 3 0 = _
  rw [getReg_setReg_self, fld_setFld_self _ _ _ _ (by omega) (by omega)]
  rfl

theorem getReg_nextStage (n : Nat) (d : Dev) (o : Nat) (h : o ≠ R.ID_BOOT_STATUS) :
    getReg (nextStage n d) o = getReg d o := getReg_setReg_ne _ _ _ _ h

end Sys2Proof.Machine
end

