-- ==== Sys2Proof/Laws/Units.lean ====
section
/-!
SUPPORT. The operations that several units share, field by field: what each of them leaves alone.
-/

namespace Sys2Proof.Machine

open Sys2Proof

/-- What every step of a fold keeps, the fold keeps. -/
theorem foldl_keep {α β : Type} (g : Dev → β) (f : Dev → α → Dev) (xs : List α) (d : Dev)
    (h : ∀ d x, g (f d x) = g d) : g (xs.foldl f d) = g d := by
  induction xs generalizing d with
  | nil => rfl
  | cons x xs ih => exact (ih _).trans (h d x)

/-! `setRegFld` changes `regs` alone. -/

@[simp] theorem setRegFld_die (d : Dev) (o hi lo v : Nat) :
    (setRegFld d o hi lo v).die = d.die := rfl
@[simp] theorem setRegFld_tick (d : Dev) (o hi lo v : Nat) :
    (setRegFld d o hi lo v).tick = d.tick := rfl
@[simp] theorem setRegFld_ent (d : Dev) (o hi lo v : Nat) :
    (setRegFld d o hi lo v).ent = d.ent := rfl
@[simp] theorem setRegFld_ports (d : Dev) (o hi lo v : Nat) :
    (setRegFld d o hi lo v).ports = d.ports := rfl
@[simp] theorem setRegFld_power (d : Dev) (o hi lo v : Nat) :
    (setRegFld d o hi lo v).power = d.power := rfl
@[simp] theorem setRegFld_guard (d : Dev) (o hi lo v : Nat) :
    (setRegFld d o hi lo v).guard = d.guard := rfl
@[simp] theorem setRegFld_keeper (d : Dev) (o hi lo v : Nat) :
    (setRegFld d o hi lo v).keeper = d.keeper := rfl
@[simp] theorem setRegFld_tel (d : Dev) (o hi lo v : Nat) :
    (setRegFld d o hi lo v).tel = d.tel := rfl
@[simp] theorem setRegFld_cache (d : Dev) (o hi lo v : Nat) :
    (setRegFld d o hi lo v).cache = d.cache := rfl
@[simp] theorem setRegFld_wgt (d : Dev) (o hi lo v : Nat) :
    (setRegFld d o hi lo v).wgt = d.wgt := rfl
@[simp] theorem setRegFld_cells (d : Dev) (o hi lo v : Nat) :
    (setRegFld d o hi lo v).cells = d.cells := rfl
@[simp] theorem setRegFld_freeIdx (d : Dev) (o hi lo v : Nat) :
    (setRegFld d o hi lo v).freeIdx = d.freeIdx := rfl

/-! `setReg64` changes `regs` alone. -/

@[simp] theorem setReg64_die (d : Dev) (lo hi v : Nat) :
    (setReg64 d lo hi v).die = d.die := rfl
@[simp] theorem setReg64_tick (d : Dev) (lo hi v : Nat) :
    (setReg64 d lo hi v).tick = d.tick := rfl
@[simp] theorem setReg64_ent (d : Dev) (lo hi v : Nat) :
    (setReg64 d lo hi v).ent = d.ent := rfl
@[simp] theorem setReg64_ports (d : Dev) (lo hi v : Nat) :
    (setReg64 d lo hi v).ports = d.ports := rfl
@[simp] theorem setReg64_power (d : Dev) (lo hi v : Nat) :
    (setReg64 d lo hi v).power = d.power := rfl
@[simp] theorem setReg64_guard (d : Dev) (lo hi v : Nat) :
    (setReg64 d lo hi v).guard = d.guard := rfl
@[simp] theorem setReg64_keeper (d : Dev) (lo hi v : Nat) :
    (setReg64 d lo hi v).keeper = d.keeper := rfl
@[simp] theorem setReg64_tel (d : Dev) (lo hi v : Nat) :
    (setReg64 d lo hi v).tel = d.tel := rfl
@[simp] theorem setReg64_cache (d : Dev) (lo hi v : Nat) :
    (setReg64 d lo hi v).cache = d.cache := rfl
@[simp] theorem setReg64_wgt (d : Dev) (lo hi v : Nat) :
    (setReg64 d lo hi v).wgt = d.wgt := rfl
@[simp] theorem setReg64_cells (d : Dev) (lo hi v : Nat) :
    (setReg64 d lo hi v).cells = d.cells := rfl
@[simp] theorem setReg64_freeIdx (d : Dev) (lo hi v : Nat) :
    (setReg64 d lo hi v).freeIdx = d.freeIdx := rfl

/-! `bump64` changes `regs` alone. -/

@[simp] theorem bump64_die (d : Dev) (lo hi n : Nat) :
    (bump64 d lo hi n).die = d.die := rfl
@[simp] theorem bump64_mem (d : Dev) (lo hi n : Nat) :
    (bump64 d lo hi n).mem = d.mem := rfl
@[simp] theorem bump64_tick (d : Dev) (lo hi n : Nat) :
    (bump64 d lo hi n).tick = d.tick := rfl
@[simp] theorem bump64_ent (d : Dev) (lo hi n : Nat) :
    (bump64 d lo hi n).ent = d.ent := rfl
@[simp] theorem bump64_ports (d : Dev) (lo hi n : Nat) :
    (bump64 d lo hi n).ports = d.ports := rfl
@[simp] theorem bump64_power (d : Dev) (lo hi n : Nat) :
    (bump64 d lo hi n).power = d.power := rfl
@[simp] theorem bump64_guard (d : Dev) (lo hi n : Nat) :
    (bump64 d lo hi n).guard = d.guard := rfl
@[simp] theorem bump64_keeper (d : Dev) (lo hi n : Nat) :
    (bump64 d lo hi n).keeper = d.keeper := rfl
@[simp] theorem bump64_tel (d : Dev) (lo hi n : Nat) :
    (bump64 d lo hi n).tel = d.tel := rfl
@[simp] theorem bump64_cache (d : Dev) (lo hi n : Nat) :
    (bump64 d lo hi n).cache = d.cache := rfl
@[simp] theorem bump64_wgt (d : Dev) (lo hi n : Nat) :
    (bump64 d lo hi n).wgt = d.wgt := rfl
@[simp] theorem bump64_cells (d : Dev) (lo hi n : Nat) :
    (bump64 d lo hi n).cells = d.cells := rfl
@[simp] theorem bump64_freeIdx (d : Dev) (lo hi n : Nat) :
    (bump64 d lo hi n).freeIdx = d.freeIdx := rfl

/-! `bumpHalf` changes `regs` alone. -/

@[simp] theorem bumpHalf_die (d : Dev) (o lo n : Nat) :
    (bumpHalf d o lo n).die = d.die := rfl
@[simp] theorem bumpHalf_tick (d : Dev) (o lo n : Nat) :
    (bumpHalf d o lo n).tick = d.tick := rfl
@[simp] theorem bumpHalf_ent (d : Dev) (o lo n : Nat) :
    (bumpHalf d o lo n).ent = d.ent := rfl
@[simp] theorem bumpHalf_ports (d : Dev) (o lo n : Nat) :
    (bumpHalf d o lo n).ports = d.ports := rfl
@[simp] theorem bumpHalf_power (d : Dev) (o lo n : Nat) :
    (bumpHalf d o lo n).power = d.power := rfl
@[simp] theorem bumpHalf_guard (d : Dev) (o lo n : Nat) :
    (bumpHalf d o lo n).guard = d.guard := rfl
@[simp] theorem bumpHalf_keeper (d : Dev) (o lo n : Nat) :
    (bumpHalf d o lo n).keeper = d.keeper := rfl
@[simp] theorem bumpHalf_tel (d : Dev) (o lo n : Nat) :
    (bumpHalf d o lo n).tel = d.tel := rfl
@[simp] theorem bumpHalf_cache (d : Dev) (o lo n : Nat) :
    (bumpHalf d o lo n).cache = d.cache := rfl
@[simp] theorem bumpHalf_wgt (d : Dev) (o lo n : Nat) :
    (bumpHalf d o lo n).wgt = d.wgt := rfl
@[simp] theorem bumpHalf_cells (d : Dev) (o lo n : Nat) :
    (bumpHalf d o lo n).cells = d.cells := rfl
@[simp] theorem bumpHalf_freeIdx (d : Dev) (o lo n : Nat) :
    (bumpHalf d o lo n).freeIdx = d.freeIdx := rfl

/-! `syncAdd` changes `regs` alone. -/

@[simp] theorem syncAdd_die (d : Dev) (i : Nat) (v : W32) :
    (syncAdd d i v).die = d.die := rfl
@[simp] theorem syncAdd_mem (d : Dev) (i : Nat) (v : W32) :
    (syncAdd d i v).mem = d.mem := rfl
@[simp] theorem syncAdd_tick (d : Dev) (i : Nat) (v : W32) :
    (syncAdd d i v).tick = d.tick := rfl
@[simp] theorem syncAdd_ent (d : Dev) (i : Nat) (v : W32) :
    (syncAdd d i v).ent = d.ent := rfl
@[simp] theorem syncAdd_ports (d : Dev) (i : Nat) (v : W32) :
    (syncAdd d i v).ports = d.ports := rfl
@[simp] theorem syncAdd_power (d : Dev) (i : Nat) (v : W32) :
    (syncAdd d i v).power = d.power := rfl
@[simp] theorem syncAdd_guard (d : Dev) (i : Nat) (v : W32) :
    (syncAdd d i v).guard = d.guard := rfl
@[simp] theorem syncAdd_keeper (d : Dev) (i : Nat) (v : W32) :
    (syncAdd d i v).keeper = d.keeper := rfl
@[simp] theorem syncAdd_tel (d : Dev) (i : Nat) (v : W32) :
    (syncAdd d i v).tel = d.tel := rfl
@[simp] theorem syncAdd_cache (d : Dev) (i : Nat) (v : W32) :
    (syncAdd d i v).cache = d.cache := rfl
@[simp] theorem syncAdd_wgt (d : Dev) (i : Nat) (v : W32) :
    (syncAdd d i v).wgt = d.wgt := rfl
@[simp] theorem syncAdd_cells (d : Dev) (i : Nat) (v : W32) :
    (syncAdd d i v).cells = d.cells := rfl
@[simp] theorem syncAdd_freeIdx (d : Dev) (i : Nat) (v : W32) :
    (syncAdd d i v).freeIdx = d.freeIdx := rfl

/-! `wakeEvent` changes `power` alone. -/

@[simp] theorem wakeEvent_regs (n : Nat) (d : Dev) :
    (wakeEvent n d).regs = d.regs := by
  unfold wakeEvent
  repeat' split
  all_goals rfl
@[simp] theorem wakeEvent_die (n : Nat) (d : Dev) :
    (wakeEvent n d).die = d.die := by
  unfold wakeEvent
  repeat' split
  all_goals rfl
@[simp] theorem wakeEvent_mem (n : Nat) (d : Dev) :
    (wakeEvent n d).mem = d.mem := by
  unfold wakeEvent
  repeat' split
  all_goals rfl
@[simp] theorem wakeEvent_tick (n : Nat) (d : Dev) :
    (wakeEvent n d).tick = d.tick := by
  unfold wakeEvent
  repeat' split
  all_goals rfl
@[simp] theorem wakeEvent_ent (n : Nat) (d : Dev) :
    (wakeEvent n d).ent = d.ent := by
  unfold wakeEvent
  repeat' split
  all_goals rfl
@[simp] theorem wakeEvent_ports (n : Nat) (d : Dev) :
    (wakeEvent n d).ports = d.ports := by
  unfold wakeEvent
  repeat' split
  all_goals rfl
@[simp] theorem wakeEvent_guard (n : Nat) (d : Dev) :
    (wakeEvent n d).guard = d.guard := by
  unfold wakeEvent
  repeat' split
  all_goals rfl
@[simp] theorem wakeEvent_keeper (n : Nat) (d : Dev) :
    (wakeEvent n d).keeper = d.keeper := by
  unfold wakeEvent
  repeat' split
  all_goals rfl
@[simp] theorem wakeEvent_tel (n : Nat) (d : Dev) :
    (wakeEvent n d).tel = d.tel := by
  unfold wakeEvent
  repeat' split
  all_goals rfl
@[simp] theorem wakeEvent_cache (n : Nat) (d : Dev) :
    (wakeEvent n d).cache = d.cache := by
  unfold wakeEvent
  repeat' split
  all_goals rfl
@[simp] theorem wakeEvent_wgt (n : Nat) (d : Dev) :
    (wakeEvent n d).wgt = d.wgt := by
  unfold wakeEvent
  repeat' split
  all_goals rfl
@[simp] theorem wakeEvent_cells (n : Nat) (d : Dev) :
    (wakeEvent n d).cells = d.cells := by
  unfold wakeEvent
  repeat' split
  all_goals rfl
@[simp] theorem wakeEvent_freeIdx (n : Nat) (d : Dev) :
    (wakeEvent n d).freeIdx = d.freeIdx := by
  unfold wakeEvent
  repeat' split
  all_goals rfl
@[simp] theorem getReg_wakeEvent (n : Nat) (d : Dev) (o : Nat) :
    getReg (wakeEvent n d) o = getReg d o := getReg_congr (wakeEvent_regs n d) o

/-! `portWake` changes `power` alone. -/

@[simp] theorem portWake_regs (p : Path) (d : Dev) :
    (portWake p d).regs = d.regs := by
  cases p with
  | port q => exact wakeEvent_regs _ d
  | keeper => rfl
  | i3c => rfl
@[simp] theorem portWake_die (p : Path) (d : Dev) :
    (portWake p d).die = d.die := by
  cases p with
  | port q => exact wakeEvent_die _ d
  | keeper => rfl
  | i3c => rfl
@[simp] theorem portWake_mem (p : Path) (d : Dev) :
    (portWake p d).mem = d.mem := by
  cases p with
  | port q => exact wakeEvent_mem _ d
  | keeper => rfl
  | i3c => rfl
@[simp] theorem portWake_tick (p : Path) (d : Dev) :
    (portWake p d).tick = d.tick := by
  cases p with
  | port q => exact wakeEvent_tick _ d
  | keeper => rfl
  | i3c => rfl
@[simp] theorem portWake_ent (p : Path) (d : Dev) :
    (portWake p d).ent = d.ent := by
  cases p with
  | port q => exact wakeEvent_ent _ d
  | keeper => rfl
  | i3c => rfl
@[simp] theorem portWake_ports (p : Path) (d : Dev) :
    (portWake p d).ports = d.ports := by
  cases p with
  | port q => exact wakeEvent_ports _ d
  | keeper => rfl
  | i3c => rfl
@[simp] theorem portWake_guard (p : Path) (d : Dev) :
    (portWake p d).guard = d.guard := by
  cases p with
  | port q => exact wakeEvent_guard _ d
  | keeper => rfl
  | i3c => rfl
@[simp] theorem portWake_keeper (p : Path) (d : Dev) :
    (portWake p d).keeper = d.keeper := by
  cases p with
  | port q => exact wakeEvent_keeper _ d
  | keeper => rfl
  | i3c => rfl
@[simp] theorem portWake_tel (p : Path) (d : Dev) :
    (portWake p d).tel = d.tel := by
  cases p with
  | port q => exact wakeEvent_tel _ d
  | keeper => rfl
  | i3c => rfl
@[simp] theorem portWake_cache (p : Path) (d : Dev) :
    (portWake p d).cache = d.cache := by
  cases p with
  | port q => exact wakeEvent_cache _ d
  | keeper => rfl
  | i3c => rfl
@[simp] theorem portWake_wgt (p : Path) (d : Dev) :
    (portWake p d).wgt = d.wgt := by
  cases p with
  | port q => exact wakeEvent_wgt _ d
  | keeper => rfl
  | i3c => rfl
@[simp] theorem portWake_cells (p : Path) (d : Dev) :
    (portWake p d).cells = d.cells := by
  cases p with
  | port q => exact wakeEvent_cells _ d
  | keeper => rfl
  | i3c => rfl
@[simp] theorem portWake_freeIdx (p : Path) (d : Dev) :
    (portWake p d).freeIdx = d.freeIdx := by
  cases p with
  | port q => exact wakeEvent_freeIdx _ d
  | keeper => rfl
  | i3c => rfl
@[simp] theorem getReg_portWake (p : Path) (d : Dev) (o : Nat) :
    getReg (portWake p d) o = getReg d o := getReg_congr (portWake_regs p d) o

/-! `requestCore` changes `power` alone. -/

@[simp] theorem requestCore_regs (d : Dev) :
    (requestCore d).regs = d.regs := by
  unfold requestCore
  repeat' split
  all_goals rfl
@[simp] theorem requestCore_die (d : Dev) :
    (requestCore d).die = d.die := by
  unfold requestCore
  repeat' split
  all_goals rfl
@[simp] theorem requestCore_mem (d : Dev) :
    (requestCore d).mem = d.mem := by
  unfold requestCore
  repeat' split
  all_goals rfl
@[simp] theorem requestCore_tick (d : Dev) :
    (requestCore d).tick = d.tick := by
  unfold requestCore
  repeat' split
  all_goals rfl
@[simp] theorem requestCore_ent (d : Dev) :
    (requestCore d).ent = d.ent := by
  unfold requestCore
  repeat' split
  all_goals rfl
@[simp] theorem requestCore_ports (d : Dev) :
    (requestCore d).ports = d.ports := by
  unfold requestCore
  repeat' split
  all_goals rfl
@[simp] theorem requestCore_guard (d : Dev) :
    (requestCore d).guard = d.guard := by
  unfold requestCore
  repeat' split
  all_goals rfl
@[simp] theorem requestCore_keeper (d : Dev) :
    (requestCore d).keeper = d.keeper := by
  unfold requestCore
  repeat' split
  all_goals rfl
@[simp] theorem requestCore_tel (d : Dev) :
    (requestCore d).tel = d.tel := by
  unfold requestCore
  repeat' split
  all_goals rfl
@[simp] theorem requestCore_cache (d : Dev) :
    (requestCore d).cache = d.cache := by
  unfold requestCore
  repeat' split
  all_goals rfl
@[simp] theorem requestCore_wgt (d : Dev) :
    (requestCore d).wgt = d.wgt := by
  unfold requestCore
  repeat' split
  all_goals rfl
@[simp] theorem requestCore_cells (d : Dev) :
    (requestCore d).cells = d.cells := by
  unfold requestCore
  repeat' split
  all_goals rfl
@[simp] theorem requestCore_freeIdx (d : Dev) :
    (requestCore d).freeIdx = d.freeIdx := by
  unfold requestCore
  repeat' split
  all_goals rfl
@[simp] theorem getReg_requestCore (d : Dev) (o : Nat) :
    getReg (requestCore d) o = getReg d o := getReg_congr (requestCore_regs d) o

/-! `sendOn` changes `ports` alone. -/

@[simp] theorem sendOn_regs (p : PortId) (f : Frame) (d : Dev) :
    (sendOn p f d).regs = d.regs := by
  unfold sendOn
  split
  · rfl
  · dsimp only
    split <;> rfl
@[simp] theorem sendOn_die (p : PortId) (f : Frame) (d : Dev) :
    (sendOn p f d).die = d.die := by
  unfold sendOn
  split
  · rfl
  · dsimp only
    split <;> rfl
@[simp] theorem sendOn_mem (p : PortId) (f : Frame) (d : Dev) :
    (sendOn p f d).mem = d.mem := by
  unfold sendOn
  split
  · rfl
  · dsimp only
    split <;> rfl
@[simp] theorem sendOn_tick (p : PortId) (f : Frame) (d : Dev) :
    (sendOn p f d).tick = d.tick := by
  unfold sendOn
  split
  · rfl
  · dsimp only
    split <;> rfl
@[simp] theorem sendOn_ent (p : PortId) (f : Frame) (d : Dev) :
    (sendOn p f d).ent = d.ent := by
  unfold sendOn
  split
  · rfl
  · dsimp only
    split <;> rfl
@[simp] theorem sendOn_power (p : PortId) (f : Frame) (d : Dev) :
    (sendOn p f d).power = d.power := by
  unfold sendOn
  split
  · rfl
  · dsimp only
    split <;> rfl
@[simp] theorem sendOn_guard (p : PortId) (f : Frame) (d : Dev) :
    (sendOn p f d).guard = d.guard := by
  unfold sendOn
  split
  · rfl
  · dsimp only
    split <;> rfl
@[simp] theorem sendOn_keeper (p : PortId) (f : Frame) (d : Dev) :
    (sendOn p f d).keeper = d.keeper := by
  unfold sendOn
  split
  · rfl
  · dsimp only
    split <;> rfl
@[simp] theorem sendOn_tel (p : PortId) (f : Frame) (d : Dev) :
    (sendOn p f d).tel = d.tel := by
  unfold sendOn
  split
  · rfl
  · dsimp only
    split <;> rfl
@[simp] theorem sendOn_cache (p : PortId) (f : Frame) (d : Dev) :
    (sendOn p f d).cache = d.cache := by
  unfold sendOn
  split
  · rfl
  · dsimp only
    split <;> rfl
@[simp] theorem sendOn_wgt (p : PortId) (f : Frame) (d : Dev) :
    (sendOn p f d).wgt = d.wgt := by
  unfold sendOn
  split
  · rfl
  · dsimp only
    split <;> rfl
@[simp] theorem sendOn_cells (p : PortId) (f : Frame) (d : Dev) :
    (sendOn p f d).cells = d.cells := by
  unfold sendOn
  split
  · rfl
  · dsimp only
    split <;> rfl
@[simp] theorem sendOn_freeIdx (p : PortId) (f : Frame) (d : Dev) :
    (sendOn p f d).freeIdx = d.freeIdx := by
  unfold sendOn
  split
  · rfl
  · dsimp only
    split <;> rfl
@[simp] theorem getReg_sendOn (p : PortId) (f : Frame) (d : Dev) (o : Nat) :
    getReg (sendOn p f d) o = getReg d o := getReg_congr (sendOn_regs p f d) o

/-! `answerOn` changes `ports` alone. -/

@[simp] theorem answerOn_regs (p : PortId) (f : Frame) (bs : List Byte) (d : Dev) :
    (answerOn p f bs d).regs = d.regs := by
  unfold answerOn
  exact sendOn_regs _ _ _
@[simp] theorem answerOn_die (p : PortId) (f : Frame) (bs : List Byte) (d : Dev) :
    (answerOn p f bs d).die = d.die := by
  unfold answerOn
  exact sendOn_die _ _ _
@[simp] theorem answerOn_mem (p : PortId) (f : Frame) (bs : List Byte) (d : Dev) :
    (answerOn p f bs d).mem = d.mem := by
  unfold answerOn
  exact sendOn_mem _ _ _
@[simp] theorem answerOn_tick (p : PortId) (f : Frame) (bs : List Byte) (d : Dev) :
    (answerOn p f bs d).tick = d.tick := by
  unfold answerOn
  exact sendOn_tick _ _ _
@[simp] theorem answerOn_ent (p : PortId) (f : Frame) (bs : List Byte) (d : Dev) :
    (answerOn p f bs d).ent = d.ent := by
  unfold answerOn
  exact sendOn_ent _ _ _
@[simp] theorem answerOn_power (p : PortId) (f : Frame) (bs : List Byte) (d : Dev) :
    (answerOn p f bs d).power = d.power := by
  unfold answerOn
  exact sendOn_power _ _ _
@[simp] theorem answerOn_guard (p : PortId) (f : Frame) (bs : List Byte) (d : Dev) :
    (answerOn p f bs d).guard = d.guard := by
  unfold answerOn
  exact sendOn_guard _ _ _
@[simp] theorem answerOn_keeper (p : PortId) (f : Frame) (bs : List Byte) (d : Dev) :
    (answerOn p f bs d).keeper = d.keeper := by
  unfold answerOn
  exact sendOn_keeper _ _ _
@[simp] theorem answerOn_tel (p : PortId) (f : Frame) (bs : List Byte) (d : Dev) :
    (answerOn p f bs d).tel = d.tel := by
  unfold answerOn
  exact sendOn_tel _ _ _
@[simp] theorem answerOn_cache (p : PortId) (f : Frame) (bs : List Byte) (d : Dev) :
    (answerOn p f bs d).cache = d.cache := by
  unfold answerOn
  exact sendOn_cache _ _ _
@[simp] theorem answerOn_wgt (p : PortId) (f : Frame) (bs : List Byte) (d : Dev) :
    (answerOn p f bs d).wgt = d.wgt := by
  unfold answerOn
  exact sendOn_wgt _ _ _
@[simp] theorem answerOn_cells (p : PortId) (f : Frame) (bs : List Byte) (d : Dev) :
    (answerOn p f bs d).cells = d.cells := by
  unfold answerOn
  exact sendOn_cells _ _ _
@[simp] theorem answerOn_freeIdx (p : PortId) (f : Frame) (bs : List Byte) (d : Dev) :
    (answerOn p f bs d).freeIdx = d.freeIdx := by
  unfold answerOn
  exact sendOn_freeIdx _ _ _
@[simp] theorem getReg_answerOn (p : PortId) (f : Frame) (bs : List Byte) (d : Dev) (o : Nat) :
    getReg (answerOn p f bs d) o = getReg d o := getReg_congr (answerOn_regs p f bs d) o

/-! `sendAll` changes `ports` alone. -/

@[simp] theorem sendAll_regs (p : PortId) (fs : List Frame) (d : Dev) :
    (sendAll p fs d).regs = d.regs := by
  unfold sendAll
  induction fs generalizing d with
  | nil => rfl
  | cons f fs ih => exact (ih _).trans (sendOn_regs p f d)
@[simp] theorem sendAll_die (p : PortId) (fs : List Frame) (d : Dev) :
    (sendAll p fs d).die = d.die := by
  unfold sendAll
  induction fs generalizing d with
  | nil => rfl
  | cons f fs ih => exact (ih _).trans (sendOn_die p f d)
@[simp] theorem sendAll_mem (p : PortId) (fs : List Frame) (d : Dev) :
    (sendAll p fs d).mem = d.mem := by
  unfold sendAll
  induction fs generalizing d with
  | nil => rfl
  | cons f fs ih => exact (ih _).trans (sendOn_mem p f d)
@[simp] theorem sendAll_tick (p : PortId) (fs : List Frame) (d : Dev) :
    (sendAll p fs d).tick = d.tick := by
  unfold sendAll
  induction fs generalizing d with
  | nil => rfl
  | cons f fs ih => exact (ih _).trans (sendOn_tick p f d)
@[simp] theorem sendAll_ent (p : PortId) (fs : List Frame) (d : Dev) :
    (sendAll p fs d).ent = d.ent := by
  unfold sendAll
  induction fs generalizing d with
  | nil => rfl
  | cons f fs ih => exact (ih _).trans (sendOn_ent p f d)
@[simp] theorem sendAll_power (p : PortId) (fs : List Frame) (d : Dev) :
    (sendAll p fs d).power = d.power := by
  unfold sendAll
  induction fs generalizing d with
  | nil => rfl
  | cons f fs ih => exact (ih _).trans (sendOn_power p f d)
@[simp] theorem sendAll_guard (p : PortId) (fs : List Frame) (d : Dev) :
    (sendAll p fs d).guard = d.guard := by
  unfold sendAll
  induction fs generalizing d with
  | nil => rfl
  | cons f fs ih => exact (ih _).trans (sendOn_guard p f d)
@[simp] theorem sendAll_keeper (p : PortId) (fs : List Frame) (d : Dev) :
    (sendAll p fs d).keeper = d.keeper := by
  unfold sendAll
  induction fs generalizing d with
  | nil => rfl
  | cons f fs ih => exact (ih _).trans (sendOn_keeper p f d)
@[simp] theorem sendAll_tel (p : PortId) (fs : List Frame) (d : Dev) :
    (sendAll p fs d).tel = d.tel := by
  unfold sendAll
  induction fs generalizing d with
  | nil => rfl
  | cons f fs ih => exact (ih _).trans (sendOn_tel p f d)
@[simp] theorem sendAll_cache (p : PortId) (fs : List Frame) (d : Dev) :
    (sendAll p fs d).cache = d.cache := by
  unfold sendAll
  induction fs generalizing d with
  | nil => rfl
  | cons f fs ih => exact (ih _).trans (sendOn_cache p f d)
@[simp] theorem sendAll_wgt (p : PortId) (fs : List Frame) (d : Dev) :
    (sendAll p fs d).wgt = d.wgt := by
  unfold sendAll
  induction fs generalizing d with
  | nil => rfl
  | cons f fs ih => exact (ih _).trans (sendOn_wgt p f d)
@[simp] theorem sendAll_cells (p : PortId) (fs : List Frame) (d : Dev) :
    (sendAll p fs d).cells = d.cells := by
  unfold sendAll
  induction fs generalizing d with
  | nil => rfl
  | cons f fs ih => exact (ih _).trans (sendOn_cells p f d)
@[simp] theorem sendAll_freeIdx (p : PortId) (fs : List Frame) (d : Dev) :
    (sendAll p fs d).freeIdx = d.freeIdx := by
  unfold sendAll
  induction fs generalizing d with
  | nil => rfl
  | cons f fs ih => exact (ih _).trans (sendOn_freeIdx p f d)
@[simp] theorem getReg_sendAll (p : PortId) (fs : List Frame) (d : Dev) (o : Nat) :
    getReg (sendAll p fs d) o = getReg d o := getReg_congr (sendAll_regs p fs d) o

/-! `answerWait` changes `ports` alone. -/

@[simp] theorem answerWait_regs (p : PortId) (b : Bool) (d : Dev) (w : Wait) :
    (answerWait p b d w).regs = d.regs := by
  unfold answerWait
  exact sendOn_regs _ _ _
@[simp] theorem answerWait_die (p : PortId) (b : Bool) (d : Dev) (w : Wait) :
    (answerWait p b d w).die = d.die := by
  unfold answerWait
  exact sendOn_die _ _ _
@[simp] theorem answerWait_mem (p : PortId) (b : Bool) (d : Dev) (w : Wait) :
    (answerWait p b d w).mem = d.mem := by
  unfold answerWait
  exact sendOn_mem _ _ _
@[simp] theorem answerWait_tick (p : PortId) (b : Bool) (d : Dev) (w : Wait) :
    (answerWait p b d w).tick = d.tick := by
  unfold answerWait
  exact sendOn_tick _ _ _
@[simp] theorem answerWait_ent (p : PortId) (b : Bool) (d : Dev) (w : Wait) :
    (answerWait p b d w).ent = d.ent := by
  unfold answerWait
  exact sendOn_ent _ _ _
@[simp] theorem answerWait_power (p : PortId) (b : Bool) (d : Dev) (w : Wait) :
    (answerWait p b d w).power = d.power := by
  unfold answerWait
  exact sendOn_power _ _ _
@[simp] theorem answerWait_guard (p : PortId) (b : Bool) (d : Dev) (w : Wait) :
    (answerWait p b d w).guard = d.guard := by
  unfold answerWait
  exact sendOn_guard _ _ _
@[simp] theorem answerWait_keeper (p : PortId) (b : Bool) (d : Dev) (w : Wait) :
    (answerWait p b d w).keeper = d.keeper := by
  unfold answerWait
  exact sendOn_keeper _ _ _
@[simp] theorem answerWait_tel (p : PortId) (b : Bool) (d : Dev) (w : Wait) :
    (answerWait p b d w).tel = d.tel := by
  unfold answerWait
  exact sendOn_tel _ _ _
@[simp] theorem answerWait_cache (p : PortId) (b : Bool) (d : Dev) (w : Wait) :
    (answerWait p b d w).cache = d.cache := by
  unfold answerWait
  exact sendOn_cache _ _ _
@[simp] theorem answerWait_wgt (p : PortId) (b : Bool) (d : Dev) (w : Wait) :
    (answerWait p b d w).wgt = d.wgt := by
  unfold answerWait
  exact sendOn_wgt _ _ _
@[simp] theorem answerWait_cells (p : PortId) (b : Bool) (d : Dev) (w : Wait) :
    (answerWait p b d w).cells = d.cells := by
  unfold answerWait
  exact sendOn_cells _ _ _
@[simp] theorem answerWait_freeIdx (p : PortId) (b : Bool) (d : Dev) (w : Wait) :
    (answerWait p b d w).freeIdx = d.freeIdx := by
  unfold answerWait
  exact sendOn_freeIdx _ _ _
@[simp] theorem getReg_answerWait (p : PortId) (b : Bool) (d : Dev) (w : Wait) (o : Nat) :
    getReg (answerWait p b d w) o = getReg d o := getReg_congr (answerWait_regs p b d w) o

/-! `stopWaits` changes `ports` alone. -/

@[simp] theorem stopWaits_regs (d : Dev) :
    (stopWaits d).regs = d.regs := by
  unfold stopWaits
  refine foldl_keep (fun d => d.regs) _ _ d (fun d p => ?_)
  exact foldl_keep (fun d => d.regs) _ _ d (fun d w => answerWait_regs p true d w)
@[simp] theorem stopWaits_die (d : Dev) :
    (stopWaits d).die = d.die := by
  unfold stopWaits
  refine foldl_keep (fun d => d.die) _ _ d (fun d p => ?_)
  exact foldl_keep (fun d => d.die) _ _ d (fun d w => answerWait_die p true d w)
@[simp] theorem stopWaits_mem (d : Dev) :
    (stopWaits d).mem = d.mem := by
  unfold stopWaits
  refine foldl_keep (fun d => d.mem) _ _ d (fun d p => ?_)
  exact foldl_keep (fun d => d.mem) _ _ d (fun d w => answerWait_mem p true d w)
@[simp] theorem stopWaits_tick (d : Dev) :
    (stopWaits d).tick = d.tick := by
  unfold stopWaits
  refine foldl_keep (fun d => d.tick) _ _ d (fun d p => ?_)
  exact foldl_keep (fun d => d.tick) _ _ d (fun d w => answerWait_tick p true d w)
@[simp] theorem stopWaits_ent (d : Dev) :
    (stopWaits d).ent = d.ent := by
  unfold stopWaits
  refine foldl_keep (fun d => d.ent) _ _ d (fun d p => ?_)
  exact foldl_keep (fun d => d.ent) _ _ d (fun d w => answerWait_ent p true d w)
@[simp] theorem stopWaits_power (d : Dev) :
    (stopWaits d).power = d.power := by
  unfold stopWaits
  refine foldl_keep (fun d => d.power) _ _ d (fun d p => ?_)
  exact foldl_keep (fun d => d.power) _ _ d (fun d w => answerWait_power p true d w)
@[simp] theorem stopWaits_guard (d : Dev) :
    (stopWaits d).guard = d.guard := by
  unfold stopWaits
  refine foldl_keep (fun d => d.guard) _ _ d (fun d p => ?_)
  exact foldl_keep (fun d => d.guard) _ _ d (fun d w => answerWait_guard p true d w)
@[simp] theorem stopWaits_keeper (d : Dev) :
    (stopWaits d).keeper = d.keeper := by
  unfold stopWaits
  refine foldl_keep (fun d => d.keeper) _ _ d (fun d p => ?_)
  exact foldl_keep (fun d => d.keeper) _ _ d (fun d w => answerWait_keeper p true d w)
@[simp] theorem stopWaits_tel (d : Dev) :
    (stopWaits d).tel = d.tel := by
  unfold stopWaits
  refine foldl_keep (fun d => d.tel) _ _ d (fun d p => ?_)
  exact foldl_keep (fun d => d.tel) _ _ d (fun d w => answerWait_tel p true d w)
@[simp] theorem stopWaits_cache (d : Dev) :
    (stopWaits d).cache = d.cache := by
  unfold stopWaits
  refine foldl_keep (fun d => d.cache) _ _ d (fun d p => ?_)
  exact foldl_keep (fun d => d.cache) _ _ d (fun d w => answerWait_cache p true d w)
@[simp] theorem stopWaits_wgt (d : Dev) :
    (stopWaits d).wgt = d.wgt := by
  unfold stopWaits
  refine foldl_keep (fun d => d.wgt) _ _ d (fun d p => ?_)
  exact foldl_keep (fun d => d.wgt) _ _ d (fun d w => answerWait_wgt p true d w)
@[simp] theorem stopWaits_cells (d : Dev) :
    (stopWaits d).cells = d.cells := by
  unfold stopWaits
  refine foldl_keep (fun d => d.cells) _ _ d (fun d p => ?_)
  exact foldl_keep (fun d => d.cells) _ _ d (fun d w => answerWait_cells p true d w)
@[simp] theorem stopWaits_freeIdx (d : Dev) :
    (stopWaits d).freeIdx = d.freeIdx := by
  unfold stopWaits
  refine foldl_keep (fun d => d.freeIdx) _ _ d (fun d p => ?_)
  exact foldl_keep (fun d => d.freeIdx) _ _ d (fun d w => answerWait_freeIdx p true d w)
@[simp] theorem getReg_stopWaits (d : Dev) (o : Nat) :
    getReg (stopWaits d) o = getReg d o := getReg_congr (stopWaits_regs d) o

/-! `sendReport` changes `ports`, `regs` alone. -/

@[simp] theorem sendReport_die (b : Bool) (d : Dev) :
    (sendReport b d).die = d.die := by
  unfold sendReport
  split
  · rfl
  · exact sendOn_die _ _ _
@[simp] theorem sendReport_mem (b : Bool) (d : Dev) :
    (sendReport b d).mem = d.mem := by
  unfold sendReport
  split
  · rfl
  · exact sendOn_mem _ _ _
@[simp] theorem sendReport_tick (b : Bool) (d : Dev) :
    (sendReport b d).tick = d.tick := by
  unfold sendReport
  split
  · rfl
  · exact sendOn_tick _ _ _
@[simp] theorem sendReport_ent (b : Bool) (d : Dev) :
    (sendReport b d).ent = d.ent := by
  unfold sendReport
  split
  · rfl
  · exact sendOn_ent _ _ _
@[simp] theorem sendReport_power (b : Bool) (d : Dev) :
    (sendReport b d).power = d.power := by
  unfold sendReport
  split
  · rfl
  · exact sendOn_power _ _ _
@[simp] theorem sendReport_guard (b : Bool) (d : Dev) :
    (sendReport b d).guard = d.guard := by
  unfold sendReport
  split
  · rfl
  · exact sendOn_guard _ _ _
@[simp] theorem sendReport_keeper (b : Bool) (d : Dev) :
    (sendReport b d).keeper = d.keeper := by
  unfold sendReport
  split
  · rfl
  · exact sendOn_keeper _ _ _
@[simp] theorem sendReport_tel (b : Bool) (d : Dev) :
    (sendReport b d).tel = d.tel := by
  unfold sendReport
  split
  · rfl
  · exact sendOn_tel _ _ _
@[simp] theorem sendReport_cache (b : Bool) (d : Dev) :
    (sendReport b d).cache = d.cache := by
  unfold sendReport
  split
  · rfl
  · exact sendOn_cache _ _ _
@[simp] theorem sendReport_wgt (b : Bool) (d : Dev) :
    (sendReport b d).wgt = d.wgt := by
  unfold sendReport
  split
  · rfl
  · exact sendOn_wgt _ _ _
@[simp] theorem sendReport_cells (b : Bool) (d : Dev) :
    (sendReport b d).cells = d.cells := by
  unfold sendReport
  split
  · rfl
  · exact sendOn_cells _ _ _
@[simp] theorem sendReport_freeIdx (b : Bool) (d : Dev) :
    (sendReport b d).freeIdx = d.freeIdx := by
  unfold sendReport
  split
  · rfl
  · exact sendOn_freeIdx _ _ _

/-! `dropAttempt` changes `regs` and `power` alone. -/

@[simp] theorem dropAttempt_die (d : Dev) : (dropAttempt d).die = d.die := by unfold dropAttempt; split <;> rfl
@[simp] theorem dropAttempt_mem (d : Dev) : (dropAttempt d).mem = d.mem := by unfold dropAttempt; split <;> rfl
@[simp] theorem dropAttempt_tick (d : Dev) : (dropAttempt d).tick = d.tick := by unfold dropAttempt; split <;> rfl
@[simp] theorem dropAttempt_ent (d : Dev) : (dropAttempt d).ent = d.ent := by unfold dropAttempt; split <;> rfl
@[simp] theorem dropAttempt_ports (d : Dev) : (dropAttempt d).ports = d.ports := by unfold dropAttempt; split <;> rfl
@[simp] theorem dropAttempt_guard (d : Dev) : (dropAttempt d).guard = d.guard := by unfold dropAttempt; split <;> rfl
@[simp] theorem dropAttempt_keeper (d : Dev) : (dropAttempt d).keeper = d.keeper := by unfold dropAttempt; split <;> rfl
@[simp] theorem dropAttempt_tel (d : Dev) : (dropAttempt d).tel = d.tel := by unfold dropAttempt; split <;> rfl
@[simp] theorem dropAttempt_cache (d : Dev) : (dropAttempt d).cache = d.cache := by unfold dropAttempt; split <;> rfl
@[simp] theorem dropAttempt_wgt (d : Dev) : (dropAttempt d).wgt = d.wgt := by unfold dropAttempt; split <;> rfl
@[simp] theorem dropAttempt_cells (d : Dev) : (dropAttempt d).cells = d.cells := by unfold dropAttempt; split <;> rfl
@[simp] theorem dropAttempt_freeIdx (d : Dev) : (dropAttempt d).freeIdx = d.freeIdx := by unfold dropAttempt; split <;> rfl

/-! `stopDie` changes `ports`, `regs`, `die`, `keeper`, `power`, `guard` alone. -/

@[simp] theorem stopDie_mem (d : Dev) :
    (stopDie d).mem = d.mem := by
  unfold stopDie
  split
  · rfl
  · dsimp only
    split <;> simp only [sendReport_mem, dropAttempt_mem, stopWaits_mem]
@[simp] theorem stopDie_tick (d : Dev) :
    (stopDie d).tick = d.tick := by
  unfold stopDie
  split
  · rfl
  · dsimp only
    split <;> simp only [sendReport_tick, dropAttempt_tick, stopWaits_tick]
@[simp] theorem stopDie_ent (d : Dev) :
    (stopDie d).ent = d.ent := by
  unfold stopDie
  split
  · rfl
  · dsimp only
    split <;> simp only [sendReport_ent, dropAttempt_ent, stopWaits_ent]
@[simp] theorem stopDie_tel (d : Dev) :
    (stopDie d).tel = d.tel := by
  unfold stopDie
  split
  · rfl
  · dsimp only
    split <;> simp only [sendReport_tel, dropAttempt_tel, stopWaits_tel]
@[simp] theorem stopDie_cache (d : Dev) :
    (stopDie d).cache = d.cache := by
  unfold stopDie
  split
  · rfl
  · dsimp only
    split <;> simp only [sendReport_cache, dropAttempt_cache, stopWaits_cache]
@[simp] theorem stopDie_wgt (d : Dev) :
    (stopDie d).wgt = d.wgt := by
  unfold stopDie
  split
  · rfl
  · dsimp only
    split <;> simp only [sendReport_wgt, dropAttempt_wgt, stopWaits_wgt]
@[simp] theorem stopDie_cells (d : Dev) :
    (stopDie d).cells = d.cells := by
  unfold stopDie
  split
  · rfl
  · dsimp only
    split <;> simp only [sendReport_cells, dropAttempt_cells, stopWaits_cells]
@[simp] theorem stopDie_freeIdx (d : Dev) :
    (stopDie d).freeIdx = d.freeIdx := by
  unfold stopDie
  split
  · rfl
  · dsimp only
    split <;> simp only [sendReport_freeIdx, dropAttempt_freeIdx, stopWaits_freeIdx]

/-! `countReport` changes `regs`, `tel` alone. -/

@[simp] theorem countReport_die (n : Nat) (d : Dev) :
    (countReport n d).die = d.die := by
  unfold countReport
  repeat' split
  all_goals rfl
@[simp] theorem countReport_mem (n : Nat) (d : Dev) :
    (countReport n d).mem = d.mem := by
  unfold countReport
  repeat' split
  all_goals rfl
@[simp] theorem countReport_tick (n : Nat) (d : Dev) :
    (countReport n d).tick = d.tick := by
  unfold countReport
  repeat' split
  all_goals rfl
@[simp] theorem countReport_ent (n : Nat) (d : Dev) :
    (countReport n d).ent = d.ent := by
  unfold countReport
  repeat' split
  all_goals rfl
@[simp] theorem countReport_ports (n : Nat) (d : Dev) :
    (countReport n d).ports = d.ports := by
  unfold countReport
  repeat' split
  all_goals rfl
@[simp] theorem countReport_power (n : Nat) (d : Dev) :
    (countReport n d).power = d.power := by
  unfold countReport
  repeat' split
  all_goals rfl
@[simp] theorem countReport_guard (n : Nat) (d : Dev) :
    (countReport n d).guard = d.guard := by
  unfold countReport
  repeat' split
  all_goals rfl
@[simp] theorem countReport_keeper (n : Nat) (d : Dev) :
    (countReport n d).keeper = d.keeper := by
  unfold countReport
  repeat' split
  all_goals rfl
@[simp] theorem countReport_cache (n : Nat) (d : Dev) :
    (countReport n d).cache = d.cache := by
  unfold countReport
  repeat' split
  all_goals rfl
@[simp] theorem countReport_wgt (n : Nat) (d : Dev) :
    (countReport n d).wgt = d.wgt := by
  unfold countReport
  repeat' split
  all_goals rfl
@[simp] theorem countReport_cells (n : Nat) (d : Dev) :
    (countReport n d).cells = d.cells := by
  unfold countReport
  repeat' split
  all_goals rfl
@[simp] theorem countReport_freeIdx (n : Nat) (d : Dev) :
    (countReport n d).freeIdx = d.freeIdx := by
  unfold countReport
  repeat' split
  all_goals rfl

/-! `storeRecord` changes `regs`, `guard` alone. -/

@[simp] theorem storeRecord_die (q : Record) (d : Dev) :
    (storeRecord q d).die = d.die := by
  unfold storeRecord
  split
  · rfl
  · dsimp only
    split <;> rfl
@[simp] theorem storeRecord_mem (q : Record) (d : Dev) :
    (storeRecord q d).mem = d.mem := by
  unfold storeRecord
  split
  · rfl
  · dsimp only
    split <;> rfl
@[simp] theorem storeRecord_tick (q : Record) (d : Dev) :
    (storeRecord q d).tick = d.tick := by
  unfold storeRecord
  split
  · rfl
  · dsimp only
    split <;> rfl
@[simp] theorem storeRecord_ent (q : Record) (d : Dev) :
    (storeRecord q d).ent = d.ent := by
  unfold storeRecord
  split
  · rfl
  · dsimp only
    split <;> rfl
@[simp] theorem storeRecord_ports (q : Record) (d : Dev) :
    (storeRecord q d).ports = d.ports := by
  unfold storeRecord
  split
  · rfl
  · dsimp only
    split <;> rfl
@[simp] theorem storeRecord_power (q : Record) (d : Dev) :
    (storeRecord q d).power = d.power := by
  unfold storeRecord
  split
  · rfl
  · dsimp only
    split <;> rfl
@[simp] theorem storeRecord_keeper (q : Record) (d : Dev) :
    (storeRecord q d).keeper = d.keeper := by
  unfold storeRecord
  split
  · rfl
  · dsimp only
    split <;> rfl
@[simp] theorem storeRecord_tel (q : Record) (d : Dev) :
    (storeRecord q d).tel = d.tel := by
  unfold storeRecord
  split
  · rfl
  · dsimp only
    split <;> rfl
@[simp] theorem storeRecord_cache (q : Record) (d : Dev) :
    (storeRecord q d).cache = d.cache := by
  unfold storeRecord
  split
  · rfl
  · dsimp only
    split <;> rfl
@[simp] theorem storeRecord_wgt (q : Record) (d : Dev) :
    (storeRecord q d).wgt = d.wgt := by
  unfold storeRecord
  split
  · rfl
  · dsimp only
    split <;> rfl
@[simp] theorem storeRecord_cells (q : Record) (d : Dev) :
    (storeRecord q d).cells = d.cells := by
  unfold storeRecord
  split
  · rfl
  · dsimp only
    split <;> rfl
@[simp] theorem storeRecord_freeIdx (q : Record) (d : Dev) :
    (storeRecord q d).freeIdx = d.freeIdx := by
  unfold storeRecord
  split
  · rfl
  · dsimp only
    split <;> rfl

/-! `storeFatal` changes `regs`, `guard` alone. -/

@[simp] theorem storeFatal_die (q : Record) (d : Dev) :
    (storeFatal q d).die = d.die := by
  unfold storeFatal
  repeat' split
  all_goals rfl
@[simp] theorem storeFatal_mem (q : Record) (d : Dev) :
    (storeFatal q d).mem = d.mem := by
  unfold storeFatal
  repeat' split
  all_goals rfl
@[simp] theorem storeFatal_tick (q : Record) (d : Dev) :
    (storeFatal q d).tick = d.tick := by
  unfold storeFatal
  repeat' split
  all_goals rfl
@[simp] theorem storeFatal_ent (q : Record) (d : Dev) :
    (storeFatal q d).ent = d.ent := by
  unfold storeFatal
  repeat' split
  all_goals rfl
@[simp] theorem storeFatal_ports (q : Record) (d : Dev) :
    (storeFatal q d).ports = d.ports := by
  unfold storeFatal
  repeat' split
  all_goals rfl
@[simp] theorem storeFatal_power (q : Record) (d : Dev) :
    (storeFatal q d).power = d.power := by
  unfold storeFatal
  repeat' split
  all_goals rfl
@[simp] theorem storeFatal_keeper (q : Record) (d : Dev) :
    (storeFatal q d).keeper = d.keeper := by
  unfold storeFatal
  repeat' split
  all_goals rfl
@[simp] theorem storeFatal_tel (q : Record) (d : Dev) :
    (storeFatal q d).tel = d.tel := by
  unfold storeFatal
  repeat' split
  all_goals rfl
@[simp] theorem storeFatal_cache (q : Record) (d : Dev) :
    (storeFatal q d).cache = d.cache := by
  unfold storeFatal
  repeat' split
  all_goals rfl
@[simp] theorem storeFatal_wgt (q : Record) (d : Dev) :
    (storeFatal q d).wgt = d.wgt := by
  unfold storeFatal
  repeat' split
  all_goals rfl
@[simp] theorem storeFatal_cells (q : Record) (d : Dev) :
    (storeFatal q d).cells = d.cells := by
  unfold storeFatal
  repeat' split
  all_goals rfl
@[simp] theorem storeFatal_freeIdx (q : Record) (d : Dev) :
    (storeFatal q d).freeIdx = d.freeIdx := by
  unfold storeFatal
  repeat' split
  all_goals rfl

/-! `guardTakeAt` changes `ports`, `regs`, `die`, `keeper`, `power`, `guard`, `tel` alone. -/

@[simp] theorem guardTakeAt_mem (t : Nat) (r : Report) (d : Dev) :
    ((guardTakeAt t r d).2).mem = d.mem := by
  unfold guardTakeAt
  dsimp only
  split
  · exact countReport_mem _ d
  · split
    · rw [stopDie_mem, storeRecord_mem, storeFatal_mem]
      split <;> exact countReport_mem _ d
    · rw [storeRecord_mem]
      split <;> exact countReport_mem _ d
@[simp] theorem guardTakeAt_tick (t : Nat) (r : Report) (d : Dev) :
    ((guardTakeAt t r d).2).tick = d.tick := by
  unfold guardTakeAt
  dsimp only
  split
  · exact countReport_tick _ d
  · split
    · rw [stopDie_tick, storeRecord_tick, storeFatal_tick]
      split <;> exact countReport_tick _ d
    · rw [storeRecord_tick]
      split <;> exact countReport_tick _ d
@[simp] theorem guardTakeAt_ent (t : Nat) (r : Report) (d : Dev) :
    ((guardTakeAt t r d).2).ent = d.ent := by
  unfold guardTakeAt
  dsimp only
  split
  · exact countReport_ent _ d
  · split
    · rw [stopDie_ent, storeRecord_ent, storeFatal_ent]
      split <;> exact countReport_ent _ d
    · rw [storeRecord_ent]
      split <;> exact countReport_ent _ d
@[simp] theorem guardTakeAt_cache (t : Nat) (r : Report) (d : Dev) :
    ((guardTakeAt t r d).2).cache = d.cache := by
  unfold guardTakeAt
  dsimp only
  split
  · exact countReport_cache _ d
  · split
    · rw [stopDie_cache, storeRecord_cache, storeFatal_cache]
      split <;> exact countReport_cache _ d
    · rw [storeRecord_cache]
      split <;> exact countReport_cache _ d
@[simp] theorem guardTakeAt_wgt (t : Nat) (r : Report) (d : Dev) :
    ((guardTakeAt t r d).2).wgt = d.wgt := by
  unfold guardTakeAt
  dsimp only
  split
  · exact countReport_wgt _ d
  · split
    · rw [stopDie_wgt, storeRecord_wgt, storeFatal_wgt]
      split <;> exact countReport_wgt _ d
    · rw [storeRecord_wgt]
      split <;> exact countReport_wgt _ d
@[simp] theorem guardTakeAt_cells (t : Nat) (r : Report) (d : Dev) :
    ((guardTakeAt t r d).2).cells = d.cells := by
  unfold guardTakeAt
  dsimp only
  split
  · exact countReport_cells _ d
  · split
    · rw [stopDie_cells, storeRecord_cells, storeFatal_cells]
      split <;> exact countReport_cells _ d
    · rw [storeRecord_cells]
      split <;> exact countReport_cells _ d
@[simp] theorem guardTakeAt_freeIdx (t : Nat) (r : Report) (d : Dev) :
    ((guardTakeAt t r d).2).freeIdx = d.freeIdx := by
  unfold guardTakeAt
  dsimp only
  split
  · exact countReport_freeIdx _ d
  · split
    · rw [stopDie_freeIdx, storeRecord_freeIdx, storeFatal_freeIdx]
      split <;> exact countReport_freeIdx _ d
    · rw [storeRecord_freeIdx]
      split <;> exact countReport_freeIdx _ d

/-! `guardTake` changes `ports`, `regs`, `die`, `keeper`, `power`, `guard`, `tel` alone. -/

@[simp] theorem guardTake_mem (r : Report) (d : Dev) :
    ((guardTake r d).2).mem = d.mem := guardTakeAt_mem _ r d
@[simp] theorem guardTake_tick (r : Report) (d : Dev) :
    ((guardTake r d).2).tick = d.tick := guardTakeAt_tick _ r d
@[simp] theorem guardTake_ent (r : Report) (d : Dev) :
    ((guardTake r d).2).ent = d.ent := guardTakeAt_ent _ r d
@[simp] theorem guardTake_cache (r : Report) (d : Dev) :
    ((guardTake r d).2).cache = d.cache := guardTakeAt_cache _ r d
@[simp] theorem guardTake_wgt (r : Report) (d : Dev) :
    ((guardTake r d).2).wgt = d.wgt := guardTakeAt_wgt _ r d
@[simp] theorem guardTake_cells (r : Report) (d : Dev) :
    ((guardTake r d).2).cells = d.cells := guardTakeAt_cells _ r d
@[simp] theorem guardTake_freeIdx (r : Report) (d : Dev) :
    ((guardTake r d).2).freeIdx = d.freeIdx := guardTakeAt_freeIdx _ r d

/-! `report` changes `ports`, `regs`, `die`, `keeper`, `power`, `guard`, `tel` alone. -/

@[simp] theorem report_mem (r : Report) (d : Dev) :
    (report r d).mem = d.mem := guardTakeAt_mem _ r d
@[simp] theorem report_tick (r : Report) (d : Dev) :
    (report r d).tick = d.tick := guardTakeAt_tick _ r d
@[simp] theorem report_ent (r : Report) (d : Dev) :
    (report r d).ent = d.ent := guardTakeAt_ent _ r d
@[simp] theorem report_cache (r : Report) (d : Dev) :
    (report r d).cache = d.cache := guardTakeAt_cache _ r d
@[simp] theorem report_wgt (r : Report) (d : Dev) :
    (report r d).wgt = d.wgt := guardTakeAt_wgt _ r d
@[simp] theorem report_cells (r : Report) (d : Dev) :
    (report r d).cells = d.cells := guardTakeAt_cells _ r d
@[simp] theorem report_freeIdx (r : Report) (d : Dev) :
    (report r d).freeIdx = d.freeIdx := guardTakeAt_freeIdx _ r d

/-! `countRecord` changes `tel` alone. -/

@[simp] theorem countRecord_regs (c : Completion) (d : Dev) :
    (countRecord c d).regs = d.regs := rfl
@[simp] theorem countRecord_die (c : Completion) (d : Dev) :
    (countRecord c d).die = d.die := rfl
@[simp] theorem countRecord_mem (c : Completion) (d : Dev) :
    (countRecord c d).mem = d.mem := rfl
@[simp] theorem countRecord_tick (c : Completion) (d : Dev) :
    (countRecord c d).tick = d.tick := rfl
@[simp] theorem countRecord_ent (c : Completion) (d : Dev) :
    (countRecord c d).ent = d.ent := rfl
@[simp] theorem countRecord_ports (c : Completion) (d : Dev) :
    (countRecord c d).ports = d.ports := rfl
@[simp] theorem countRecord_power (c : Completion) (d : Dev) :
    (countRecord c d).power = d.power := rfl
@[simp] theorem countRecord_guard (c : Completion) (d : Dev) :
    (countRecord c d).guard = d.guard := rfl
@[simp] theorem countRecord_keeper (c : Completion) (d : Dev) :
    (countRecord c d).keeper = d.keeper := rfl
@[simp] theorem countRecord_cache (c : Completion) (d : Dev) :
    (countRecord c d).cache = d.cache := rfl
@[simp] theorem countRecord_wgt (c : Completion) (d : Dev) :
    (countRecord c d).wgt = d.wgt := rfl
@[simp] theorem countRecord_cells (c : Completion) (d : Dev) :
    (countRecord c d).cells = d.cells := rfl
@[simp] theorem countRecord_freeIdx (c : Completion) (d : Dev) :
    (countRecord c d).freeIdx = d.freeIdx := rfl
@[simp] theorem getReg_countRecord (c : Completion) (d : Dev) (o : Nat) :
    getReg (countRecord c d) o = getReg d o := getReg_congr (countRecord_regs c d) o

/-! `writeRecord` changes `mem`, `regs`, `tel` alone. -/

@[simp] theorem writeRecord_die (d : Dev) (r : Nat) (ctr : W32) (c : Completion) (add : Option (Nat × W32)) :
    (writeRecord d r ctr c add).die = d.die := by
  cases add with
  | none =>
    unfold writeRecord
    dsimp only
    split <;> simp
  | some a =>
    unfold writeRecord
    dsimp only
    split <;> simp
@[simp] theorem writeRecord_tick (d : Dev) (r : Nat) (ctr : W32) (c : Completion) (add : Option (Nat × W32)) :
    (writeRecord d r ctr c add).tick = d.tick := by
  cases add with
  | none =>
    unfold writeRecord
    dsimp only
    split <;> simp
  | some a =>
    unfold writeRecord
    dsimp only
    split <;> simp
@[simp] theorem writeRecord_ent (d : Dev) (r : Nat) (ctr : W32) (c : Completion) (add : Option (Nat × W32)) :
    (writeRecord d r ctr c add).ent = d.ent := by
  cases add with
  | none =>
    unfold writeRecord
    dsimp only
    split <;> simp
  | some a =>
    unfold writeRecord
    dsimp only
    split <;> simp
@[simp] theorem writeRecord_ports (d : Dev) (r : Nat) (ctr : W32) (c : Completion) (add : Option (Nat × W32)) :
    (writeRecord d r ctr c add).ports = d.ports := by
  cases add with
  | none =>
    unfold writeRecord
    dsimp only
    split <;> simp
  | some a =>
    unfold writeRecord
    dsimp only
    split <;> simp
@[simp] theorem writeRecord_power (d : Dev) (r : Nat) (ctr : W32) (c : Completion) (add : Option (Nat × W32)) :
    (writeRecord d r ctr c add).power = d.power := by
  cases add with
  | none =>
    unfold writeRecord
    dsimp only
    split <;> simp
  | some a =>
    unfold writeRecord
    dsimp only
    split <;> simp
@[simp] theorem writeRecord_guard (d : Dev) (r : Nat) (ctr : W32) (c : Completion) (add : Option (Nat × W32)) :
    (writeRecord d r ctr c add).guard = d.guard := by
  cases add with
  | none =>
    unfold writeRecord
    dsimp only
    split <;> simp
  | some a =>
    unfold writeRecord
    dsimp only
    split <;> simp
@[simp] theorem writeRecord_keeper (d : Dev) (r : Nat) (ctr : W32) (c : Completion) (add : Option (Nat × W32)) :
    (writeRecord d r ctr c add).keeper = d.keeper := by
  cases add with
  | none =>
    unfold writeRecord
    dsimp only
    split <;> simp
  | some a =>
    unfold writeRecord
    dsimp only
    split <;> simp
@[simp] theorem writeRecord_cache (d : Dev) (r : Nat) (ctr : W32) (c : Completion) (add : Option (Nat × W32)) :
    (writeRecord d r ctr c add).cache = d.cache := by
  cases add with
  | none =>
    unfold writeRecord
    dsimp only
    split <;> simp
  | some a =>
    unfold writeRecord
    dsimp only
    split <;> simp
@[simp] theorem writeRecord_wgt (d : Dev) (r : Nat) (ctr : W32) (c : Completion) (add : Option (Nat × W32)) :
    (writeRecord d r ctr c add).wgt = d.wgt := by
  cases add with
  | none =>
    unfold writeRecord
    dsimp only
    split <;> simp
  | some a =>
    unfold writeRecord
    dsimp only
    split <;> simp
@[simp] theorem writeRecord_cells (d : Dev) (r : Nat) (ctr : W32) (c : Completion) (add : Option (Nat × W32)) :
    (writeRecord d r ctr c add).cells = d.cells := by
  cases add with
  | none =>
    unfold writeRecord
    dsimp only
    split <;> simp
  | some a =>
    unfold writeRecord
    dsimp only
    split <;> simp
@[simp] theorem writeRecord_freeIdx (d : Dev) (r : Nat) (ctr : W32) (c : Completion) (add : Option (Nat × W32)) :
    (writeRecord d r ctr c add).freeIdx = d.freeIdx := by
  cases add with
  | none =>
    unfold writeRecord
    dsimp only
    split <;> simp
  | some a =>
    unfold writeRecord
    dsimp only
    split <;> simp

/-! `cmdRecord` changes `mem`, `regs`, `tel` alone. -/

@[simp] theorem cmdRecord_die (x : CmdRef) (n m : Nat) (d : Dev) :
    (cmdRecord x n m d).die = d.die := by
  unfold cmdRecord
  exact writeRecord_die d _ _ _ _
@[simp] theorem cmdRecord_tick (x : CmdRef) (n m : Nat) (d : Dev) :
    (cmdRecord x n m d).tick = d.tick := by
  unfold cmdRecord
  exact writeRecord_tick d _ _ _ _
@[simp] theorem cmdRecord_ent (x : CmdRef) (n m : Nat) (d : Dev) :
    (cmdRecord x n m d).ent = d.ent := by
  unfold cmdRecord
  exact writeRecord_ent d _ _ _ _
@[simp] theorem cmdRecord_ports (x : CmdRef) (n m : Nat) (d : Dev) :
    (cmdRecord x n m d).ports = d.ports := by
  unfold cmdRecord
  exact writeRecord_ports d _ _ _ _
@[simp] theorem cmdRecord_power (x : CmdRef) (n m : Nat) (d : Dev) :
    (cmdRecord x n m d).power = d.power := by
  unfold cmdRecord
  exact writeRecord_power d _ _ _ _
@[simp] theorem cmdRecord_guard (x : CmdRef) (n m : Nat) (d : Dev) :
    (cmdRecord x n m d).guard = d.guard := by
  unfold cmdRecord
  exact writeRecord_guard d _ _ _ _
@[simp] theorem cmdRecord_keeper (x : CmdRef) (n m : Nat) (d : Dev) :
    (cmdRecord x n m d).keeper = d.keeper := by
  unfold cmdRecord
  exact writeRecord_keeper d _ _ _ _
@[simp] theorem cmdRecord_cache (x : CmdRef) (n m : Nat) (d : Dev) :
    (cmdRecord x n m d).cache = d.cache := by
  unfold cmdRecord
  exact writeRecord_cache d _ _ _ _
@[simp] theorem cmdRecord_wgt (x : CmdRef) (n m : Nat) (d : Dev) :
    (cmdRecord x n m d).wgt = d.wgt := by
  unfold cmdRecord
  exact writeRecord_wgt d _ _ _ _
@[simp] theorem cmdRecord_cells (x : CmdRef) (n m : Nat) (d : Dev) :
    (cmdRecord x n m d).cells = d.cells := by
  unfold cmdRecord
  exact writeRecord_cells d _ _ _ _
@[simp] theorem cmdRecord_freeIdx (x : CmdRef) (n m : Nat) (d : Dev) :
    (cmdRecord x n m d).freeIdx = d.freeIdx := by
  unfold cmdRecord
  exact writeRecord_freeIdx d _ _ _ _

/-! `freshWord` changes `freeIdx` alone. -/

@[simp] theorem freshWord_regs (d : Dev) :
    ((freshWord d).2).regs = d.regs := rfl
@[simp] theorem freshWord_die (d : Dev) :
    ((freshWord d).2).die = d.die := rfl
@[simp] theorem freshWord_mem (d : Dev) :
    ((freshWord d).2).mem = d.mem := rfl
@[simp] theorem freshWord_tick (d : Dev) :
    ((freshWord d).2).tick = d.tick := rfl
@[simp] theorem freshWord_ent (d : Dev) :
    ((freshWord d).2).ent = d.ent := rfl
@[simp] theorem freshWord_ports (d : Dev) :
    ((freshWord d).2).ports = d.ports := rfl
@[simp] theorem freshWord_power (d : Dev) :
    ((freshWord d).2).power = d.power := rfl
@[simp] theorem freshWord_guard (d : Dev) :
    ((freshWord d).2).guard = d.guard := rfl
@[simp] theorem freshWord_keeper (d : Dev) :
    ((freshWord d).2).keeper = d.keeper := rfl
@[simp] theorem freshWord_tel (d : Dev) :
    ((freshWord d).2).tel = d.tel := rfl
@[simp] theorem freshWord_cache (d : Dev) :
    ((freshWord d).2).cache = d.cache := rfl
@[simp] theorem freshWord_wgt (d : Dev) :
    ((freshWord d).2).wgt = d.wgt := rfl
@[simp] theorem freshWord_cells (d : Dev) :
    ((freshWord d).2).cells = d.cells := rfl
@[simp] theorem getReg_freshWord (d : Dev) (o : Nat) :
    getReg ((freshWord d).2) o = getReg d o := getReg_congr (freshWord_regs d) o

/-! `freshNat` changes `freeIdx` alone. -/

@[simp] theorem freshNat_regs (d : Dev) :
    ((freshNat d).2).regs = d.regs := rfl
@[simp] theorem freshNat_die (d : Dev) :
    ((freshNat d).2).die = d.die := rfl
@[simp] theorem freshNat_mem (d : Dev) :
    ((freshNat d).2).mem = d.mem := rfl
@[simp] theorem freshNat_tick (d : Dev) :
    ((freshNat d).2).tick = d.tick := rfl
@[simp] theorem freshNat_ent (d : Dev) :
    ((freshNat d).2).ent = d.ent := rfl
@[simp] theorem freshNat_ports (d : Dev) :
    ((freshNat d).2).ports = d.ports := rfl
@[simp] theorem freshNat_power (d : Dev) :
    ((freshNat d).2).power = d.power := rfl
@[simp] theorem freshNat_guard (d : Dev) :
    ((freshNat d).2).guard = d.guard := rfl
@[simp] theorem freshNat_keeper (d : Dev) :
    ((freshNat d).2).keeper = d.keeper := rfl
@[simp] theorem freshNat_tel (d : Dev) :
    ((freshNat d).2).tel = d.tel := rfl
@[simp] theorem freshNat_cache (d : Dev) :
    ((freshNat d).2).cache = d.cache := rfl
@[simp] theorem freshNat_wgt (d : Dev) :
    ((freshNat d).2).wgt = d.wgt := rfl
@[simp] theorem freshNat_cells (d : Dev) :
    ((freshNat d).2).cells = d.cells := rfl
@[simp] theorem getReg_freshNat (d : Dev) (o : Nat) :
    getReg ((freshNat d).2) o = getReg d o := getReg_congr (freshNat_regs d) o

/-! `grdFlag` changes `regs` alone. -/

@[simp] theorem grdFlag_die (i : Nat) (d : Dev) :
    (grdFlag i d).die = d.die := rfl
@[simp] theorem grdFlag_mem (i : Nat) (d : Dev) :
    (grdFlag i d).mem = d.mem := rfl
@[simp] theorem grdFlag_tick (i : Nat) (d : Dev) :
    (grdFlag i d).tick = d.tick := rfl
@[simp] theorem grdFlag_ent (i : Nat) (d : Dev) :
    (grdFlag i d).ent = d.ent := rfl
@[simp] theorem grdFlag_ports (i : Nat) (d : Dev) :
    (grdFlag i d).ports = d.ports := rfl
@[simp] theorem grdFlag_power (i : Nat) (d : Dev) :
    (grdFlag i d).power = d.power := rfl
@[simp] theorem grdFlag_guard (i : Nat) (d : Dev) :
    (grdFlag i d).guard = d.guard := rfl
@[simp] theorem grdFlag_keeper (i : Nat) (d : Dev) :
    (grdFlag i d).keeper = d.keeper := rfl
@[simp] theorem grdFlag_tel (i : Nat) (d : Dev) :
    (grdFlag i d).tel = d.tel := rfl
@[simp] theorem grdFlag_cache (i : Nat) (d : Dev) :
    (grdFlag i d).cache = d.cache := rfl
@[simp] theorem grdFlag_wgt (i : Nat) (d : Dev) :
    (grdFlag i d).wgt = d.wgt := rfl
@[simp] theorem grdFlag_cells (i : Nat) (d : Dev) :
    (grdFlag i d).cells = d.cells := rfl
@[simp] theorem grdFlag_freeIdx (i : Nat) (d : Dev) :
    (grdFlag i d).freeIdx = d.freeIdx := rfl

/-- A write that applies takes effect after the wake that its path brings. -/
theorem writeAny_applied (path : Path) (off : Nat) (v : W32) (d : Dev) (h : writeFate d path off 4 = .applied) :
    writeAny path off 4 v d = writeNow off v (portWake path d) := by
  simp only [writeAny, h]

end Sys2Proof.Machine
end

