-- ==== Sys2Proof/Laws/Program.lean ====
section
/-!
SUPPORT. The operations of a cell's program and of a port, one lemma for each: what a word can do that a cell comes to, and the
fields that each named update leaves alone.
-/

namespace Sys2Proof.Machine

open Sys2Proof

/-! ### The word that a cell comes to -/

/-- A piece of a tick program changes nothing, or acts for the token that runs on a cell whose clock runs. -/
theorem onTask_cases (c : CellId) (ok : Req → Dev → Bool) (act : Token → Req → Dev → Dev) (d : Dev) :
    onTask c ok act d = d ∨ ∃ k r, cellToken d c = some k ∧ findReq d k.uid = some r ∧ alive d = true ∧
      cellClocked d c = true ∧ ok r d = true ∧ onTask c ok act d = act k r d := by
  unfold onTask
  split
  · exact .inl rfl
  · rename_i k hk
    split
    · exact .inl rfl
    · rename_i r hr
      cases h : alive d && cellClocked d c && ok r d
      · exact .inl (by simp)
      · simp only [Bool.and_eq_true] at h
        exact .inr ⟨k, r, hk, hr, h.1.1, h.1.2, h.2, by simp⟩

/-- A word that is not the one that the cell comes to changes nothing, where no word there is damaged. -/
theorem onWord_other (c : CellId) (w : IWord) (ok : Req → Dev → Bool) (act : Token → Req → Dev → Dev) (d : Dev)
    (hb : badFetch (cellOf d c) = none) (h : fetchOk (cellOf d c) w = false) : onWord c w ok act d = d := by
  rcases onTask_cases c (fun r d => fetchOk (cellOf d c) w && ok r d) act d with e | ⟨_, _, _, _, _, _, e, _⟩
  · simpa only [onWord, onFetch, hb] using e
  · simp [h] at e

/-- A damaged word stops the token of the cell that comes to it, whatever it is (R299). -/
theorem onWord_damaged (c : CellId) (w : IWord) (ok : Req → Dev → Bool) (act : Token → Req → Dev → Dev) (d : Dev)
    (k : Token) (r : Req) (a : Nat) (ha : alive d = true) (hc : cellClocked d c = true) (hk : cellToken d c = some k)
    (hr : findReq d k.uid = some r) (hb : badFetch (cellOf d c) = some a) :
    onWord c w ok act d = applyTrip c k r (.weight a) d := by
  simp [onWord, onFetch, onTask, ha, hc, hk, hr, hb]

/-- The word that a cell comes to is not damaged. -/
theorem badFetch_of_fetchOk (x : CellSt) (w : IWord) (h : fetchOk x w = true) : badFetch x = none := by
  simp only [fetchOk, Bool.and_eq_true, Option.isNone_iff_eq_none] at h
  exact h.1.1

/-- The word that the cell comes to, where its checks pass, acts. -/
theorem onWord_runs (c : CellId) (w : IWord) (ok : Req → Dev → Bool) (act : Token → Req → Dev → Dev) (d : Dev) (k : Token)
    (r : Req) (ha : alive d = true) (hc : cellClocked d c = true) (hk : cellToken d c = some k)
    (hr : findReq d k.uid = some r) (hf : fetchOk (cellOf d c) w = true) (ho : ok r d = true) :
    onWord c w ok act d = act k r d := by
  simp [onWord, onFetch, badFetch_of_fetchOk _ _ hf, onTask, ha, hc, hk, hr, hf, ho]

/-- The same of an instruction that runs and goes on to the next one. -/
theorem onCell_runs (c : CellId) (w : IWord) (ok : Req → Dev → Bool) (act : Token → Req → Dev → Dev) (d : Dev) (k : Token)
    (r : Req) (ha : alive d = true) (hc : cellClocked d c = true) (hk : cellToken d c = some k)
    (hr : findReq d k.uid = some r) (hf : fetchOk (cellOf d c) w = true) (ho : ok r d = true) :
    onCell c w ok act d = instrDone c (act k r d) :=
  onWord_runs c w ok (fun k r d => instrDone c (act k r d)) d k r ha hc hk hr hf ho

/-- A cell on which no token runs takes no word of a tick program. -/
theorem onTask_idle (c : CellId) (ok : Req → Dev → Bool) (act : Token → Req → Dev → Dev) (d : Dev)
    (h : cellToken d c = none) : onTask c ok act d = d := by
  simp [onTask, h]

/-- The words of an instruction are taken where its token still runs. -/
theorem wordsDone_runs (n : Nat) (c : CellId) (d : Dev) (h : (cellToken d c).isSome = true) :
    wordsDone n c d = updCell c (nextInstr n) d := by
  simp [wordsDone, h]

/-! `nextInstr` changes the place in the program alone. -/

@[simp] theorem nextInstr_arrays (n : Nat) (x : CellSt) : (nextInstr n x).arrays = x.arrays := rfl
@[simp] theorem nextInstr_nect (n : Nat) (x : CellSt) : (nextInstr n x).nect = x.nect := rfl
@[simp] theorem nextInstr_acc (n : Nat) (x : CellSt) : (nextInstr n x).acc = x.acc := rfl
@[simp] theorem nextInstr_accInt (n : Nat) (x : CellSt) : (nextInstr n x).accInt = x.accInt := rfl
@[simp] theorem nextInstr_regs (n : Nat) (x : CellSt) : (nextInstr n x).regs = x.regs := rfl
@[simp] theorem nextInstr_masks (n : Nat) (x : CellSt) : (nextInstr n x).masks = x.masks := rfl
@[simp] theorem nextInstr_tq (n : Nat) (x : CellSt) : (nextInstr n x).tq = x.tq := rfl
@[simp] theorem nextInstr_topk (n : Nat) (x : CellSt) : (nextInstr n x).topk = x.topk := rfl
@[simp] theorem nextInstr_topkKey (n : Nat) (x : CellSt) : (nextInstr n x).topkKey = x.topkKey := rfl
@[simp] theorem nextInstr_rms (n : Nat) (x : CellSt) : (nextInstr n x).rms = x.rms := rfl
@[simp] theorem nextInstr_rmsRows (n : Nat) (x : CellSt) : (nextInstr n x).rmsRows = x.rmsRows := rfl
@[simp] theorem nextInstr_lut0 (n : Nat) (x : CellSt) : (nextInstr n x).lut0 = x.lut0 := rfl
@[simp] theorem nextInstr_lut1 (n : Nat) (x : CellSt) : (nextInstr n x).lut1 = x.lut1 := rfl
@[simp] theorem nextInstr_lutBank (n : Nat) (x : CellSt) : (nextInstr n x).lutBank = x.lutBank := rfl
@[simp] theorem nextInstr_rows (n : Nat) (x : CellSt) : (nextInstr n x).rows = x.rows := rfl
@[simp] theorem nextInstr_sta (n : Nat) (x : CellSt) : (nextInstr n x).sta = x.sta := rfl
@[simp] theorem nextInstr_mov (n : Nat) (x : CellSt) : (nextInstr n x).mov = x.mov := rfl
@[simp] theorem nextInstr_staMasked (n : Nat) (x : CellSt) : (nextInstr n x).staMasked = x.staMasked := rfl
@[simp] theorem nextInstr_movMasked (n : Nat) (x : CellSt) : (nextInstr n x).movMasked = x.movMasked := rfl
@[simp] theorem nextInstr_lists (n : Nat) (x : CellSt) : (nextInstr n x).lists = x.lists := rfl
@[simp] theorem nextInstr_cmMasked (n : Nat) (x : CellSt) : (nextInstr n x).cmMasked = x.cmMasked := rfl
@[simp] theorem nextInstr_saturated (n : Nat) (x : CellSt) : (nextInstr n x).saturated = x.saturated := rfl
@[simp] theorem nextInstr_prog (n : Nat) (x : CellSt) : (nextInstr n x).prog = x.prog := rfl
@[simp] theorem nextInstr_badWords (n : Nat) (x : CellSt) : (nextInstr n x).badWords = x.badWords := rfl
@[simp] theorem nextInstr_mq (n : Nat) (x : CellSt) : (nextInstr n x).mq = x.mq := rfl
@[simp] theorem nextInstr_tqSeen (n : Nat) (x : CellSt) : (nextInstr n x).tqSeen = x.tqSeen := rfl
@[simp] theorem nextInstr_vq (n : Nat) (x : CellSt) : (nextInstr n x).vq = x.vq := rfl
@[simp] theorem nextInstr_extra (n : Nat) (x : CellSt) : (nextInstr n x).extra = x.extra := rfl
@[simp] theorem nextInstr_held (n : Nat) (x : CellSt) : (nextInstr n x).held = none := rfl
theorem nextInstr_place (n : Nat) (x : CellSt) : ((nextInstr n x).pc, (nextInstr n x).loops) = loopStep (x.pc + n) x.loops := rfl

/-! `holdIssue` changes `cells` alone, and of the cell the held instruction. -/

@[simp] theorem holdIssue_regs (c : CellId) (w : IWord) (d : Dev) : (holdIssue c w d).regs = d.regs := rfl
@[simp] theorem holdIssue_die (c : CellId) (w : IWord) (d : Dev) : (holdIssue c w d).die = d.die := rfl
@[simp] theorem holdIssue_mem (c : CellId) (w : IWord) (d : Dev) : (holdIssue c w d).mem = d.mem := rfl
@[simp] theorem holdIssue_tick (c : CellId) (w : IWord) (d : Dev) : (holdIssue c w d).tick = d.tick := rfl
@[simp] theorem holdIssue_ent (c : CellId) (w : IWord) (d : Dev) : (holdIssue c w d).ent = d.ent := rfl
@[simp] theorem holdIssue_ports (c : CellId) (w : IWord) (d : Dev) : (holdIssue c w d).ports = d.ports := rfl
@[simp] theorem holdIssue_power (c : CellId) (w : IWord) (d : Dev) : (holdIssue c w d).power = d.power := rfl
@[simp] theorem holdIssue_guard (c : CellId) (w : IWord) (d : Dev) : (holdIssue c w d).guard = d.guard := rfl
@[simp] theorem holdIssue_keeper (c : CellId) (w : IWord) (d : Dev) : (holdIssue c w d).keeper = d.keeper := rfl
@[simp] theorem holdIssue_tel (c : CellId) (w : IWord) (d : Dev) : (holdIssue c w d).tel = d.tel := rfl
@[simp] theorem holdIssue_cache (c : CellId) (w : IWord) (d : Dev) : (holdIssue c w d).cache = d.cache := rfl
@[simp] theorem holdIssue_wgt (c : CellId) (w : IWord) (d : Dev) : (holdIssue c w d).wgt = d.wgt := rfl
@[simp] theorem holdIssue_freeIdx (c : CellId) (w : IWord) (d : Dev) : (holdIssue c w d).freeIdx = d.freeIdx := rfl
@[simp] theorem getReg_holdIssue (c : CellId) (w : IWord) (d : Dev) (o : Nat) : getReg (holdIssue c w d) o = getReg d o := rfl

/-! `bumpFree` changes its counter and `freeIdx` alone. -/

@[simp] theorem bumpFree_die (off : Nat) (d : Dev) : (bumpFree off d).die = d.die := rfl
@[simp] theorem bumpFree_mem (off : Nat) (d : Dev) : (bumpFree off d).mem = d.mem := rfl
@[simp] theorem bumpFree_tick (off : Nat) (d : Dev) : (bumpFree off d).tick = d.tick := rfl
@[simp] theorem bumpFree_ent (off : Nat) (d : Dev) : (bumpFree off d).ent = d.ent := rfl
@[simp] theorem bumpFree_ports (off : Nat) (d : Dev) : (bumpFree off d).ports = d.ports := rfl
@[simp] theorem bumpFree_power (off : Nat) (d : Dev) : (bumpFree off d).power = d.power := rfl
@[simp] theorem bumpFree_guard (off : Nat) (d : Dev) : (bumpFree off d).guard = d.guard := rfl
@[simp] theorem bumpFree_keeper (off : Nat) (d : Dev) : (bumpFree off d).keeper = d.keeper := rfl
@[simp] theorem bumpFree_tel (off : Nat) (d : Dev) : (bumpFree off d).tel = d.tel := rfl
@[simp] theorem bumpFree_cache (off : Nat) (d : Dev) : (bumpFree off d).cache = d.cache := rfl
@[simp] theorem bumpFree_wgt (off : Nat) (d : Dev) : (bumpFree off d).wgt = d.wgt := rfl
@[simp] theorem bumpFree_cells (off : Nat) (d : Dev) : (bumpFree off d).cells = d.cells := rfl
@[simp] theorem cellOf_bumpFree (off : Nat) (d : Dev) (c : CellId) : cellOf (bumpFree off d) c = cellOf d c := rfl
theorem getReg_bumpFree_ne (off : Nat) (d : Dev) (p : Nat) (h : p ≠ off) : getReg (bumpFree off d) p = getReg d p := by
  unfold bumpFree
  rw [getReg_bumpBy, if_neg h]
  rfl

/-! ### The vector engine queue -/

/-- With nothing in its queue the mover does nothing. -/
@[simp] theorem moverRun_empty (c : CellId) (d : Dev) (h : (cellOf d c).mq = []) : moverRun c d = d := by
  simp [moverRun, h]

/-- Empty queues stay as they are. -/
theorem vqRun_empty (c : CellId) (k : Token) (r : Req) (d : Dev) (h : (cellOf d c).vq = []) (hm : (cellOf d c).mq = []) :
    vqRun c k r d = d := by
  simp [vqRun, vqSteps, h, hm]

/-- A queue whose head cannot begin stays as it is, where no transfer waits. -/
theorem vqRun_waits (c : CellId) (k : Token) (r : Req) (d : Dev) (e : VqEntry) (es : List VqEntry)
    (h : (cellOf d c).vq = e :: es) (hm : (cellOf d c).mq = []) (hw : entryReady (cellOf d c) e.word = false) :
    vqRun c k r d = d := by
  simp [vqRun, vqSteps, h, hm, hw]

/-- An array or nectar instruction whose sources are ready runs. -/
theorem onReady_runs (c : CellId) (w : IWord) (ok : Req → Dev → Bool) (regs : List Nat) (bufs : List Loc)
    (act : Token → Req → Dev → Dev) (d : Dev) (k : Token) (r : Req) (ha : alive d = true) (hc : cellClocked d c = true)
    (hk : cellToken d c = some k) (hr : findReq d k.uid = some r) (hf : fetchOk (cellOf d c) w = true)
    (ho : ok r d = true) (hs : sourcesReady c r regs bufs d = true) :
    onReady c w ok regs bufs act d = instrDone c (act k r d) := by
  rw [onReady, onWord_runs c w ok _ d k r ha hc hk hr hf ho, if_pos hs]

/-- One whose sources are not ready holds the cell's issue, and the queues go on. -/
theorem onReady_holds (c : CellId) (w : IWord) (ok : Req → Dev → Bool) (regs : List Nat) (bufs : List Loc)
    (act : Token → Req → Dev → Dev) (d : Dev) (k : Token) (r : Req) (ha : alive d = true) (hc : cellClocked d c = true)
    (hk : cellToken d c = some k) (hr : findReq d k.uid = some r) (hf : fetchOk (cellOf d c) w = true)
    (ho : ok r d = true) (hs : sourcesReady c r regs bufs d = false) :
    onReady c w ok regs bufs act d = vqRun c k r (holdIssue c w d) := by
  rw [onReady, onWord_runs c w ok _ d k r ha hc hk hr hf ho, if_neg (by simp [hs]), holdCell]

/-- A transfer that nothing holds back starts at once. -/
theorem issueMover_starts (c : CellId) (w : IWord) (ok : Req → Dev → Bool) (act : Token → Req → Dev → Dev) (d : Dev)
    (k : Token) (r : Req) (ha : alive d = true) (hc : cellClocked d c = true) (hk : cellToken d c = some k)
    (hr : findReq d k.uid = some r) (hf : fetchOk (cellOf d c) w = true) (ho : ok r d = true)
    (hw : moverWipes c w r d = false) (hb : moverHeld c r w (cellOf d c).vq (cellOf d c).mq d = false) :
    issueMover c w ok act d = instrDone c (act k r d) := by
  rw [issueMover, onWord_runs c w _ _ d k r ha hc hk hr hf (by simp [ho, hw])]
  simp [hb]

/-- One that an earlier instruction holds back waits in the mover's queue of 16. -/
theorem issueMover_queues (c : CellId) (w : IWord) (ok : Req → Dev → Bool) (act : Token → Req → Dev → Dev) (d : Dev)
    (k : Token) (r : Req) (ha : alive d = true) (hc : cellClocked d c = true) (hk : cellToken d c = some k)
    (hr : findReq d k.uid = some r) (hf : fetchOk (cellOf d c) w = true) (ho : ok r d = true)
    (hw : moverWipes c w r d = false) (hb : moverHeld c r w (cellOf d c).vq (cellOf d c).mq d = true)
    (hn : (cellOf d c).mq.length < 16) :
    issueMover c w ok act d = instrDone c (updCell c (fun x =>
      { x with mq := x.mq ++ [{ word := w, ahead := x.vq.length }] }) d) := by
  rw [issueMover, onWord_runs c w _ _ d k r ha hc hk hr hf (by simp [ho, hw])]
  simp [hb, Nat.not_le.mpr hn]

/-! ### Frames at a port -/

@[simp] theorem putOut_waits (p : PortId) (f : Frame) (x : Port) : (putOut p f x).waits = x.waits := by
  unfold putOut; split <;> rfl
@[simp] theorem putOut_kept (p : PortId) (f : Frame) (x : Port) : (putOut p f x).kept = x.kept := by
  unfold putOut; split <;> rfl
@[simp] theorem putOut_exp0 (p : PortId) (f : Frame) (x : Port) : (putOut p f x).exp0 = x.exp0 := by
  unfold putOut; split <;> rfl
@[simp] theorem putOut_exp1 (p : PortId) (f : Frame) (x : Port) : (putOut p f x).exp1 = x.exp1 := by
  unfold putOut; split <;> rfl
@[simp] theorem putOut_held (p : PortId) (f : Frame) (x : Port) : (putOut p f x).held = x.held := by
  unfold putOut; split <;> rfl
@[simp] theorem putOut_retraining (p : PortId) (f : Frame) (x : Port) : (putOut p f x).retraining = x.retraining := by
  unfold putOut; split <;> rfl
@[simp] theorem putOut_badLanes (p : PortId) (f : Frame) (x : Port) : (putOut p f x).badLanes = x.badLanes := by
  unfold putOut; split <;> rfl
@[simp] theorem putOut_retries (p : PortId) (f : Frame) (x : Port) : (putOut p f x).retries = x.retries := by
  unfold putOut; split <;> rfl
@[simp] theorem putOut_retrainDue (p : PortId) (f : Frame) (x : Port) : (putOut p f x).retrainDue = x.retrainDue := by
  unfold putOut; split <;> rfl
@[simp] theorem putOut_asm (p : PortId) (f : Frame) (x : Port) : (putOut p f x).asm = x.asm := by
  unfold putOut; split <;> rfl
@[simp] theorem putOut_helloSince (p : PortId) (f : Frame) (x : Port) : (putOut p f x).helloSince = x.helloSince := by
  unfold putOut; split <;> rfl
@[simp] theorem putOut_nextTag (p : PortId) (f : Frame) (x : Port) : (putOut p f x).nextTag = x.nextTag := by
  unfold putOut; split <;> rfl
@[simp] theorem putOut_rcvd (p : PortId) (f : Frame) (x : Port) : (putOut p f x).rcvd = x.rcvd := by
  unfold putOut; split <;> rfl
@[simp] theorem putOut_nacks (p : PortId) (f : Frame) (x : Port) : (putOut p f x).nacks = x.nacks := by
  unfold putOut; split <;> rfl
@[simp] theorem putOut_tx (p : PortId) (f : Frame) (x : Port) : (putOut p f x).tx = x.tx ++ [f] := by
  unfold putOut; split <;> rfl

/-! `linkIn` changes the receive count of its port alone. -/

@[simp] theorem linkIn_regs (p : PortId) (d : Dev) : (linkIn p d).regs = d.regs := by
  unfold linkIn; split <;> rfl
@[simp] theorem linkIn_die (p : PortId) (d : Dev) : (linkIn p d).die = d.die := by
  unfold linkIn; split <;> rfl
@[simp] theorem linkIn_mem (p : PortId) (d : Dev) : (linkIn p d).mem = d.mem := by
  unfold linkIn; split <;> rfl
@[simp] theorem linkIn_tick (p : PortId) (d : Dev) : (linkIn p d).tick = d.tick := by
  unfold linkIn; split <;> rfl
@[simp] theorem linkIn_ent (p : PortId) (d : Dev) : (linkIn p d).ent = d.ent := by
  unfold linkIn; split <;> rfl
@[simp] theorem linkIn_power (p : PortId) (d : Dev) : (linkIn p d).power = d.power := by
  unfold linkIn; split <;> rfl
@[simp] theorem linkIn_guard (p : PortId) (d : Dev) : (linkIn p d).guard = d.guard := by
  unfold linkIn; split <;> rfl
@[simp] theorem linkIn_keeper (p : PortId) (d : Dev) : (linkIn p d).keeper = d.keeper := by
  unfold linkIn; split <;> rfl
@[simp] theorem linkIn_tel (p : PortId) (d : Dev) : (linkIn p d).tel = d.tel := by
  unfold linkIn; split <;> rfl
@[simp] theorem linkIn_cache (p : PortId) (d : Dev) : (linkIn p d).cache = d.cache := by
  unfold linkIn; split <;> rfl
@[simp] theorem linkIn_wgt (p : PortId) (d : Dev) : (linkIn p d).wgt = d.wgt := by
  unfold linkIn; split <;> rfl
@[simp] theorem linkIn_cells (p : PortId) (d : Dev) : (linkIn p d).cells = d.cells := by
  unfold linkIn; split <;> rfl
@[simp] theorem linkIn_freeIdx (p : PortId) (d : Dev) : (linkIn p d).freeIdx = d.freeIdx := by
  unfold linkIn; split <;> rfl
@[simp] theorem getReg_linkIn (p : PortId) (d : Dev) (o : Nat) : getReg (linkIn p d) o = getReg d o := by
  simp [getReg]
@[simp] theorem linkIn_port_waits (p : PortId) (d : Dev) (q : PortId) : (getPort (linkIn p d) q).waits = (getPort d q).waits := by
  unfold linkIn
  split
  · rw [getPort_setPort]
    split
    · subst_vars; rfl
    · rfl
  · rfl
@[simp] theorem linkIn_port_kept (p : PortId) (d : Dev) (q : PortId) : (getPort (linkIn p d) q).kept = (getPort d q).kept := by
  unfold linkIn
  split
  · rw [getPort_setPort]
    split
    · subst_vars; rfl
    · rfl
  · rfl
@[simp] theorem linkIn_port_exp0 (p : PortId) (d : Dev) (q : PortId) : (getPort (linkIn p d) q).exp0 = (getPort d q).exp0 := by
  unfold linkIn
  split
  · rw [getPort_setPort]
    split
    · subst_vars; rfl
    · rfl
  · rfl
@[simp] theorem linkIn_port_exp1 (p : PortId) (d : Dev) (q : PortId) : (getPort (linkIn p d) q).exp1 = (getPort d q).exp1 := by
  unfold linkIn
  split
  · rw [getPort_setPort]
    split
    · subst_vars; rfl
    · rfl
  · rfl
@[simp] theorem linkIn_port_tx (p : PortId) (d : Dev) (q : PortId) : (getPort (linkIn p d) q).tx = (getPort d q).tx := by
  unfold linkIn
  split
  · rw [getPort_setPort]
    split
    · subst_vars; rfl
    · rfl
  · rfl
@[simp] theorem linkIn_port_held (p : PortId) (d : Dev) (q : PortId) : (getPort (linkIn p d) q).held = (getPort d q).held := by
  unfold linkIn
  split
  · rw [getPort_setPort]
    split
    · subst_vars; rfl
    · rfl
  · rfl
@[simp] theorem linkIn_port_retraining (p : PortId) (d : Dev) (q : PortId) : (getPort (linkIn p d) q).retraining = (getPort d q).retraining := by
  unfold linkIn
  split
  · rw [getPort_setPort]
    split
    · subst_vars; rfl
    · rfl
  · rfl
@[simp] theorem linkIn_port_badLanes (p : PortId) (d : Dev) (q : PortId) : (getPort (linkIn p d) q).badLanes = (getPort d q).badLanes := by
  unfold linkIn
  split
  · rw [getPort_setPort]
    split
    · subst_vars; rfl
    · rfl
  · rfl
@[simp] theorem linkIn_port_retries (p : PortId) (d : Dev) (q : PortId) : (getPort (linkIn p d) q).retries = (getPort d q).retries := by
  unfold linkIn
  split
  · rw [getPort_setPort]
    split
    · subst_vars; rfl
    · rfl
  · rfl
@[simp] theorem linkIn_port_retrainDue (p : PortId) (d : Dev) (q : PortId) : (getPort (linkIn p d) q).retrainDue = (getPort d q).retrainDue := by
  unfold linkIn
  split
  · rw [getPort_setPort]
    split
    · subst_vars; rfl
    · rfl
  · rfl
@[simp] theorem linkIn_port_asm (p : PortId) (d : Dev) (q : PortId) : (getPort (linkIn p d) q).asm = (getPort d q).asm := by
  unfold linkIn
  split
  · rw [getPort_setPort]
    split
    · subst_vars; rfl
    · rfl
  · rfl
@[simp] theorem linkIn_port_helloSince (p : PortId) (d : Dev) (q : PortId) : (getPort (linkIn p d) q).helloSince = (getPort d q).helloSince := by
  unfold linkIn
  split
  · rw [getPort_setPort]
    split
    · subst_vars; rfl
    · rfl
  · rfl
@[simp] theorem linkIn_port_nextTag (p : PortId) (d : Dev) (q : PortId) : (getPort (linkIn p d) q).nextTag = (getPort d q).nextTag := by
  unfold linkIn
  split
  · rw [getPort_setPort]
    split
    · subst_vars; rfl
    · rfl
  · rfl
@[simp] theorem linkIn_port_unacked (p : PortId) (d : Dev) (q : PortId) : (getPort (linkIn p d) q).unacked = (getPort d q).unacked := by
  unfold linkIn
  split
  · rw [getPort_setPort]
    split
    · subst_vars; rfl
    · rfl
  · rfl
@[simp] theorem linkIn_port_sent (p : PortId) (d : Dev) (q : PortId) : (getPort (linkIn p d) q).sent = (getPort d q).sent := by
  unfold linkIn
  split
  · rw [getPort_setPort]
    split
    · subst_vars; rfl
    · rfl
  · rfl
@[simp] theorem linkIn_port_trailers (p : PortId) (d : Dev) (q : PortId) : (getPort (linkIn p d) q).trailers = (getPort d q).trailers := by
  unfold linkIn
  split
  · rw [getPort_setPort]
    split
    · subst_vars; rfl
    · rfl
  · rfl
@[simp] theorem linkIn_port_nacks (p : PortId) (d : Dev) (q : PortId) : (getPort (linkIn p d) q).nacks = (getPort d q).nacks := by
  unfold linkIn
  split
  · rw [getPort_setPort]
    split
    · subst_vars; rfl
    · rfl
  · rfl

end Sys2Proof.Machine
end

