-- ==== Sys2Proof/Tests/Slice0.lean ====
section
/-!
SUPPORT. Tests: for each statement, states that meet its hypotheses, a boundary value of each clause among them; for each
well-formedness check, a command that it refuses; and small runs of single commands against worked examples of the spec.
-/

open Sys2Proof Sys2Proof.Machine

namespace Sys2Proof.Tests

set_option Elab.async false

/-! ### Small states -/

/-- A state with registers set. -/
def put (l : List (Nat × W32)) (d : Dev) : Dev := l.foldl (fun d e => setReg d e.1 e.2) d

/-- A locked, running die outside its domain, in an execute phase: ports 0 and 4 UP at 2.0, ring 1 an enabled command
ring, ring 2 an enabled completion ring, ring 3 disabled, tenant 5 ACTIVE on cell 4, tenant 9 FREE. -/
def dRun : Dev := {
  regs := [
    (R.ID_BOOT_STATUS, 0x19), (R.ID_LOCK, 1), (R.TICK_INPUT_CLOSE, 100), (R.TICK_ADMIT_CLOSE, 500),
    (R.TICK_DRAIN_LEN, 10), (R.TICK_BEACON_LEN, 2), (R.LNK_STATUS 0, 0xA), (R.LNK_WIDTH 0, 0xFF),
    (R.LNK_STATUS 4, 0xA), (R.LNK_WIDTH 4, 0xFFFF), (R.RNG_CFG 1, 0x13), (R.RNG_BASE 1, 1), (R.RNG_CFG 2, 0x91),
    (R.RNG_BASE 2, 2), (R.RNG_BASE 3, 3), (R.TCX_STATE 5, 1), (R.TCX_HEAD_CELLS_LO 5, 0x10),
    (R.TCX_SHAPE 5, 0x04000002), (R.TCX_SEQ_COUNT 5, 8)]
  die := { porstLow := false, digested := some [] }
  tick := { time := 1000100, joined := true, running := true, num := 1, start := 1000000 }
  keeper := { running := true } }
def sRun : State := { dev := dRun }

/-- A change of everything but the queue. -/
def sOf (f : Dev → Dev) (s : State) : State := { s with dev := f s.dev }

/-- A die in a stage of bring-up. -/
def sStage (n : Nat) : State := { dev := put [
    (R.ID_BOOT_STATUS, BitVec.ofNat 32 n), (R.LNK_STATUS 0, 0xA), (R.LNK_CFG 0, 0), (R.PWR_RMAP 0, 0x01000009), (R.PWR_RMAP 1, 1),
    (R.PWR_RMAP 2, 0x01000002), (R.PWR_RMAP 3, 0x01000003), (R.PWR_RMAP 4, 0x01000004), (R.PWR_RMAP 5, 0x01000005)] {
  die := { porstLow := false, warm := true } } }
def sJoined : State := sOf (fun d => { d with tick := { d.tick with joined := true } }) (sStage 8)
def sJoining : State := sOf (fun d => put [(R.TICK_CFG, 2)] { d with tick := { d.tick with
  joining := true, hops := [5, 5, 5, 5, 5, 5, 5, 5] } }) (sStage 8)

/-! ### Frames -/

/-- A frame from a host to any die. -/
def hostFrame (typ : Byte) (addr aux : Nat) (payload : List Byte) : Frame := sealFrame {
  typ := typ, flags := 0, tag := 1, src := 0x1FE, dst := 0x1FF, len := BitVec.ofNat 32 payload.length, tenant := 0,
  rsv := 0, addr := BitVec.ofNat 64 addr, aux := BitVec.ofNat 32 aux, crc := 0, payload := payload }
def tenantFrame (typ : Byte) (addr aux : Nat) (payload : List Byte) : Frame :=
  sealFrame { hostFrame typ addr aux payload with tenant := 5 }
def answerFrame (typ : Byte) (tag : BitVec 16) (payload : List Byte) : Frame :=
  sealFrame { hostFrame typ 0 0 payload with flags := 1, tag := tag }

/-! ### States of the doors: rings, guard, power requests, waits -/

def sWiped : State := sOf (fun d => { d with ent := { d.ent with ringWipe := [2] } }) sRun
def sGuard : State := sOf (fun d => { d with guard := { queue := [recordOf dRun (mkReport 0x21 0) 0 1] } }) sRun
def sGuardFull : State := sOf (fun d => { d with guard := { queue := List.replicate 64 (recordOf dRun (mkReport 0x30 unitTick) 0 1) } }) sRun
def sAsked : State := sOf (fun d => put [(R.PWR_ENTRY_CFG, 0x104)] { d with power := { d.power with
  attempt := some { target := 1, asked := some 5 } } }) sRun
def sWinter : State := sOf (put [(R.PWR_STATE, 3), (R.WIN_WAKE_CFG, 4)]) sRun
def sThawed : State := sOf (fun d => { d with tick := { d.tick with fromWinter := true } }) sRun
def sTickOut : State := sOf (fun d => { d with tick := { d.tick with tickOut := true, tickOutRise := 1000000 } }) sRun
def sStopped : State := sOf (fun d => { d with guard := {
  stopped := true, fatal := some (recordOf dRun (mkReport 0x41 unitPower) 1 1) } }) sRun
def sWait : State := sOf (fun d => setPort d 0 { waits := [⟨1, 0x1FE, 7, 0, 500⟩, ⟨2, 0x1FE, 7, 1, 500⟩] }) sRun
def sTrain : State := sOf (fun d => setPort (put [(R.LNK_STATUS 1, 1)] d) 1 { helloSince := some 5 }) sRun
def sDrain : State := sOf (fun d => { d with tick := { d.tick with phase := .drain } }) sRun
def sRetrain : State := sOf (fun d => setPort (setPort (put [(R.LNK_STATUS 0, 0x1A), (R.LNK_STATUS 1, 0xA)] d) 1 {
  retraining := true }) 0 { retrainDue := true }) sDrain

/-! ### Ticks and the domain -/

/-- A member of its domain at the start of tick 1, and the later points of the tick. -/
def sTick : State := sOf (fun d => { d with tick := { d.tick with member := true, inputOpen := true, admitOpen := true } }) sRun
def sAdmit : State := sOf (fun d => { d with tick := { d.tick with inputOpen := false } }) sTick
def reqToken : Token := { uid := 0, cell := 4, tick := 1, bucket := 0, charge := 9 }
def sLate : State := sOf (fun d => { d with
  tick := { d.tick with admitOpen := false }, ent := { d.ent with tokens := [reqToken] } }) sAdmit
def sBeacon : State := sOf (fun d => { d with tick := { d.tick with phase := .beacon } }) sAdmit
def sUp : State := sOf (fun d => put [(R.PWR_OP_SCHED, 3), (R.PWR_VDDC_MV, 640)] { d with power := { d.power with
  upPending := true, upTo := 1 } }) sTick
def sUpLate : State := sOf (fun d => { d with power := { d.power with droopClear := 2000000 } }) sUp
/-- The die before S of its next tick, with points latched, a voltage acknowledged, and the droop flag. -/
def sSwitch (sched : W32) (mv : Nat) (droop : Bool) : State := sOf (fun d =>
  put [(R.PWR_OP_SCHED, sched), (R.PWR_VDDC_MV, BitVec.ofNat 32 mv)] { d with power := { d.power with droopFlag := droop } }) sBeacon
def sHurry : State := sOf (fun d => { d with
  power := { d.power with ledgerFreq := [(1, 5000)] }, ent := { d.ent with tokens := [reqToken] } }) sTick
def sTickIn : State := sOf (put [(R.TICK_CFG, 4)]) sTick
def sWorker : State := sOf (fun d => put [(R.TICK_CFG, 2), (R.LNK_STATUS 1, 0xA), (R.TICK_ECHO_INTERVAL, 4),
    (R.TICK_MISS_LIMIT, 2)] {
  d with tick := { d.tick with echoSent := some (9, 5), echoAge := 8, lastBeacon := 1 } }) sTick
def sLeaving : State := sOf (fun d => { d with tick := { d.tick with leaveDue := true } }) sWorker
def sLeft : State := sOf (fun d => { d with tick := { d.tick with member := false } }) sWorker
def sQueen : State := sOf (fun d => put [(R.TICK_CFG, 0x0201), (R.LNK_STATUS 1, 0xA), (R.TICK_DOMAIN_SIZE, 8),
    (R.TICK_MISS_LIMIT, 2)] {
  d with tel := { d.tel with silent := [(3, 5)] } }) sTick
/-- The beacon of the die's next tick. -/
def beaconFor (d : Dev) : List Byte := leBytes 8 (nextNum d) ++ leBytes 8 (nextStart d) ++ leBytes 8 (now d) ++
  leBytes 4 (getReg d R.TICK_PERIOD).toNat ++ leBytes 2 (getReg d R.TICK_DOMAIN_SIZE).toNat ++ zeroBytes 1186

/-! ### Requests -/

/-- DECODE of one row by tenant 5, sequence 0, at position 0: REQ_ID 77, ring 2, port 0. -/
def reqDesc : BitVec 512 := 77 + (5 <<< 32) + (1 <<< 128) + (2 <<< 144)
def newestReq : Req := {
  uid := 0, desc := reqDesc, port := 0, src := 0x1FE, tick := 1, ctr := 0, version := 0, bucket := 0 }
def fullInput : Tbl Byte := (List.range 256).map (fun i => (i, 1))

/-- A die that holds requests and tokens of an open sequence. -/
def sWork (r : List Req) (ts : List Token) : State := sOf (fun d => { d with ent := { d.ent with
  seqTab := [(0, { isOpen := true })], reqs := r, tokens := ts, nextUid := 1 } }) sTick
def sOpen : State := sOf (fun d => { d with ent := { d.ent with
  ledgers := [{ tick := 3, credit := 100000, base := 90000 }] } }) (sWork [] [])
def sHeld : State := sOf (put [(R.TCX_STATE 5, 5)]) sOpen
def sReq : State := sWork [newestReq] [reqToken]
def sReqLate : State := sOf (fun d => { d with tick := { d.tick with inputOpen := false } }) sReq
def sTurn : State := sWork [{ newestReq with input := fullInput }] [reqToken]
def sExpress : State := sWork [{ newestReq with express := some 0 }] []
def doneReq : Req := { newestReq with resultDone := true }
def sDone : State := sWork [doneReq] [{ reqToken with st := .finished }]
def runningToken : Token := { reqToken with st := .running }
/-- A SEND in cell 4's program. -/
def sending (x : CellSt) (s : State) : State := sOf (fun d => { d with cells := [(4, { x with prog := [0x55] })] }) s
def reduceReq : Req := { newestReq with partials := [
  { cell := 4, firstHead := 0, row := 0, tile := 0, words := List.replicate 64 0x3F800000 }] }
def sReduce : State := sending {} <| sWork [reduceReq] [runningToken]
def resultReq : Req := { newestReq with tiles := [(0, zeroBytes 256), (1, zeroBytes 256)] }
def sResult : State := sending {} <| sWork [resultReq] [runningToken]
def regionReq : Req := { newestReq with region := true }
def sRegion : State := sWork [regionReq] []
/-- A partial frame for the region of sRegion. -/
def partialMsg (d : Dev) : List Byte := leBytes 2 5 ++ leBytes 2 (dieIndex d).toNat ++ zeroBytes 4 ++
  leBytes 8 (workTick regionReq) ++ zeroBytes 48
def combineReq : Req := { regionReq with cmb := [partialMsg dRun] }
def combineTurnToken : Token := { reqToken with combine := true }
def sCombine : State := sWork [combineReq] [combineTurnToken]
/-- Sequence 0 in cache control, on some dies with its home die. -/
def seqOn (n home : Nat) (d : Dev) : Dev := { d with cache := { d.cache with
  seqs := [(0, { tenant := 5, st := .live, posHi := 8, parts := n, homeDie := home })] } }
def sCombineLate : State := sOf (fun d => seqOn 1 0 { d with tick := { d.tick with inputOpen := false } })
  (sWork [regionReq] [combineTurnToken])
/-- Tenant 5 splits positions, and its sequence has a home die elsewhere. -/
def splitReq : Req := newestReq
def sSplit : State := sending {} <| sOf (fun d => seqOn 2 3 (put [(R.TCX_MODE 5, 4), (R.LNK_ROUTE 0, 0x77770777)] d)) (sWork [splitReq] [runningToken])
def gradReq : Req := { newestReq with desc := reqDesc + (5 <<< 48) }
def sGrad : State := sending {} <| sOf (seqOn 1 0) (sWork [gradReq] [runningToken])
def statsReq : Req := { newestReq with desc := reqDesc + (8 <<< 160) }
def sStats : State := sending {} <| sOf (seqOn 1 0) (sWork [statsReq] [runningToken])
def sBadSend : State := sending { badWords := [(0, 64)] } (sWork [newestReq] [runningToken])
def sOnePart : State := sending {} (sOf (fun d => seqOn 1 0 (put [(R.TCX_MODE 5, 4)] d)) (sWork [newestReq] [runningToken]))
/-- The die is the home die of a SPLIT 1 sequence, whose region stands in the tenant's combine area. -/
def sHome (f : Dev → Dev) : State := sending {} (sOf (fun d => f (seqOn 2 (dieIndex d).toNat (put [(R.TCX_MODE 5, 4)] d)))
  (sWork [regionReq] [runningToken]))
/-- An express lane with a HOT tenant, and a row in an express buffer of port 0. -/
def laneDesc : BitVec 512 := reqDesc + (2 <<< 160)
def sLane : State := sOf (fun d => setPort (put [(R.ENT_ADMIT_CFG, 1), (R.TCX_MODE 5, 1)] d) 0 {
  exp0 := { full := true } }) sOpen
def releasedReq : Req := { newestReq with express := some 0, expBuf := some (0, false), released := true }
def sReleased : State := sWork [releasedReq] [{ reqToken with cell := 0 }]
/-- A COMMIT of the candidate 0, with the SPEC field of its sequence. -/
def commitReq : Req := { newestReq with desc := reqDesc + (4 <<< 48) + (1 <<< 320), input := [] }
def sCommit (bad : Bool) : State := sOf (fun d => { d with cache := { d.cache with
  seqs := [(0, { tenant := 5, st := .live, posHi := 8, parts := 1, spec := some { base := 0, n := 1, bad := bad, parents := 0 } })] } })
  (sWork [commitReq] [reqToken])
def lateDone : LateTick := { tick := 0, drainCyc := 900000, cells := [4], overruns := [(4, 10)] }
def sLateDone : State := sOf (fun d => { d with ent := { d.ent with late := [lateDone] } }) sTick

/-! ### Commands in ring 1 -/

/-- An entry of a command with CMD_ID 5, answered on ring 2 unless said otherwise. -/
def cmdBytes (code tenant seq args : Nat) (ring : Nat := 2) : List Byte :=
  leBytes 4 5 ++ leBytes 1 code ++ zeroBytes 1 ++ leBytes 2 ring ++ leBytes 2 tenant ++ zeroBytes 2 ++ leBytes 4 seq ++
    leBytes 48 args
def cmdAt (code tenant seq args : Nat) (ring : Nat := 2) : CmdEntry := cmdEntryOf (cmdBytes code tenant seq args ring)

/-- The header of an image: shape, page, a chain of NORMALISE and OPROJ. -/
def imageBytes (shape page : Nat) : List Byte :=
  zeroBytes 12 ++ leBytes 4 shape ++ leBytes 4 page ++ zeroBytes 12 ++ leBytes 4 0x3F800000 ++ leBytes 1 1 ++ zeroBytes 2 ++
    leBytes 1 1 ++ zeroBytes 6 ++ leBytes 2 1 ++ zeroBytes 4 ++ leBytes 1 1 ++ zeroBytes 11 ++ zeroBytes 96 ++
    leBytes 8 0x10 ++ leBytes 8 0x12 ++ zeroBytes 48

/-- A die in a drain phase: tenant 5 with sequence 1 OPEN, tenant 9 with a context that passes
every check, key handle 0 valid, free frames, cost table 0. -/
def dCmd : Dev := { dRun with
  regs := [
    (R.ID_BOOT_STATUS, 0x19), (R.ID_LOCK, 1), (R.ENT_CMD_BUDGET, 100), (R.ENT_WGT_REGION_SIZE, 100),
    (R.ENT_CT_VALID 0, 1), (R.LNK_STATUS 0, 0xA), (R.RNG_CFG 1, 0x13), (R.RNG_BASE 1, 1), (R.RNG_TAIL 1, 1),
    (R.RNG_CFG 2, 0x91), (R.RNG_BASE 2, 2), (R.TCX_STATE 5, 1), (R.TCX_HEAD_CELLS_LO 5, 0x10),
    (R.TCX_SHAPE 5, 0x04000002), (R.TCX_SEQ_COUNT 5, 8), (R.TCX_VERSION 9, 7), (R.TCX_VERSION_NEXT 9, 7),
    (R.TCX_HEAD_CELLS_LO 9, 0x20), (R.TCX_SHAPE 9, 0x05000001), (R.TCX_PAGE 9, 0x1144), (R.TCX_SEQ_FIRST 9, 16),
    (R.TCX_SEQ_COUNT 9, 8), (R.TCX_CM_WINDOW 9, 0x10000), (R.TCX_STAGE_LO 9 8, 0x10), (R.TCX_STAGE_LO 9 9, 0x12)]
  tick := { dRun.tick with phase := .drain }
  ent := { seqTab := [(1, { isOpen := true })] }
  cache := { freeFrames := [(0, 6)], seqs := [(1, { tenant := 5, st := .live, parts := 1, length := 4 })] }
  wgt := { keys := [(0, { valid := true })] } }

/-- Bytes of HBM from an address. -/
def bytesAt (a : Nat) (bs : List Byte) : Tbl Byte := ((List.range bs.length).map (a + ·)).zip bs
/-- The two images. -/
def withImages (d : Dev) : Dev := { d with mem := { d.mem with
  hbm := bytesAt 0 (imageBytes 2 0) ++ bytesAt 0x200000 (imageBytes 1 0x1144)
  hbmKey := [0, 1, 2, 3, 0x8000, 0x8001, 0x8002, 0x8003].map (fun u => (u, HbmKey.tenant [])) } }

/-- The load slot of a verified image at 0x200000. -/
def slotOk (t : Nat) (v : W32) : LoadSlot := {
  st := .verified, tenant := t, version := v, dest := 0x200000, imageBytes := 4096, kvHeads := 1 }

/-- That die with the bytes of a command in ring 1. -/
def sCmd (bs : List Byte) (f : Dev → Dev := id) : State :=
  { dev := f { dCmd with mem := { hive := (bytesAt 0x1000 bs).filter (fun e => e.2 ≠ 0) } } }
def withSlot (x : LoadSlot) (d : Dev) : Dev := { d with wgt := { d.wgt with slots := [(0, x)] } }
def withReq (r : Req) (d : Dev) : Dev := { d with ent := { d.ent with reqs := [r] } }
def busySeq (d : Dev) : Dev := { d with ent := { d.ent with seqTab := [(1, { isOpen := true, lastTick := 9 })] } }
def noFrames (d : Dev) : Dev := { d with cache := { d.cache with freeFrames := [] } }




theorem witness_powerOnReset : State.reset.dev.die.porstLow = true := rfl

theorem witness_warmReset : sRun.dev.die.porstLow = false ∧ 1000 ≤ 2000 ∧ failedDigest sRun.dev = false ∧
    sRun.dev.die.digested.isSome = true := by decide

/-- A 4 KiB image with keeper firmware alone, signed under the P-384 key of RFC 6979 A.2.6, and the SHA-384 digests of its
public key and of itself; computed outside the model. -/
def signedImage : List Byte :=
  leBytes 144 0x4000000100000000012047263325fd4473fed4e03a1c238b28b19d1c3f4ba84cf5b9dff96793a508678921c6c09aefa84e24577d2db7d9158013bc80545154a26460865590eaf0f8de640c306b28e5aa062ee092aec48b9adaa57f429f02188656a4194e5b414e3aec0000000000000000000000000000000100000007000010000100000147464358 ++
  zeroBytes 3856 ++
  leBytes 96 0xfe271b742a6a0d92c150ff8fc05cb5948fb37638d666792b3332ac600e9af23d656f6cc39cf5932f8ff45e521bb9f38346befa801edd366ef9ac442e1548a6813c13ad95eac4643da79fce660614883f6b9191c6566e73d4aab8eca592bbed94
def keyDigest : List Byte := leBytes 48 0x39e29870dad929718adf94b95a1f0dd1fba77d3cbdb2ed685c4bae783133745e37b705ddeaadf856b79dd9ef2134179
def imageDigest : List Byte := leBytes 48 0xc19755dd8b7b794b1fd08a482568bf0c03e8ebd8291ea04b56360b6139fd36b31e179da80fc37d98fe6c3ff63112df6d
def goodFlash : Flash := { sfdp := true, capacity := 0x4000000, slots := [[], signedImage] }
def sFlash : State := sOf (fun d => { d with die := { d.die with warm := false, fuseKeys := [zeroBytes 48, keyDigest] } }) (sStage 2)
def sCopied : State := sOf (fun d => { d with die := { d.die with
  keeperMem := signedImage, digested := some imageDigest } }) (sStage 2)
set_option maxRecDepth 100000 in
theorem witness_stageImage : inStage sFlash.dev 2 = true ∧ sFlash.dev.die.warm = false ∧
    (slotsTried goodFlash).find? (fun e => slotPasses sFlash.dev e.2) = some (1, signedImage) ∧
    1 ≤ imageBound sFlash.dev goodFlash ∧ ∀ x ∈ imgTable (signedImage.take (imgBytes signedImage)), x.typ ≠ 2 := by
  decide +kernel
set_option maxRecDepth 100000 in
theorem witness_imageWarm : inStage sCopied.dev 2 = true ∧ sCopied.dev.die.warm = true ∧
    sCopied.dev.die.digested = some (digestOf sCopied.dev.die.keeperMem) ∧
    ∀ x ∈ imgTable sCopied.dev.die.keeperMem, x.typ ≠ 2 := by
  decide +kernel
theorem witness_stages : inStage (sStage 1).dev 1 = true ∧
    (inStage (sStage 3).dev 3 = true ∧ rmapOk (sStage 3).dev = true) ∧ inStage (sStage 4).dev 4 = true ∧
    inStage (sStage 5).dev 5 = true ∧
    (inStage (sStage 6).dev 6 = true ∧ ([0, 1, 2, 3] : List PortId).any
      (portUp (trainPorts [] [0, 1, 2, 3] (elapse (1000 * 1) (sStage 6).dev))) = true) ∧
    inStage (sStage 7).dev 7 = true ∧
    (inStage (sStage 8).dev 8 = true ∧ (sStage 8).dev.tick.joined = false ∧ (sStage 8).dev.tick.joining = false ∧
      role (sStage 8).dev ≠ 2) := by decide +kernel

def unsignedImage : List Byte := signedImage.take 4000 ++ zeroBytes 96
set_option maxRecDepth 100000 in
theorem witness_imageRefused : inStage sFlash.dev 2 = true ∧ sFlash.dev.die.warm = false ∧
    imgHeaderOk unsignedImage = true ∧ formatOk unsignedImage = true ∧ signatureOk unsignedImage = false ∧
    1 ≤ imageBound sFlash.dev { goodFlash with slots := [unsignedImage] } ∧
    1 ≤ imageBound sFlash.dev { goodFlash with sfdp := false, slots := [] } ∧ formatOk [] = false := by
  decide +kernel
theorem witness_imageDigest : inStage (sStage 2).dev 2 = true ∧ (sStage 2).dev.die.warm = true ∧
    (sStage 2).dev.die.digested ≠ some (digestOf ((sStage 2).dev.die.keeperMem)) ∧ 1 ≤ imageBound (sStage 2).dev goodFlash := by
  decide +kernel
theorem witness_bringupFail : powered (sStage 3).dev = true ∧ (sStage 3).dev.guard.stopped = false ∧
    (6#8).toNat ∈ stageCodes (bootStage (sStage 3).dev) := by decide +kernel

theorem witness_lockCheck : inStage sJoined.dev 8 = true ∧ sJoined.dev.tick.joined = true := by decide +kernel
theorem witness_joinTimeout : inStage sJoining.dev 8 = true ∧ sJoining.dev.tick.joining = true := by decide +kernel
theorem witness_lockFault : (lockFault State.reset.dev).isSome = true := by decide +kernel

theorem witness_lockedWrite : PathActs sRun .i3c ∧ locked sRun.dev = true ∧
    regAccess? (0x1000#24).toNat = some .rwl ∧ (0x1000#24).toNat % 4 = 0 := by
  refine ⟨⟨?_, ?_⟩, ?_, ?_, ?_⟩ <;> decide +kernel

theorem witness_ignoredWrite : PathActs sRun .i3c ∧ ((2 : Nat) ≠ 4 ∨ (0x3C#24).toNat % 4 ≠ 0 ∨
    (regRow? (0x3C#24).toNat = none ∧ reservedTcx sRun.dev (0x3C#24).toNat = false)) ∧
    (locked sRun.dev = true ∧ openToPorts (0x3C#24).toNat = true) ∧ PathActs sRun .keeper := by
  refine ⟨⟨?_, ?_⟩, ?_, ⟨?_, ?_⟩, ⟨?_, ?_⟩⟩ <;> decide +kernel
theorem witness_deniedWrite : PathActs sRun .i3c ∧ (Path.i3c ≠ .keeper) ∧ regAccess? (0x2008#24).toNat ≠ some .rwl ∧
    openToPorts (0x2008#24).toNat = false ∧ regRow? (0x2FFC#24).toNat = none ∧ openToPorts (0x2FFC#24).toNat = false := by
  refine ⟨⟨?_, ?_⟩, ?_, ?_, ?_, ?_, ?_⟩ <;> decide +kernel
theorem witness_deferredWrite : PathActs sRun .keeper ∧ (0x2008#24).toNat % 4 = 0 ∧
    (regRow? (0x2008#24).toNat).isSome = true ∧ locked sRun.dev = true ∧ regAccess? (0x2008#24).toNat ≠ some .rwl ∧
    deferredForKeeper (0x2008#24).toNat = true ∧ inExecute sRun.dev = true := by
  refine ⟨⟨?_, ?_⟩, ?_, ?_, ?_, ?_, ?_, ?_⟩ <;> decide +kernel

theorem witness_plainWrite : regAccess? (0x3C#24).toNat = some .rws ∧ WriteApplies sRun .i3c (0x3C#24).toNat ∧
    (0x3C#24).toNat ∉ [R.ENT_CREDIT_SCALE, R.PWR_BOOST, R.PWR_STATE_REQ, R.GRD_ACK, R.GRD_FORCE, R.KPR_WDOG] := by
  refine ⟨?_, ?_, ?_⟩
  · decide +kernel
  · show writeFate _ _ _ _ = _
    decide +kernel
  · decide +kernel
theorem witness_regWr : Accepted sRun 0 (hostFrame tREG_WR 0x3C 0 [1, 2, 3, 4]) tREG_WR ∧
    (getPort sRun.dev 0).retraining = false ∧ WriteApplies sRun (.port 0) (0x3C#24).toNat := by
  refine ⟨⟨?_, ?_, ?_, ?_⟩, ?_, ?_⟩
  · decide +kernel
  · rfl
  · decide +kernel
  · decide +kernel
  · decide +kernel
  · show writeFate _ _ _ _ = _
    decide +kernel

theorem witness_clearFlags : WriteApplies sRun .keeper R.GRD_FLAGS ∧ WriteApplies sRun .i3c R.WIN_WAKE_SRC := by
  constructor
  · show writeFate _ _ _ _ = _
    decide +kernel
  · show writeFate _ _ _ _ = _
    decide +kernel

theorem witness_syncWrites : WriteApplies sRun (.port 0) (R.SYN_VALUE (7#14).toNat) ∧
    WriteApplies sRun (.port 0) (R.SYN_ADD (7#14).toNat) := by
  constructor
  · show writeFate _ _ _ _ = _
    decide +kernel
  · show writeFate _ _ _ _ = _
    decide +kernel

theorem witness_tcxWrite : WriteApplies sRun (.port 0) (0x100000 + 256 * (9#12).toNat + (4#8).toNat) ∧
    tcxState sRun.dev (9#12).toNat = 0 ∧ regAccess? (0x100000 + 256 * (9#12).toNat + (4#8).toNat) = some .rw ∧
    WriteApplies sRun (.port 0) (0x100000 + 256 * (5#12).toNat + (4#8).toNat) ∧
    tcxState sRun.dev (5#12).toNat = 1 := by
  refine ⟨?_, ?_, ?_, ?_, ?_⟩
  · show writeFate _ _ _ _ = _
    decide +kernel
  · decide +kernel
  · decide +kernel
  · show writeFate _ _ _ _ = _
    decide +kernel
  · decide +kernel

theorem witness_clamped : WriteApplies sRun .keeper R.PWR_BOOST ∧
    WriteApplies sDrain .keeper (BitVec.ofNat 24 R.ENT_CREDIT_SCALE).toNat ∧
    WriteApplies sDrain .keeper (BitVec.ofNat 24 (R.TICK_BUDGET 255)).toNat := by
  refine ⟨?_, ?_, ?_⟩
  · show writeFate _ _ _ _ = _
    decide +kernel
  · show writeFate _ _ _ _ = _
    decide +kernel
  · show writeFate _ _ _ _ = _
    decide +kernel

theorem witness_commandDoorbell : WriteApplies sRun (.port 0) (R.RNG_DOORBELL (1#12).toNat) ∧
    bit (getReg sRun.dev (R.RNG_CFG (1#12).toNat)) 0 = true ∧ bit (getReg sRun.dev (R.RNG_CFG (1#12).toNat)) 1 = true := by
  refine ⟨?_, ?_, ?_⟩
  · show writeFate _ _ _ _ = _
    decide +kernel
  · decide +kernel
  · decide +kernel

theorem witness_completionDoorbell : WriteApplies sRun (.port 0) (R.RNG_DOORBELL (2#12).toNat) ∧
    bit (getReg sRun.dev (R.RNG_CFG (2#12).toNat)) 0 = true ∧
    bit (getReg sRun.dev (R.RNG_CFG (2#12).toNat)) 1 = false := by
  refine ⟨?_, ?_, ?_⟩
  · show writeFate _ _ _ _ = _
    decide +kernel
  · decide +kernel
  · decide +kernel

theorem witness_ringEnable : WriteApplies sRun (.port 0) (R.RNG_CFG (3#12).toNat) ∧ bit (0x11#32) 0 = true ∧
    ringEn sRun.dev (3#12).toNat = false ∧ ringMayEnable sRun.dev (3#12).toNat (0x11#32 &&& 0xFFFFF) = true ∧
    ringMayEnable sRun.dev (3#12).toNat (0x1#32 &&& 0xFFFFF) = false := by
  refine ⟨?_, ?_, ?_, ?_, ?_⟩
  · show writeFate _ _ _ _ = _
    decide +kernel
  all_goals decide +kernel
theorem witness_ringBaseSync : (∃ off : BitVec 24, off.toNat = R.RNG_BASE (3#12).toNat ∧ WriteApplies sRun (.port 0) off.toNat) ∧
    (∃ off : BitVec 24, off.toNat = R.RNG_SYNC (3#12).toNat ∧ WriteApplies sRun (.port 0) off.toNat) ∧
    WriteApplies sRun (.port 0) (R.RNG_DOORBELL (3#12).toNat) ∧ ringEn sRun.dev (3#12).toNat = false ∧
    ringEn sRun.dev (1#12).toNat = true := by
  refine ⟨⟨BitVec.ofNat 24 (R.RNG_BASE 3), rfl, ?_⟩, ⟨BitVec.ofNat 24 (R.RNG_SYNC 3), rfl, ?_⟩, ?_, ?_, ?_⟩
  · show writeFate _ _ _ _ = _
    decide +kernel
  · show writeFate _ _ _ _ = _
    decide +kernel
  · show writeFate _ _ _ _ = _
    decide +kernel
  all_goals decide +kernel
theorem witness_ringWipeEnd : alive sWiped.dev = true ∧ ringWaitsWipe sWiped.dev (2#12).toNat = true ∧
    ∀ u ∈ ringUnits sWiped.dev (2#12).toNat, (hiveTag sWiped.dev u).isWiping = false := by
  refine ⟨?_, ?_, ?_⟩ <;> decide +kernel
theorem witness_ringDisable : WriteApplies sRun (.port 0) (R.RNG_CFG (1#12).toNat) ∧ bit (0x12#32) 0 = false ∧
    ringEn sRun.dev (1#12).toNat = true ∧
    (0x12#32 &&& 0xFFFFF) = setBit (getReg sRun.dev (R.RNG_CFG (1#12).toNat)) 0 false ∧
    ringIsCmd sRun.dev (1#12).toNat = true := by
  refine ⟨?_, ?_, ?_, ?_, ?_⟩
  · show writeFate _ _ _ _ = _
    decide +kernel
  all_goals decide +kernel

theorem witness_guardWrites : WriteApplies sGuard .keeper R.GRD_ACK ∧ WriteApplies sGuard .keeper R.GRD_FORCE ∧
    WriteApplies sGuard .keeper R.KPR_WDOG ∧ sGuard.dev.guard.fatal = none ∧
    sGuard.dev.guard.queue = recordOf sRun.dev (mkReport 0x21 0) 0 1 :: [] := by
  refine ⟨?_, ?_, ?_, ?_, ?_⟩
  · show writeFate _ _ _ _ = _
    decide +kernel
  · show writeFate _ _ _ _ = _
    decide +kernel
  · show writeFate _ _ _ _ = _
    decide +kernel
  · rfl
  · decide +kernel

theorem witness_stateReq : WriteApplies sRun .keeper R.PWR_STATE_REQ ∧ WriteApplies sAsked .keeper R.PWR_KPR_VOTE ∧
    powerState sRun.dev = 0 ∧ sRun.dev.power.attempt = none ∧ sRun.dev.power.restore = [] := by
  refine ⟨?_, ?_, ?_, ?_, ?_⟩
  · show writeFate _ _ _ _ = _
    decide +kernel
  · show writeFate _ _ _ _ = _
    decide +kernel
  all_goals decide +kernel
theorem witness_kprWait : alive sAsked.dev = true ∧ sAsked.dev.power.attempt = some { target := 1, asked := some 5 } ∧
    regFld sAsked.dev R.PWR_KPR_VOTE 1 0 = 0 ∧ 0 + 1 < regFld sAsked.dev R.PWR_ENTRY_CFG 3 0 := by decide +kernel

theorem witness_keeperLoRead : alive sRun.dev = true ∧ sRun.dev.keeper.running = true ∧
    regIsLo (0x1020#24).toNat = true ∧ (0x1020#24).toNat % 4 = 0 ∧ sRun.dev.die.capture = [] := by
  refine ⟨?_, ?_, ?_, ?_, ?_⟩ <;> decide +kernel
theorem witness_keeperHiRead : ({ sRun.dev.die with capture := [(Path.keeper, 0x1024, 7#32)] } : Die).capture.find?
    (fun c => decide (c.1 = .keeper ∧ c.2.1 = (0x1024#24).toNat)) = some (.keeper, (0x1024#24).toNat, 7) := by decide +kernel
theorem witness_derivedRegs : sGuard.dev.guard.queue.length ≤ 64 ∧
    sOpen.dev.ent.ledgers.filter (fun g => g.isOpen) = { tick := 3, credit := 100000, base := 90000 } :: [] ∧
    (wSlot sRun.dev 7).reason < 256 ∧ (wSlot sRun.dev 7).tenant < 4096 := by decide +kernel
theorem witness_twoLedgers : ∃ g h : Ledger, [g, h].filter (fun g => g.isOpen) = g :: h :: [] :=
  ⟨{ tick := 3, credit := 1, base := 1 }, { tick := 4, credit := 1, base := 1 }, rfl⟩
theorem witness_regRd : Accepted sRun 0 (hostFrame tREG_RD 0x3C 0 []) tREG_RD ∧
    (getPort sRun.dev 0).retraining = false := by
  refine ⟨⟨?_, rfl, ?_, ?_, ?_⟩, ?_⟩ <;> decide +kernel
theorem witness_i3cRead : i3cAnswers { sRun.dev with die := { sRun.dev.die with i3cOff := some 0x3C } } = true ∧
    readAnswers sRun.dev .i3c = true := by decide +kernel

theorem witness_sideband : sRun.dev.die.porstLow = false ∧ locked sRun.dev = true ∧ asleep sWinter.dev = true ∧
    bit (getReg sWinter.dev R.WIN_WAKE_CFG) 2 = true ∧ alive sRun.dev = true := by decide +kernel
theorem witness_tickOut : alive (sTickOut).dev = true ∧ sTickOut.dev.tick.tickOut = true := by decide +kernel

theorem witness_memWr : Accepted sRun 0 (hostFrame tMEM_WR 0x1000 0 (zeroBytes 64)) tMEM_WR ∧
    inRings sRun.dev (ringIsCmd sRun.dev) 0x1000 64 = true ∧
    inRings sRun.dev (ringIsCmd sRun.dev) 0x2000 64 = false ∧ (getPort sRun.dev 0).retraining = false := by
  refine ⟨⟨?_, rfl, ?_, ?_, ?_⟩, ?_, ?_, ?_⟩ <;> decide +kernel
theorem witness_memRd : Accepted sRun 0 (hostFrame tMEM_RD 0x2000 64 []) tMEM_RD ∧
    inRings sRun.dev (fun _ => true) 0x2000 64 = true ∧ inRings sRun.dev (fun _ => true) 0x100000 64 = false := by
  refine ⟨⟨?_, rfl, ?_, ?_, ?_⟩, ?_, ?_⟩ <;> decide +kernel

theorem witness_syncWait : Accepted sRun 0 (hostFrame tSYNC_WAIT 0 0 (leBytes 12 7)) tSYNC_WAIT ∧
    (getPort sRun.dev 0).retraining = false := by
  refine ⟨⟨?_, rfl, ?_, ?_, ?_⟩, ?_⟩ <;> decide +kernel
theorem witness_syncWaitStopped : powered sStopped.dev = true ∧ sStopped.dev.guard.stopped = true ∧
    portUp sStopped.dev 0 = true ∧
    frameFate sStopped.dev 0 (hostFrame tSYNC_WAIT 0 0 (leBytes 12 7)) = .accept := by decide +kernel
theorem witness_stopWaits : WriteApplies sWait .keeper R.GRD_FORCE ∧ portUp sWait.dev 0 = true ∧ role sWait.dev ≠ 2 := by
  refine ⟨?_, ?_, ?_⟩
  · show writeFate _ _ _ _ = _
    decide +kernel
  all_goals decide +kernel
theorem witness_heldWaits : heldWait sWait.dev 0 1 (waitPasses sWait.dev) = some ⟨1, 0x1FE, 7, 0, 500⟩ ∧
    heldWait sWait.dev 0 2 (fun w => !waitPasses sWait.dev w) = some ⟨2, 0x1FE, 7, 1, 500⟩ ∧
    alive sWait.dev = true ∧ portUp sWait.dev 0 = true ∧ (getPort sWait.dev 0).retraining = false := by decide +kernel

theorem witness_hello : alive sTrain.dev = true ∧ portState sTrain.dev 1 = 1 ∧
    (getPort sTrain.dev 1).helloSince = some 5 ∧
    frameFate sTrain.dev 1 (hostFrame tHELLO 0 0 (leBytes 16 2)) = .accept ∧ inWinter sWinter.dev = true := by decide +kernel

theorem witness_input : Accepted sReq 0 (tenantFrame tINPUT 0 77 [1, 2]) tINPUT ∧
    (inputReq sReq.dev 0 (tenantFrame tINPUT 0 77 [1, 2])).isSome = true ∧ sReq.dev.tick.running = true ∧
    sReq.dev.tick.inputOpen = true ∧ 0 + 2 ≤ inputLen sReq.dev reqDesc ∧
    inputReq sReq.dev 0 (tenantFrame tINPUT 0 78 [1, 2]) = none := by
  refine ⟨⟨?_, rfl, ?_, ?_, ?_⟩, ?_, ?_, ?_, ?_, ?_⟩ <;> decide +kernel
theorem witness_expbuf : Accepted sRun 0 (hostFrame tEXPBUF 16 0 [1, 2]) tEXPBUF ∧ isSpine 0 = false ∧ isSpine 4 = true ∧
    (expBufOf (getPort sRun.dev 0) false).busy = false := by
  refine ⟨⟨?_, rfl, ?_, ?_, ?_⟩, ?_, ?_, ?_⟩ <;> decide +kernel

theorem witness_trainingFrames : alive sTrain.dev = true ∧ portTraining sTrain.dev 1 = true ∧
    crcPasses (hostFrame tREG_WR 0x3C 0 [1, 2, 3, 4]) = true ∧
    frameFate sTrain.dev 1 (hostFrame 0x7F 0 0 []) ≠ .accept ∧
    crcPasses { hostFrame tREG_RD 0x3C 0 [] with crc := 0 } = false := by decide +kernel
theorem witness_winterFrames : inWinter sWinter.dev = true ∧ alive sThawed.dev = true ∧ portUp sThawed.dev 0 = true ∧
    sThawed.dev.tick.fromWinter = true ∧
    frameFate sThawed.dev 0 (hostFrame tREG_WR 0x3C 0 [1, 2, 3, 4]) = .accept ∧
    frameFate sWinter.dev 0 (hostFrame 0x7F 0 0 []) ≠ .accept := by decide +kernel
theorem witness_badFrame : alive sRun.dev = true ∧ portUp sRun.dev 0 = true ∧
    frameFate sRun.dev 0 (hostFrame 0x7F 0 0 []) = .discard ∧
    frameFate sRun.dev 0 { hostFrame tREG_RD 0x3C 0 [] with crc := 0 } = .badCrc := by decide +kernel

theorem witness_linkRecovery : alive sRun.dev = true ∧ portUp sRun.dev 0 = true ∧
    bit (getReg sRun.dev (R.LNK_WIDTH 0)) 0 = true ∧ regFld sRun.dev (R.LNK_CFG 0) 31 16 < 100000 ∧
    isSpine 4 = true ∧ portUp sRun.dev 4 = true := by decide +kernel
theorem witness_linkRetrain : alive sRetrain.dev = true ∧ inDrain sRetrain.dev = true ∧
    (getPort sRetrain.dev 0).retrainDue = true ∧ (getPort sRetrain.dev 0).retraining = false ∧
    (getPort sRetrain.dev 1).retraining = true := by decide +kernel

theorem witness_tickStart : alive sBeacon.dev = true ∧ sBeacon.dev.tick.joined = true ∧
    sBeacon.dev.tick.joining = false ∧ locked sBeacon.dev = true ∧ sBeacon.dev.tick.phase = .beacon ∧
    ledgerScale sBeacon.dev 3 ≤ 256 := by decide +kernel

theorem witness_inputClose : alive sTick.dev = true ∧ inExecute sTick.dev = true ∧ sTick.dev.tick.inputOpen = true := by
  decide +kernel
theorem witness_admitClose : alive sAdmit.dev = true ∧ inExecute sAdmit.dev = true ∧
    sAdmit.dev.tick.inputOpen = false ∧ sAdmit.dev.tick.admitOpen = true := by decide +kernel
theorem witness_drainStart : alive sLate.dev = true ∧ inExecute sLate.dev = true ∧ sLate.dev.tick.admitOpen = false ∧
    lateCells sLate.dev sLate.dev.tick.num ≠ [] ∧ inDrain sDrain.dev = true := by decide +kernel

theorem witness_upStepInTime : max sUp.dev.tick.time (sUp.dev.power.droopClear + 2000) < sUp.dev.tick.start + inputCloseNs sUp.dev ∧
    alive sUpLate.dev = true ∧ sUpLate.dev.tick.start + inputCloseNs sUpLate.dev ≤
      max sUpLate.dev.tick.time (sUpLate.dev.power.droopClear + 2000) := by decide +kernel
theorem witness_switchAtStart : alive sBeacon.dev = true ∧ sBeacon.dev.tick.joined = true ∧ sBeacon.dev.tick.joining = false ∧
    locked sBeacon.dev = true ∧ sBeacon.dev.tick.phase = .beacon ∧
    (let d := (sSwitch 0x0B 840 false).dev; regFld d R.PWR_OP_SCHED 3 2 < pointInForce d ∧
      upTarget d (pointInForce d) (regFld d R.PWR_OP_SCHED 3 2) = some 2 ∧ d.power.droopFlag = false ∧ d.power.droopClear = 0) ∧
    (let d := (sSwitch 0x0B 840 true).dev; upTarget d (pointInForce d) (regFld d R.PWR_OP_SCHED 3 2) = some 2 ∧
      d.power.droopFlag = true) ∧
    (let d := (sSwitch 0x0B 0 false).dev; upTarget d (pointInForce d) (regFld d R.PWR_OP_SCHED 3 2) = none) ∧
    (let d := (sSwitch 0x0D 840 false).dev; pointInForce d < regFld d R.PWR_OP_SCHED 3 2) ∧
    (let d := (sSwitch 0x05 840 false).dev; pointInForce d = regFld d R.PWR_OP_SCHED 3 2) := by decide +kernel
theorem witness_short : alive sHurry.dev = true ∧ inExecute sHurry.dev = true ∧ sHurry.dev.tick.inputOpen = true ∧
    freqMhz sHurry.dev < tblGet 0 sHurry.dev.power.ledgerFreq sHurry.dev.tick.num ∧
    (∃ k ∈ sHurry.dev.ent.tokens, k.tick = sHurry.dev.tick.num ∧ ¬(expressEn sHurry.dev = true ∧ k.cell.val < 4)) ∧
    sHurry.dev.guard.queue.length < 64 := by
  refine ⟨?_, ?_, ?_, ?_, ⟨reqToken, ?_, ?_, ?_⟩, ?_⟩ <;> decide +kernel
theorem witness_upStep : alive sUp.dev = true ∧ sUp.dev.power.upPending = true ∧ sUp.dev.tick.inputOpen = true ∧
    sUp.dev.power.droopFlag = false ∧ upTarget sUp.dev (pointInForce sUp.dev) sUp.dev.power.upTo = some 2 := by
  decide +kernel
theorem witness_tickIn : alive sTickIn.dev = true ∧ sTickIn.dev.tick.joined = true ∧
    bit (getReg sTickIn.dev R.TICK_CFG) 2 = true ∧ sTickIn.dev.tick.start = 1000000 ∧
    getReg sTickIn.dev R.LNK_TICKIN_DELAY = 0 := by decide +kernel

theorem witness_echo : Accepted sWorker 1 (hostFrame tECHO 0 0 (zeroBytes 8)) tECHO ∧ portVer sWorker.dev 1 ≠ 1 ∧
    (getPort sWorker.dev 1).retraining = false := by
  refine ⟨⟨?_, rfl, ?_, ?_, ?_⟩, ?_, ?_⟩ <;> decide +kernel
theorem witness_echoAnswer : frameFate sWorker.dev 0 (answerFrame tECHO 9 (zeroBytes 24)) = .accept ∧
    sWorker.dev.tick.echoSent = some (9, 5) ∧ parentPort sWorker.dev = some 0 ∧ sWorker.dev.tick.joining = false := by
  decide +kernel
theorem witness_echoInterval : alive sWorker.dev = true ∧ role sWorker.dev = 2 ∧ sWorker.dev.tick.running = true ∧
    sWorker.dev.tick.member = true ∧ (getReg sWorker.dev R.TICK_ECHO_INTERVAL).toNat ≤ sWorker.dev.tick.echoAge ∧
    portUp sWorker.dev 0 = true ∧ portVer sWorker.dev 0 ≠ 1 := by decide +kernel

set_option maxRecDepth 100000 in
theorem witness_beacon : role sWorker.dev = 2 ∧ Accepted sWorker 0 (hostFrame tBEACON 0 0 (beaconFor sWorker.dev)) tBEACON ∧
    sWorker.dev.tick.joined = true ∧ sWorker.dev.tick.leaveDue = false ∧ sWorker.dev.tick.alone = false ∧
    bcnTick (beaconFor sWorker.dev) = nextNum sWorker.dev ∧
    bcnPeriod (beaconFor sWorker.dev) = (getReg sWorker.dev R.TICK_PERIOD).toNat ∧ sWorker.dev.tick.missed = false ∧
    sWorker.dev.tick.time + 1000 ≤ nextStart sWorker.dev := by
  refine ⟨?_, ⟨?_, rfl, ?_, ?_, ?_⟩, ?_, ?_, ?_, ?_, ?_, ?_, ?_⟩ <;> decide +kernel
theorem witness_beaconMissing : sWorker.dev.tick.member = true ∧ sWorker.dev.tick.lastBeacon ≠ nextNum sWorker.dev ∧
    sLeaving.dev.tick.leaveDue = true ∧ alive sLeaving.dev = true ∧ sLeaving.dev.tick.member = true ∧
    role sLeaving.dev = 2 ∧ (parentPort sLeaving.dev).isSome = true ∧ sLeaving.dev.guard.queue.length < 64 := by
  decide +kernel

set_option maxRecDepth 100000 in
theorem witness_workerJoin : Accepted sJoining 0 (hostFrame tBEACON 0 0 (beaconFor sJoining.dev)) tBEACON ∧
    role sJoining.dev = 2 ∧ parentPort sJoining.dev = some 0 ∧ sJoining.dev.tick.joining = true ∧
    sJoining.dev.tick.hops.length = 8 ∧
    bcnPeriod (beaconFor sJoining.dev) = (getReg sJoining.dev R.TICK_PERIOD).toNat ∧
    bcnSize (beaconFor sJoining.dev) = (getReg sJoining.dev R.TICK_DOMAIN_SIZE).toNat := by
  refine ⟨⟨?_, rfl, ?_, ?_, ?_⟩, ?_, ?_, ?_, ?_, ?_, ?_⟩ <;> decide +kernel
theorem witness_rejoin : alive sLeft.dev = true ∧ locked sLeft.dev = true ∧ sLeft.dev.tick.member = false ∧
    sLeft.dev.tick.joining = false ∧ role sLeft.dev = 2 ∧ sLeft.dev.ent.tokens = [] ∧ sLeft.dev.ent.ledgers = [] := by
  decide +kernel
theorem witness_reports : Accepted sQueen 1 (hostFrame tREPORT 0 0 (leBytes 2 3 ++ zeroBytes 62)) tREPORT ∧
    role sQueen.dev = 1 ∧ 1 ∈ childPorts sQueen.dev ∧ sQueen.dev.tick.running = true ∧ rptOut sQueen.dev 3 = false ∧
    3 < (getReg sQueen.dev R.TICK_DOMAIN_SIZE).toNat ∧
    regFld sQueen.dev R.TICK_MISS_LIMIT 7 0 ≤ tblGet 0 sQueen.dev.tel.silent 3 := by
  refine ⟨⟨?_, rfl, ?_, ?_, ?_⟩, ?_, ?_, ?_, ?_, ?_, ?_⟩ <;> decide +kernel

theorem witness_admitStopped : admitCredit sStopped.dev 0 ≠ 0 ∧ alive sStopped.dev = false ∧ powered sStopped.dev = true ∧
    portUp sStopped.dev 0 = true ∧ frameFate sStopped.dev 0 (hostFrame tADMIT 0 0 (zeroBytes 64)) = .accept ∧
    keptFor sStopped.dev 0 (hostFrame tADMIT 0 0 (zeroBytes 64)) = none := by decide +kernel
theorem witness_admitWinter : admitCredit sWinter.dev 1 ≠ 0 ∧ alive sWinter.dev = false ∧ powered sWinter.dev = true ∧
    portUp sWinter.dev 1 = false ∧ inWinter sWinter.dev = true ∧ keptFor sWinter.dev 1 (hostFrame tADMIT 0 0 (zeroBytes 64)) = none ∧
    frameFate sWinter.dev 1 (hostFrame tADMIT 0 0 (zeroBytes 64)) = .accept := by decide +kernel
theorem witness_admitRefused : admitCredit sTick.dev 0 ≠ 0 ∧ Accepted sTick 0 (hostFrame tADMIT 0 0 (zeroBytes 64)) tADMIT ∧
    keptFor sTick.dev 0 (hostFrame tADMIT 0 0 (zeroBytes 64)) = none ∧ sTick.dev.tick.member = true ∧
    sTick.dev.tick.running = true ∧ locked sTick.dev = true ∧
    reservedEncoding sTick.dev (BitVec.ofNat 512 (leNat (zeroBytes 64))) = true ∧
    sRun.dev.tick.member = false := by
  refine ⟨?_, ⟨?_, rfl, ?_, ?_, ?_⟩, ?_, ?_, ?_, ?_, ?_, ?_⟩ <;> decide +kernel
theorem witness_admitHeld : Accepted sHeld 0 (hostFrame tADMIT 0 0 (leBytes 64 reqDesc.toNat)) tADMIT ∧
    reservedEncoding sHeld.dev reqDesc = false ∧ tcxState sHeld.dev (dTenant reqDesc) = 1 ∧
    tcxBarrier sHeld.dev (dTenant reqDesc) = true ∧ isPrefill (dOp reqDesc) = false := by
  refine ⟨⟨?_, rfl, ?_, ?_, ?_⟩, ?_, ?_, ?_, ?_⟩ <;> decide +kernel

theorem witness_admitAccepted : Accepted sOpen 0 (hostFrame tADMIT 0 0 (leBytes 64 reqDesc.toNat)) tADMIT ∧
    admitCredit sOpen.dev 0 ≠ 0 ∧ keptFor sOpen.dev 0 (hostFrame tADMIT 0 0 (leBytes 64 reqDesc.toNat)) = none ∧
    BitVec.ofNat 512 (leNat (leBytes 64 reqDesc.toNat)) = reqDesc ∧
    decideAdmit sOpen.dev 0 reqDesc = .ordinary 3 false := by
  refine ⟨⟨?_, rfl, ?_, ?_, ?_⟩, ?_, ?_, ?_, ?_⟩ <;> decide +kernel
theorem witness_admitExpress : Accepted sLane 0 (hostFrame tADMIT 0 0 (leBytes 64 laneDesc.toNat)) tADMIT ∧
    admitCredit sLane.dev 0 ≠ 0 ∧ keptFor sLane.dev 0 (hostFrame tADMIT 0 0 (leBytes 64 laneDesc.toNat)) = none ∧
    (match decideAdmit sLane.dev 0 laneDesc with | .express _ _ _ => true | _ => false) = true := by
  refine ⟨⟨?_, rfl, ?_, ?_, ?_⟩, ?_, ?_, ?_⟩ <;> decide +kernel

theorem witness_tokenStart : alive sTurn.dev = true ∧ cellClocked sTurn.dev 4 = true ∧
    turnOf sTurn.dev 4 = some (reqToken, { newestReq with input := fullInput }) ∧
    inputComplete sTurn.dev { newestReq with input := fullInput } = true ∧ dOp newestReq.desc ≠ opCOMMIT ∧
    takesInput sTurn.dev newestReq 4 = true := by decide +kernel
theorem witness_tokenKilled : killApplies { newestReq with killAt := some 1 } reqToken = true := by decide +kernel
theorem witness_combineStart : turnOf (sWork [{ regionReq with combined := true }] [combineTurnToken]).dev 4 =
    some (combineTurnToken, { regionReq with combined := true }) ∧ killApplies regionReq combineTurnToken = false := by
  decide +kernel
theorem witness_commitBad : turnOf (sCommit true).dev 4 = some (reqToken, commitReq) ∧ dOp commitReq.desc = opCOMMIT ∧
    headCell (sCommit true).dev (dTenant commitReq.desc) 4 = true ∧
    ((seqDesc (sCommit true).dev (dSeq commitReq.desc)).spec.map (·.bad)) = some true ∧
    (sCommit true).dev.guard.queue.length < 64 := by decide +kernel
theorem witness_commit : turnOf (sCommit false).dev 4 = some (reqToken, commitReq) ∧
    ((seqDesc (sCommit false).dev (dSeq commitReq.desc)).spec.map (·.bad)) = some false ∧ commitReq.checkFailed = false ∧
    ∀ k' ∈ (sCommit false).dev.ent.tokens, k'.uid = commitReq.uid → k'.combine = false ∧ (k'.st = .queued → k'.cell = 4) := by
  decide +kernel
theorem witness_expressTurn : (turnOf sReleased.dev 0).isSome = true ∧ alive sReleased.dev = true ∧
    cellClocked sReleased.dev 0 = true ∧ killApplies releasedReq { reqToken with cell := 0 } = false := by decide +kernel
theorem witness_tokenSkip : turnOf sReqLate.dev 4 = some (reqToken, newestReq) ∧ inputComplete sReqLate.dev newestReq = false ∧
    inputClosed sReqLate.dev reqToken.tick = true ∧ sReqLate.dev.guard.queue.length < 64 := by
  decide +kernel
theorem witness_expressRelease : alive sExpress.dev = true ∧ cellClocked sExpress.dev 0 = true ∧
    (sExpress.dev.ent.reqs.find? (fun r => decide (r.express = some 0) && !r.released)).isSome = true := by decide +kernel

theorem witness_recordWrite : alive sDone.dev = true ∧ findReq sDone.dev 0 = some doneReq ∧
    recordDue sDone.dev doneReq = true := by
  decide +kernel

theorem witness_reduction : alive sReduce.dev = true ∧ findReq sReduce.dev 0 = some reduceReq ∧
    noResult sReduce.dev reduceReq = false ∧ 0 < outTiles sReduce.dev reduceReq ∧ tblFind reduceReq.tiles 0 = none ∧
    (reduceTile sReduce.dev reduceReq 0).isSome = true := by decide +kernel
theorem witness_sendRows : cellClocked sReduce.dev 4 = true ∧ cellToken sReduce.dev 4 = some { reqToken with st := .running } ∧
    sendFetch (cellOf sReduce.dev 4) = true ∧ sendsNothing 4 reduceReq sReduce.dev = false ∧
    sendOk 4 (.rows 0 1) reduceReq sReduce.dev = true ∧ framesRows sReduce.dev reduceReq = false ∧
    partialAt reduceReq 4 0 1 = none ∧ sendBeyond 4 (.rows 0 1) sReduce.dev = false ∧
    sendWaits 4 (.rows 0 1) reduceReq sReduce.dev = false ∧ sendTrip 4 (.rows 0 1) reduceReq sReduce.dev = none := by decide +kernel
theorem witness_sendDamaged : cellClocked sBadSend.dev 4 = true ∧ badFetch (cellOf sBadSend.dev 4) = some 64 ∧
    cellToken sBadSend.dev 4 = some runningToken := by decide +kernel
theorem witness_sendHome : sendFetch (cellOf (sHome withImages).dev 4) = true ∧ cellToken (sHome withImages).dev 4 = some runningToken ∧
    findReq (sHome withImages).dev 0 = some regionReq ∧ sendOk 4 .partials regionReq (sHome withImages).dev = true ∧
    sendWaits 4 .partials regionReq (sHome (fun d => { withImages d with mem := { (withImages d).mem with tags := [(65536, .wipingTenant 5 0 0)] } })).dev = true ∧
    (sendTrip 4 .partials regionReq (sHome (put [(R.HIV_BAND_STATE, 2)] ∘ withImages)).dev).isSome = true ∧
    sendTrip 4 .partials regionReq (sHome withImages).dev = none := by
  decide +kernel
theorem witness_sendOnePart : sendOk 4 .partials splitReq sOnePart.dev = true ∧ sendFetch (cellOf sOnePart.dev 4) = true ∧
    multiDie sOnePart.dev (dSeq splitReq.desc) = false ∧ cellToken sOnePart.dev 4 = some runningToken ∧
    findReq sOnePart.dev 0 = some splitReq := by decide +kernel
theorem witness_sendKilled : sendOk 4 .result { resultReq with killed := true } sResult.dev = true := by
  simp only [sendOk, Bool.or_true, Bool.true_or, Bool.and_true]; decide +kernel
theorem witness_sendResult : sendOk 4 .result resultReq sResult.dev = true ∧ outPort resultReq = some 0 ∧
    cellToken sResult.dev 4 = some { reqToken with st := .running } ∧ findReq sResult.dev 0 = some resultReq ∧
    portUp sResult.dev 0 = true ∧ resultReady sResult.dev resultReq = true ∧ sendFetch (cellOf sResult.dev 4) = true ∧
    sendsNothing 4 resultReq sResult.dev = false := by decide +kernel
theorem witness_sendPartials : sendOk 4 .partials splitReq sSplit.dev = true ∧
    isHomeDie sSplit.dev (dSeq splitReq.desc) = false ∧ multiDie sSplit.dev (dSeq splitReq.desc) = true ∧
    sendFetch (cellOf sSplit.dev 4) = true ∧
    routePort sSplit.dev (seqDesc sSplit.dev (dSeq splitReq.desc)).homeDie = some 0 ∧ portUp20 sSplit.dev 0 = true ∧
    cellToken sSplit.dev 4 = some runningToken ∧ findReq sSplit.dev 0 = some splitReq := by decide +kernel
theorem witness_sendGrads : sendOk 4 .grads gradReq sGrad.dev = true ∧ outPort gradReq = some 0 ∧
    cellToken sGrad.dev 4 = some runningToken ∧ findReq sGrad.dev 0 = some gradReq ∧
    sendsNothing 4 gradReq sGrad.dev = false := by decide +kernel
theorem witness_sendStats : sendOk 4 .stats statsReq sStats.dev = true ∧ savesStats sStats.dev statsReq = true ∧
    sendBeyond 4 .stats sStats.dev = false ∧ sendsNothing 4 statsReq sStats.dev = false := by decide +kernel

theorem witness_pwrFrame : Accepted sRun 0 (hostFrame tPWR 0 0 (zeroBytes 64)) tPWR ∧
    (takeTrain 0 (hostFrame tPWR 0 0 (zeroBytes 64)) (linkIn 0 sRun.dev)).1 = some (zeroBytes 64) ∧
    regionOf sRun.dev (zeroBytes 64) = none ∧ sRun.dev.guard.queue.length < 64 ∧
    regionOf sRegion.dev (partialMsg sRegion.dev) = some regionReq := by
  refine ⟨⟨?_, rfl, ?_, ?_, ?_⟩, ?_, ?_, ?_, ?_⟩ <;> decide +kernel
/-- The chain header of tenant 5's version gives a combine region 4,096 bytes. -/
def sTakes : State := sOf (fun d => { d with mem := { d.mem with
  hbm := bytesAt 0 (zeroBytes 0x30 ++ leBytes 4 4096 ++ zeroBytes 0x0C), hbmKey := [(0, HbmKey.tenant [])] } }) sRegion
theorem witness_pwrFrameTaken : Accepted sTakes 0 (hostFrame tPWR 0 0 (partialMsg sTakes.dev)) tPWR ∧
    (takeTrain 0 (hostFrame tPWR 0 0 (partialMsg sTakes.dev)) (linkIn 0 sTakes.dev)).1 = some (partialMsg sTakes.dev) ∧
    regionOf sTakes.dev (partialMsg sTakes.dev) = some regionReq ∧
    regionTakes sTakes.dev regionReq (partialMsg sTakes.dev) = true := by
  refine ⟨⟨?_, rfl, ?_, ?_, ?_⟩, ?_, ?_, ?_⟩ <;> decide +kernel
theorem witness_pwrAnswer : Accepted sRun 0 (answerFrame tPWR 9 []) tPWR := by
  refine ⟨?_, rfl, ?_, ?_, ?_⟩ <;> decide +kernel
theorem witness_combine : alive sCombine.dev = true ∧ combineReq.region = true ∧ combineReq.combined = false ∧
    framesThere sCombine.dev combineReq = true ∧ findReq sCombine.dev 0 = some combineReq ∧
    (combineCells sCombine.dev (dTenant combineReq.desc)).all (combineTurn sCombine.dev combineReq) = true := by
  decide +kernel
theorem witness_combineSkip : framesThere sCombineLate.dev regionReq = false ∧
    findReq sCombineLate.dev 0 = some regionReq ∧ inputClosed sCombineLate.dev regionReq.tick = true ∧
    (combineCells sCombineLate.dev (dTenant regionReq.desc)).all (combineTurn sCombineLate.dev regionReq) = true := by
  decide +kernel

theorem witness_errorReport : powered sRun.dev = true ∧ powerState sRun.dev ≠ 3 ∧ unitFits 0x41 unitPower = true ∧ (mkReport 0x41 unitPower).corrected = false ∧
    mergesInto sRun.dev (mkReport 0x41 unitPower) = none ∧ 0x27 ≤ (0x41#8).toNat ∧ errClass 0x41 = 2 ∧
    sRun.dev.guard.fatal = none := by decide +kernel
theorem witness_errorElsewhere : unitFits 0x33 3 = false := by decide +kernel
theorem witness_errorMerges : mergesInto sGuard.dev (mkReport 0x21 0) = some (recordOf dRun (mkReport 0x21 0) 0 1) ∧
    unitFits 0x21 0 = true ∧ powered sGuard.dev = true ∧ powerState sGuard.dev ≠ 3 := by decide +kernel
theorem witness_errorOverflow : ¬sGuardFull.dev.guard.queue.length < 64 ∧ powered sGuardFull.dev = true ∧
    mergesInto sGuardFull.dev (mkReport 0x33 unitTick) = none ∧ unitFits 0x33 unitTick = true ∧ errClass 0x33 ≠ 2 ∧
    powerState sGuardFull.dev ≠ 3 ∧ sStopped.dev.guard.fatal ≠ none ∧ powered sStopped.dev = true := by decide +kernel
theorem witness_correctedError : powered sRun.dev = true ∧ powerState sRun.dev ≠ 3 ∧
    ({ mkReport 0x21 63 with corrected := true, place := .accumulator } : Report).corrected = true := by decide +kernel
theorem witness_timing : alive sLateDone.dev = true ∧ sLateDone.dev.ent.late = [lateDone] ∧ lateDone.taken = false ∧
    ∀ c ∈ lateDone.cells, ∃ o ∈ lateDone.overruns, o.1 = c := by decide +kernel
theorem witness_watchdog : alive sRun.dev = true ∧ sRun.dev.keeper.running = true := by decide +kernel

theorem witness_badCmd : CommandAt (sCmd (cmdBytes 0x0B 5 1 (0)) id) 1 0x0B (cmdAt 0x0B 5 1 (0)) := by
  unfold CommandAt CommandFront; decide +kernel
theorem witness_syncSet : CommandAt (sCmd (cmdBytes 0x0A 5 1 (7 + 3 * 2 ^ 32)) id) 1 0x0A (cmdAt 0x0A 5 1 (7 + 3 * 2 ^ 32)) := by
  unfold CommandAt CommandFront; decide +kernel
theorem witness_syncSetBad : CommandFront (sCmd (cmdBytes 0x0A 5 1 (2 ^ 20)) id) 1 0x0A (cmdAt 0x0A 5 1 (2 ^ 20)) ∧ ringIsCompletion (sCmd (cmdBytes 0x0A 5 1 (2 ^ 20)) id).dev (cmdAt 0x0A 5 1 (2 ^ 20)).ring = true ∧
    badEntry (sCmd (cmdBytes 0x0A 5 1 (2 ^ 20)) id).dev 1 1 = none ∧ (cmdAt 0x0A 5 1 (2 ^ 20)).bad = true := by
  unfold CommandFront; decide +kernel
theorem witness_syncSetNoRing : CommandFront (sCmd (cmdBytes 0x0A 5 1 (7) 3) id) 1 0x0A (cmdAt 0x0A 5 1 (7) 3) ∧ ringIsCompletion (sCmd (cmdBytes 0x0A 5 1 (7) 3) id).dev (cmdAt 0x0A 5 1 (7) 3).ring = false := by
  unfold CommandFront; decide +kernel
theorem witness_syncSetDamaged : CommandFront (sCmd (cmdBytes 0x0A 5 1 (7)) (fun d => { d with mem := { d.mem with badHive := [0x100] } })) 1 0x0A (cmdAt 0x0A 5 1 (7)) ∧ ringIsCompletion (sCmd (cmdBytes 0x0A 5 1 (7)) (fun d => { d with mem := { d.mem with badHive := [0x100] } })).dev (cmdAt 0x0A 5 1 (7)).ring = true ∧
    badEntry (sCmd (cmdBytes 0x0A 5 1 (7)) (fun d => { d with mem := { d.mem with badHive := [0x100] } })).dev 1 1 = some 0x100 ∧ (sCmd (cmdBytes 0x0A 5 1 (7)) (fun d => { d with mem := { d.mem with badHive := [0x100] } })).dev.guard.queue = [] := by
  unfold CommandFront; decide +kernel
/-- Ring 1 with room for a cost table, ring 2 out of its way. -/
def sCt (hive : List Host.Cell) : State := { dev := put [(R.RNG_TAIL 1, 65), (R.RNG_CFG 1, 0x1F), (R.RNG_BASE 2, 8)] {
  dCmd with mem := { hive := hive } } }
theorem ct_slot (h : List Host.Cell) (k : Nat) (hk : k < 64) :
    cmdEntryAt (sCt h).dev 1 (k + 1) = tblGetList 0 h (0x1040 + 64 * k) 64 := by
  have e : slotAddr (sCt []).dev 1 ((ringHead (sCt []).dev 1 + (k + 1)) % 2 ^ 32) = 0x1040 + 64 * k := by
    revert hk k; decide +kernel
  exact congrArg (fun a => tblGetList 0 h a 64) e
theorem ct_zero (h : List Host.Cell) (z : ∀ k, k < 64 → tblGetList 0 h (0x1040 + 64 * k) 64 = zeroBytes 64) :
    ∀ c ∈ ctEntries ((List.range 64).map (fun k => cmdEntryAt (sCt h).dev 1 (k + 1))), fld c 127 96 = 0 := by
  have e : (List.range 64).map (fun k => cmdEntryAt (sCt h).dev 1 (k + 1)) = (List.range 64).map (fun _ => zeroBytes 64) :=
    List.map_congr_left (fun k hk => (ct_slot h k (List.mem_range.mp hk)).trans (z k (List.mem_range.mp hk)))
  rw [e]
  intro c hc
  obtain ⟨b, hb, hc⟩ := List.mem_flatMap.mp hc
  obtain ⟨_, _, rfl⟩ := List.mem_map.mp hb
  obtain ⟨i, hi, rfl⟩ := List.mem_map.mp hc
  have z : ∀ i, i < 4 → fld (BitVec.ofNat 128 (leAt (zeroBytes 64) (16 * i) 16)) 127 96 = 0 := by decide +kernel
  exact z i (List.mem_range.mp hi)
theorem witness_ctLoad :
    let s := sCt [(0x1000, 5), (0x1004, 9), (0x1006, 2), (0x1010, 3)]
    CommandAt s 1 0x09 (cmdAt 0x09 0 0 3) ∧
      ∀ c ∈ ctEntries ((List.range 64).map (fun k => cmdEntryAt s.dev 1 (k + 1))), fld c 127 96 = 0 :=
  ⟨by unfold CommandAt CommandFront; decide +kernel, ct_zero _ (by decide +kernel)⟩
theorem witness_ctLoadBad :
    let s := sCt [(0x1000, 5), (0x1004, 9), (0x1006, 2), (0x1010, 3), (0x104F, 1)]
    CommandAt s 1 0x09 (cmdAt 0x09 0 0 3) ∧
      ∃ c ∈ ctEntries ((List.range 64).map (fun k => cmdEntryAt s.dev 1 (k + 1))), fld c 127 96 ≠ 0 := by
  refine ⟨by unfold CommandAt CommandFront; decide +kernel, ?_⟩
  refine ⟨BitVec.ofNat 128 (leAt (tblGetList 0 [(0x1000, 5), (0x1004, 9), (0x1006, 2), (0x1010, 3), (0x104F, 1)] 0x1040 64)
    0 16), ?_, by decide +kernel⟩
  rw [ctEntries, List.mem_flatMap]
  exact ⟨_, List.mem_map.mpr ⟨0, by decide, ct_slot _ 0 (by decide)⟩, List.mem_map.mpr ⟨0, by decide, rfl⟩⟩

theorem witness_seqSetRange : CommandAt (sCmd (cmdBytes 0x08 5 8 (0)) id) 1 0x08 (cmdAt 0x08 5 8 (0)) ∧
    seqInRange (sCmd (cmdBytes 0x08 5 8 (0)) id).dev (cmdAt 0x08 5 8 (0)).tenant (cmdAt 0x08 5 8 (0)).seq = false := by
  unfold CommandAt CommandFront; decide +kernel
theorem witness_seqSetState : CommandAt (sCmd (cmdBytes 0x08 5 7 (0)) id) 1 0x08 (cmdAt 0x08 5 7 (0)) ∧
    seqInRange (sCmd (cmdBytes 0x08 5 7 (0)) id).dev (cmdAt 0x08 5 7 (0)).tenant (cmdAt 0x08 5 7 (0)).seq = true ∧ seqOpen (sCmd (cmdBytes 0x08 5 7 (0)) id).dev (cmdAt 0x08 5 7 (0)).seq = false := by
  unfold CommandAt CommandFront; decide +kernel
theorem witness_seqSet : CommandAt (sCmd (cmdBytes 0x08 5 1 (0)) id) 1 0x08 (cmdAt 0x08 5 1 (0)) ∧
    seqInRange (sCmd (cmdBytes 0x08 5 1 (0)) id).dev (cmdAt 0x08 5 1 (0)).tenant (cmdAt 0x08 5 1 (0)).seq = true ∧ tcxState (sCmd (cmdBytes 0x08 5 1 (0)) id).dev (cmdAt 0x08 5 1 (0)).tenant = 1 ∧
    seqOpen (sCmd (cmdBytes 0x08 5 1 (0)) id).dev (cmdAt 0x08 5 1 (0)).seq = true ∧ seqBusy (sCmd (cmdBytes 0x08 5 1 (0)) id).dev (cmdAt 0x08 5 1 (0)).seq = false := by
  unfold CommandAt CommandFront; decide +kernel
theorem witness_seqKillRange : CommandAt (sCmd (cmdBytes 0x04 5 8 (0)) id) 1 0x04 (cmdAt 0x04 5 8 (0)) ∧
    seqInRange (sCmd (cmdBytes 0x04 5 8 (0)) id).dev (cmdAt 0x04 5 8 (0)).tenant (cmdAt 0x04 5 8 (0)).seq = false := by
  unfold CommandAt CommandFront; decide +kernel
theorem witness_seqKillState : CommandAt (sCmd (cmdBytes 0x04 5 7 (0)) id) 1 0x04 (cmdAt 0x04 5 7 (0)) ∧
    seqInRange (sCmd (cmdBytes 0x04 5 7 (0)) id).dev (cmdAt 0x04 5 7 (0)).tenant (cmdAt 0x04 5 7 (0)).seq = true ∧ seqOpen (sCmd (cmdBytes 0x04 5 7 (0)) id).dev (cmdAt 0x04 5 7 (0)).seq = false := by
  unfold CommandAt CommandFront; decide +kernel
theorem witness_seqKill : CommandAt (sCmd (cmdBytes 0x04 5 1 (0)) id) 1 0x04 (cmdAt 0x04 5 1 (0)) ∧
    seqInRange (sCmd (cmdBytes 0x04 5 1 (0)) id).dev (cmdAt 0x04 5 1 (0)).tenant (cmdAt 0x04 5 1 (0)).seq = true ∧ tcxState (sCmd (cmdBytes 0x04 5 1 (0)) id).dev (cmdAt 0x04 5 1 (0)).tenant = 1 ∧
    seqOpen (sCmd (cmdBytes 0x04 5 1 (0)) id).dev (cmdAt 0x04 5 1 (0)).seq = true ∧ seqBusy (sCmd (cmdBytes 0x04 5 1 (0)) id).dev (cmdAt 0x04 5 1 (0)).seq = false := by
  unfold CommandAt CommandFront; decide +kernel
theorem witness_seqReleaseRange : CommandAt (sCmd (cmdBytes 0x07 5 8 (0)) id) 1 0x07 (cmdAt 0x07 5 8 (0)) ∧
    seqInRange (sCmd (cmdBytes 0x07 5 8 (0)) id).dev (cmdAt 0x07 5 8 (0)).tenant (cmdAt 0x07 5 8 (0)).seq = false := by
  unfold CommandAt CommandFront; decide +kernel
theorem witness_seqReleaseState : CommandAt (sCmd (cmdBytes 0x07 5 7 (0)) id) 1 0x07 (cmdAt 0x07 5 7 (0)) ∧
    seqInRange (sCmd (cmdBytes 0x07 5 7 (0)) id).dev (cmdAt 0x07 5 7 (0)).tenant (cmdAt 0x07 5 7 (0)).seq = true ∧ seqOpen (sCmd (cmdBytes 0x07 5 7 (0)) id).dev (cmdAt 0x07 5 7 (0)).seq = false := by
  unfold CommandAt CommandFront; decide +kernel
theorem witness_seqRelease : CommandAt (sCmd (cmdBytes 0x07 5 1 (0)) id) 1 0x07 (cmdAt 0x07 5 1 (0)) ∧
    seqInRange (sCmd (cmdBytes 0x07 5 1 (0)) id).dev (cmdAt 0x07 5 1 (0)).tenant (cmdAt 0x07 5 1 (0)).seq = true ∧ tcxState (sCmd (cmdBytes 0x07 5 1 (0)) id).dev (cmdAt 0x07 5 1 (0)).tenant = 1 ∧
    seqOpen (sCmd (cmdBytes 0x07 5 1 (0)) id).dev (cmdAt 0x07 5 1 (0)).seq = true ∧ seqBusy (sCmd (cmdBytes 0x07 5 1 (0)) id).dev (cmdAt 0x07 5 1 (0)).seq = false := by
  unfold CommandAt CommandFront; decide +kernel
theorem witness_seqReleaseBusy : CommandAt (sCmd (cmdBytes 0x07 5 1 (0)) busySeq) 1 0x07 (cmdAt 0x07 5 1 (0)) ∧
    seqInRange (sCmd (cmdBytes 0x07 5 1 (0)) busySeq).dev (cmdAt 0x07 5 1 (0)).tenant (cmdAt 0x07 5 1 (0)).seq = true ∧ tcxState (sCmd (cmdBytes 0x07 5 1 (0)) busySeq).dev (cmdAt 0x07 5 1 (0)).tenant = 1 ∧
    seqOpen (sCmd (cmdBytes 0x07 5 1 (0)) busySeq).dev (cmdAt 0x07 5 1 (0)).seq = true ∧ seqBusy (sCmd (cmdBytes 0x07 5 1 (0)) busySeq).dev (cmdAt 0x07 5 1 (0)).seq = true := by
  unfold CommandAt CommandFront; decide +kernel
theorem witness_seqOpenBad : CommandAt (sCmd (cmdBytes 0x05 5 2 (0)) withImages) 1 0x05 (cmdAt 0x05 5 2 (0)) ∧
    seqOpenBad (cmdAt 0x05 5 2 (0)) (sCmd (cmdBytes 0x05 5 2 (0)) withImages).dev = true := by
  unfold CommandAt CommandFront; decide +kernel
theorem witness_seqOpenState : CommandAt (sCmd (cmdBytes 0x05 5 1 (2 ^ 16)) withImages) 1 0x05 (cmdAt 0x05 5 1 (2 ^ 16)) ∧
    seqOpenBad (cmdAt 0x05 5 1 (2 ^ 16)) (sCmd (cmdBytes 0x05 5 1 (2 ^ 16)) withImages).dev = false ∧ (seqDesc (sCmd (cmdBytes 0x05 5 1 (2 ^ 16)) withImages).dev (cmdAt 0x05 5 1 (2 ^ 16)).seq).st ≠ .free := by
  unfold CommandAt CommandFront; decide +kernel
theorem witness_seqOpenSpace : CommandAt (sCmd (cmdBytes 0x05 5 2 (2 ^ 16)) (noFrames ∘ withImages)) 1 0x05 (cmdAt 0x05 5 2 (2 ^ 16)) ∧
    seqOpenBad (cmdAt 0x05 5 2 (2 ^ 16)) (sCmd (cmdBytes 0x05 5 2 (2 ^ 16)) (noFrames ∘ withImages)).dev = false ∧ tcxState (sCmd (cmdBytes 0x05 5 2 (2 ^ 16)) (noFrames ∘ withImages)).dev (cmdAt 0x05 5 2 (2 ^ 16)).tenant = 1 ∧
    (seqDesc (sCmd (cmdBytes 0x05 5 2 (2 ^ 16)) (noFrames ∘ withImages)).dev (cmdAt 0x05 5 2 (2 ^ 16)).seq).st = .free ∧ openDirs (cmdAt 0x05 5 2 (2 ^ 16)).tenant (sCmd (cmdBytes 0x05 5 2 (2 ^ 16)) (noFrames ∘ withImages)).dev = none := by
  unfold CommandAt CommandFront; decide +kernel
theorem witness_seqOpen : CommandAt (sCmd (cmdBytes 0x05 5 2 (2 ^ 16)) withImages) 1 0x05 (cmdAt 0x05 5 2 (2 ^ 16)) ∧
    seqOpenBad (cmdAt 0x05 5 2 (2 ^ 16)) (sCmd (cmdBytes 0x05 5 2 (2 ^ 16)) withImages).dev = false ∧ tcxState (sCmd (cmdBytes 0x05 5 2 (2 ^ 16)) withImages).dev (cmdAt 0x05 5 2 (2 ^ 16)).tenant = 1 ∧
    (seqDesc (sCmd (cmdBytes 0x05 5 2 (2 ^ 16)) withImages).dev (cmdAt 0x05 5 2 (2 ^ 16)).seq).st = .free ∧ (openDirs (cmdAt 0x05 5 2 (2 ^ 16)).tenant (sCmd (cmdBytes 0x05 5 2 (2 ^ 16)) withImages).dev).isSome = true := by
  unfold CommandAt CommandFront; decide +kernel
theorem witness_seqForkBad : CommandAt (sCmd (cmdBytes 0x06 5 2 (1)) id) 1 0x06 (cmdAt 0x06 5 2 (1)) ∧
    (cmdAt 0x06 5 2 (1)).arg 63 32 = 0 := by
  unfold CommandAt CommandFront; decide +kernel
theorem witness_seqForkState : CommandAt (sCmd (cmdBytes 0x06 5 1 (1 + 4 * 2 ^ 32)) id) 1 0x06 (cmdAt 0x06 5 1 (1 + 4 * 2 ^ 32)) ∧
    seqInRange (sCmd (cmdBytes 0x06 5 1 (1 + 4 * 2 ^ 32)) id).dev (cmdAt 0x06 5 1 (1 + 4 * 2 ^ 32)).tenant (cmdAt 0x06 5 1 (1 + 4 * 2 ^ 32)).seq = true ∧ seqInRange (sCmd (cmdBytes 0x06 5 1 (1 + 4 * 2 ^ 32)) id).dev (cmdAt 0x06 5 1 (1 + 4 * 2 ^ 32)).tenant ((cmdAt 0x06 5 1 (1 + 4 * 2 ^ 32)).arg 17 0) = true ∧ 0 < (cmdAt 0x06 5 1 (1 + 4 * 2 ^ 32)).arg 63 32 ∧
    (cmdAt 0x06 5 1 (1 + 4 * 2 ^ 32)).arg 63 32 ≤ (seqDesc (sCmd (cmdBytes 0x06 5 1 (1 + 4 * 2 ^ 32)) id).dev ((cmdAt 0x06 5 1 (1 + 4 * 2 ^ 32)).arg 17 0)).length ∧ (seqDesc (sCmd (cmdBytes 0x06 5 1 (1 + 4 * 2 ^ 32)) id).dev ((cmdAt 0x06 5 1 (1 + 4 * 2 ^ 32)).arg 17 0)).parts ≤ 1 ∧
    (seqDesc (sCmd (cmdBytes 0x06 5 1 (1 + 4 * 2 ^ 32)) id).dev ((cmdAt 0x06 5 1 (1 + 4 * 2 ^ 32)).arg 17 0)).prefixLen ≤ (cmdAt 0x06 5 1 (1 + 4 * 2 ^ 32)).arg 63 32 ∧ (seqDesc (sCmd (cmdBytes 0x06 5 1 (1 + 4 * 2 ^ 32)) id).dev (cmdAt 0x06 5 1 (1 + 4 * 2 ^ 32)).seq).st ≠ .free := by
  unfold CommandAt CommandFront; decide +kernel
theorem witness_seqForkBusy : CommandAt (sCmd (cmdBytes 0x06 5 2 (1 + 4 * 2 ^ 32)) busySeq) 1 0x06 (cmdAt 0x06 5 2 (1 + 4 * 2 ^ 32)) ∧
    seqInRange (sCmd (cmdBytes 0x06 5 2 (1 + 4 * 2 ^ 32)) busySeq).dev (cmdAt 0x06 5 2 (1 + 4 * 2 ^ 32)).tenant (cmdAt 0x06 5 2 (1 + 4 * 2 ^ 32)).seq = true ∧ seqInRange (sCmd (cmdBytes 0x06 5 2 (1 + 4 * 2 ^ 32)) busySeq).dev (cmdAt 0x06 5 2 (1 + 4 * 2 ^ 32)).tenant ((cmdAt 0x06 5 2 (1 + 4 * 2 ^ 32)).arg 17 0) = true ∧ 0 < (cmdAt 0x06 5 2 (1 + 4 * 2 ^ 32)).arg 63 32 ∧
    (cmdAt 0x06 5 2 (1 + 4 * 2 ^ 32)).arg 63 32 ≤ (seqDesc (sCmd (cmdBytes 0x06 5 2 (1 + 4 * 2 ^ 32)) busySeq).dev ((cmdAt 0x06 5 2 (1 + 4 * 2 ^ 32)).arg 17 0)).length ∧ (seqDesc (sCmd (cmdBytes 0x06 5 2 (1 + 4 * 2 ^ 32)) busySeq).dev ((cmdAt 0x06 5 2 (1 + 4 * 2 ^ 32)).arg 17 0)).parts ≤ 1 ∧
    (seqDesc (sCmd (cmdBytes 0x06 5 2 (1 + 4 * 2 ^ 32)) busySeq).dev ((cmdAt 0x06 5 2 (1 + 4 * 2 ^ 32)).arg 17 0)).prefixLen ≤ (cmdAt 0x06 5 2 (1 + 4 * 2 ^ 32)).arg 63 32 ∧ tcxState (sCmd (cmdBytes 0x06 5 2 (1 + 4 * 2 ^ 32)) busySeq).dev (cmdAt 0x06 5 2 (1 + 4 * 2 ^ 32)).tenant = 1 ∧ (seqDesc (sCmd (cmdBytes 0x06 5 2 (1 + 4 * 2 ^ 32)) busySeq).dev (cmdAt 0x06 5 2 (1 + 4 * 2 ^ 32)).seq).st = .free ∧
    seqOpen (sCmd (cmdBytes 0x06 5 2 (1 + 4 * 2 ^ 32)) busySeq).dev ((cmdAt 0x06 5 2 (1 + 4 * 2 ^ 32)).arg 17 0) = true ∧ (seqDesc (sCmd (cmdBytes 0x06 5 2 (1 + 4 * 2 ^ 32)) busySeq).dev ((cmdAt 0x06 5 2 (1 + 4 * 2 ^ 32)).arg 17 0)).forkParent = false ∧ seqBusy (sCmd (cmdBytes 0x06 5 2 (1 + 4 * 2 ^ 32)) busySeq).dev ((cmdAt 0x06 5 2 (1 + 4 * 2 ^ 32)).arg 17 0) = true := by
  unfold CommandAt CommandFront; decide +kernel
theorem witness_seqForkSpace : CommandAt (sCmd (cmdBytes 0x06 5 2 (1 + 4 * 2 ^ 32)) noFrames) 1 0x06 (cmdAt 0x06 5 2 (1 + 4 * 2 ^ 32)) ∧
    seqInRange (sCmd (cmdBytes 0x06 5 2 (1 + 4 * 2 ^ 32)) noFrames).dev (cmdAt 0x06 5 2 (1 + 4 * 2 ^ 32)).tenant (cmdAt 0x06 5 2 (1 + 4 * 2 ^ 32)).seq = true ∧ seqInRange (sCmd (cmdBytes 0x06 5 2 (1 + 4 * 2 ^ 32)) noFrames).dev (cmdAt 0x06 5 2 (1 + 4 * 2 ^ 32)).tenant ((cmdAt 0x06 5 2 (1 + 4 * 2 ^ 32)).arg 17 0) = true ∧ 0 < (cmdAt 0x06 5 2 (1 + 4 * 2 ^ 32)).arg 63 32 ∧
    (cmdAt 0x06 5 2 (1 + 4 * 2 ^ 32)).arg 63 32 ≤ (seqDesc (sCmd (cmdBytes 0x06 5 2 (1 + 4 * 2 ^ 32)) noFrames).dev ((cmdAt 0x06 5 2 (1 + 4 * 2 ^ 32)).arg 17 0)).length ∧ (seqDesc (sCmd (cmdBytes 0x06 5 2 (1 + 4 * 2 ^ 32)) noFrames).dev ((cmdAt 0x06 5 2 (1 + 4 * 2 ^ 32)).arg 17 0)).parts ≤ 1 ∧
    (seqDesc (sCmd (cmdBytes 0x06 5 2 (1 + 4 * 2 ^ 32)) noFrames).dev ((cmdAt 0x06 5 2 (1 + 4 * 2 ^ 32)).arg 17 0)).prefixLen ≤ (cmdAt 0x06 5 2 (1 + 4 * 2 ^ 32)).arg 63 32 ∧ tcxState (sCmd (cmdBytes 0x06 5 2 (1 + 4 * 2 ^ 32)) noFrames).dev (cmdAt 0x06 5 2 (1 + 4 * 2 ^ 32)).tenant = 1 ∧ (seqDesc (sCmd (cmdBytes 0x06 5 2 (1 + 4 * 2 ^ 32)) noFrames).dev (cmdAt 0x06 5 2 (1 + 4 * 2 ^ 32)).seq).st = .free ∧
    seqOpen (sCmd (cmdBytes 0x06 5 2 (1 + 4 * 2 ^ 32)) noFrames).dev ((cmdAt 0x06 5 2 (1 + 4 * 2 ^ 32)).arg 17 0) = true ∧ (seqDesc (sCmd (cmdBytes 0x06 5 2 (1 + 4 * 2 ^ 32)) noFrames).dev ((cmdAt 0x06 5 2 (1 + 4 * 2 ^ 32)).arg 17 0)).forkParent = false ∧ seqBusy (sCmd (cmdBytes 0x06 5 2 (1 + 4 * 2 ^ 32)) noFrames).dev ((cmdAt 0x06 5 2 (1 + 4 * 2 ^ 32)).arg 17 0) = false ∧
    openDirs (cmdAt 0x06 5 2 (1 + 4 * 2 ^ 32)).tenant (sCmd (cmdBytes 0x06 5 2 (1 + 4 * 2 ^ 32)) noFrames).dev = none := by
  unfold CommandAt CommandFront; decide +kernel
theorem witness_seqFork : CommandAt (sCmd (cmdBytes 0x06 5 2 (1 + 4 * 2 ^ 32)) id) 1 0x06 (cmdAt 0x06 5 2 (1 + 4 * 2 ^ 32)) ∧
    seqInRange (sCmd (cmdBytes 0x06 5 2 (1 + 4 * 2 ^ 32)) id).dev (cmdAt 0x06 5 2 (1 + 4 * 2 ^ 32)).tenant (cmdAt 0x06 5 2 (1 + 4 * 2 ^ 32)).seq = true ∧ seqInRange (sCmd (cmdBytes 0x06 5 2 (1 + 4 * 2 ^ 32)) id).dev (cmdAt 0x06 5 2 (1 + 4 * 2 ^ 32)).tenant ((cmdAt 0x06 5 2 (1 + 4 * 2 ^ 32)).arg 17 0) = true ∧ 0 < (cmdAt 0x06 5 2 (1 + 4 * 2 ^ 32)).arg 63 32 ∧
    (cmdAt 0x06 5 2 (1 + 4 * 2 ^ 32)).arg 63 32 ≤ (seqDesc (sCmd (cmdBytes 0x06 5 2 (1 + 4 * 2 ^ 32)) id).dev ((cmdAt 0x06 5 2 (1 + 4 * 2 ^ 32)).arg 17 0)).length ∧ (seqDesc (sCmd (cmdBytes 0x06 5 2 (1 + 4 * 2 ^ 32)) id).dev ((cmdAt 0x06 5 2 (1 + 4 * 2 ^ 32)).arg 17 0)).parts ≤ 1 ∧
    (seqDesc (sCmd (cmdBytes 0x06 5 2 (1 + 4 * 2 ^ 32)) id).dev ((cmdAt 0x06 5 2 (1 + 4 * 2 ^ 32)).arg 17 0)).prefixLen ≤ (cmdAt 0x06 5 2 (1 + 4 * 2 ^ 32)).arg 63 32 ∧ tcxState (sCmd (cmdBytes 0x06 5 2 (1 + 4 * 2 ^ 32)) id).dev (cmdAt 0x06 5 2 (1 + 4 * 2 ^ 32)).tenant = 1 ∧ (seqDesc (sCmd (cmdBytes 0x06 5 2 (1 + 4 * 2 ^ 32)) id).dev (cmdAt 0x06 5 2 (1 + 4 * 2 ^ 32)).seq).st = .free ∧
    seqOpen (sCmd (cmdBytes 0x06 5 2 (1 + 4 * 2 ^ 32)) id).dev ((cmdAt 0x06 5 2 (1 + 4 * 2 ^ 32)).arg 17 0) = true ∧ (seqDesc (sCmd (cmdBytes 0x06 5 2 (1 + 4 * 2 ^ 32)) id).dev ((cmdAt 0x06 5 2 (1 + 4 * 2 ^ 32)).arg 17 0)).forkParent = false ∧ seqBusy (sCmd (cmdBytes 0x06 5 2 (1 + 4 * 2 ^ 32)) id).dev ((cmdAt 0x06 5 2 (1 + 4 * 2 ^ 32)).arg 17 0) = false ∧
    (openDirs (cmdAt 0x06 5 2 (1 + 4 * 2 ^ 32)).tenant (sCmd (cmdBytes 0x06 5 2 (1 + 4 * 2 ^ 32)) id).dev).isSome = true := by
  unfold CommandAt CommandFront; decide +kernel

theorem witness_activateState : CommandAt (sCmd (cmdBytes 0x01 5 0 (0)) id) 1 0x01 (cmdAt 0x01 5 0 (0)) ∧
    tcxState (sCmd (cmdBytes 0x01 5 0 (0)) id).dev (cmdAt 0x01 5 0 (0)).tenant ≠ 0 := by
  unfold CommandAt CommandFront; decide +kernel
theorem witness_activateFails : CommandAt (sCmd (cmdBytes 0x01 9 0 (0)) id) 1 0x01 (cmdAt 0x01 9 0 (0)) ∧
    tcxState (sCmd (cmdBytes 0x01 9 0 (0)) id).dev (cmdAt 0x01 9 0 (0)).tenant = 0 ∧ activationReason (sCmd (cmdBytes 0x01 9 0 (0)) id).dev (cmdAt 0x01 9 0 (0)).tenant = 6 := by
  unfold CommandAt CommandFront; decide +kernel
theorem witness_activate : CommandAt (sCmd (cmdBytes 0x01 9 0 (0)) ((withSlot (slotOk 9 7)) ∘ withImages)) 1 0x01 (cmdAt 0x01 9 0 (0)) ∧
    tcxState (sCmd (cmdBytes 0x01 9 0 (0)) ((withSlot (slotOk 9 7)) ∘ withImages)).dev (cmdAt 0x01 9 0 (0)).tenant = 0 ∧ activationReason (sCmd (cmdBytes 0x01 9 0 (0)) ((withSlot (slotOk 9 7)) ∘ withImages)).dev (cmdAt 0x01 9 0 (0)).tenant = 0 ∧
    verifiedSlot (sCmd (cmdBytes 0x01 9 0 (0)) ((withSlot (slotOk 9 7)) ∘ withImages)).dev (cmdAt 0x01 9 0 (0)).tenant = some 0 := by
  unfold CommandAt CommandFront; decide +kernel
theorem witness_ctxKill : CommandAt (sCmd (cmdBytes 0x02 5 0 (0)) id) 1 0x02 (cmdAt 0x02 5 0 (0)) ∧
    tcxState (sCmd (cmdBytes 0x02 5 0 (0)) id).dev (cmdAt 0x02 5 0 (0)).tenant = 1 := by
  unfold CommandAt CommandFront; decide +kernel
theorem witness_ctxKillState : CommandAt (sCmd (cmdBytes 0x02 9 0 (0)) id) 1 0x02 (cmdAt 0x02 9 0 (0)) ∧
    tcxState (sCmd (cmdBytes 0x02 9 0 (0)) id).dev (cmdAt 0x02 9 0 (0)).tenant ≠ 1 := by
  unfold CommandAt CommandFront; decide +kernel
theorem witness_reqKill : CommandAt (sCmd (cmdBytes 0x03 5 0 (77)) (withReq { newestReq with tick := 3 })) 1 0x03 (cmdAt 0x03 5 0 (77)) ∧
    tcxState (sCmd (cmdBytes 0x03 5 0 (77)) (withReq { newestReq with tick := 3 })).dev (cmdAt 0x03 5 0 (77)).tenant = 1 ∧
    ∃ r ∈ (sCmd (cmdBytes 0x03 5 0 (77)) (withReq { newestReq with tick := 3 })).dev.ent.reqs, (dTenant r.desc = (cmdAt 0x03 5 0 (77)).tenant ∧ (dReqId r.desc).toNat = (cmdAt 0x03 5 0 (77)).arg 31 0) ∧ r.recordWritten = false ∧
      (sCmd (cmdBytes 0x03 5 0 (77)) (withReq { newestReq with tick := 3 })).dev.tick.num + 1 ≤ r.tick := by
  unfold CommandAt CommandFront; decide +kernel
theorem witness_reqKillNone : CommandAt (sCmd (cmdBytes 0x03 5 0 (77)) id) 1 0x03 (cmdAt 0x03 5 0 (77)) ∧
    tcxState (sCmd (cmdBytes 0x03 5 0 (77)) id).dev (cmdAt 0x03 5 0 (77)).tenant = 1 ∧ (sCmd (cmdBytes 0x03 5 0 (77)) id).dev.ent.reqs = [] := by
  unfold CommandAt CommandFront; decide +kernel
theorem witness_keyClear : CommandAt (sCmd (cmdBytes 0x11 5 0 (6)) id) 1 0x11 (cmdAt 0x11 5 0 (6)) ∧
    handleBusy (sCmd (cmdBytes 0x11 5 0 (6)) id).dev ((cmdAt 0x11 5 0 (6)).arg 11 0) = false := by
  unfold CommandAt CommandFront; decide +kernel
theorem witness_keyClearBusy : CommandAt (sCmd (cmdBytes 0x11 5 0 (0)) id) 1 0x11 (cmdAt 0x11 5 0 (0)) ∧
    handleBusy (sCmd (cmdBytes 0x11 5 0 (0)) id).dev ((cmdAt 0x11 5 0 (0)).arg 11 0) = true := by
  unfold CommandAt CommandFront; decide +kernel
theorem witness_keyLoadBad : CommandAt (sCmd (cmdBytes 0x10 5 0 6 ++ zeroBytes 110 ++ [1]) (put [(R.RNG_TAIL 1, 3)])) 1 0x10 (cmdAt 0x10 5 0 6) ∧
    ∃ b ∈ ((cmdEntryAt (sCmd (cmdBytes 0x10 5 0 6 ++ zeroBytes 110 ++ [1]) (put [(R.RNG_TAIL 1, 3)])).dev 1 1 ++ cmdEntryAt (sCmd (cmdBytes 0x10 5 0 6 ++ zeroBytes 110 ++ [1]) (put [(R.RNG_TAIL 1, 3)])).dev 1 2).drop 104), b ≠ 0 := by
  unfold CommandAt CommandFront; decide +kernel
theorem witness_keyLoad : CommandAt (sCmd (cmdBytes 0x10 5 0 6) (put [(R.RNG_TAIL 1, 3)])) 1 0x10 (cmdAt 0x10 5 0 6) ∧
    (∀ b ∈ ((cmdEntryAt (sCmd (cmdBytes 0x10 5 0 6) (put [(R.RNG_TAIL 1, 3)])).dev 1 1 ++ cmdEntryAt (sCmd (cmdBytes 0x10 5 0 6) (put [(R.RNG_TAIL 1, 3)])).dev 1 2).drop 104), b = 0) ∧ handleBusy (sCmd (cmdBytes 0x10 5 0 6) (put [(R.RNG_TAIL 1, 3)])).dev ((cmdAt 0x10 5 0 6).arg 11 0) = false := by
  unfold CommandAt CommandFront; decide +kernel
theorem witness_keyLoadOther : alive (sCmd (cmdBytes 0x10 5 0 6) id).dev = true ∧
    isKeyLoad (sCmd (cmdBytes 0x10 5 0 6) id).dev 1 (cmdAt 0x10 5 0 6).cmdId 7 = false ∧
    isKeyLoad (sCmd (cmdBytes 0x10 5 0 6) id).dev 1 (cmdAt 0x10 5 0 6).cmdId 6 = true := by decide +kernel
theorem witness_keyLoadBusy : CommandAt (sCmd (cmdBytes 0x10 5 0 0) (put [(R.RNG_TAIL 1, 3)])) 1 0x10 (cmdAt 0x10 5 0 0) ∧
    (∀ b ∈ ((cmdEntryAt (sCmd (cmdBytes 0x10 5 0 0) (put [(R.RNG_TAIL 1, 3)])).dev 1 1 ++ cmdEntryAt (sCmd (cmdBytes 0x10 5 0 0) (put [(R.RNG_TAIL 1, 3)])).dev 1 2).drop 104), b = 0) ∧ handleBusy (sCmd (cmdBytes 0x10 5 0 0) (put [(R.RNG_TAIL 1, 3)])).dev ((cmdAt 0x10 5 0 0).arg 11 0) = true := by
  unfold CommandAt CommandFront; decide +kernel

theorem witness_wgtLoadBad : CommandAt (sCmd (cmdBytes 0x12 5 0 (7 * 2 ^ 36)) id) 1 0x12 (cmdAt 0x12 5 0 (7 * 2 ^ 36)) ∧
    (cmdAt 0x12 5 0 (7 * 2 ^ 36)).version = 0 := by
  unfold CommandAt CommandFront; decide +kernel
theorem witness_wgtLoadState : CommandAt (sCmd (cmdBytes 0x12 9 0 (8 + 7 * 2 ^ 36 + 0x400000 * 2 ^ 64)) id) 1 0x12 (cmdAt 0x12 9 0 (8 + 7 * 2 ^ 36 + 0x400000 * 2 ^ 64)) ∧
    (cmdAt 0x12 9 0 (8 + 7 * 2 ^ 36 + 0x400000 * 2 ^ 64)).version ≠ 0 ∧ wgtPortOk (sCmd (cmdBytes 0x12 9 0 (8 + 7 * 2 ^ 36 + 0x400000 * 2 ^ 64)) id).dev ((cmdAt 0x12 9 0 (8 + 7 * 2 ^ 36 + 0x400000 * 2 ^ 64)).arg 34 32) = true ∧ (cmdAt 0x12 9 0 (8 + 7 * 2 ^ 36 + 0x400000 * 2 ^ 64)).arg 38 36 = 7 ∧ tcxState (sCmd (cmdBytes 0x12 9 0 (8 + 7 * 2 ^ 36 + 0x400000 * 2 ^ 64)) id).dev (cmdAt 0x12 9 0 (8 + 7 * 2 ^ 36 + 0x400000 * 2 ^ 64)).tenant < 2 ∧
    getReg (sCmd (cmdBytes 0x12 9 0 (8 + 7 * 2 ^ 36 + 0x400000 * 2 ^ 64)) id).dev (R.TCX_VERSION_NEXT (cmdAt 0x12 9 0 (8 + 7 * 2 ^ 36 + 0x400000 * 2 ^ 64)).tenant) ≠ 0 := by
  unfold CommandAt CommandFront; decide +kernel
theorem witness_wgtLoad : CommandAt (sCmd (cmdBytes 0x12 5 0 (8 + 7 * 2 ^ 36 + 0x400000 * 2 ^ 64)) id) 1 0x12 (cmdAt 0x12 5 0 (8 + 7 * 2 ^ 36 + 0x400000 * 2 ^ 64)) ∧
    (cmdAt 0x12 5 0 (8 + 7 * 2 ^ 36 + 0x400000 * 2 ^ 64)).version ≠ 0 ∧ wgtPortOk (sCmd (cmdBytes 0x12 5 0 (8 + 7 * 2 ^ 36 + 0x400000 * 2 ^ 64)) id).dev ((cmdAt 0x12 5 0 (8 + 7 * 2 ^ 36 + 0x400000 * 2 ^ 64)).arg 34 32) = true ∧ (cmdAt 0x12 5 0 (8 + 7 * 2 ^ 36 + 0x400000 * 2 ^ 64)).arg 38 36 = 7 ∧ tcxState (sCmd (cmdBytes 0x12 5 0 (8 + 7 * 2 ^ 36 + 0x400000 * 2 ^ 64)) id).dev (cmdAt 0x12 5 0 (8 + 7 * 2 ^ 36 + 0x400000 * 2 ^ 64)).tenant < 2 ∧
    getReg (sCmd (cmdBytes 0x12 5 0 (8 + 7 * 2 ^ 36 + 0x400000 * 2 ^ 64)) id).dev (R.TCX_VERSION_NEXT (cmdAt 0x12 5 0 (8 + 7 * 2 ^ 36 + 0x400000 * 2 ^ 64)).tenant) = 0 ∧ (cmdAt 0x12 5 0 (8 + 7 * 2 ^ 36 + 0x400000 * 2 ^ 64)).version ≠ getReg (sCmd (cmdBytes 0x12 5 0 (8 + 7 * 2 ^ 36 + 0x400000 * 2 ^ 64)) id).dev (R.TCX_VERSION (cmdAt 0x12 5 0 (8 + 7 * 2 ^ 36 + 0x400000 * 2 ^ 64)).tenant) ∧
    (List.range 8).find? (fun i => decide ((wSlot (sCmd (cmdBytes 0x12 5 0 (8 + 7 * 2 ^ 36 + 0x400000 * 2 ^ 64)) id).dev i).st = .idle)) = some 0 ∧
    (keySet (sCmd (cmdBytes 0x12 5 0 (8 + 7 * 2 ^ 36 + 0x400000 * 2 ^ 64)) id).dev (keyHandle (sCmd (cmdBytes 0x12 5 0 (8 + 7 * 2 ^ 36 + 0x400000 * 2 ^ 64)) id).dev (cmdAt 0x12 5 0 (8 + 7 * 2 ^ 36 + 0x400000 * 2 ^ 64)).tenant)).valid = true ∧ destBad (sCmd (cmdBytes 0x12 5 0 (8 + 7 * 2 ^ 36 + 0x400000 * 2 ^ 64)) id).dev ((cmdAt 0x12 5 0 (8 + 7 * 2 ^ 36 + 0x400000 * 2 ^ 64)).arg 127 64) = false := by
  unfold CommandAt CommandFront; decide +kernel
theorem witness_wgtLoadPlace : CommandAt (sCmd (cmdBytes 0x12 5 0 (8 + 7 * 2 ^ 36 + 0x400001 * 2 ^ 64)) id) 1 0x12 (cmdAt 0x12 5 0 (8 + 7 * 2 ^ 36 + 0x400001 * 2 ^ 64)) ∧
    (cmdAt 0x12 5 0 (8 + 7 * 2 ^ 36 + 0x400001 * 2 ^ 64)).version ≠ 0 ∧ wgtPortOk (sCmd (cmdBytes 0x12 5 0 (8 + 7 * 2 ^ 36 + 0x400001 * 2 ^ 64)) id).dev ((cmdAt 0x12 5 0 (8 + 7 * 2 ^ 36 + 0x400001 * 2 ^ 64)).arg 34 32) = true ∧ (cmdAt 0x12 5 0 (8 + 7 * 2 ^ 36 + 0x400001 * 2 ^ 64)).arg 38 36 = 7 ∧ tcxState (sCmd (cmdBytes 0x12 5 0 (8 + 7 * 2 ^ 36 + 0x400001 * 2 ^ 64)) id).dev (cmdAt 0x12 5 0 (8 + 7 * 2 ^ 36 + 0x400001 * 2 ^ 64)).tenant < 2 ∧
    getReg (sCmd (cmdBytes 0x12 5 0 (8 + 7 * 2 ^ 36 + 0x400001 * 2 ^ 64)) id).dev (R.TCX_VERSION_NEXT (cmdAt 0x12 5 0 (8 + 7 * 2 ^ 36 + 0x400001 * 2 ^ 64)).tenant) = 0 ∧ (cmdAt 0x12 5 0 (8 + 7 * 2 ^ 36 + 0x400001 * 2 ^ 64)).version ≠ getReg (sCmd (cmdBytes 0x12 5 0 (8 + 7 * 2 ^ 36 + 0x400001 * 2 ^ 64)) id).dev (R.TCX_VERSION (cmdAt 0x12 5 0 (8 + 7 * 2 ^ 36 + 0x400001 * 2 ^ 64)).tenant) ∧
    (List.range 8).find? (fun i => decide ((wSlot (sCmd (cmdBytes 0x12 5 0 (8 + 7 * 2 ^ 36 + 0x400001 * 2 ^ 64)) id).dev i).st = .idle)) = some 0 ∧
    (keySet (sCmd (cmdBytes 0x12 5 0 (8 + 7 * 2 ^ 36 + 0x400001 * 2 ^ 64)) id).dev (keyHandle (sCmd (cmdBytes 0x12 5 0 (8 + 7 * 2 ^ 36 + 0x400001 * 2 ^ 64)) id).dev (cmdAt 0x12 5 0 (8 + 7 * 2 ^ 36 + 0x400001 * 2 ^ 64)).tenant)).valid = true ∧ destBad (sCmd (cmdBytes 0x12 5 0 (8 + 7 * 2 ^ 36 + 0x400001 * 2 ^ 64)) id).dev ((cmdAt 0x12 5 0 (8 + 7 * 2 ^ 36 + 0x400001 * 2 ^ 64)).arg 127 64) = true := by
  unfold CommandAt CommandFront; decide +kernel
theorem witness_wgtLoadKeys : CommandAt (sCmd (cmdBytes 0x12 5 0 (8 + 7 * 2 ^ 36 + 0x400000 * 2 ^ 64)) (put [(R.TCX_KEYS 5, 3)])) 1 0x12 (cmdAt 0x12 5 0 (8 + 7 * 2 ^ 36 + 0x400000 * 2 ^ 64)) ∧
    (cmdAt 0x12 5 0 (8 + 7 * 2 ^ 36 + 0x400000 * 2 ^ 64)).version ≠ 0 ∧ wgtPortOk (sCmd (cmdBytes 0x12 5 0 (8 + 7 * 2 ^ 36 + 0x400000 * 2 ^ 64)) (put [(R.TCX_KEYS 5, 3)])).dev ((cmdAt 0x12 5 0 (8 + 7 * 2 ^ 36 + 0x400000 * 2 ^ 64)).arg 34 32) = true ∧ (cmdAt 0x12 5 0 (8 + 7 * 2 ^ 36 + 0x400000 * 2 ^ 64)).arg 38 36 = 7 ∧ tcxState (sCmd (cmdBytes 0x12 5 0 (8 + 7 * 2 ^ 36 + 0x400000 * 2 ^ 64)) (put [(R.TCX_KEYS 5, 3)])).dev (cmdAt 0x12 5 0 (8 + 7 * 2 ^ 36 + 0x400000 * 2 ^ 64)).tenant < 2 ∧
    getReg (sCmd (cmdBytes 0x12 5 0 (8 + 7 * 2 ^ 36 + 0x400000 * 2 ^ 64)) (put [(R.TCX_KEYS 5, 3)])).dev (R.TCX_VERSION_NEXT (cmdAt 0x12 5 0 (8 + 7 * 2 ^ 36 + 0x400000 * 2 ^ 64)).tenant) = 0 ∧ (cmdAt 0x12 5 0 (8 + 7 * 2 ^ 36 + 0x400000 * 2 ^ 64)).version ≠ getReg (sCmd (cmdBytes 0x12 5 0 (8 + 7 * 2 ^ 36 + 0x400000 * 2 ^ 64)) (put [(R.TCX_KEYS 5, 3)])).dev (R.TCX_VERSION (cmdAt 0x12 5 0 (8 + 7 * 2 ^ 36 + 0x400000 * 2 ^ 64)).tenant) ∧
    (List.range 8).find? (fun i => decide ((wSlot (sCmd (cmdBytes 0x12 5 0 (8 + 7 * 2 ^ 36 + 0x400000 * 2 ^ 64)) (put [(R.TCX_KEYS 5, 3)])).dev i).st = .idle)) = some 0 ∧
    (keySet (sCmd (cmdBytes 0x12 5 0 (8 + 7 * 2 ^ 36 + 0x400000 * 2 ^ 64)) (put [(R.TCX_KEYS 5, 3)])).dev (keyHandle (sCmd (cmdBytes 0x12 5 0 (8 + 7 * 2 ^ 36 + 0x400000 * 2 ^ 64)) (put [(R.TCX_KEYS 5, 3)])).dev (cmdAt 0x12 5 0 (8 + 7 * 2 ^ 36 + 0x400000 * 2 ^ 64)).tenant)).valid = false := by
  unfold CommandAt CommandFront; decide +kernel
theorem witness_wgtLoadBusy : CommandAt (sCmd (cmdBytes 0x12 5 0 (8 + 7 * 2 ^ 36 + 0x400000 * 2 ^ 64)) (fun d => { d with wgt := { d.wgt with slots := (List.range 8).map (fun i => (i, slotOk 9 7)) } })) 1 0x12 (cmdAt 0x12 5 0 (8 + 7 * 2 ^ 36 + 0x400000 * 2 ^ 64)) ∧
    (cmdAt 0x12 5 0 (8 + 7 * 2 ^ 36 + 0x400000 * 2 ^ 64)).version ≠ 0 ∧ wgtPortOk (sCmd (cmdBytes 0x12 5 0 (8 + 7 * 2 ^ 36 + 0x400000 * 2 ^ 64)) (fun d => { d with wgt := { d.wgt with slots := (List.range 8).map (fun i => (i, slotOk 9 7)) } })).dev ((cmdAt 0x12 5 0 (8 + 7 * 2 ^ 36 + 0x400000 * 2 ^ 64)).arg 34 32) = true ∧ (cmdAt 0x12 5 0 (8 + 7 * 2 ^ 36 + 0x400000 * 2 ^ 64)).arg 38 36 = 7 ∧ tcxState (sCmd (cmdBytes 0x12 5 0 (8 + 7 * 2 ^ 36 + 0x400000 * 2 ^ 64)) (fun d => { d with wgt := { d.wgt with slots := (List.range 8).map (fun i => (i, slotOk 9 7)) } })).dev (cmdAt 0x12 5 0 (8 + 7 * 2 ^ 36 + 0x400000 * 2 ^ 64)).tenant < 2 ∧
    getReg (sCmd (cmdBytes 0x12 5 0 (8 + 7 * 2 ^ 36 + 0x400000 * 2 ^ 64)) (fun d => { d with wgt := { d.wgt with slots := (List.range 8).map (fun i => (i, slotOk 9 7)) } })).dev (R.TCX_VERSION_NEXT (cmdAt 0x12 5 0 (8 + 7 * 2 ^ 36 + 0x400000 * 2 ^ 64)).tenant) = 0 ∧ (cmdAt 0x12 5 0 (8 + 7 * 2 ^ 36 + 0x400000 * 2 ^ 64)).version ≠ getReg (sCmd (cmdBytes 0x12 5 0 (8 + 7 * 2 ^ 36 + 0x400000 * 2 ^ 64)) (fun d => { d with wgt := { d.wgt with slots := (List.range 8).map (fun i => (i, slotOk 9 7)) } })).dev (R.TCX_VERSION (cmdAt 0x12 5 0 (8 + 7 * 2 ^ 36 + 0x400000 * 2 ^ 64)).tenant) ∧
    (List.range 8).find? (fun i => decide ((wSlot (sCmd (cmdBytes 0x12 5 0 (8 + 7 * 2 ^ 36 + 0x400000 * 2 ^ 64)) (fun d => { d with wgt := { d.wgt with slots := (List.range 8).map (fun i => (i, slotOk 9 7)) } })).dev i).st = .idle)) = none := by
  unfold CommandAt CommandFront; decide +kernel
theorem witness_wgtCancel : CommandAt (sCmd (cmdBytes 0x13 9 0 (7)) (withSlot (slotOk 9 7))) 1 0x13 (cmdAt 0x13 9 0 (7)) ∧
    slotIn? (sCmd (cmdBytes 0x13 9 0 (7)) (withSlot (slotOk 9 7))).dev (cmdAt 0x13 9 0 (7)).tenant (cmdAt 0x13 9 0 (7)).version (fun st => decide (st = .loading ∨ st = .verified)) = some 0 ∧
    (wSlot (sCmd (cmdBytes 0x13 9 0 (7)) (withSlot (slotOk 9 7))).dev 0).loadCmd = none := by
  unfold CommandAt CommandFront; decide +kernel
theorem witness_wgtCancelState : CommandAt (sCmd (cmdBytes 0x13 9 0 (7)) id) 1 0x13 (cmdAt 0x13 9 0 (7)) ∧
    slotIn? (sCmd (cmdBytes 0x13 9 0 (7)) id).dev (cmdAt 0x13 9 0 (7)).tenant (cmdAt 0x13 9 0 (7)).version (fun st => decide (st = .loading ∨ st = .verified)) = none := by
  unfold CommandAt CommandFront; decide +kernel
theorem witness_wgtSwapState : CommandAt (sCmd (cmdBytes 0x14 5 0 (8)) id) 1 0x14 (cmdAt 0x14 5 0 (8)) ∧
    slotIn? (sCmd (cmdBytes 0x14 5 0 (8)) id).dev (cmdAt 0x14 5 0 (8)).tenant (cmdAt 0x14 5 0 (8)).version (fun st => decide (st = .verified)) = none := by
  unfold CommandAt CommandFront; decide +kernel
theorem witness_wgtSwapShape : CommandAt (sCmd (cmdBytes 0x14 5 0 (8)) ((withSlot (slotOk 5 8)) ∘ withImages)) 1 0x14 (cmdAt 0x14 5 0 (8)) ∧
    slotIn? (sCmd (cmdBytes 0x14 5 0 (8)) ((withSlot (slotOk 5 8)) ∘ withImages)).dev (cmdAt 0x14 5 0 (8)).tenant (cmdAt 0x14 5 0 (8)).version (fun st => decide (st = .verified)) = some 0 ∧ tcxState (sCmd (cmdBytes 0x14 5 0 (8)) ((withSlot (slotOk 5 8)) ∘ withImages)).dev (cmdAt 0x14 5 0 (8)).tenant = 1 ∧
    (shapeMatches (sCmd (cmdBytes 0x14 5 0 (8)) ((withSlot (slotOk 5 8)) ∘ withImages)).dev (cmdAt 0x14 5 0 (8)).tenant (wSlot (sCmd (cmdBytes 0x14 5 0 (8)) ((withSlot (slotOk 5 8)) ∘ withImages)).dev 0).dest && footprintFits (sCmd (cmdBytes 0x14 5 0 (8)) ((withSlot (slotOk 5 8)) ∘ withImages)).dev (cmdAt 0x14 5 0 (8)).tenant (wSlot (sCmd (cmdBytes 0x14 5 0 (8)) ((withSlot (slotOk 5 8)) ∘ withImages)).dev 0).dest) = false := by
  unfold CommandAt CommandFront; decide +kernel
theorem witness_wgtSwap : CommandAt (sCmd (cmdBytes 0x14 5 0 (8)) ((withSlot { slotOk 5 8 with dest := 0 }) ∘ withImages)) 1 0x14 (cmdAt 0x14 5 0 (8)) ∧
    slotIn? (sCmd (cmdBytes 0x14 5 0 (8)) ((withSlot { slotOk 5 8 with dest := 0 }) ∘ withImages)).dev (cmdAt 0x14 5 0 (8)).tenant (cmdAt 0x14 5 0 (8)).version (fun st => decide (st = .verified)) = some 0 ∧ tcxState (sCmd (cmdBytes 0x14 5 0 (8)) ((withSlot { slotOk 5 8 with dest := 0 }) ∘ withImages)).dev (cmdAt 0x14 5 0 (8)).tenant = 1 ∧
    (shapeMatches (sCmd (cmdBytes 0x14 5 0 (8)) ((withSlot { slotOk 5 8 with dest := 0 }) ∘ withImages)).dev (cmdAt 0x14 5 0 (8)).tenant (wSlot (sCmd (cmdBytes 0x14 5 0 (8)) ((withSlot { slotOk 5 8 with dest := 0 }) ∘ withImages)).dev 0).dest && footprintFits (sCmd (cmdBytes 0x14 5 0 (8)) ((withSlot { slotOk 5 8 with dest := 0 }) ∘ withImages)).dev (cmdAt 0x14 5 0 (8)).tenant (wSlot (sCmd (cmdBytes 0x14 5 0 (8)) ((withSlot { slotOk 5 8 with dest := 0 }) ∘ withImages)).dev 0).dest) = true ∧
    costTableValid (sCmd (cmdBytes 0x14 5 0 (8)) ((withSlot { slotOk 5 8 with dest := 0 }) ∘ withImages)).dev ((cmdAt 0x14 5 0 (8)).arg 48 40) = true := by
  unfold CommandAt CommandFront; decide +kernel
theorem witness_wgtActivate : CommandAt (sCmd (cmdBytes 0x15 5 0 (8)) id) 1 0x15 (cmdAt 0x15 5 0 (8)) ∧
    role (sCmd (cmdBytes 0x15 5 0 (8)) id).dev = 0 ∧ freeAct (sCmd (cmdBytes 0x15 5 0 (8)) id).dev = some 0 := by
  unfold CommandAt CommandFront; decide +kernel
theorem witness_wgtActivateRole : CommandAt (sCmd (cmdBytes 0x15 5 0 (8)) (put [(R.TICK_CFG, 2)])) 1 0x15 (cmdAt 0x15 5 0 (8)) ∧
    role (sCmd (cmdBytes 0x15 5 0 (8)) (put [(R.TICK_CFG, 2)])).dev ≠ 0 ∧ role (sCmd (cmdBytes 0x15 5 0 (8)) (put [(R.TICK_CFG, 2)])).dev ≠ 1 := by
  unfold CommandAt CommandFront; decide +kernel
theorem witness_wgtActivateBusy : CommandAt (sCmd (cmdBytes 0x15 5 0 (8)) (put ((List.range 8).map (fun j => (R.ENT_WACT_ID j, 0x80000009))))) 1 0x15 (cmdAt 0x15 5 0 (8)) ∧
    role (sCmd (cmdBytes 0x15 5 0 (8)) (put ((List.range 8).map (fun j => (R.ENT_WACT_ID j, 0x80000009))))).dev = 0 ∧ freeAct (sCmd (cmdBytes 0x15 5 0 (8)) (put ((List.range 8).map (fun j => (R.ENT_WACT_ID j, 0x80000009))))).dev = none := by
  unfold CommandAt CommandFront; decide +kernel
theorem witness_wgtAbortState : CommandAt (sCmd (cmdBytes 0x16 5 0 (8)) id) 1 0x16 (cmdAt 0x16 5 0 (8)) ∧
    slotIn? (sCmd (cmdBytes 0x16 5 0 (8)) id).dev (cmdAt 0x16 5 0 (8)).tenant (cmdAt 0x16 5 0 (8)).version (fun st => decide (st = .swapping ∨ st = .ready)) = none := by
  unfold CommandAt CommandFront; decide +kernel
theorem witness_wgtAbort : CommandAt (sCmd (cmdBytes 0x16 5 0 (8)) (withSlot { slotOk 5 8 with st := .swapping })) 1 0x16 (cmdAt 0x16 5 0 (8)) ∧
    slotIn? (sCmd (cmdBytes 0x16 5 0 (8)) (withSlot { slotOk 5 8 with st := .swapping })).dev (cmdAt 0x16 5 0 (8)).tenant (cmdAt 0x16 5 0 (8)).version (fun st => decide (st = .swapping ∨ st = .ready)) = some 0 ∧
    (wSlot (sCmd (cmdBytes 0x16 5 0 (8)) (withSlot { slotOk 5 8 with st := .swapping })).dev 0).act = 0 ∧ (wSlot (sCmd (cmdBytes 0x16 5 0 (8)) (withSlot { slotOk 5 8 with st := .swapping })).dev 0).swapCmd = none := by
  unfold CommandAt CommandFront; decide +kernel
theorem witness_wgtAbortLate : CommandAt (sCmd (cmdBytes 0x16 5 0 (8)) (withSlot { slotOk 5 8 with st := .ready, act := 5 })) 1 0x16 (cmdAt 0x16 5 0 (8)) ∧
    slotIn? (sCmd (cmdBytes 0x16 5 0 (8)) (withSlot { slotOk 5 8 with st := .ready, act := 5 })).dev (cmdAt 0x16 5 0 (8)).tenant (cmdAt 0x16 5 0 (8)).version (fun st => decide (st = .swapping ∨ st = .ready)) = some 0 ∧
    (wSlot (sCmd (cmdBytes 0x16 5 0 (8)) (withSlot { slotOk 5 8 with st := .ready, act := 5 })).dev 0).act ≠ 0 := by
  unfold CommandAt CommandFront; decide +kernel

/-- The running die in a drain phase, with a change. -/
def sDrainD (f : Dev → Dev) : State := sOf f sDrain
def tagged (k : Nat) (t : Tag) (d : Dev) : Dev := { d with mem := { d.mem with tags := [(k, t)] } }
def gates (l : List (Nat × W32)) : State := sDrainD (put l)
theorem witness_wipeEndNone : alive sRun.dev = true ∧ (inDrainOrBeacon sRun.dev = false ∨
    (tblGet .clean sRun.dev.mem.tags (placeKey (.cell 0 0))).isWiping = false) := by
  decide +kernel
theorem witness_wipeEndCellFirst : alive (sDrainD (tagged 0 (.wipingRing))).dev = true ∧
    inDrainOrBeacon (sDrainD (tagged 0 (.wipingRing))).dev = true ∧
    (tblGet .clean (sDrainD (tagged 0 (.wipingRing))).dev.mem.tags (placeKey (.cell 0 0))).isWiping = true := by
  decide +kernel
theorem witness_wipeEndCellLast : alive (sDrainD (tagged 65535 (.wipingTenant 5 0 0))).dev = true ∧
    inDrainOrBeacon (sDrainD (tagged 65535 (.wipingTenant 5 0 0))).dev = true ∧
    (tblGet .clean (sDrainD (tagged 65535 (.wipingTenant 5 0 0))).dev.mem.tags (placeKey (.cell 63 1023))).isWiping = true := by
  decide +kernel
theorem witness_wipeEndHiveFirst : alive (sDrainD (tagged 65536 (.wipingTenant 5 0 0))).dev = true ∧
    inDrainOrBeacon (sDrainD (tagged 65536 (.wipingTenant 5 0 0))).dev = true ∧
    (tblGet .clean (sDrainD (tagged 65536 (.wipingTenant 5 0 0))).dev.mem.tags (placeKey (.hive 0))).isWiping = true := by
  decide +kernel
theorem witness_wipeEndClean : alive (sDrainD (tagged 0 (.wipingClean))).dev = true ∧
    inDrainOrBeacon (sDrainD (tagged 0 (.wipingClean))).dev = true ∧
    (tblGet .clean (sDrainD (tagged 0 (.wipingClean))).dev.mem.tags (placeKey (.cell 0 0))).isWiping = true := by
  decide +kernel
theorem witness_wipeEndHiveLast : alive (sDrainD (tagged 131071 (.wipingRing))).dev = true ∧
    inDrainOrBeacon (sDrainD (tagged 131071 (.wipingRing))).dev = true ∧
    (tblGet .clean (sDrainD (tagged 131071 (.wipingRing))).dev.mem.tags (placeKey (.hive 65535))).isWiping = true := by
  decide +kernel
theorem witness_bankClose : alive (gates [(R.CEL_BANK_CTL 63, 0x80)]).dev = true ∧ inDrain (gates [(R.CEL_BANK_CTL 63, 0x80)]).dev = true ∧
    offReq (gates [(R.CEL_BANK_CTL 63, 0x80)]).dev (.cell 63 7) = true ∧ gateState (gates [(R.CEL_BANK_CTL 63, 0x80)]).dev (.cell 63 7) = 0 ∧ gateBlocked (gates [(R.CEL_BANK_CTL 63, 0x80)]).dev (.cell 63 7) = false := by
  decide +kernel
theorem witness_bandClose : alive (gates [(R.HIV_BAND_CTL, 0x40)]).dev = true ∧ inDrain (gates [(R.HIV_BAND_CTL, 0x40)]).dev = true ∧
    offReq (gates [(R.HIV_BAND_CTL, 0x40)]).dev (.hive 6) = true ∧ gateState (gates [(R.HIV_BAND_CTL, 0x40)]).dev (.hive 6) = 0 ∧ gateBlocked (gates [(R.HIV_BAND_CTL, 0x40)]).dev (.hive 6) = false := by
  decide +kernel
theorem witness_bankBlocked : alive (gates [(R.CEL_BANK_CTL 4, 1), (R.TCX_CM_WINDOW 5, 0x10000)]).dev = true ∧ inDrain (gates [(R.CEL_BANK_CTL 4, 1), (R.TCX_CM_WINDOW 5, 0x10000)]).dev = true ∧
    offReq (gates [(R.CEL_BANK_CTL 4, 1), (R.TCX_CM_WINDOW 5, 0x10000)]).dev (.cell 4 0) = true ∧ gateState (gates [(R.CEL_BANK_CTL 4, 1), (R.TCX_CM_WINDOW 5, 0x10000)]).dev (.cell 4 0) = 0 ∧ gateBlocked (gates [(R.CEL_BANK_CTL 4, 1), (R.TCX_CM_WINDOW 5, 0x10000)]).dev (.cell 4 0) = true ∧
    gateKey (.cell 4 0) ∉ (gates [(R.CEL_BANK_CTL 4, 1), (R.TCX_CM_WINDOW 5, 0x10000)]).dev.mem.gateRefused := by
  decide +kernel
theorem witness_bandBlockedAgain : alive (sDrainD (fun d => put [(R.HIV_BAND_CTL, 1)] { d with mem := { d.mem with gateRefused := [512] } })).dev = true ∧ inDrain (sDrainD (fun d => put [(R.HIV_BAND_CTL, 1)] { d with mem := { d.mem with gateRefused := [512] } })).dev = true ∧
    offReq (sDrainD (fun d => put [(R.HIV_BAND_CTL, 1)] { d with mem := { d.mem with gateRefused := [512] } })).dev (.hive 0) = true ∧ gateState (sDrainD (fun d => put [(R.HIV_BAND_CTL, 1)] { d with mem := { d.mem with gateRefused := [512] } })).dev (.hive 0) = 0 ∧ gateBlocked (sDrainD (fun d => put [(R.HIV_BAND_CTL, 1)] { d with mem := { d.mem with gateRefused := [512] } })).dev (.hive 0) = true ∧
    gateKey (.hive 0) ∈ (sDrainD (fun d => put [(R.HIV_BAND_CTL, 1)] { d with mem := { d.mem with gateRefused := [512] } })).dev.mem.gateRefused := by
  decide +kernel
theorem witness_bankOff : alive (gates [(R.CEL_BANK_STATE 0, 1)]).dev = true ∧ inDrain (gates [(R.CEL_BANK_STATE 0, 1)]).dev = true ∧
    gateState (gates [(R.CEL_BANK_STATE 0, 1)]).dev (.cell 0 0) = 1 := by
  decide +kernel
theorem witness_bandOff : alive (gates [(R.HIV_BAND_STATE, 0x1000)]).dev = true ∧ inDrain (gates [(R.HIV_BAND_STATE, 0x1000)]).dev = true ∧
    gateState (gates [(R.HIV_BAND_STATE, 0x1000)]).dev (.hive 6) = 1 := by
  decide +kernel
theorem witness_bankWakeStart : alive (gates [(R.CEL_BANK_STATE 63, 0x8000)]).dev = true ∧ inDrain (gates [(R.CEL_BANK_STATE 63, 0x8000)]).dev = true ∧
    offReq (gates [(R.CEL_BANK_STATE 63, 0x8000)]).dev (.cell 63 7) = false ∧ gateState (gates [(R.CEL_BANK_STATE 63, 0x8000)]).dev (.cell 63 7) = 2 := by
  decide +kernel
theorem witness_bankWakeEnd : alive (gates [(R.HIV_BAND_STATE, 3)]).dev = true ∧ inDrain (gates [(R.HIV_BAND_STATE, 3)]).dev = true ∧
    gateState (gates [(R.HIV_BAND_STATE, 3)]).dev (.hive 0) = 3 := by
  decide +kernel

/-- The cache at a step of a drain. -/
def sCache (f : CacheSt → CacheSt) : State := sDrainD (fun d => { d with cache := f d.cache })
/-- A command kept for its record: slot 0 of ring 2. -/
def keptCmd : CmdRef := { ring := 2, ctr := 0, cmdId := 5, code := 0x06, tenant := 5 }
/-- A fork whose work is done: parent sequence 0, child sequence 1. -/
def forked (cmd : Option CmdRef) : State := sCache (fun c => { c with seqs := [
  (0, { tenant := 5, st := .live, parts := 1, length := 8, forkParent := true, forkPeer := 1 }),
  (1, { tenant := 5, st := .live, parts := 1, forkChild := true, forkPeer := 0, forkLen := 4, workDone := true, cmd := cmd })] })
def released (st : W32) (cmd : Option CmdRef) : State := sOf (put [(R.TCX_STATE 5, st)]) (sCache (fun c => { c with seqs := [
  (0, { tenant := 5, st := .releasing, parts := 1, workDone := true, cmd := cmd })] }))
/-- The same with tenant 5 FREE: no context is DRAINING. -/
def sQuiet (f : CacheSt → CacheSt) : State := sOf (put [(R.TCX_STATE 5, 0)]) (sCache f)
def sQuietFree : State := sQuiet (fun c => { c with
  frames := [(3, { refcnt := 1, tenant := 5, order := 0, kind := .body, st := .freeing })], step := 1 })
def sQuietLow : State := sOf (put [(R.KVC_WATERMARK, 1)]) (sQuiet (fun c => { c with step := 4 }))
def sQuietEvicted : State := sQuiet (fun c => { c with step := 5, evicted := 65535 })
def sQuietTopup : State := sQuiet (fun c => { c with step := 6, topCell := 63 })
def sDraining : State := sOf (put [(R.TCX_STATE 5, 2)]) sDrain
theorem quiet_releases (d : Dev) (h : tenantsIn d 2 = []) : contextsReleasing d = d := by
  unfold contextsReleasing
  rw [h]
  rfl
theorem witness_cacheNoWork : (alive sRun.dev && inDrain sRun.dev) = false := by
  decide +kernel
theorem witness_cacheWork : alive sDrain.dev = true ∧ inDrain sDrain.dev = true := by
  decide +kernel
theorem witness_cacheDraining : alive sDraining.dev = true ∧ inDrain sDraining.dev = true ∧ tcxState sDraining.dev 5 = 2 ∧
    tenantTokens sDraining.dev 5 = false := by
  decide +kernel
theorem witness_cacheFree : alive sQuietFree.dev = true ∧ inDrain sQuietFree.dev = true ∧
    contextsReleasing sQuietFree.dev = sQuietFree.dev ∧ sQuietFree.dev.cache.step = 1 ∧
    tblSorted sQuietFree.dev.cache.frames = true ∧ (frameOf sQuietFree.dev 3).isSome = true :=
  ⟨by decide +kernel, by decide +kernel, quiet_releases _ (by decide +kernel), by decide +kernel⟩
theorem witness_cacheLow : alive sQuietLow.dev = true ∧ inDrain sQuietLow.dev = true ∧
    contextsReleasing sQuietLow.dev = sQuietLow.dev ∧ sQuietLow.dev.cache.step = 4 ∧
    freeUnits sQuietLow.dev < regFld sQuietLow.dev R.KVC_WATERMARK 19 0 * 1024 :=
  ⟨by decide +kernel, by decide +kernel, quiet_releases _ (by decide +kernel), by decide +kernel⟩
theorem witness_cacheEvicted : alive sQuietEvicted.dev = true ∧ inDrain sQuietEvicted.dev = true ∧
    contextsReleasing sQuietEvicted.dev = sQuietEvicted.dev ∧ sQuietEvicted.dev.cache.step = 5 ∧
    regFld sQuietEvicted.dev R.KVC_EVICT_BUDGET 15 0 ≤ sQuietEvicted.dev.cache.evicted :=
  ⟨by decide +kernel, by decide +kernel, quiet_releases _ (by decide +kernel), by decide +kernel⟩
theorem witness_cacheTopup : alive sQuietTopup.dev = true ∧ inDrain sQuietTopup.dev = true ∧
    contextsReleasing sQuietTopup.dev = sQuietTopup.dev ∧ sQuietTopup.dev.cache.step = 6 ∧
    sQuietTopup.dev.cache.topCell = (63 : CellId).val :=
  ⟨by decide +kernel, by decide +kernel, quiet_releases _ (by decide +kernel), by decide +kernel⟩
theorem witness_forkEndPlain : alive (forked none).dev = true ∧ inDrain (forked none).dev = true ∧
    (seqDesc (forked none).dev 1).forkChild = true ∧ (seqDesc (forked none).dev 1).workDone = true ∧ (seqDesc (forked none).dev 1).forkPeer ≠ (1 : SeqId).toNat ∧
    (seqEntry (forked none).dev 0).dropHi ≤ (seqEntry (forked none).dev 0).dropLo ∧ (seqDesc (forked none).dev 1).cmd = none := by
  decide +kernel
theorem witness_forkEnd : alive (forked (some keptCmd)).dev = true ∧ inDrain (forked (some keptCmd)).dev = true ∧
    (seqDesc (forked (some keptCmd)).dev 1).forkChild = true ∧ (seqDesc (forked (some keptCmd)).dev 1).workDone = true ∧ (seqDesc (forked (some keptCmd)).dev 1).forkPeer ≠ (1 : SeqId).toNat ∧
    (seqEntry (forked (some keptCmd)).dev 0).dropHi ≤ (seqEntry (forked (some keptCmd)).dev 0).dropLo ∧ (seqDesc (forked (some keptCmd)).dev 1).cmd = (some keptCmd) := by
  decide +kernel
theorem witness_releaseEnd : alive (released 1 none).dev = true ∧ inDrain (released 1 none).dev = true ∧ (seqDesc (released 1 none).dev 0).st = .releasing ∧
    (seqDesc (released 1 none).dev 0).forkChild = false ∧ (seqDesc (released 1 none).dev 0).forkParent = false ∧ (seqDesc (released 1 none).dev 0).workDone = true ∧
    (seqDesc (released 1 none).dev 0).cmd = none ∧ tcxState (released 1 none).dev 5 ≠ 3 := by
  decide +kernel
theorem witness_releaseEndLast : alive (released 3 (some keptCmd)).dev = true ∧ inDrain (released 3 (some keptCmd)).dev = true ∧ (seqDesc (released 3 (some keptCmd)).dev 0).st = .releasing ∧
    (seqDesc (released 3 (some keptCmd)).dev 0).forkChild = false ∧ (seqDesc (released 3 (some keptCmd)).dev 0).forkParent = false ∧ (seqDesc (released 3 (some keptCmd)).dev 0).workDone = true ∧
    (seqDesc (released 3 (some keptCmd)).dev 0).cmd = (some keptCmd) ∧ tcxState (released 3 (some keptCmd)).dev 5 = 3 ∧ ((released 3 (some keptCmd)).dev.cache.seqs.map (·.1)) = [0] ∧ tblSorted (released 3 (some keptCmd)).dev.cache.seqs = true := by
  decide +kernel

/-- A weight frame that holds a whole message. -/
def wgtOf (m : List Byte) : Frame := hostFrame tWEIGHT 0 0 m
/-- A WCHUNK of tenant 5, version 8, index 3, with LENGTH and bytes. -/
def chunkMsg (len : Nat) (n : Nat) : List Byte := leBytes 1 1 ++ leBytes 1 0 ++ leBytes 2 5 ++ leBytes 4 8 ++ leBytes 4 3 ++
  leBytes 4 len ++ zeroBytes 16 ++ zeroBytes n
/-- Load slot 2 loads tenant 5, version 8, from port 0, and feeds port 4. -/
def loading : LoadSlot := {
  st := .loading
  tenant := 5
  version := 8
  dest := 0x200000
  up := 0
  down := some 4
  relays := [{ index := 3, bytes := [], verified := true }]
  sealed := [(3, zeroBytes 80)] }
def sLoad (x : LoadSlot) (f : Dev → Dev := id) : State :=
  sDrainD (fun d => f { d with wgt := { d.wgt with slots := [(2, x)] } })
/-- The load slot that a chunk on a port is for. -/
def fedSlot (s : State) (p : PortId) (m : List Byte) : Option Nat :=
  (slotsWith s.dev (fun x => decide (x.st = .loading) && decide (x.tenant = mTenant m) &&
    decide (x.version = mVersion m) && decide (x.up = p.val))).head?
theorem witness_wchunkPart : Accepted sDrain 0 (sealFrame { wgtOf (zeroBytes 16) with flags := 2 }) tWEIGHT ∧
    (getPort sDrain.dev 0).retraining = false ∧ frameKind sDrain.dev 0 (sealFrame { wgtOf (zeroBytes 16) with flags := 2 }) = 0 ∧ (takeTrain 0 (sealFrame { wgtOf (zeroBytes 16) with flags := 2 }) sDrain.dev).1 = none := by
  unfold Accepted; decide +kernel
theorem witness_wchunkNoLoad : Accepted sDrain 0 (wgtOf (chunkMsg 64 80)) tWEIGHT ∧
    (getPort sDrain.dev 0).retraining = false ∧ (takeTrain 0 (wgtOf (chunkMsg 64 80)) sDrain.dev).1 = some (chunkMsg 64 80) ∧
    frameKind sDrain.dev 0 (wgtOf (chunkMsg 64 80)) = 1 ∧ fedSlot sDrain 0 (chunkMsg 64 80) = none := by
  unfold Accepted; decide +kernel
theorem witness_wchunkTaken : Accepted (sLoad loading) 0 (wgtOf (chunkMsg 64 80)) tWEIGHT ∧
    (getPort (sLoad loading).dev 0).retraining = false ∧ (takeTrain 0 (wgtOf (chunkMsg 64 80)) (sLoad loading).dev).1 = some (chunkMsg 64 80) ∧
    frameKind (sLoad loading).dev 0 (wgtOf (chunkMsg 64 80)) = 1 ∧ fedSlot (sLoad loading) 0 (chunkMsg 64 80) = some 2 ∧ mLength (chunkMsg 64 80) = 64 ∧
    (chunkMsg 64 80).length = 0x20 + 64 + 16 ∧ inDrainOrBeacon (sLoad loading).dev = true ∧ (wSlot (sLoad loading).dev 2).relays.length < 32 := by
  unfold Accepted; decide +kernel
theorem witness_wchunkBadLength : Accepted (sLoad loading) 0 (wgtOf (chunkMsg 32 48)) tWEIGHT ∧
    (getPort (sLoad loading).dev 0).retraining = false ∧ (takeTrain 0 (wgtOf (chunkMsg 32 48)) (sLoad loading).dev).1 = some (chunkMsg 32 48) ∧
    frameKind (sLoad loading).dev 0 (wgtOf (chunkMsg 32 48)) = 1 ∧ fedSlot (sLoad loading) 0 (chunkMsg 32 48) = some 2 ∧ mLength (chunkMsg 32 48) < 64 := by
  unfold Accepted; decide +kernel
theorem witness_wack : Accepted (sLoad loading) 4 (wgtOf (wgtMsg 2 0 5 8 3)) tWEIGHT ∧
    (getPort (sLoad loading).dev 4).retraining = false ∧ (takeTrain 4 (wgtOf (wgtMsg 2 0 5 8 3)) (sLoad loading).dev).1 = some (wgtMsg 2 0 5 8 3) ∧
    frameKind (sLoad loading).dev 4 (wgtOf (wgtMsg 2 0 5 8 3)) = 2 ∧ slotToward (sLoad loading).dev 4 (wgtMsg 2 0 5 8 3) = some 2 := by
  unfold Accepted; decide +kernel
theorem witness_wackNone : Accepted sDrain 4 (wgtOf (wgtMsg 2 0 5 8 3)) tWEIGHT ∧
    (getPort sDrain.dev 4).retraining = false ∧ (takeTrain 4 (wgtOf (wgtMsg 2 0 5 8 3)) sDrain.dev).1 = some (wgtMsg 2 0 5 8 3) ∧
    frameKind sDrain.dev 4 (wgtOf (wgtMsg 2 0 5 8 3)) = 2 ∧ slotToward sDrain.dev 4 (wgtMsg 2 0 5 8 3) = none := by
  unfold Accepted; decide +kernel
/-- The weight engine may use HBM for a range. -/
def Turn (s : State) (a n : Nat) : Prop :=
  inDrainOrBeacon s.dev = true ∧ flushWaits s.dev a n = false ∧ entryStopped s.dev = false
theorem witness_wnack1 : Accepted (sLoad loading) 4 (wgtOf (wgtMsg 3 1 5 8 3)) tWEIGHT ∧
    (getPort (sLoad loading).dev 4).retraining = false ∧ (takeTrain 4 (wgtOf (wgtMsg 3 1 5 8 3)) (sLoad loading).dev).1 = some (wgtMsg 3 1 5 8 3) ∧
    frameKind (sLoad loading).dev 4 (wgtOf (wgtMsg 3 1 5 8 3)) = 3 ∧ slotToward (sLoad loading).dev 4 (wgtMsg 3 1 5 8 3) = some 2 ∧ mReason (wgtMsg 3 1 5 8 3) = 1 ∧
    tblFind (wSlot (sLoad loading).dev 2).sealed (mIndex (wgtMsg 3 1 5 8 3)) = some (zeroBytes 80) ∧
    (wSlot (sLoad loading).dev 2).relays.any (fun r => decide (r.index = 3)) = true ∧
    Turn (sLoad loading) (relayBase (sLoad loading).dev) 80 := by
  unfold Accepted Turn; decide +kernel
/-- Chunk 3 has left the relay, and a unit of its image is damaged. -/
def sReread (retry : W32) (st : SlotState := .loading) : State := sLoad { loading with st := st, relays := [] } (fun d => put [(R.ENT_WGT_RETRY, retry)]
  { d with mem := { d.mem with badHbm := [0x10000] } })
/-- The state in which a flush engine waits for every controller. -/
def sResend : State := sLoad { loading with relays := [] } (fun d => { d with mem := { d.mem with hbmOut := [(1, 0)] } })
theorem witness_wnackWaits : Accepted sResend 4 (wgtOf (wgtMsg 3 2 5 8 3)) tWEIGHT ∧
    (takeTrain 4 (wgtOf (wgtMsg 3 2 5 8 3)) sResend.dev).1 = some (wgtMsg 3 2 5 8 3) ∧
    slotToward sResend.dev 4 (wgtMsg 3 2 5 8 3) = some 2 ∧ tblFind (wSlot sResend.dev 2).sealed 3 = some (zeroBytes 80) ∧
    ¬ Turn sResend (0x200000 + 2 * 0x100000) 80 := by
  unfold Accepted Turn; decide +kernel
theorem witness_wnackUnknown : Accepted (sLoad loading) 4 (wgtOf (wgtMsg 3 2 5 8 4)) tWEIGHT ∧
    (takeTrain 4 (wgtOf (wgtMsg 3 2 5 8 4)) (sLoad loading).dev).1 = some (wgtMsg 3 2 5 8 4) ∧
    slotToward (sLoad loading).dev 4 (wgtMsg 3 2 5 8 4) = some 2 ∧ tblFind (wSlot (sLoad loading).dev 2).sealed 4 = none := by
  unfold Accepted; decide +kernel
theorem witness_wnackReread : Accepted (sReread 1) 4 (wgtOf (wgtMsg 3 1 5 8 3)) tWEIGHT ∧
    slotToward (sReread 1).dev 4 (wgtMsg 3 1 5 8 3) = some 2 ∧ slotToward (sReread 1 .ready).dev 4 (wgtMsg 3 1 5 8 3) = some 2 ∧
    tblFind (wSlot (sReread 1).dev 2).sealed 3 = some (zeroBytes 80) ∧ Turn (sReread 1) (0x200000 + 2 * 0x100000) 80 ∧
    hbmRangeBad (sReread 1).dev (0x200000 + 2 * 0x100000) (80 - 16) = true ∧ (wSlot (sReread 1).dev 2).st = .loading ∧
    (wSlot (sReread 1).dev 2).loadCmd = none ∧ tblGet 0 (wSlot (sReread 1).dev 2).nacks 3 = 0 ∧
    regFld (sReread 1).dev R.ENT_WGT_RETRY 7 0 = 1 ∧ regFld (sReread 0).dev R.ENT_WGT_RETRY 7 0 = 0 := by
  unfold Accepted Turn; decide +kernel
theorem witness_wnack3 : Accepted (sLoad loading) 4 (wgtOf (wgtMsg 3 3 5 8 3)) tWEIGHT ∧
    (getPort (sLoad loading).dev 4).retraining = false ∧ (takeTrain 4 (wgtOf (wgtMsg 3 3 5 8 3)) (sLoad loading).dev).1 = some (wgtMsg 3 3 5 8 3) ∧
    frameKind (sLoad loading).dev 4 (wgtOf (wgtMsg 3 3 5 8 3)) = 3 ∧ slotToward (sLoad loading).dev 4 (wgtMsg 3 3 5 8 3) = some 2 ∧ mReason (wgtMsg 3 3 5 8 3) = 3 ∧
    tblFind (wSlot (sLoad loading).dev 2).sealed (mIndex (wgtMsg 3 3 5 8 3)) = some (zeroBytes 80) := by
  unfold Accepted; decide +kernel
theorem witness_wfail : Accepted (sLoad loading) 0 (wgtOf (wgtMsg 4 0 5 8 0)) tWEIGHT ∧
    (getPort (sLoad loading).dev 0).retraining = false ∧ (takeTrain 0 (wgtOf (wgtMsg 4 0 5 8 0)) (sLoad loading).dev).1 = some (wgtMsg 4 0 5 8 0) ∧
    frameKind (sLoad loading).dev 0 (wgtOf (wgtMsg 4 0 5 8 0)) = 4 ∧ fedSlot (sLoad loading) 0 (wgtMsg 4 0 5 8 0) = some 2 ∧ (wSlot (sLoad loading).dev 2).loadCmd = none := by
  unfold Accepted; decide +kernel
theorem witness_wfailNone : Accepted sDrain 0 (wgtOf (wgtMsg 4 0 5 8 0)) tWEIGHT ∧
    (getPort sDrain.dev 0).retraining = false ∧ (takeTrain 0 (wgtOf (wgtMsg 4 0 5 8 0)) sDrain.dev).1 = some (wgtMsg 4 0 5 8 0) ∧
    frameKind sDrain.dev 0 (wgtOf (wgtMsg 4 0 5 8 0)) = 4 ∧ fedSlot sDrain 0 (wgtMsg 4 0 5 8 0) = none := by
  unfold Accepted; decide +kernel

/-- Tenant 5 has the all-zero key set. -/
def zeroKeys (d : Dev) : Dev := { d with wgt := { d.wgt with keys := [(0, { bytes := zeroBytes 96, valid := true })] } }
/-- A chunk of version 8 as its owner seals it (R280): ciphertext, then tag. -/
def sealed (k : Nat) (p : List Byte) : List Byte :=
  let rk := Crypto.roundKeys (plainNats (zeroBytes 32))
  let id := leBytes 4 8 ++ leBytes 4 k
  let iv := plainNats (id ++ zeroBytes 4)
  let c := Crypto.counterMode rk iv 2 (Crypto.runs 16 p.length (plainNats p))
  (c ++ Crypto.gcmTag rk iv (plainNats (id ++ leBytes 4 p.length ++ zeroBytes 4)) c).map (BitVec.ofNat 8)
/-- A manifest of version 8 for an image of n bytes, with its digests. -/
def manifest (n : Nat) (digests : List Byte) : List Byte :=
  leBytes 4 0x464E4D58 ++ leBytes 4 8 ++ leBytes 8 n ++ leBytes 4 (ceilDiv n 0x100000) ++ zeroBytes 44 ++ digests
def arrived (k : Nat) (bs : List Byte) (x : LoadSlot) : LoadSlot := { x with relays := [{ index := k, bytes := bs }] }
def manifestChunk (x : LoadSlot) : LoadSlot := arrived 0 (sealed 0 (manifest 4096 (zeroBytes 64))) x
/-- Two chunks, of which the second has 64 bytes. -/
def twoChunks : LoadSlot := { loading with
  imageBytes := 0x100040, chunks := 2, done := [0]
  manifest := manifest 0x100040 (zeroBytes 48 ++ (Crypto.sha384 (plainNats (sealed 2 (zeroBytes 64)))).map (BitVec.ofNat 8)) }
def wgtRegs (n retry : W32) (d : Dev) : Dev :=
  zeroKeys (put [(R.ENT_WGT_REGION_SIZE, n), (R.ENT_WGT_RETRY, retry), (R.ENT_WGT_TIMEOUT, 1)] d)
/-- A chunk in the relay of slot 2 whose turn has come. -/
def Waiting (s : State) (k : Nat) : Prop := alive s.dev = true ∧ (wSlot s.dev (2 : Fin 8).val).st = .loading ∧
  (wSlot s.dev 2).loadCmd = none ∧ (wSlot s.dev 2).tenant < 4096 ∧
  ¬ (¬ Turn s (relayBase s.dev) 0x100000 ∨ (k ≠ 0 ∧ ((wSlot s.dev 2).chunks < k ∨
    ¬ Turn s ((wSlot s.dev 2).dest + (k - 1) * 0x100000) 0x100000)))
/-- The chunk's plaintext, where it passes. -/
def opens (s : State) (k : Nat) : Option (List Byte) :=
  ((wSlot s.dev 2).relays.find? (fun r => decide (r.index = k) && !r.verified)).bind
    (fun e => checkedChunk s.dev (wSlot s.dev 2) k e.bytes)
def sManifest (n : W32) : State := sLoad (manifestChunk loading) (wgtRegs n 0)
def sBadManifest : State := sLoad (arrived 0 (zeroBytes 80) loading) (wgtRegs 4 0)
def sChunk (bs : List Byte) (retry : W32) : State := sLoad (arrived 2 bs twoChunks) (wgtRegs 4 retry)
def sFlushing : State := sOf (fun d => { d with mem := { d.mem with hbmOut := [(1, 0)] } }) (sChunk (zeroBytes 80) 1)
theorem witness_chunkNone : alive (sLoad loading).dev = true ∧ (wSlot (sLoad loading).dev (2 : Fin 8).val).st = .loading ∧
    (wSlot (sLoad loading).dev 2).relays.find? (fun r => decide (r.index = 1) && !r.verified) = none := by
  decide +kernel
theorem witness_chunkFlush : alive sFlushing.dev = true ∧ (wSlot sFlushing.dev (2 : Fin 8).val).st = .loading ∧
    inDrainOrBeacon sFlushing.dev = true ∧ (wSlot sFlushing.dev 2).chunks = 2 ∧
    flushWaits sFlushing.dev ((wSlot sFlushing.dev 2).dest + (2 - 1) * 0x100000) 0x100000 = true ∧
    (wSlot sFlushing.dev 2).version ≠ (wSlot sFlushing.dev 2).version + 1 := by
  decide +kernel
theorem witness_chunk0Bad : Waiting sBadManifest 0 ∧ opens sBadManifest 0 = none ∧
    (wSlot sBadManifest.dev 2).relays = [{ index := 0, bytes := zeroBytes 80 }] := by
  unfold Waiting Turn; decide +kernel
theorem witness_chunk0Place : Waiting (sManifest 0) 0 ∧ opens (sManifest 0) 0 = some (manifest 4096 (zeroBytes 64)) ∧
    extentBad (sManifest 0).dev 2 (wSlot (sManifest 0).dev 2).dest (leAt (manifest 4096 (zeroBytes 64)) 8 8) = true := by
  unfold Waiting Turn; decide +kernel
theorem witness_chunk0 : Waiting (sManifest 4) 0 ∧ opens (sManifest 4) 0 = some (manifest 4096 (zeroBytes 64)) ∧
    extentBad (sManifest 4).dev 2 (wSlot (sManifest 4).dev 2).dest (leAt (manifest 4096 (zeroBytes 64)) 8 8) = false := by
  unfold Waiting Turn; decide +kernel
theorem witness_chunkWritten : Waiting (sChunk (sealed 2 (zeroBytes 64)) 0) 2 ∧
    opens (sChunk (sealed 2 (zeroBytes 64)) 0) 2 = some (zeroBytes 64) := by
  unfold Waiting Turn; decide +kernel
theorem witness_chunkAgain : Waiting (sChunk (zeroBytes 80) 1) 2 ∧ opens (sChunk (zeroBytes 80) 1) 2 = none ∧
    (wSlot (sChunk (zeroBytes 80) 1).dev 2).relays = [{ index := 2, bytes := zeroBytes 80 }] ∧
    tblGet 0 (wSlot (sChunk (zeroBytes 80) 1).dev 2).nacks 2 < regFld (sChunk (zeroBytes 80) 1).dev R.ENT_WGT_RETRY 7 0 := by
  unfold Waiting Turn; decide +kernel
theorem witness_chunkRetry : Waiting (sChunk (zeroBytes 80) 0) 2 ∧ opens (sChunk (zeroBytes 80) 0) 2 = none ∧
    (wSlot (sChunk (zeroBytes 80) 0).dev 2).relays = [{ index := 2, bytes := zeroBytes 80 }] ∧
    regFld (sChunk (zeroBytes 80) 0).dev R.ENT_WGT_RETRY 7 0 ≤ tblGet 0 (wSlot (sChunk (zeroBytes 80) 0).dev 2).nacks 2 := by
  unfold Waiting Turn; decide +kernel
/-- The chunks that CHUNK_MISSING asks for. -/
def missing (s : State) : List Nat :=
  let x := wSlot s.dev 2
  (if (gapMissing x).isEmpty ∨ x.lastAt + 1000 * regFld s.dev R.ENT_WGT_TIMEOUT 15 0 ≤ s.dev.tick.time then
    unverified x (max x.arrived (x.chunks + 1)) else gapMissing x).take 4
def sMissing (x : LoadSlot) (retry : W32) : State := sLoad x (wgtRegs 4 retry)
def gapSlot : LoadSlot := { twoChunks with arrived := 40, chunks := 40, lastAt := 1000100 }
theorem witness_chunkMissing : alive (sMissing twoChunks 1).dev = true ∧
    (wSlot (sMissing twoChunks 1).dev (2 : Fin 8).val).st = .loading ∧ (wSlot (sMissing twoChunks 1).dev 2).loadCmd = none ∧
    missing (sMissing twoChunks 1) = [1, 2] ∧ tblGet 0 (wSlot (sMissing twoChunks 1).dev 2).nacks 1 < 1 ∧
    tblGet 0 (wSlot (sMissing twoChunks 1).dev 2).nacks 2 < 1 ∧
    regFld (sMissing twoChunks 1).dev R.ENT_WGT_RETRY 7 0 = 1 := by
  decide +kernel
theorem witness_chunkMissingGap : alive (sMissing gapSlot 1).dev = true ∧
    (wSlot (sMissing gapSlot 1).dev (2 : Fin 8).val).st = .loading ∧ (wSlot (sMissing gapSlot 1).dev 2).loadCmd = none ∧
    gapMissing (wSlot (sMissing gapSlot 1).dev 2) ≠ [] ∧ missing (sMissing gapSlot 1) = [1, 2, 3, 4] ∧
    (missing (sMissing gapSlot 1)).all (fun k => decide (tblGet 0 (wSlot (sMissing gapSlot 1).dev 2).nacks k <
      regFld (sMissing gapSlot 1).dev R.ENT_WGT_RETRY 7 0)) = true := by
  decide +kernel
theorem witness_chunkMissingLast : alive (sMissing twoChunks 0).dev = true ∧
    (wSlot (sMissing twoChunks 0).dev (2 : Fin 8).val).st = .loading ∧ (wSlot (sMissing twoChunks 0).dev 2).loadCmd = none ∧
    1 ∈ missing (sMissing twoChunks 0) ∧
    regFld (sMissing twoChunks 0).dev R.ENT_WGT_RETRY 7 0 ≤ tblGet 0 (wSlot (sMissing twoChunks 0).dev 2).nacks 1 := by
  decide +kernel
theorem witness_loadFail : alive (sLoad loading).dev = true ∧ (wSlot (sLoad loading).dev (2 : Fin 8).val).st = .loading ∧
    (wSlot (sLoad loading).dev 2).loadCmd = none ∧ 1 ≤ (9 : BitVec 4).toNat ∧ (9 : BitVec 4).toNat ≤ 9 ∧
    ¬ (1 ≤ (10 : BitVec 4).toNat ∧ (10 : BitVec 4).toNat ≤ 9) := by
  decide +kernel
/-- A slot whose one chunk is verified, and an image for it: one layer, no stage, no rotary table. -/
def loadedSlot : LoadSlot := { loading with imageBytes := 4096, chunks := 1, done := [0, 1] }
def loadedImage : List Byte := leBytes 4 0x57594D58 ++ leBytes 4 8 ++ leBytes 4 0x100 ++ zeroBytes 20 ++ leBytes 4 0x3F800000 ++
  leBytes 1 1 ++ zeroBytes 2 ++ leBytes 1 1 ++ zeroBytes 6 ++ leBytes 2 1 ++ zeroBytes 4 ++ leBytes 1 1 ++ zeroBytes 11 ++
  leBytes 8 0x100 ++ zeroBytes 0x98 ++ leBytes 8 4096
def sLoaded (x : LoadSlot) (image : Tbl Byte) : State := sLoad x (fun d => zeroKeys { d with mem := { d.mem with
  hbm := image, hbmKey := (List.range 64).map (fun i => (0x8000 + i, HbmKey.tenant (zeroBytes 64))) } })
/-- What LOAD_END asks of the version. -/
def loadPasses (s : State) (wfmt : Nat) (progs : List ProgArea) : Bool :=
  let x := wSlot s.dev 2
  arrayFmt wfmt && imageOk s.dev 2 && versionOk s.dev x.tenant x.dest x.imageBytes progs
theorem witness_loadEndEarly : alive (sLoad loading).dev = true ∧ (wSlot (sLoad loading).dev (2 : Fin 8).val).st = .loading ∧
    (wSlot (sLoad loading).dev 2).chunks = 0 := by
  decide +kernel
/-- The image's first 0xE8 bytes, and zeros to the end of its first 4,096. -/
def wholeImage : Tbl Byte := bytesAt 0x200000 loadedImage ++ (List.range 3864).map (fun i => (0x2000E8 + i, 0))
theorem tblFind_append {α : Type} (xs ys : Tbl α) (a : Nat) (h : ∀ e ∈ xs, e.1 ≠ a) : tblFind (xs ++ ys) a = tblFind ys a := by
  induction xs with
  | nil => rfl
  | cons e t ih =>
    have h' := h e (List.mem_cons_self ..)
    simp only [List.cons_append, tblFind, h', if_false]
    exact ih (fun x hx => h x (List.mem_cons_of_mem _ hx))
theorem tblFind_range (b n i : Nat) (v : Byte) (h : i < n) : tblFind ((List.range n).map (fun j => (b + j, v))) (b + i) = some v := by
  suffices hs : ∀ l : List Nat, i ∈ l → tblFind (l.map (fun j => (b + j, v))) (b + i) = some v from hs _ (List.mem_range.2 h)
  intro l
  induction l with
  | nil => intro h; cases h
  | cons j t ih =>
    intro hm
    by_cases hj : b + j = b + i
    · simp [tblFind, hj]
    · simp only [List.map_cons, tblFind, hj, if_false]
      exact ih ((List.mem_cons.1 hm).resolve_left (fun e => hj (by rw [e])))
theorem leNat_zeros (l : List Byte) (h : ∀ b ∈ l, b = 0) : leNat l = 0 := by
  induction l with
  | nil => rfl
  | cons b t ih =>
    simp [leNat, h b (List.mem_cons_self ..), ih (fun x hx => h x (List.mem_cons_of_mem _ hx))]
theorem image_zeros : imgField (sLoaded loadedSlot wholeImage).dev 5 0x200000 0xE8 3864 = 0 := by
  refine leNat_zeros _ (fun v hv => ?_)
  obtain ⟨i, hi, rfl⟩ := List.mem_map.1 hv
  have hi := List.mem_range.1 hi
  have hk : ∀ u : Fin 64, tblFind (sLoaded loadedSlot wholeImage).dev.mem.hbmKey (0x8000 + u.val) =
      some (tenantKey (sLoaded loadedSlot wholeImage).dev 5) := by decide +kernel
  have hu := hk ⟨(0x200000 + 0xE8 + i) / 64 - 0x8000, by omega⟩
  rw [show 0x8000 + ((0x200000 + 0xE8 + i) / 64 - 0x8000) = (0x200000 + 0xE8 + i) / 64 by omega] at hu
  have hb : tblFind (sLoaded loadedSlot wholeImage).dev.mem.hbm (0x200000 + 0xE8 + i) = some 0 := by
    refine (tblFind_append (bytesAt 0x200000 loadedImage) _ _ (fun e he => ?_)).trans (tblFind_range 0x2000E8 3864 i 0 hi)
    have : ∀ e ∈ bytesAt 0x200000 loadedImage, e.1 < 0x2000E8 := by decide +kernel
    have := this e he
    omega
  simp only [hbmByteKey, hu, hbmByteAt, hb, if_true]
theorem witness_loadEnd : alive (sLoaded loadedSlot wholeImage).dev = true ∧
    (wSlot (sLoaded loadedSlot wholeImage).dev (2 : Fin 8).val).st = .loading ∧
    (wSlot (sLoaded loadedSlot wholeImage).dev 2).chunks ≠ 0 ∧
    unverified (wSlot (sLoaded loadedSlot wholeImage).dev 2) ((wSlot (sLoaded loadedSlot wholeImage).dev 2).chunks + 1) = [] ∧
    (wSlot (sLoaded loadedSlot wholeImage).dev 2).loadCmd = none ∧ Turn (sLoaded loadedSlot wholeImage) 0x200000 4096 ∧
    loadPasses (sLoaded loadedSlot wholeImage) 8 [] = true := by
  refine ⟨by decide +kernel, by decide +kernel, by decide +kernel, by decide +kernel, by decide +kernel, by unfold Turn; decide +kernel, ?_⟩
  have hz : decide (imgField (sLoaded loadedSlot wholeImage).dev (wSlot (sLoaded loadedSlot wholeImage).dev 2).tenant
      (wSlot (sLoaded loadedSlot wholeImage).dev 2).dest 0xE8 3864 = 0) = true := decide_eq_true image_zeros
  simp only [loadPasses, imageOk, hz, Bool.and_true]
  decide +kernel
theorem witness_loadEndBad : alive (sLoaded loadedSlot (bytesAt 0x200000 (zeroBytes 4))).dev = true ∧
    (wSlot (sLoaded loadedSlot (bytesAt 0x200000 (zeroBytes 4))).dev (2 : Fin 8).val).st = .loading ∧
    (wSlot (sLoaded loadedSlot (bytesAt 0x200000 (zeroBytes 4))).dev 2).chunks ≠ 0 ∧
    unverified (wSlot (sLoaded loadedSlot (bytesAt 0x200000 (zeroBytes 4))).dev 2) 2 = [] ∧
    (wSlot (sLoaded loadedSlot (bytesAt 0x200000 (zeroBytes 4))).dev 2).loadCmd = none ∧
    Turn (sLoaded loadedSlot (bytesAt 0x200000 (zeroBytes 4))) 0x200000 4096 ∧
    loadPasses (sLoaded loadedSlot (bytesAt 0x200000 (zeroBytes 4))) 1 [] = false := by
  unfold Turn; decide +kernel

/-- Tenant 5 with a slot of its own, in a drain phase. -/
def sSwap (x : LoadSlot) (f : Dev → Dev := id) : State :=
  { dev := f (withSlot x { withImages dCmd with guard := {} }) }
def swapping : LoadSlot := { slotOk 5 8 with st := .swapping, dest := 0 }
/-- An image whose layer 0 has a hot block of 64 bytes at 0x100. -/
def hotImage (d : Dev) : Dev := { d with mem := { d.mem with hbm := bytesAt 0 (zeroBytes 0x40 ++ leBytes 8 0x80 ++ zeroBytes 0x38 ++
  leBytes 8 0x100 ++ leBytes 4 64 ++ leBytes 4 1 ++ zeroBytes 0xB0) } }
def copying (l : List Nat) (m : List (Nat × Option Nat × Nat)) (d : Dev) : Dev := { d with wgt := { d.wgt with copies := l, recopies := m } }
/-- The weight engine may copy. -/
def CopyTurn (s : State) : Prop := flushWaits s.dev 0 0x2000 = false ∧ entryStopped s.dev = false
/-- A sequence that KV_DROP drops has a LAST_TICK beyond this tick. -/
def sSwapBusy : State := sSwap { swapping with clear := true, kvDrop := true }
  (fun d => { d with ent := { d.ent with seqTab := [(1, { isOpen := true, lastTick := 1000 })] } })
theorem witness_swapStartWaits : slotIn sSwapBusy.dev (5 : TenantId).toNat .swapping = some 0 ∧ (wSlot sSwapBusy.dev 0).clear = true ∧
    alive sSwapBusy.dev = true ∧ inDrain sSwapBusy.dev = true ∧
    dropsAllowed sSwapBusy.dev (kvDropped sSwapBusy.dev 5 8) = false := by decide +kernel
theorem witness_swapFlush : alive (sSwap swapping (fun d => { d with mem := { d.mem with hbmOut := [(1, 0)] } })).dev = true ∧
    inDrain (sSwap swapping (fun d => { d with mem := { d.mem with hbmOut := [(1, 0)] } })).dev = true ∧
    ¬ CopyTurn (sSwap swapping (fun d => { d with mem := { d.mem with hbmOut := [(1, 0)] } })) := by unfold CopyTurn; decide +kernel
theorem witness_swapNotClear : alive (sSwap swapping).dev = true ∧ inDrain (sSwap swapping).dev = true ∧ (sSwap swapping).dev.mem.badHbm = [] ∧
    slotIn (sSwap swapping).dev (5 : TenantId).toNat .swapping = some 0 ∧ (wSlot (sSwap swapping).dev 0).clear = false := by
  decide +kernel
theorem witness_swapStart : alive (sSwap { swapping with clear := true }).dev = true ∧ inDrain (sSwap { swapping with clear := true }).dev = true ∧ (sSwap { swapping with clear := true }).dev.mem.badHbm = [] ∧
    slotIn (sSwap { swapping with clear := true }).dev (5 : TenantId).toNat .swapping = some 0 ∧ (wSlot (sSwap { swapping with clear := true }).dev 0).clear = true ∧ (wSlot (sSwap { swapping with clear := true }).dev 0).started = false ∧
    (wSlot (sSwap { swapping with clear := true }).dev 0).kvDrop = false ∧ (seqDesc (sSwap { swapping with clear := true }).dev 1).tenant = 5 ∧ tblFind (sSwap { swapping with clear := true }).dev.cache.seqs 1 ≠ none := by
  decide +kernel
theorem witness_swapStartDrop : dropsAllowed (sSwap { swapping with clear := true, kvDrop := true }).dev (kvDropped (sSwap { swapping with clear := true, kvDrop := true }).dev 5 8) = true ∧
    alive (sSwap { swapping with clear := true, kvDrop := true }).dev = true ∧ inDrain (sSwap { swapping with clear := true, kvDrop := true }).dev = true ∧ (sSwap { swapping with clear := true, kvDrop := true }).dev.mem.badHbm = [] ∧
    slotIn (sSwap { swapping with clear := true, kvDrop := true }).dev (5 : TenantId).toNat .swapping = some 0 ∧ (wSlot (sSwap { swapping with clear := true, kvDrop := true }).dev 0).clear = true ∧ (wSlot (sSwap { swapping with clear := true, kvDrop := true }).dev 0).started = false ∧
    (wSlot (sSwap { swapping with clear := true, kvDrop := true }).dev 0).kvDrop = true ∧ (seqDesc (sSwap { swapping with clear := true, kvDrop := true }).dev 1).tenant = 5 ∧ (seqEntry (sSwap { swapping with clear := true, kvDrop := true }).dev 1).isOpen = true ∧
    0 < (seqDesc (sSwap { swapping with clear := true, kvDrop := true }).dev 1).length ∧ (seqDesc (sSwap { swapping with clear := true, kvDrop := true }).dev 1).pinVersion ≠ (wSlot (sSwap { swapping with clear := true, kvDrop := true }).dev 0).version ∧
    livePrefix (sSwap { swapping with clear := true, kvDrop := true }).dev 1 % prefixTokens (sSwap { swapping with clear := true, kvDrop := true }).dev 5 = 0 := by
  decide +kernel
theorem witness_swapLayer : CopyTurn (sSwap { swapping with started := true }) ∧ alive (sSwap { swapping with started := true }).dev = true ∧ inDrain (sSwap { swapping with started := true }).dev = true ∧ (sSwap { swapping with started := true }).dev.mem.badHbm = [] ∧
    slotIn (sSwap { swapping with started := true }).dev (5 : TenantId).toNat .swapping = some 0 ∧ (wSlot (sSwap { swapping with started := true }).dev 0).started = true ∧ dropsDone (sSwap { swapping with started := true }).dev 5 = true ∧ (wSlot (sSwap { swapping with started := true }).dev 0).layer < layersOf (sSwap { swapping with started := true }).dev 5 ∧
    (layerEntry (sSwap { swapping with started := true }).dev 5 (wSlot (sSwap { swapping with started := true }).dev 0).dest (wSlot (sSwap { swapping with started := true }).dev 0).layer).2.2.1 = false := by
  unfold CopyTurn; decide +kernel
theorem witness_swapLayerHot : CopyTurn (sSwap { swapping with started := true } hotImage) ∧ alive (sSwap { swapping with started := true } hotImage).dev = true ∧ inDrain (sSwap { swapping with started := true } hotImage).dev = true ∧ (sSwap { swapping with started := true } hotImage).dev.mem.badHbm = [] ∧
    slotIn (sSwap { swapping with started := true } hotImage).dev (5 : TenantId).toNat .swapping = some 0 ∧ (wSlot (sSwap { swapping with started := true } hotImage).dev 0).started = true ∧ dropsDone (sSwap { swapping with started := true } hotImage).dev 5 = true ∧ (wSlot (sSwap { swapping with started := true } hotImage).dev 0).layer < layersOf (sSwap { swapping with started := true } hotImage).dev 5 ∧
    (layerEntry (sSwap { swapping with started := true } hotImage).dev 5 (wSlot (sSwap { swapping with started := true } hotImage).dev 0).dest (wSlot (sSwap { swapping with started := true } hotImage).dev 0).layer).2.2.1 = true := by
  unfold CopyTurn; decide +kernel
theorem witness_swapEnd : CopyTurn (sSwap { swapping with started := true, layer := 1, swapCmd := some keptCmd }) ∧ alive (sSwap { swapping with started := true, layer := 1, swapCmd := some keptCmd }).dev = true ∧ inDrain (sSwap { swapping with started := true, layer := 1, swapCmd := some keptCmd }).dev = true ∧ (sSwap { swapping with started := true, layer := 1, swapCmd := some keptCmd }).dev.mem.badHbm = [] ∧
    slotIn (sSwap { swapping with started := true, layer := 1, swapCmd := some keptCmd }).dev (5 : TenantId).toNat .swapping = some 0 ∧ (wSlot (sSwap { swapping with started := true, layer := 1, swapCmd := some keptCmd }).dev 0).started = true ∧ (wSlot (sSwap { swapping with started := true, layer := 1, swapCmd := some keptCmd }).dev 0).layer = layersOf (sSwap { swapping with started := true, layer := 1, swapCmd := some keptCmd }).dev 5 ∧ keptCmd.ring < 4096 := by
  unfold CopyTurn; decide +kernel
theorem witness_revertEnd : CopyTurn (sSwap { swapping with st := .reverting, abortCmd := some keptCmd }) ∧ alive (sSwap { swapping with st := .reverting, abortCmd := some keptCmd }).dev = true ∧ inDrain (sSwap { swapping with st := .reverting, abortCmd := some keptCmd }).dev = true ∧ (sSwap { swapping with st := .reverting, abortCmd := some keptCmd }).dev.mem.badHbm = [] ∧
    slotIn (sSwap { swapping with st := .reverting, abortCmd := some keptCmd }).dev (5 : TenantId).toNat .reverting = some 0 ∧ keptCmd.ring < 4096 := by
  unfold CopyTurn; decide +kernel
theorem witness_hotCopyEnd : CopyTurn (sSwap {} (copying [5] [])) ∧ alive (sSwap {} (copying [5] [])).dev = true ∧ inDrain (sSwap {} (copying [5] [])).dev = true ∧ (sSwap {} (copying [5] [])).dev.mem.badHbm = [] ∧
    (5 : TenantId).toNat ∈ (sSwap {} (copying [5] [])).dev.wgt.copies ∧ windowWiping (sSwap {} (copying [5] [])).dev 5 = false ∧ quarantined (sSwap {} (copying [5] [])).dev 5 = false ∧
    (List.range 8).all (fun i => decide ((wSlot (sSwap {} (copying [5] [])).dev i).tenant ≠ 5)) = true ∧ (sSwap {} (copying [5] [])).dev.wgt.recopies = [] := by
  unfold CopyTurn; decide +kernel
theorem witness_hotCopyEndQuarantined : alive (sSwap {} (copying [5] [] ∘ put [(R.ENT_WQ 0, 0x20)])).dev = true ∧ inDrain (sSwap {} (copying [5] [] ∘ put [(R.ENT_WQ 0, 0x20)])).dev = true ∧ (sSwap {} (copying [5] [] ∘ put [(R.ENT_WQ 0, 0x20)])).dev.mem.badHbm = [] ∧
    (5 : TenantId).toNat ∈ (sSwap {} (copying [5] [] ∘ put [(R.ENT_WQ 0, 0x20)])).dev.wgt.copies ∧ windowWiping (sSwap {} (copying [5] [] ∘ put [(R.ENT_WQ 0, 0x20)])).dev 5 = false ∧ quarantined (sSwap {} (copying [5] [] ∘ put [(R.ENT_WQ 0, 0x20)])).dev 5 = true := by
  decide +kernel
/-- The first unit of tenant 5's window on cell 4 is WIPING. -/
def sCopyWiping : State := sSwap {} (copying [5] [] ∘ tagged 4096 .wipingClean ∘ put [(R.TCX_CM_WINDOW 5, 0x10000)])
theorem witness_hotCopyWiping : alive sCopyWiping.dev = true ∧ inDrain sCopyWiping.dev = true ∧
    (5 : TenantId).toNat ∈ sCopyWiping.dev.wgt.copies ∧ windowWiping sCopyWiping.dev (5 : TenantId).toNat = true := by
  decide +kernel
/-- Tenant 5 has damaged blocks to copy: its layer 0 and its rotary table. -/
def sDamaged : State := sSwap {} (copying [] [(5, some 0, 1), (5, none, 2)] ∘ hotImage)
theorem witness_hotBlockRecopyNone : alive (sSwap {}).dev = true ∧ inDrain (sSwap {}).dev = true ∧
    recopiesDue (sSwap {}).dev 5 = [] := by
  decide +kernel
theorem witness_hotBlockRecopy : CopyTurn (sDamaged) ∧ alive sDamaged.dev = true ∧ inDrain sDamaged.dev = true ∧ sDamaged.dev.mem.badHbm = [] ∧
    recopiesDue sDamaged.dev (5 : TenantId).toNat = [(5, some 0, 1)] ∧ quarantined sDamaged.dev 5 = false := by
  unfold CopyTurn; decide +kernel
theorem witness_hotBlockRecopyQuarantined : alive (sOf (put [(R.ENT_WQ 0, 0x20)]) sDamaged).dev = true ∧
    inDrain (sOf (put [(R.ENT_WQ 0, 0x20)]) sDamaged).dev = true ∧
    (sOf (put [(R.ENT_WQ 0, 0x20)]) sDamaged).dev.mem.badHbm = [] ∧
    recopiesDue (sOf (put [(R.ENT_WQ 0, 0x20)]) sDamaged).dev (5 : TenantId).toNat ≠ [] ∧
    quarantined (sOf (put [(R.ENT_WQ 0, 0x20)]) sDamaged).dev 5 = true := by
  decide +kernel

/-- An instruction word: values at bit positions. -/
def iw (l : List (Nat × Nat)) : BitVec 128 := BitVec.ofNat 128 (l.map (fun e => e.2 * 2 ^ e.1)).sum
/-- Cell 4 runs a token of request 77, with a state of the cell and a change of the die. -/
def onFour (x : CellSt) (f : Dev → Dev) (r : Req := newestReq) (k : Token := runningToken) : State :=
  sOf (fun d => f { d with cells := [(4, x)] }) (sWork [r] [k])
/-- The state in which cell 4 comes to the first of these words. -/
def runs (ws : List (BitVec 128)) (s : State) : State := sOf (updCell 4 (fun x => { x with prog := ws })) s
/-- The state in which cell 4 comes to a word. -/
def run (w : BitVec 128) (s : State) : State := runs [w] s
/-- A program of two words, of which the cell comes to the second. -/
def listed (w : BitVec 128) : CellSt := { prog := [0, w], pc := 1 }
/-- Cell 0, an express cell, runs a token. -/
def onZero (f : Dev → Dev) : State := sOf (fun d => f (put [(R.ENT_ADMIT_CFG, 1)] { d with cells := [(0, { prog := [iw [(0, 2), (48, 1)]] })] }))
  (sWork [newestReq] [{ runningToken with cell := 0 }])
def wNop : BitVec 128 := iw [(0, 0), (48, 65535)]
def sNop : State := onFour { prog := [wNop] } id
theorem witness_nop : RunsWord sNop 4 runningToken newestReq wNop ∧ nopOk wNop = true := by
  unfold RunsWord RunsOn; decide +kernel
def wNopListed : BitVec 128 := iw [(0, 0), (48, 1)]
def sNopListed : State := onFour (listed (iw [(0, 0), (48, 1)])) id
theorem witness_nopListed : RunsWord sNopListed 4 runningToken newestReq wNopListed ∧ nopOk wNopListed = true := by
  unfold RunsWord RunsOn; decide +kernel
def wNotNext : BitVec 128 := iw [(0, 2), (48, 1)]
def sNotNext : State := onFour (listed (iw [(0, 0), (48, 1)])) id
theorem witness_notNext : RunsOn sNotNext 4 runningToken newestReq ∧ fetchOk (cellOf sNotNext.dev 4) wNotNext =
    false ∧ badFetch (cellOf sNotNext.dev 4) = none := by
  unfold RunsOn; decide +kernel
def wNotHeld : BitVec 128 := iw [(0, 0), (48, 1)]
def sNotHeld : State := onFour { prog := [wNotHeld], held := some (iw [(0, 2), (48, 1)]) } id
theorem witness_notHeld : RunsOn sNotHeld 4 runningToken newestReq ∧ fetchOk (cellOf sNotHeld.dev 4) wNotHeld =
    false ∧ badFetch (cellOf sNotHeld.dev 4) = none := by
  unfold RunsOn; decide +kernel
/-- The word that the cell comes to is damaged in HBM. -/
def sBadWord : State := onFour { prog := [wNotHeld], badWords := [(0, 64)] } id
theorem witness_badWord : RunsOn sBadWord 4 runningToken newestReq ∧ fetchOk (cellOf sBadWord.dev 4) wNotHeld = false ∧
    badFetch (cellOf sBadWord.dev 4) = some 64 := by
  unfold RunsOn; decide +kernel
def wHint : BitVec 128 := iw [(0, 1), (48, 1), (64, 3), (80, 255), (88, 1)]
def sHint : State := onFour { prog := [wHint] } id
theorem witness_hint : RunsWord sHint 4 runningToken newestReq wHint ∧ hintOk wHint = true ∧
    sHint.dev.power.hints.length < 64 := by
  unfold RunsWord RunsOn; decide +kernel
def wHintFull : BitVec 128 := iw [(0, 1), (48, 1)]
def sHintFull : State := onFour { prog := [wHintFull] } (fun d => { d with power := { d.power with hints := List.replicate 64 0x80 } })
theorem witness_hintFull : RunsWord sHintFull 4 runningToken newestReq wHintFull ∧ hintOk wHintFull = true ∧
    sHintFull.dev.power.hints.length = 64 := by
  unfold RunsWord RunsOn; decide +kernel
def wBar : BitVec 128 := iw [(0, 2), (48, 1)]
def sBar : State := onFour { prog := [wBar] } id
theorem witness_bar : RunsWord sBar 4 runningToken newestReq wBar ∧ barOk wBar = true ∧ (4 : CellId) ∉
    sBar.dev.tick.waves := by
  unfold RunsWord RunsOn; decide +kernel
def wBarLane : BitVec 128 := iw [(0, 2), (48, 1)]
def sBarLane : State := onZero id
theorem witness_barLane : RunsWord sBarLane 0 { runningToken with cell := 0 } newestReq wBarLane ∧ barOk wBarLane =
    true ∧ expressEn sBarLane.dev = true := by
  unfold RunsWord RunsOn; decide +kernel
def wLoop : BitVec 128 := iw [(0, 3), (64, 255), (48, 65535)]
def sLoop : State := onFour { prog := [wLoop] } id
theorem witness_loop : RunsWord sLoop 4 runningToken newestReq wLoop ∧ loopOk wLoop = true := by
  unfold RunsWord RunsOn; decide +kernel
def wLoopListed : BitVec 128 := iw [(0, 3), (64, 1), (48, 2)]
def sLoopListed : State := onFour (listed (iw [(0, 3), (64, 1), (48, 2)])) id
theorem witness_loopListed : RunsWord sLoopListed 4 runningToken newestReq wLoopListed ∧ loopOk wLoopListed = true ∧
    (cellOf sLoopListed.dev 4).prog = [0, wLoopListed] := by
  unfold RunsWord RunsOn; decide +kernel
def wEndWaits : BitVec 128 := iw [(0, 4), (48, 1)]
def sEndWaits : State := onFour { prog := [wEndWaits], vq := [{ word := iw [(0, 0x40), (48, 1)] }] } id
theorem witness_endWaits : RunsWord sEndWaits 4 runningToken newestReq wEndWaits ∧ endOk wEndWaits = true ∧ (cellOf
    sEndWaits.dev 4).vq ≠ [] := by
  unfold RunsWord RunsOn; decide +kernel
def wEndTok : BitVec 128 := iw [(0, 4), (48, 1)]
def sEndTok : State := onFour { prog := [wEndTok], saturated := true } id
theorem witness_endTok : RunsWord sEndTok 4 runningToken newestReq wEndTok ∧ endOk wEndTok = true ∧ (cellOf
    sEndTok.dev 4).vq = [] ∧ (cellOf sEndTok.dev 4).mq = [] ∧ newestReq.express = none ∧ (cellOf sEndTok.dev 4).saturated = true ∧
    (sEndTok.dev.ent.tokens.filter (fun j => decide (j.uid = 0) && decide (j.cell = 4))).length = 1 := by
  unfold RunsWord RunsOn; decide +kernel
def wEndRows : BitVec 128 := iw [(0, 4), (48, 1)]
def sEndRows : State := onFour { prog := [wEndRows] } withImages
theorem witness_endRows : RunsWord sEndRows 4 runningToken newestReq wEndRows ∧ endOk wEndRows = true ∧ (cellOf
    sEndRows.dev 4).vq = [] ∧ (cellOf sEndRows.dev 4).mq = [] ∧ normalises sEndRows.dev newestReq 4 = true ∧ (sendOrder sEndRows.dev newestReq).map
    (fun e => (attention sEndRows.dev newestReq 4 e.1 e.2).sm.empty) = [true] := by
  unfold RunsWord RunsOn; decide +kernel
def wReserved : BitVec 128 := iw [(0, 5), (48, 1)]
def sReserved : State := onFour { prog := [wReserved] } id
theorem witness_reserved : RunsWord sReserved 4 runningToken newestReq wReserved ∧ opcodeKnown (iOpc wReserved) = false := by
  unfold RunsWord RunsOn; decide +kernel
def wGangMismatch : BitVec 128 := iw [(0, 17), (26, 1), (64, 3), (68, 1), (112, 128), (48, 1)]
def sGangMismatch : State := onFour { prog := [wGangMismatch] } id
theorem witness_gangMismatch : RunsWord sGangMismatch 4 runningToken newestReq wGangMismatch ∧ opcodeKnown (iOpc wGangMismatch) =
    true ∧ gangMismatch (cellOf sGangMismatch.dev 4) wGangMismatch = true := by
  unfold RunsWord RunsOn; decide +kernel
def wNotReserved : BitVec 128 := iw [(0, 0), (48, 1)]
def sNotReserved : State := onFour { prog := [wNotReserved] } id
theorem witness_notReserved : RunsWord sNotReserved 4 runningToken newestReq wNotReserved ∧ opcodeKnown (iOpc wNotReserved) = true
    ∧ gangMismatch (cellOf sNotReserved.dev 4) wNotReserved = false := by
  unfold RunsWord RunsOn; decide +kernel

def wLds : BitVec 128 := iw [(0, 16), (26, 1), (64, 8), (48, 1)]
def sLds : State := onFour { prog := [wLds] } id
theorem witness_lds : RunsWord sLds 4 runningToken newestReq wLds ∧ ldsOk wLds = true ∧ sourcesReady 4 newestReq []
    (ldsLocs wLds) sLds.dev = true ∧ (fld wLds 67 64).testBit 3 = true ∧ (fld wLds 67 64).testBit 0 = false ∧
    ((List.range 4).any (fun a => (fld wLds 67 64).testBit a && (tblGet {} (cellOf sLds.dev 4).arrays a).ran)) =
    false := by
  unfold RunsWord RunsOn; decide +kernel
def wLdsUsed : BitVec 128 := iw [(0, 16), (26, 1), (64, 8), (48, 1)]
def sLdsUsed : State := onFour { prog := [wLdsUsed], arrays := [(3, { fmt := 1, ran := true })] } id
theorem witness_ldsUsed : RunsWord sLdsUsed 4 runningToken newestReq wLdsUsed ∧ ldsOk wLdsUsed = true ∧ sourcesReady
    4 newestReq [] (ldsLocs wLdsUsed) sLdsUsed.dev = true ∧ ((List.range 4).any (fun a => (fld wLdsUsed 67
    64).testBit a && (tblGet {} (cellOf sLdsUsed.dev 4).arrays a).ran)) = true := by
  unfold RunsWord RunsOn; decide +kernel
def wProdHalted : BitVec 128 := iw [(0, 17), (26, 1), (64, 8), (112, 64), (96, 65535), (48, 1)]
def sProdHalted : State := onFour { prog := [wProdHalted] } (fun d => { d with power := { d.power with halted := true } })
theorem witness_prodHalted : RunsWord sProdHalted 4 runningToken newestReq wProdHalted ∧ prodWord wProdHalted 0x11 =
    true ∧ prodOk wProdHalted 0x11 (ax4Mode sProdHalted.dev (dTenant newestReq.desc)) 4 sProdHalted.dev = true ∧
    sProdHalted.dev.power.halted = true := by
  unfold RunsWord RunsOn; decide +kernel
def wProdWaits : BitVec 128 := iw [(0, 17), (26, 1), (13, 31), (64, 8), (70, 1), (112, 64), (48, 4)]
def sProdWaits : State := onFour { prog := [wProdWaits], vq := [{ word := iw [(0, 0x30), (8, 31), (48, 1)] }] } id
theorem witness_prodWaits : RunsWord sProdWaits 4 runningToken newestReq wProdWaits ∧ prodWord wProdWaits 0x11 =
    true ∧ prodOk wProdWaits 0x11 (ax4Mode sProdWaits.dev (dTenant newestReq.desc)) 4 sProdWaits.dev = true ∧
    sourcesReady 4 newestReq (prodReads wProdWaits) (prodLocs wProdWaits) sProdWaits.dev = false := by
  unfold RunsWord RunsOn; decide +kernel
def wGangBad : BitVec 128 := iw [(0, 17), (26, 1), (64, 3), (68, 1), (112, 128), (48, 1)]
def sGangBad : State := onFour { prog := [wGangBad] } id
theorem witness_gangBad : RunsWord sGangBad 4 runningToken newestReq wGangBad ∧ prodWord wGangBad 0x11 = true ∧
    sGangBad.dev.power.halted = false ∧ sourcesReady 4 newestReq (prodReads wGangBad) (prodLocs wGangBad)
    sGangBad.dev = true ∧ gangBad (cellOf sGangBad.dev 4) wGangBad = true := by
  unfold RunsWord RunsOn; decide +kernel
def wMmr : BitVec 128 := iw [(0, 17), (26, 1), (64, 8), (112, 64), (96, 65535), (48, 1)]
def sMmr : State := onFour { prog := [wMmr], arrays := [(3, { fmt := 1 })] } id
theorem witness_mmr : RunsWord sMmr 4 runningToken newestReq wMmr ∧ prodWord wMmr 0x11 = true ∧
    sMmr.dev.power.halted = false ∧ sourcesReady 4 newestReq (prodReads wMmr) (prodLocs wMmr) sMmr.dev = true ∧
    gangBad (cellOf sMmr.dev 4) wMmr = false ∧ prodOk wMmr 0x11 (ax4Mode sMmr.dev (dTenant newestReq.desc)) 4
    sMmr.dev = true ∧ prodRow wMmr = true ∧ iComp wMmr = false ∧ prodInt (cellOf sMmr.dev 4) wMmr 3 = false ∧
    (prodSta (cellOf sMmr.dev 4) 3).sigma = none ∧ fld wMmr 73 72 = 0 ∧ fld wMmr 69 68 = 0 ∧ fld wMmr 67 64 = 2 ^ 3
    ∧ (List.range 64).all (fun e => !movOff (cellOf sMmr.dev 4) wMmr 64 0 e) = true ∧ rowOn wMmr (tblGet {} (cellOf
    sMmr.dev 4).arrays 3) 15 = true := by
  unfold RunsWord RunsOn; decide +kernel
def wMmc : BitVec 128 := iw [(0, 18), (26, 1), (64, 8), (112, 64), (96, 32769), (48, 1)]
def sMmc : State := onFour { prog := [wMmc], arrays := [(3, { fmt := 1 })] } id
theorem witness_mmc : RunsWord sMmc 4 runningToken newestReq wMmc ∧ prodWord wMmc 0x12 = true ∧
    sMmc.dev.power.halted = false ∧ sourcesReady 4 newestReq (prodReads wMmc) (prodLocs wMmc) sMmc.dev = true ∧
    gangBad (cellOf sMmc.dev 4) wMmc = false ∧ prodOk wMmc 0x12 (ax4Mode sMmc.dev (dTenant newestReq.desc)) 4
    sMmc.dev = true ∧ (15 : Nat) < 16 := by
  unfold RunsWord RunsOn; decide +kernel
def wDist : BitVec 128 := iw [(0, 20), (26, 1), (64, 8), (76, 1), (112, 1), (96, 1), (48, 1)]
def sDist : State := onFour { prog := [wDist], arrays := [(3, { fmt := 1 })] } id
theorem witness_dist : RunsWord sDist 4 runningToken newestReq wDist ∧ prodWord wDist 0x14 = true ∧
    sDist.dev.power.halted = false ∧ sourcesReady 4 newestReq (prodReads wDist) (prodLocs wDist) sDist.dev = true ∧
    gangBad (cellOf sDist.dev 4) wDist = false ∧ prodOk wDist 0x14 (ax4Mode sDist.dev (dTenant newestReq.desc)) 4
    sDist.dev = true ∧ prodRow wDist = true ∧ iComp wDist = false ∧ prodInt (cellOf sDist.dev 4) wDist 3 = false ∧
    (prodSta (cellOf sDist.dev 4) 3).sigma = none ∧ fld wDist 73 72 = 0 ∧ fld wDist 69 68 = 0 ∧ fld wDist 67 64 = 2
    ^ 3 ∧ (List.range 64).all (fun e => !movOff (cellOf sDist.dev 4) wDist 64 0 e) = true ∧ rowOn wDist (tblGet {}
    (cellOf sDist.dev 4).arrays 3) 0 = true := by
  unfold RunsWord RunsOn; decide +kernel
def wCmpx : BitVec 128 := iw [(0, 21), (26, 1), (64, 8), (76, 3), (112, 64), (96, 32768), (48, 1)]
def sCmpx : State := onFour { prog := [wCmpx], arrays := [(3, { fmt := 1 })] } id
theorem witness_cmpx : RunsWord sCmpx 4 runningToken newestReq wCmpx ∧ prodWord wCmpx 0x15 = true ∧
    sCmpx.dev.power.halted = false ∧ sourcesReady 4 newestReq (prodReads wCmpx) (prodLocs wCmpx) sCmpx.dev = true ∧
    gangBad (cellOf sCmpx.dev 4) wCmpx = false ∧ prodOk wCmpx 0x15 (ax4Mode sCmpx.dev (dTenant newestReq.desc)) 4
    sCmpx.dev = true ∧ prodRow wCmpx = true ∧ iComp wCmpx = false ∧ prodInt (cellOf sCmpx.dev 4) wCmpx 3 = false ∧
    (prodSta (cellOf sCmpx.dev 4) 3).sigma = none ∧ fld wCmpx 73 72 = 0 ∧ fld wCmpx 69 68 = 0 ∧ fld wCmpx 67 64 = 2
    ^ 3 ∧ (List.range 64).all (fun e => !movOff (cellOf sCmpx.dev 4) wCmpx 64 0 e) = true ∧ rowOn wCmpx (tblGet {}
    (cellOf sCmpx.dev 4).arrays 3) 15 = true := by
  unfold RunsWord RunsOn; decide +kernel
def wMmrQueue : BitVec 128 := iw [(0, 17), (26, 1), (64, 8), (72, 2), (112, 64), (96, 1), (48, 1)]
def sMmrQueue : State := onFour { prog := [wMmrQueue], arrays := [(3, { fmt := 1 })] } id
theorem witness_mmrQueue : RunsWord sMmrQueue 4 runningToken newestReq wMmrQueue ∧ prodWord wMmrQueue 0x11 = true ∧
    sMmrQueue.dev.power.halted = false ∧ sourcesReady 4 newestReq (prodReads wMmrQueue) (prodLocs wMmrQueue)
    sMmrQueue.dev = true ∧ gangBad (cellOf sMmrQueue.dev 4) wMmrQueue = false ∧ prodOk wMmrQueue 0x11 (ax4Mode
    sMmrQueue.dev (dTenant newestReq.desc)) 4 sMmrQueue.dev = true ∧ fld wMmrQueue 73 72 = 2 ∧ (prodBases
    wMmrQueue)[0]? = some 3 := by
  unfold RunsWord RunsOn; decide +kernel
def wMmrAdd : BitVec 128 := iw [(0, 17), (26, 1), (64, 8), (72, 1), (112, 64), (96, 1), (48, 1)]
def sMmrAdd : State := onFour { prog := [wMmrAdd], arrays := [(3, { fmt := 1 })], acc := [(0, 0x3F800000)] } (fun d => { d with tick := { d.tick with waves := [4] } })
theorem witness_mmrAdd : RunsWord sMmrAdd 4 runningToken newestReq wMmrAdd ∧ prodWord wMmrAdd 0x11 = true ∧
    sMmrAdd.dev.power.halted = false ∧ sourcesReady 4 newestReq (prodReads wMmrAdd) (prodLocs wMmrAdd) sMmrAdd.dev =
    true ∧ gangBad (cellOf sMmrAdd.dev 4) wMmrAdd = false ∧ prodOk wMmrAdd 0x11 (ax4Mode sMmrAdd.dev (dTenant
    newestReq.desc)) 4 sMmrAdd.dev = true ∧ fld wMmrAdd 73 72 = 1 ∧ iComp wMmrAdd = false ∧ (4 : CellId) ∈
    sMmrAdd.dev.tick.waves := by
  unfold RunsWord RunsOn; decide +kernel
def wMmrAddComp : BitVec 128 := iw [(0, 17), (26, 1), (36, 1), (64, 8), (72, 1), (112, 64), (96, 1), (48, 1)]
def sMmrAddComp : State := onFour { prog := [wMmrAddComp], arrays := [(3, { fmt := 1 })] } id
theorem witness_mmrAddComp : RunsWord sMmrAddComp 4 runningToken newestReq wMmrAddComp ∧ prodWord wMmrAddComp 0x11 =
    true ∧ sMmrAddComp.dev.power.halted = false ∧ sourcesReady 4 newestReq (prodReads wMmrAddComp) (prodLocs
    wMmrAddComp) sMmrAddComp.dev = true ∧ gangBad (cellOf sMmrAddComp.dev 4) wMmrAddComp = false ∧ prodOk
    wMmrAddComp 0x11 (ax4Mode sMmrAddComp.dev (dTenant newestReq.desc)) 4 sMmrAddComp.dev = true ∧ fld wMmrAddComp
    73 72 = 1 ∧ iComp wMmrAddComp = true := by
  unfold RunsWord RunsOn; decide +kernel
def wNectLoad : BitVec 128 := iw [(0, 19), (26, 1), (66, 1), (67, 3), (13, 28), (48, 256)]
def sNectLoad : State := onFour { prog := [wNectLoad] } id
theorem witness_nectLoad : RunsWord sNectLoad 4 runningToken newestReq wNectLoad ∧ nectLoadOk wNectLoad = true ∧
    sourcesReady 4 newestReq ((List.range (nRows wNectLoad)).map (iSrcA wNectLoad + ·)) [] sNectLoad.dev = true ∧
    bit wNectLoad 66 = true ∧ 3 < nRows wNectLoad ∧ 255 < iCount wNectLoad := by
  unfold RunsWord RunsOn; decide +kernel
def wNectDotWait : BitVec 128 := iw [(0, 19), (26, 1), (64, 1), (48, 1)]
def sNectDotWait : State := onFour { prog := [wNectDotWait], nect := { fifo := List.replicate 127 { byte := 1 } } } id
theorem witness_nectDotWait : RunsWord sNectDotWait 4 runningToken newestReq wNectDotWait ∧ nectDotOk wNectDotWait =
    true ∧ (takeTokens wNectDotWait (iCount wNectDotWait) (cellOf sNectDotWait.dev 4).nect).isNone = true := by
  unfold RunsWord RunsOn; decide +kernel
def wNectDot : BitVec 128 := iw [(0, 19), (26, 1), (64, 1), (48, 1)]
def sNectDot : State := onFour { prog := [wNectDot], nect := { fifo := List.replicate 128 { byte := 1 } } } id
theorem witness_nectDot : RunsWord sNectDot 4 runningToken newestReq wNectDot ∧ nectDotOk wNectDot = true ∧
    (takeTokens wNectDot (iCount wNectDot) (cellOf sNectDot.dev 4).nect).isSome = true := by
  unfold RunsWord RunsOn; decide +kernel
def wNectAccWait : BitVec 128 := iw [(0, 19), (26, 1), (64, 2), (72, 255), (48, 1)]
def sNectAccWait : State := onFour { prog := [wNectAccWait], nect := { fifo := List.replicate 127 { byte := 1 } } } id
theorem witness_nectAccWait : RunsWord sNectAccWait 4 runningToken newestReq wNectAccWait ∧ nectAccOk wNectAccWait =
    true ∧ iComp wNectAccWait = false ∧ (takeTokens wNectAccWait (iCount wNectAccWait) (cellOf sNectAccWait.dev
    4).nect).isNone = true := by
  unfold RunsWord RunsOn; decide +kernel
def wNectAcc : BitVec 128 := iw [(0, 19), (26, 1), (64, 2), (72, 255), (48, 1)]
def sNectAcc : State := onFour { prog := [wNectAcc], nect := { fifo := List.replicate 128 { byte := 1 } } } id
theorem witness_nectAcc : RunsWord sNectAcc 4 runningToken newestReq wNectAcc ∧ nectAccOk wNectAcc = true ∧ iComp
    wNectAcc = false ∧ (takeTokens wNectAcc (iCount wNectAcc) (cellOf sNectAcc.dev 4).nect).isSome = true := by
  unfold RunsWord RunsOn; decide +kernel
def wNectAccComp : BitVec 128 := iw [(0, 19), (26, 1), (36, 1), (64, 2), (71, 1), (72, 255), (48, 1)]
def sNectAccComp : State := onFour { prog := [wNectAccComp], nect := { fifo := List.replicate 128 { byte := 1 } } } id
theorem witness_nectAccComp : RunsWord sNectAccComp 4 runningToken newestReq wNectAccComp ∧ nectAccOk wNectAccComp =
    true ∧ iComp wNectAccComp = true ∧ ax4Mode sNectAccComp.dev (dTenant newestReq.desc) = false ∧ fmtIsInt (iFmtIn
    wNectAccComp) = false ∧ (takeTokens wNectAccComp (iCount wNectAccComp) (cellOf sNectAccComp.dev 4).nect).isSome
    = true := by
  unfold RunsWord RunsOn; decide +kernel
def wNectRead : BitVec 128 := iw [(0, 19), (64, 3), (48, 1)]
def sNectRead : State := onFour { prog := [wNectRead] } id
theorem witness_nectRead : RunsWord sNectRead 4 runningToken newestReq wNectRead ∧ nectReadOk wNectRead = true ∧
    (cellOf sNectRead.dev 4).nect.comp = false := by
  unfold RunsWord RunsOn; decide +kernel
def wNectReadComp : BitVec 128 := iw [(0, 19), (64, 3), (48, 1)]
def sNectReadComp : State := onFour { prog := [wNectReadComp], nect := { acc := [(0, 0x3F800000)], err := [(0, 0x33800000)], comp := true } } id
theorem witness_nectReadComp : RunsWord sNectReadComp 4 runningToken newestReq wNectReadComp ∧ nectReadOk
    wNectReadComp = true ∧ (cellOf sNectReadComp.dev 4).nect.comp = true := by
  unfold RunsWord RunsOn; decide +kernel
/-- A transfer that brings the tile is still in the mover's queue. -/
def sLdsWaits : State := onFour { prog := [wLds], mq := [{ word := iw [(0, 81), (98, 1), (120, 1), (48, 1)], ahead := 0 }] } id
theorem witness_ldsWaits : RunsWord sLdsWaits 4 runningToken newestReq wLds ∧ ldsOk wLds = true ∧
    sourcesReady 4 newestReq [] (ldsLocs wLds) sLdsWaits.dev = false := by
  unfold RunsWord RunsOn; decide +kernel
/-- The array's input of the tile queue has been sent as many words as it holds. -/
def sMmrFull : State := onFour { prog := [wMmrQueue], arrays := [(3, { fmt := 1 })], tqSeen := [(4, 1024)] } id
theorem witness_mmrFull : RunsWord sMmrFull 4 runningToken newestReq wMmrQueue ∧ fld wMmrQueue 73 72 = 2 ∧
    (prodBases wMmrQueue).any (fun b => decide (1024 < tblGet 0 (cellOf sMmrFull.dev 4).tqSeen (b + 1) + streamWords wMmrQueue)) = true := by
  unfold RunsWord RunsOn; decide +kernel
def sNectLoadWaits : State := onFour { prog := [wNectLoad], vq := [{ word := iw [(0, 0x30), (8, 28), (48, 1)] }] } id
theorem witness_nectLoadWaits : RunsWord sNectLoadWaits 4 runningToken newestReq wNectLoad ∧ nectLoadOk wNectLoad = true ∧
    sourcesReady 4 newestReq ((List.range (nRows wNectLoad)).map (iSrcA wNectLoad + ·)) [] sNectLoadWaits.dev = false := by
  unfold RunsWord RunsOn; decide +kernel

def wAccrd : BitVec 128 := iw [(0, 32), (13, 31), (8, 31), (80, 768), (48, 256)]
def sAccrd : State := onFour { prog := [wAccrd] } id
theorem witness_accrd : RunsWord sAccrd 4 runningToken newestReq wAccrd ∧ accrdOk wAccrd (ax4Mode sAccrd.dev
    (dTenant newestReq.desc)) = true ∧ bit wAccrd 67 = false ∧ bit wAccrd 68 = false ∧ 255 < iCount wAccrd := by
  unfold RunsWord RunsOn; decide +kernel
def wAccrdQueue : BitVec 128 := iw [(0, 32), (13, 31), (67, 3), (80, 1023), (48, 1)]
def sAccrdQueue : State := onFour { prog := [wAccrdQueue] } id
theorem witness_accrdQueue : RunsWord sAccrdQueue 4 runningToken newestReq wAccrdQueue ∧ accrdOk wAccrdQueue
    (ax4Mode sAccrdQueue.dev (dTenant newestReq.desc)) = true ∧ bit wAccrdQueue 67 = true ∧ bit wAccrdQueue 68 =
    true := by
  unfold RunsWord RunsOn; decide +kernel
def wAccrdComp : BitVec 128 := iw [(0, 32), (36, 1), (64, 1), (68, 1), (48, 1)]
def sAccrdComp : State := onFour { prog := [wAccrdComp], acc := [(0, 0x3F800000)] } id
theorem witness_accrdComp : RunsWord sAccrdComp 4 runningToken newestReq wAccrdComp ∧ accrdOk wAccrdComp (ax4Mode
    sAccrdComp.dev (dTenant newestReq.desc)) = true ∧ bit wAccrdComp 68 = true ∧ iComp wAccrdComp = true := by
  unfold RunsWord RunsOn; decide +kernel
def wAccwr : BitVec 128 := iw [(0, 33), (13, 31), (8, 31), (80, 768), (48, 256)]
def sAccwr : State := onFour { prog := [wAccwr] } id
theorem witness_accwr : RunsWord sAccwr 4 runningToken newestReq wAccwr ∧ accwrOk wAccwr = true ∧ sourcesReady 4
    newestReq (regRange (iSrcA wAccwr) (iCount wAccwr)) [] sAccwr.dev = true ∧ 255 < iCount wAccwr := by
  unfold RunsWord RunsOn; decide +kernel
def wAccwrWait : BitVec 128 := iw [(0, 33), (13, 31), (8, 31), (80, 768), (48, 256)]
def sAccwrWait : State := onFour { prog := [wAccwrWait], vq := [{ word := iw [(0, 0x30), (8, 31), (48, 1)] }] } id
theorem witness_accwrWait : RunsWord sAccwrWait 4 runningToken newestReq wAccwrWait ∧ accwrOk wAccwrWait = true ∧
    sourcesReady 4 newestReq (regRange (iSrcA wAccwrWait) (iCount wAccwrWait)) [] sAccwrWait.dev = false := by
  unfold RunsWord RunsOn; decide +kernel
def wTopk : BitVec 128 := iw [(0, 35), (8, 30), (13, 6), (64, 63), (72, 1), (48, 4)]
def sTopk : State := onFour { prog := [wTopk], tq := [(6, [1, 2, 3, 4])] } id
theorem witness_topk : RunsWord sTopk 4 runningToken newestReq wTopk ∧ topkOk wTopk = true ∧ topkFits wTopk (cellOf
    sTopk.dev 4) = true ∧ (cellOf sTopk.dev 4).vq = [] ∧ (cellOf sTopk.dev 4).mq = [] ∧ entryReady (cellOf sTopk.dev
    4) wTopk = true ∧ (topRank wTopk (cellOf sTopk.dev 4))[3]?.isSome = true ∧ (topRank wTopk (cellOf sTopk.dev
    4))[4]? = none := by
  unfold RunsWord RunsOn; decide +kernel
def wTopkUnfit : BitVec 128 := iw [(0, 35), (8, 30), (13, 28), (64, 63), (71, 1), (48, 4)]
def sTopkUnfit : State := onFour { prog := [wTopkUnfit], topk := [(1, 0)], topkKey := some (1, 0, 0) } id
theorem witness_topkUnfit : RunsWord sTopkUnfit 4 runningToken newestReq wTopkUnfit ∧ topkOk wTopkUnfit = true ∧
    topkFits wTopkUnfit (cellOf sTopkUnfit.dev 4) = false ∧ (cellOf sTopkUnfit.dev 4).vq = [] ∧ (cellOf
    sTopkUnfit.dev 4).mq = [] := by
  unfold RunsWord RunsOn; decide +kernel
def wTopkFull : BitVec 128 := iw [(0, 35), (8, 30), (13, 6), (64, 63), (72, 1), (48, 4)]
def sTopkFull : State := onFour { prog := [wTopkFull], vq := List.replicate 8 { word := iw [(0, 0x30), (71, 6), (48, 1)] } } id
theorem witness_topkFull : RunsWord sTopkFull 4 runningToken newestReq wTopkFull ∧ topkOk wTopkFull = true ∧ 8 ≤
    (cellOf sTopkFull.dev 4).vq.length := by
  unfold RunsWord RunsOn; decide +kernel
def wAccxRead : BitVec 128 := iw [(0, 34), (66, 31), (71, 1023), (8, 31), (48, 1)]
theorem witness_accxRead : alive sRun.dev = true ∧ cellClocked sRun.dev 0 = true ∧ cellToken sRun.dev 0 = none ∧
    accxReadOk wAccxRead = true ∧ bit wAccxRead 81 = false := by
  decide +kernel
def wAccxReadRaw : BitVec 128 := iw [(0, 34), (8, 24), (81, 1), (48, 1024)]
theorem witness_accxReadRaw : alive sRun.dev = true ∧ cellClocked sRun.dev 0 = true ∧ cellToken sRun.dev 0 = none ∧
    accxReadOk wAccxReadRaw = true ∧ bit wAccxReadRaw 81 = true ∧ 1023 < iCount wAccxReadRaw := by
  decide +kernel
def wAccxWrite : BitVec 128 := iw [(0, 34), (64, 1), (66, 31), (71, 1023), (13, 31), (48, 1)]
theorem witness_accxWrite : alive sRun.dev = true ∧ cellClocked sRun.dev 0 = true ∧ cellToken sRun.dev 0 = none ∧
    accxWriteOk wAccxWrite = true := by
  decide +kernel
def wAccxClear : BitVec 128 := iw [(0, 34), (64, 2), (48, 1024)]
theorem witness_accxClear : alive sRun.dev = true ∧ cellClocked sRun.dev 0 = true ∧ cellToken sRun.dev 0 = none ∧
    accxClearOk wAccxClear = true := by
  decide +kernel

/-- Input 6 of the tile queue holds four words. -/
def sTq : State := onFour { tq := [(6, [1, 2, 3, 4])] } id
def wVopWait : BitVec 128 := iw [(0, 48), (8, 31), (71, 6), (48, 5)]
theorem witness_vopWait : RunsWord (run wVopWait sTq) 4 runningToken newestReq wVopWait ∧ vopOk wVopWait = true ∧
    inlineOk (cellOf (run wVopWait sTq).dev 4) [] = true ∧ (cellOf (run wVopWait sTq).dev 4).vq = [] ∧ (cellOf (run
    wVopWait sTq).dev 4).mq = [] ∧ entryFits wVopWait (cellOf (run wVopWait sTq).dev 4) = true ∧ tqReady (cellOf
    (run wVopWait sTq).dev 4) (vTq wVopWait) (iCount wVopWait) = false := by
  unfold RunsWord RunsOn; decide +kernel
def wVop : BitVec 128 := iw [(0, 48), (8, 31), (71, 6), (64, 1), (74, 1), (48, 4)]
theorem witness_vop : RunsWord (run wVop sTq) 4 runningToken newestReq wVop ∧ vopOk wVop = true ∧ inlineOk (cellOf
    (run wVop sTq).dev 4) [] = true ∧ (cellOf (run wVop sTq).dev 4).vq = [] ∧ (cellOf (run wVop sTq).dev 4).mq = []
    ∧ entryFits wVop (cellOf (run wVop sTq).dev 4) = true ∧ tqReady (cellOf (run wVop sTq).dev 4) (vTq wVop) (iCount
    wVop) = true ∧ vTq wVop = 6 := by
  unfold RunsWord RunsOn; decide +kernel
def wVopMask : BitVec 128 := iw [(0, 48), (8, 31), (13, 31), (64, 1), (18, 31), (23, 7), (70, 1), (48, 256)]
theorem witness_vopMask : RunsWord (run wVopMask sTq) 4 runningToken newestReq wVopMask ∧ vopOk wVopMask = true ∧
    inlineOk (cellOf (run wVopMask sTq).dev 4) [] = true ∧ (cellOf (run wVopMask sTq).dev 4).vq = [] ∧ (cellOf (run
    wVopMask sTq).dev 4).mq = [] ∧ entryFits wVopMask (cellOf (run wVopMask sTq).dev 4) = true ∧ tqReady (cellOf
    (run wVopMask sTq).dev 4) (vTq wVopMask) (iCount wVopMask) = true ∧ maskOn (cellOf (run wVopMask sTq).dev 4)
    (iMask wVopMask) 255 = false ∧ vMzero wVopMask = true := by
  unfold RunsWord RunsOn; decide +kernel
def sVopFull : State := onFour { vq := List.replicate 8 { word := iw [(0, 0x30), (71, 6), (48, 1)] } } id
theorem witness_vopFull : RunsWord (run wVopMask sVopFull) 4 runningToken newestReq wVopMask ∧ vopOk wVopMask = true
    ∧ inlineOk (cellOf (run wVopMask sVopFull).dev 4) [] = true ∧ 8 ≤ (cellOf (run wVopMask sVopFull).dev
    4).vq.length ∧ entryFits wVopMask (cellOf (run wVopMask sVopFull).dev 4) = true := by
  unfold RunsWord RunsOn; decide +kernel
def sVopQueued : State := onFour { vq := List.replicate 7 { word := iw [(0, 0x30), (71, 6), (48, 1)] } } id
theorem witness_vopQueued : RunsWord (run wVopMask sVopQueued) 4 runningToken newestReq wVopMask ∧ vopOk wVopMask =
    true ∧ inlineOk (cellOf (run wVopMask sVopQueued).dev 4) [] = true ∧ (cellOf (run wVopMask sVopQueued).dev
    4).vq.length = 7 ∧ entryFits wVopMask (cellOf (run wVopMask sVopQueued).dev 4) = true := by
  unfold RunsWord RunsOn; decide +kernel
def wLookup : BitVec 128 := iw [(0, 48), (8, 31), (13, 31), (26, 9), (64, 34), (48, 256)]
theorem witness_lookup : RunsWord (run wLookup sTq) 4 runningToken newestReq wLookup ∧ lookupOk wLookup = true ∧
    inlineOk (cellOf (run wLookup sTq).dev 4) [] = true ∧ (cellOf (run wLookup sTq).dev 4).vq = [] ∧ (cellOf (run
    wLookup sTq).dev 4).mq = [] ∧ entryFits wLookup (cellOf (run wLookup sTq).dev 4) = true ∧ tqReady (cellOf (run
    wLookup sTq).dev 4) (vTq wLookup) (iCount wLookup) = true := by
  unfold RunsWord RunsOn; decide +kernel
def wEpoch : BitVec 128 := iw [(0, 48), (64, 63), (48, 1)]
theorem witness_epoch : RunsWord (run wEpoch sTq) 4 runningToken newestReq wEpoch ∧ epochOk wEpoch = true ∧ inlineOk
    (cellOf (run wEpoch sTq).dev 4) [] = true ∧ (cellOf (run wEpoch sTq).dev 4).vq = [] ∧ (cellOf (run wEpoch
    sTq).dev 4).mq = [] ∧ entryFits wEpoch (cellOf (run wEpoch sTq).dev 4) = true ∧ tqReady (cellOf (run wEpoch
    sTq).dev 4) (vTq wEpoch) (iCount wEpoch) = true ∧ (cellOf (run wEpoch sTq).dev 4).lutBank = false := by
  unfold RunsWord RunsOn; decide +kernel
def wVprog : BitVec 128 := iw [(0, 49), (8, 31), (13, 31), (18, 31), (75, 31), (48, 256)]
theorem witness_vprog : RunsWord (runs [wVprog, 77825] sTq) 4 runningToken newestReq wVprog ∧ vprogOk wVprog [77825]
    = true ∧ inlineOk (cellOf (runs [wVprog, 77825] sTq).dev 4) [77825] = true ∧ (cellOf (runs [wVprog, 77825]
    sTq).dev 4).vq = [] ∧ (cellOf (runs [wVprog, 77825] sTq).dev 4).mq = [] ∧ entryFits wVprog (cellOf (runs
    [wVprog, 77825] sTq).dev 4) = true ∧ tqReady (cellOf (runs [wVprog, 77825] sTq).dev 4) (vTq wVprog) (iCount
    wVprog) = true := by
  unfold RunsWord RunsOn; decide +kernel
def sVprogListed : State := onFour { prog := [iw [(0, 49), (8, 31), (13, 31), (18, 31), (75, 31), (48, 256)], 77825] } id
theorem witness_vprogListed : RunsWord sVprogListed 4 runningToken newestReq wVprog ∧ vprogOk wVprog [77825] = true
    ∧ inlineOk (cellOf sVprogListed.dev 4) [77825] = true ∧ (cellOf sVprogListed.dev 4).vq = [] ∧ (cellOf
    sVprogListed.dev 4).mq = [] ∧ entryFits wVprog (cellOf sVprogListed.dev 4) = true ∧ tqReady (cellOf
    sVprogListed.dev 4) (vTq wVprog) (iCount wVprog) = true ∧ (cellOf sVprogListed.dev 4).prog = [wVprog, 77825] := by
  unfold RunsWord RunsOn; decide +kernel
def wVbcast : BitVec 128 := iw [(0, 50), (8, 31), (13, 31), (18, 31), (64, 1), (80, 256), (48, 256)]
theorem witness_vbcast : RunsWord (run wVbcast sTq) 4 runningToken newestReq wVbcast ∧ vbcastOk wVbcast = true ∧
    inlineOk (cellOf (run wVbcast sTq).dev 4) [] = true ∧ (cellOf (run wVbcast sTq).dev 4).vq = [] ∧ (cellOf (run
    wVbcast sTq).dev 4).mq = [] ∧ entryFits wVbcast (cellOf (run wVbcast sTq).dev 4) = true ∧ tqReady (cellOf (run
    wVbcast sTq).dev 4) (vTq wVbcast) (iCount wVbcast) = true := by
  unfold RunsWord RunsOn; decide +kernel
def wVmask : BitVec 128 := iw [(0, 51), (8, 7), (13, 31), (18, 31), (48, 256)]
theorem witness_vmask : RunsWord (run wVmask sTq) 4 runningToken newestReq wVmask ∧ vmaskOk wVmask = true ∧ inlineOk
    (cellOf (run wVmask sTq).dev 4) [] = true ∧ (cellOf (run wVmask sTq).dev 4).vq = [] ∧ (cellOf (run wVmask
    sTq).dev 4).mq = [] ∧ entryFits wVmask (cellOf (run wVmask sTq).dev 4) = true ∧ tqReady (cellOf (run wVmask
    sTq).dev 4) (vTq wVmask) (iCount wVmask) = true ∧ mOp wVmask = 0 := by
  unfold RunsWord RunsOn; decide +kernel
def wVmaskOnes : BitVec 128 := iw [(0, 51), (8, 1), (64, 5), (48, 256)]
theorem witness_vmaskOnes : RunsWord (run wVmaskOnes sTq) 4 runningToken newestReq wVmaskOnes ∧ vmaskOk wVmaskOnes =
    true ∧ inlineOk (cellOf (run wVmaskOnes sTq).dev 4) [] = true ∧ (cellOf (run wVmaskOnes sTq).dev 4).vq = [] ∧
    (cellOf (run wVmaskOnes sTq).dev 4).mq = [] ∧ entryFits wVmaskOnes (cellOf (run wVmaskOnes sTq).dev 4) = true ∧
    tqReady (cellOf (run wVmaskOnes sTq).dev 4) (vTq wVmaskOnes) (iCount wVmaskOnes) = true ∧ mOp wVmaskOnes = 5 := by
  unfold RunsWord RunsOn; decide +kernel
def wVcvt : BitVec 128 := iw [(0, 52), (8, 31), (13, 31), (30, 1), (48, 256)]
theorem witness_vcvt : RunsWord (run wVcvt sTq) 4 runningToken newestReq wVcvt ∧ vcvtOk wVcvt = true ∧ inlineOk
    (cellOf (run wVcvt sTq).dev 4) [] = true ∧ (cellOf (run wVcvt sTq).dev 4).vq = [] ∧ (cellOf (run wVcvt sTq).dev
    4).mq = [] ∧ entryFits wVcvt (cellOf (run wVcvt sTq).dev 4) = true ∧ tqReady (cellOf (run wVcvt sTq).dev 4) (vTq
    wVcvt) (iCount wVcvt) = true ∧ fmtIsMx (iFmtOut wVcvt) = false := by
  unfold RunsWord RunsOn; decide +kernel
def wVcvtBlocks : BitVec 128 := iw [(0, 52), (8, 30), (13, 31), (30, 4), (48, 32)]
theorem witness_vcvtBlocks : RunsWord (run wVcvtBlocks sTq) 4 runningToken newestReq wVcvtBlocks ∧ vcvtOk
    wVcvtBlocks = true ∧ inlineOk (cellOf (run wVcvtBlocks sTq).dev 4) [] = true ∧ (cellOf (run wVcvtBlocks sTq).dev
    4).vq = [] ∧ (cellOf (run wVcvtBlocks sTq).dev 4).mq = [] ∧ entryFits wVcvtBlocks (cellOf (run wVcvtBlocks
    sTq).dev 4) = true ∧ tqReady (cellOf (run wVcvtBlocks sTq).dev 4) (vTq wVcvtBlocks) (iCount wVcvtBlocks) = true
    ∧ fmtIsMx (iFmtOut wVcvtBlocks) = true ∧ 0 < iCount wVcvtBlocks / 32 := by
  unfold RunsWord RunsOn; decide +kernel
def wVred : BitVec 128 := iw [(0, 53), (8, 31), (13, 31), (80, 256), (48, 256)]
theorem witness_vred : RunsWord (run wVred sTq) 4 runningToken newestReq wVred ∧ vredOk wVred = true ∧ inlineOk
    (cellOf (run wVred sTq).dev 4) [] = true ∧ (cellOf (run wVred sTq).dev 4).vq = [] ∧ (cellOf (run wVred sTq).dev
    4).mq = [] ∧ entryFits wVred (cellOf (run wVred sTq).dev 4) = true ∧ tqReady (cellOf (run wVred sTq).dev 4) (vTq
    wVred) (iCount wVred) = true ∧ vRows wVred = 1 := by
  unfold RunsWord RunsOn; decide +kernel
def wRowstat : BitVec 128 := iw [(0, 54), (8, 31), (13, 31), (80, 256), (48, 256)]
theorem witness_rowstat : RunsWord (run wRowstat sTq) 4 runningToken newestReq wRowstat ∧ rowstatOk wRowstat = true
    ∧ inlineOk (cellOf (run wRowstat sTq).dev 4) [] = true ∧ (cellOf (run wRowstat sTq).dev 4).vq = [] ∧ (cellOf
    (run wRowstat sTq).dev 4).mq = [] ∧ entryFits wRowstat (cellOf (run wRowstat sTq).dev 4) = true ∧ tqReady
    (cellOf (run wRowstat sTq).dev 4) (vTq wRowstat) (iCount wRowstat) = true ∧ bit wRowstat 64 = false := by
  unfold RunsWord RunsOn; decide +kernel
def wRmsstat : BitVec 128 := iw [(0, 55), (8, 31), (13, 31), (80, 16), (64, 1), (65, 1), (48, 256)]
theorem witness_rmsstat : RunsWord (run wRmsstat sTq) 4 runningToken newestReq wRmsstat ∧ rmsstatOk wRmsstat = true
    ∧ inlineOk (cellOf (run wRmsstat sTq).dev 4) [] = true ∧ (cellOf (run wRmsstat sTq).dev 4).vq = [] ∧ (cellOf
    (run wRmsstat sTq).dev 4).mq = [] ∧ entryFits wRmsstat (cellOf (run wRmsstat sTq).dev 4) = true ∧ tqReady
    (cellOf (run wRmsstat sTq).dev 4) (vTq wRmsstat) (iCount wRmsstat) = true ∧ vRows wRmsstat = 16 ∧ bit wRmsstat
    65 = true := by
  unfold RunsWord RunsOn; decide +kernel
def wRmsstatUnfit : BitVec 128 := iw [(0, 55), (13, 31), (80, 16), (48, 256)]
def sRmsstatUnfit : State := onFour { prog := [wRmsstatUnfit], rmsRows := some 15 } id
theorem witness_rmsstatUnfit : RunsWord sRmsstatUnfit 4 runningToken newestReq wRmsstatUnfit ∧ rmsstatOk
    wRmsstatUnfit = true ∧ inlineOk (cellOf sRmsstatUnfit.dev 4) [] = true ∧ (cellOf sRmsstatUnfit.dev 4).vq = [] ∧
    (cellOf sRmsstatUnfit.dev 4).mq = [] ∧ entryFits wRmsstatUnfit (cellOf sRmsstatUnfit.dev 4) = false := by
  unfold RunsWord RunsOn; decide +kernel
def wSfu : BitVec 128 := iw [(0, 64), (8, 31), (13, 31), (64, 8), (48, 256)]
theorem witness_sfu : RunsWord (run wSfu sTq) 4 runningToken newestReq wSfu ∧ sfuOk wSfu = true ∧ inlineOk (cellOf
    (run wSfu sTq).dev 4) [] = true ∧ (cellOf (run wSfu sTq).dev 4).vq = [] ∧ (cellOf (run wSfu sTq).dev 4).mq = []
    ∧ entryFits wSfu (cellOf (run wSfu sTq).dev 4) = true ∧ tqReady (cellOf (run wSfu sTq).dev 4) (vTq wSfu) (iCount
    wSfu) = true := by
  unfold RunsWord RunsOn; decide +kernel

/-- Windows of tenant 5: the first 4 KiB of each cell's memory, and 4 KiB of hive memory. -/
def windows : Dev → Dev := put [(R.TCX_CM_WINDOW 5, 0x10000), (R.TCX_HV_BASE 5, 16), (R.TCX_HV_BOUND 5, 17)]
def sWin : State := onFour {} windows
/-- The image of tenant 5 has its layer 0 above the stacks. -/
def sFar : State := onFour {} (fun d => windows { withImages d with mem := { (withImages d).mem with
  hbm := bytesAt 0 (zeroBytes 0x40 ++ leBytes 8 0x80 ++ zeroBytes 0x38 ++ leBytes 8 0x4000000000 ++ leBytes 4 64 ++ zeroBytes 0xB4) } })
/-- The first unit of cell 4's memory is WIPING. -/
def sWiping : State := onFour {} (tagged 4096 (.wipingTenant 5 0 0) ∘ windows)
/-- A diagnostic program runs on cell 0: of its first two units one is CLEAN. -/
def sDiag : State := sOf (fun d => { tagged 0 (.tenant 5 0 0) d with mem := { (tagged 0 (.tenant 5 0 0) d).mem with
  cm := [(0x1010, 7)], diagUnits := [(0, 1)] } }) sRun
def wLdt : BitVec 128 := iw [(0, 81), (80, 255), (98, 1), (120, 1), (110, 1023), (48, 1)]
theorem witness_ldt : RunsWord (run wLdt sWin) 4 runningToken newestReq wLdt ∧ ldtOk wLdt = true ∧ MoverFree 4
    newestReq wLdt (run wLdt sWin) ∧ (untilTrip (cmAccess (run wLdt sWin).dev 4 newestReq false) (tileOffs wLdt)).2
    = none ∧ bit wLdt 64 = false := by
  unfold RunsWord RunsOn MoverFree; decide +kernel
def wLdtColumns : BitVec 128 := iw [(0, 81), (26, 1), (30, 1), (64, 3), (98, 1), (120, 1), (48, 8)]
theorem witness_ldtColumns : RunsWord (run wLdtColumns sWin) 4 runningToken newestReq wLdtColumns ∧ ldtOk
    wLdtColumns = true ∧ MoverFree 4 newestReq wLdtColumns (run wLdtColumns sWin) ∧ (untilTrip (cmAccess (run
    wLdtColumns sWin).dev 4 newestReq false) (tileOffs wLdtColumns)).2 = none ∧ bit wLdtColumns 64 = true ∧ lAxis
    wLdtColumns = true := by
  unfold RunsWord RunsOn MoverFree; decide +kernel
def wLdtWindow : BitVec 128 := iw [(0, 81), (80, 256), (98, 1), (120, 1), (48, 1)]
theorem witness_ldtWindow : RunsWord (run wLdtWindow sWin) 4 runningToken newestReq wLdtWindow ∧ ldtOk wLdtWindow =
    true ∧ MoverFree 4 newestReq wLdtWindow (run wLdtWindow sWin) ∧ (untilTrip (cmAccess (run wLdtWindow sWin).dev 4
    newestReq false) (tileOffs wLdtWindow)).2 ≠ none := by
  unfold RunsWord RunsOn MoverFree; decide +kernel
theorem witness_ldtWiping : RunsWord (run wLdt sWiping) 4 runningToken newestReq wLdt ∧ ldtOk wLdt = true ∧
    moverWipes 4 wLdt newestReq (run wLdt sWiping).dev = true := by
  unfold RunsWord RunsOn; decide +kernel
def wStt : BitVec 128 := iw [(0, 82), (26, 1), (30, 1), (13, 31), (98, 1), (120, 1), (48, 1)]
theorem witness_stt : RunsWord (run wStt sWin) 4 runningToken newestReq wStt ∧ sttOk wStt = true ∧ MoverFree 4
    newestReq wStt (run wStt sWin) ∧ (untilTrip (cmAccess (run wStt sWin).dev 4 newestReq true) (tileOffs wStt)).2 =
    none := by
  unfold RunsWord RunsOn MoverFree; decide +kernel
def sSttWait : State := onFour { vq := [{ word := iw [(0, 0x30), (8, 31), (48, 1)] }] } windows
theorem witness_sttWait : RunsWord (run wStt sSttWait) 4 runningToken newestReq wStt ∧ sttOk wStt = true ∧
    moverWipes 4 wStt newestReq (run wStt sSttWait).dev = false ∧ moverHeld 4 newestReq wStt (cellOf (run wStt
    sSttWait).dev 4).vq (cellOf (run wStt sSttWait).dev 4).mq (run wStt sSttWait).dev = true ∧ (cellOf (run wStt
    sSttWait).dev 4).mq.length < 16 := by
  unfold RunsWord RunsOn; decide +kernel
def sSttBankOff : State := onFour {} (put [(R.CEL_BANK_STATE 4, 2)] ∘ windows)
theorem witness_sttBankOff : RunsWord (run wStt sSttBankOff) 4 runningToken newestReq wStt ∧ sttOk wStt = true ∧
    MoverFree 4 newestReq wStt (run wStt sSttBankOff) ∧ ((untilTrip (cmAccess (run wStt sSttBankOff).dev 4 newestReq
    true) (tileOffs wStt)).2).any Trip.isBankOff = true := by
  unfold RunsWord RunsOn MoverFree; decide +kernel
/-- The mover's queue is full, and an earlier entry of the vector engine still writes what STT reads. -/
def sMoverFull : State := onFour { vq := [{ word := iw [(0, 0x30), (8, 31), (48, 1)] }], mq := List.replicate 16 { word := wLdt, ahead := 0 } } windows
theorem witness_moverFull : RunsWord (run wStt sMoverFull) 4 runningToken newestReq wStt ∧ sttOk wStt = true ∧
    moverWipes 4 wStt newestReq (run wStt sMoverFull).dev = false ∧
    moverHeld 4 newestReq wStt (cellOf (run wStt sMoverFull).dev 4).vq (cellOf (run wStt sMoverFull).dev 4).mq
      (run wStt sMoverFull).dev = true ∧ 16 ≤ (cellOf (run wStt sMoverFull).dev 4).mq.length := by
  unfold RunsWord RunsOn; decide +kernel
def wMovBeyond : BitVec 128 := iw [(0, 80), (64, 2), (48, 1)]
theorem witness_movBeyond : RunsWord (run wMovBeyond sFar) 4 runningToken newestReq wMovBeyond ∧ movOk false
    wMovBeyond = true ∧ mSkind wMovBeyond = 2 ∧ weightBeyond (run wMovBeyond sFar).dev newestReq (64 * mSrc
    wMovBeyond) (mBytes wMovBeyond) = true := by
  unfold RunsWord RunsOn; decide +kernel
def wMovWaits : BitVec 128 := iw [(0, 80), (72, 252), (96, 0), (48, 1)]
theorem witness_movWaits : RunsWord (run wMovWaits sWiping) 4 runningToken newestReq wMovWaits ∧ movOk false
    wMovWaits = true ∧ movBeyond 4 wMovWaits (run wMovWaits sWiping).dev = false ∧ moverWipes 4 wMovWaits newestReq
    (run wMovWaits sWiping).dev = true := by
  unfold RunsWord RunsOn; decide +kernel
def wMovCell : BitVec 128 := iw [(0, 80), (72, 252), (96, 0), (48, 1)]
theorem witness_movCell : RunsWord (run wMovCell sWin) 4 runningToken newestReq wMovCell ∧ movOk false wMovCell =
    true ∧ MoverFree 4 newestReq wMovCell (run wMovCell sWin) ∧ mSkind wMovCell = 0 ∧ mDkind wMovCell = 0 ∧
    (untilTrip (cmAccess (run wMovCell sWin).dev 4 newestReq false) (chunkOffs (16 * mSrc wMovCell) (4 * iCount
    wMovCell))).2 = none ∧ (untilTrip (cmAccess (run wMovCell sWin).dev 4 newestReq true) (chunkOffs (16 * mDst
    wMovCell) (4 * iCount wMovCell))).2 = none := by
  unfold RunsWord RunsOn MoverFree; decide +kernel
def wMovHive : BitVec 128 := iw [(0, 80), (64, 1), (67, 5), (72, 252), (96, 1023), (48, 1)]
theorem witness_movHive : RunsWord (run wMovHive sWin) 4 runningToken newestReq wMovHive ∧ movOk false wMovHive =
    true ∧ MoverFree 4 newestReq wMovHive (run wMovHive sWin) ∧ mSkind wMovHive = 1 ∧ mDkind wMovHive = 5 ∧
    (untilTrip (hvAccess (run wMovHive sWin).dev newestReq) (chunkOffs (16 * mSrc wMovHive) (4 * iCount
    wMovHive))).2 = none := by
  unfold RunsWord RunsOn MoverFree; decide +kernel
def wMovNectar : BitVec 128 := iw [(0, 80), (67, 2), (48, 1)]
theorem witness_movNectar : RunsWord (run wMovNectar sWin) 4 runningToken newestReq wMovNectar ∧ movOk false
    wMovNectar = true ∧ MoverFree 4 newestReq wMovNectar (run wMovNectar sWin) ∧ mDkind wMovNectar = 2 ∧ movBeyond 4
    wMovNectar (run wMovNectar sWin).dev = false ∧ (movRead 4 newestReq wMovNectar (run wMovNectar sWin).dev).2 =
    (none, (run wMovNectar sWin).dev) := by
  unfold RunsWord RunsOn MoverFree; decide +kernel
def wMovTrip : BitVec 128 := iw [(0, 80), (72, 256), (48, 1)]
theorem witness_movTrip : RunsWord (run wMovTrip sWin) 4 runningToken newestReq wMovTrip ∧ movOk false wMovTrip =
    true ∧ MoverFree 4 newestReq wMovTrip (run wMovTrip sWin) ∧ movBeyond 4 wMovTrip (run wMovTrip sWin).dev = false
    ∧ (movRead 4 newestReq wMovTrip (run wMovTrip sWin).dev).2.1 ≠ none := by
  unfold RunsWord RunsOn MoverFree; decide +kernel
theorem witness_movTripWrites : movFits wMovTrip (movRead 4 newestReq wMovTrip (run wMovTrip sWin).dev).1.length = true ∧
    (movRead 4 newestReq wMovTrip (run wMovTrip sWin).dev).2.1 ≠ none ∧
    (movWrite 4 newestReq wMovTrip (movRead 4 newestReq wMovTrip (run wMovTrip sWin).dev).1
      (movRead 4 newestReq wMovTrip (run wMovTrip sWin).dev).2.2).2 = none := by
  decide +kernel
def wDiagLdt : BitVec 128 := iw [(0, 81), (80, 255), (98, 2), (120, 1), (110, 1023), (48, 1)]
theorem witness_diagLdt : alive sDiag.dev = true ∧ cellClocked sDiag.dev 0 = true ∧ cellToken sDiag.dev 0 = none ∧
    ldtOk wDiagLdt = true ∧ lAxis wDiagLdt = false ∧ diagReaches sDiag.dev 0 false (lAddr wDiagLdt) = false := by
  decide +kernel
def wDiagStt : BitVec 128 := iw [(0, 82), (26, 1), (30, 1), (13, 31), (80, 256), (98, 1), (120, 1), (48, 1)]
theorem witness_diagStt : alive sDiag.dev = true ∧ cellClocked sDiag.dev 0 = true ∧ cellToken sDiag.dev 0 = none ∧
    sttOk wDiagStt = true ∧ (tileOffs wDiagStt).all (fun o => diagReaches sDiag.dev 0 false o) = true := by
  decide +kernel
def wDiagMov : BitVec 128 := iw [(0, 80), (67, 1), (72, 254), (48, 1)]
theorem witness_diagMov : alive sDiag.dev = true ∧ cellClocked sDiag.dev 0 = true ∧ cellToken sDiag.dev 0 = none ∧
    movOk true wDiagMov = true ∧ mSkind wDiagMov = 0 ∧ mDkind wDiagMov = 1 ∧ diagReaches sDiag.dev 0 false (16 *
    mSrc wDiagMov) = false ∧ diagReaches sDiag.dev 0 true (16 * mDst wDiagMov) = true := by
  decide +kernel
def wDiagEnd : BitVec 128 := iw [(0, 4), (48, 1)]
theorem witness_diagEnd : alive sDiag.dev = true ∧ cellClocked sDiag.dev 0 = true ∧ cellToken sDiag.dev 0 = none ∧
    endOk wDiagEnd = true ∧ (0, 1) ∈ sDiag.dev.mem.diagUnits := by
  decide +kernel

/-- A request whose append check has been made, and its token. -/
def appendReq : Req := { newestReq with appendChecked := true }
def appendToken : Token := { runningToken with checked := true }
/-- Sequence 0 of tenant 5 with a directory over one leaf, unit 4, and page heads; a page body in cell 4's reserve. -/
def paged (heads : Tbl PageHead) (d : Dev) : Dev := put [(R.TCX_CM_WINDOW 5, 0x10000)] { d with cache := { d.cache with
  seqs := [(0, { tenant := 5, st := .live, posHi := 8, parts := 1, root := some 1 })]
  ptrs := [(4096, 2), (8192, 3), (12288, 4)]
  heads := heads
  frames := [(8, { refcnt := 1, tenant := 5, order := 0, st := .reserved 4, kind := .body })] } }
def pageOfFive : PageHead := { tenant := 5, st := .staged }
def unread (d : Dev) : Dev := { d with cache := { d.cache with seqs := [(0, { tenant := 5, st := .live, posHi := 8, length := 1 })] } }
def isDone : AppendOut → Bool
  | .done _ => true
  | _ => false
def isShort : AppendOut → Bool
  | .short => true
  | _ => false
def sUnread : State := onFour {} unread
def sPaged : State := onFour {} (paged [(64, pageOfFive)]) appendReq appendToken
def sFresh : State := onFour {} (paged []) appendReq appendToken
/-- No frame is left in the cell's reserve. -/
def sShort : State := onFour {} (fun d => { paged [] d with cache := { (paged [] d).cache with frames := [] } }) appendReq appendToken
def wAppendWaits : BitVec 128 := iw [(0, 83), (26, 1), (13, 31), (18, 30), (48, 1)]
def sAppendWaits : State := onFour { prog := [wAppendWaits], vq := [{ word := iw [(0, 0x30), (8, 31), (48, 1)] }] } (paged [(64, pageOfFive)]) appendReq appendToken
theorem witness_appendWaits : RunsWord sAppendWaits 4 appendToken appendReq wAppendWaits ∧ appendStageOk
    wAppendWaits appendReq sAppendWaits.dev = true ∧ moverWipes 4 wAppendWaits appendReq sAppendWaits.dev = false ∧
    moverHeld 4 appendReq wAppendWaits (cellOf sAppendWaits.dev 4).vq (cellOf sAppendWaits.dev 4).mq
    sAppendWaits.dev = true ∧ (cellOf sAppendWaits.dev 4).mq.length < 16 := by
  unfold RunsWord RunsOn; decide +kernel
theorem witness_appendInvalid : RunsWord (run wAppendWaits sUnread) 4 runningToken newestReq wAppendWaits ∧
    appendStageOk wAppendWaits newestReq (run wAppendWaits sUnread).dev = true ∧ MoverFree 4 newestReq wAppendWaits
    (run wAppendWaits sUnread) ∧ newestReq.appendChecked = false ∧ appendValid (run wAppendWaits sUnread).dev
    newestReq = false := by
  unfold RunsWord RunsOn MoverFree; decide +kernel
theorem witness_appendStage : RunsWord (run wAppendWaits sPaged) 4 appendToken appendReq wAppendWaits ∧
    appendStageOk wAppendWaits appendReq (run wAppendWaits sPaged).dev = true ∧ MoverFree 4 appendReq wAppendWaits
    (run wAppendWaits sPaged) ∧ appendReq.appendChecked = true ∧ appendReq.checkFailed = false ∧ appendToken.checked
    = true ∧ isPacked appendReq = false ∧ (seqDesc (run wAppendWaits sPaged).dev 0).posLo ≤ 0 ∧ dSeq appendReq.desc
    = 0 ∧ dPos appendReq.desc = 0 ∧ dTenant appendReq.desc = 5 ∧ iCount wAppendWaits = 1 ∧ fld wAppendWaits 95 80 <
    dRows appendReq.desc ∧ 0 < (seqDesc (run wAppendWaits sPaged).dev 0).posHi ∧ kvRank (run wAppendWaits
    sPaged).dev appendReq 4 + fld wAppendWaits 67 66 = 0 ∧ pageIdx (run wAppendWaits sPaged).dev 5 (mapPrefix (run
    wAppendWaits sPaged).dev appendReq 0) 0 = 0 ∧ walkTrip (run wAppendWaits sPaged).dev 0 0 0 0 = none ∧ leafOf
    (run wAppendWaits sPaged).dev 0 0 0 0 = some 4 ∧ frameShared (run wAppendWaits sPaged).dev 4 = false ∧ (headAt
    (run wAppendWaits sPaged).dev 64).st = .staged ∧ pageFull (headAt (run wAppendWaits sPaged).dev 64) = false ∧ 0
    < 2 ^ (headAt (run wAppendWaits sPaged).dev 64).pshift ∧ bit wAppendWaits 68 = false := by
  unfold RunsWord RunsOn MoverFree; decide +kernel
/-- Where the rows of an APPEND of sequence 0 go: head 0 of layer 0. -/
def at0 : AppendAt := { c := 4, r := appendReq, q := 0, l := 0, h := 0, pl := 0 }
/-- The rows of an APPEND in STAGE mode have been stored. -/
def appendedAll (w : BitVec 128) (s : State) : Bool :=
  isDone (appendAll (fun e => appendRow { at0 with q := e.2.1, pl := mapPrefix s.dev appendReq e.2.1 } e.2.2 (bit w 68)
    ((regRows (cellOf s.dev 4) (iSrcA w) (iCount w) (headDim s.dev 5)).getD e.1 [])
    ((regRows (cellOf s.dev 4) (iSrcB w) (iCount w) (headDim s.dev 5)).getD e.1 []))
    (appendRows s.dev appendReq (fld w 95 80) (iCount w)) s.dev).2
theorem witness_appendRows : RunsWord (run wAppendWaits sPaged) 4 appendToken appendReq wAppendWaits ∧
    MoverFree 4 appendReq wAppendWaits (run wAppendWaits sPaged) ∧
    appendStageOk wAppendWaits appendReq (run wAppendWaits sPaged).dev = true ∧
    appendedAll wAppendWaits (run wAppendWaits sPaged) = true ∧ bit wAppendWaits 68 = false ∧
    (appendRows (run wAppendWaits sPaged).dev appendReq (fld wAppendWaits 95 80) (iCount wAppendWaits)).length = 1 := by
  unfold RunsWord RunsOn MoverFree; decide +kernel
def wAppendPage : BitVec 128 := iw [(0, 83), (26, 1), (64, 1), (48, 1)]
theorem witness_appendPage : RunsWord (run wAppendPage sFresh) 4 appendToken appendReq wAppendPage ∧ appendPageOk
    wAppendPage appendReq (run wAppendPage sFresh).dev = true ∧ appendReq.appendChecked = true ∧
    appendReq.checkFailed = false ∧ appendToken.checked = true ∧ isPacked appendReq = false ∧ (seqDesc (run
    wAppendPage sFresh).dev 0).posLo ≤ 0 ∧ dSeq appendReq.desc = 0 ∧ dPos appendReq.desc = 0 ∧ dTenant
    appendReq.desc = 5 ∧ fld wAppendPage 95 80 + iCount wAppendPage ≤ dRows appendReq.desc ∧ 0 + iCount wAppendPage
    ≤ (seqDesc (run wAppendPage sFresh).dev 0).posHi ∧ pageStart (run wAppendPage sFresh).dev 5 (mapPrefix (run
    wAppendPage sFresh).dev appendReq 0) 0 = 0 ∧ pageTokens (run wAppendPage sFresh).dev 5 (mapPrefix (run
    wAppendPage sFresh).dev appendReq 0) 0 = iCount wAppendPage ∧ MoverFree 4 appendReq wAppendPage (run wAppendPage
    sFresh) ∧ (cmReadWin (run wAppendPage sFresh).dev 4 appendReq (chunkOffs (64 * fld wAppendPage 111 96) (4 *
    iCount wAppendPage * headDim (run wAppendPage sFresh).dev 5 / 16))).2 = none ∧ (cmReadWin (run wAppendPage
    sFresh).dev 4 appendReq (chunkOffs (64 * fld wAppendPage 111 96) (4 * iCount wAppendPage * headDim (run
    wAppendPage sFresh).dev 5 / 16))).1 = zeroBytes 256 ∧ isDone (appendPage at0 0 (byteRows (zeroBytes 256) 1 64) (byteRows (zeroBytes 128) 1 64) (run wAppendPage
    sFresh).dev) = true := by
  unfold RunsWord RunsOn MoverFree; decide +kernel
theorem witness_appendShort : RunsWord (run wAppendPage sShort) 4 appendToken appendReq wAppendPage ∧ appendPageOk
    wAppendPage appendReq (run wAppendPage sShort).dev = true ∧ appendReq.appendChecked = true ∧
    appendReq.checkFailed = false ∧ appendToken.checked = true ∧ isPacked appendReq = false ∧ (seqDesc (run
    wAppendPage sShort).dev 0).posLo ≤ 0 ∧ dSeq appendReq.desc = 0 ∧ dPos appendReq.desc = 0 ∧ dTenant
    appendReq.desc = 5 ∧ fld wAppendPage 95 80 + iCount wAppendPage ≤ dRows appendReq.desc ∧ 0 + iCount wAppendPage
    ≤ (seqDesc (run wAppendPage sShort).dev 0).posHi ∧ pageStart (run wAppendPage sShort).dev 5 (mapPrefix (run
    wAppendPage sShort).dev appendReq 0) 0 = 0 ∧ pageTokens (run wAppendPage sShort).dev 5 (mapPrefix (run
    wAppendPage sShort).dev appendReq 0) 0 = iCount wAppendPage ∧ MoverFree 4 appendReq wAppendPage (run wAppendPage
    sShort) ∧ (cmReadWin (run wAppendPage sShort).dev 4 appendReq (chunkOffs (64 * fld wAppendPage 111 96) (4 *
    iCount wAppendPage * headDim (run wAppendPage sShort).dev 5 / 16))).2 = none ∧ (cmReadWin (run wAppendPage
    sShort).dev 4 appendReq (chunkOffs (64 * fld wAppendPage 111 96) (4 * iCount wAppendPage * headDim (run
    wAppendPage sShort).dev 5 / 16))).1 = zeroBytes 256 ∧ isShort (appendPage at0 0 (byteRows (zeroBytes 256) 1 64) (byteRows (zeroBytes 128) 1 64) (run wAppendPage
    sShort).dev) = true := by
  unfold RunsWord RunsOn MoverFree; decide +kernel
def sAppendPageWiping : State := onFour {} (tagged 4096 .wipingClean ∘ paged []) appendReq appendToken
theorem witness_appendPageWiping : RunsWord (run wAppendPage sAppendPageWiping) 4 appendToken appendReq wAppendPage
    ∧ appendPageOk wAppendPage appendReq (run wAppendPage sAppendPageWiping).dev = true ∧ appendReq.appendChecked =
    true ∧ appendReq.checkFailed = false ∧ appendToken.checked = true ∧ isPacked appendReq = false ∧ (seqDesc (run
    wAppendPage sAppendPageWiping).dev 0).posLo ≤ 0 ∧ dSeq appendReq.desc = 0 ∧ dPos appendReq.desc = 0 ∧ dTenant
    appendReq.desc = 5 ∧ fld wAppendPage 95 80 + iCount wAppendPage ≤ dRows appendReq.desc ∧ 0 + iCount wAppendPage
    ≤ (seqDesc (run wAppendPage sAppendPageWiping).dev 0).posHi ∧ pageStart (run wAppendPage sAppendPageWiping).dev
    5 (mapPrefix (run wAppendPage sAppendPageWiping).dev appendReq 0) 0 = 0 ∧ pageTokens (run wAppendPage
    sAppendPageWiping).dev 5 (mapPrefix (run wAppendPage sAppendPageWiping).dev appendReq 0) 0 = iCount wAppendPage
    ∧ moverWipes 4 wAppendPage appendReq (run wAppendPage sAppendPageWiping).dev = true := by
  unfold RunsWord RunsOn; decide +kernel
def wPgwalk : BitVec 128 := iw [(0, 84), (96, 63), (48, 2)]
def sPgwalk : State := onFour { prog := [wPgwalk] } (paged [(64, pageOfFive)])
theorem witness_pgwalk : RunsWord sPgwalk 4 runningToken newestReq wPgwalk ∧ pgwalkWord wPgwalk = true ∧ fld wPgwalk
    65 64 < headsPerCell sPgwalk.dev (dTenant newestReq.desc) ∧ MoverFree 4 newestReq wPgwalk sPgwalk ∧ (List.range
    (iCount wPgwalk)).all (fun e => decide (headTrip sPgwalk.dev newestReq (kvRank sPgwalk.dev newestReq 4 + fld
    wPgwalk 65 64) (lowestPage sPgwalk.dev newestReq + fld wPgwalk 95 80 + e) = none)) = true ∧ (untilTrip (cmAccess
    sPgwalk.dev 4 newestReq true) (chunkOffs (64 * fld wPgwalk 111 96) (iCount wPgwalk))).2 = none := by
  unfold RunsWord RunsOn MoverFree; decide +kernel
def sPgwalkWiping : State := onFour {} (tagged 4096 .wipingClean ∘ paged [])
theorem witness_pgwalkWiping : RunsWord (run wPgwalk sPgwalkWiping) 4 runningToken newestReq wPgwalk ∧ pgwalkWord
    wPgwalk = true ∧ fld wPgwalk 65 64 < headsPerCell (run wPgwalk sPgwalkWiping).dev (dTenant newestReq.desc) ∧
    moverWipes 4 wPgwalk newestReq (run wPgwalk sPgwalkWiping).dev = true := by
  unfold RunsWord RunsOn; decide +kernel

def wFattWait : BitVec 128 := iw [(0, 96), (30, 1), (64, 63), (71, 1), (80, 16), (48, 16)]
def sFattWait : State := onFour { prog := [wFattWait], tq := [(1, (List.replicate 15 0x3F800000))] } withImages
theorem witness_fattWait : RunsWord sFattWait 4 runningToken newestReq wFattWait ∧ fattOk wFattWait newestReq
    sFattWait.dev = true ∧ (cellOf sFattWait.dev 4).vq = [] ∧ (cellOf sFattWait.dev 4).mq = [] ∧ entryFits wFattWait
    (cellOf sFattWait.dev 4) = true ∧ entryReady (cellOf sFattWait.dev 4) wFattWait = false := by
  unfold RunsWord RunsOn; decide +kernel
def sFatt : State := onFour { tq := [(1, (List.replicate 16 0x3F800000))] } withImages
theorem witness_fatt : RunsWord (run wFattWait sFatt) 4 runningToken newestReq wFattWait ∧ fattOk wFattWait
    newestReq (run wFattWait sFatt).dev = true ∧ (cellOf (run wFattWait sFatt).dev 4).vq = [] ∧ (cellOf (run
    wFattWait sFatt).dev 4).mq = [] ∧ entryReady (cellOf (run wFattWait sFatt).dev 4) wFattWait = true ∧ fFirst
    wFattWait = false ∧ vRows wFattWait = 1 := by
  unfold RunsWord RunsOn; decide +kernel
def wFattFirst : BitVec 128 := iw [(0, 96), (70, 1), (30, 1), (64, 63), (71, 1), (80, 16), (48, 16)]
theorem witness_fattFirst : RunsWord (run wFattFirst sFatt) 4 runningToken newestReq wFattFirst ∧ fattOk wFattFirst
    newestReq (run wFattFirst sFatt).dev = true ∧ (cellOf (run wFattFirst sFatt).dev 4).vq = [] ∧ (cellOf (run
    wFattFirst sFatt).dev 4).mq = [] ∧ entryReady (cellOf (run wFattFirst sFatt).dev 4) wFattFirst = true ∧ fFirst
    wFattFirst = true := by
  unfold RunsWord RunsOn; decide +kernel
def sFattUnfit : State := onFour { rows := [(63, { alphas := [1, 1, 1, 1] })] } withImages
theorem witness_fattUnfit : RunsWord (run wFattWait sFattUnfit) 4 runningToken newestReq wFattWait ∧ fattOk
    wFattWait newestReq (run wFattWait sFattUnfit).dev = true ∧ (cellOf (run wFattWait sFattUnfit).dev 4).vq = [] ∧
    (cellOf (run wFattWait sFattUnfit).dev 4).mq = [] ∧ entryFits wFattWait (cellOf (run wFattWait sFattUnfit).dev
    4) = false := by
  unfold RunsWord RunsOn; decide +kernel
def sFattQueued : State := onFour { rows := [(63, { alphas := [1, 1, 1, 1] })], vq := [{ word := iw [(0, 98), (8, 31), (64, 63), (71, 1), (80, 64), (48, 64)] }] } withImages
theorem witness_fattQueued : RunsWord (run wFattWait sFattQueued) 4 runningToken newestReq wFattWait ∧ fattOk
    wFattWait newestReq (run wFattWait sFattQueued).dev = true ∧ (cellOf (run wFattWait sFattQueued).dev 4).vq ≠ [] := by
  unfold RunsWord RunsOn; decide +kernel
def sFattFull : State := onFour { vq := List.replicate 8 { word := iw [(0, 98), (8, 31), (64, 63), (71, 1), (80, 64), (48, 64)] } } withImages
theorem witness_fattFull : RunsWord (run wFattWait sFattFull) 4 runningToken newestReq wFattWait ∧ fattOk wFattWait
    newestReq (run wFattWait sFattFull).dev = true ∧ 8 ≤ (cellOf (run wFattWait sFattFull).dev 4).vq.length := by
  unfold RunsWord RunsOn; decide +kernel
def wCorrWait : BitVec 128 := iw [(0, 98), (8, 31), (64, 63), (71, 1), (80, 64), (48, 64)]
def sCorrWait : State := onFour { prog := [wCorrWait], rows := [(63, { alphas := [0x3F800000] })] } withImages
theorem witness_corrWait : RunsWord sCorrWait 4 runningToken newestReq wCorrWait ∧ corrOk wCorrWait newestReq
    sCorrWait.dev = true ∧ (cellOf sCorrWait.dev 4).vq = [] ∧ (cellOf sCorrWait.dev 4).mq = [] ∧ entryFits wCorrWait
    (cellOf sCorrWait.dev 4) = true ∧ entryReady (cellOf sCorrWait.dev 4) wCorrWait = false := by
  unfold RunsWord RunsOn; decide +kernel
def sCorr : State := onFour { tq := [(1, (List.replicate 64 0x3F800000))], rows := [(63, { alphas := [0x3F800000] })] } withImages
theorem witness_corr : RunsWord (run wCorrWait sCorr) 4 runningToken newestReq wCorrWait ∧ corrOk wCorrWait
    newestReq (run wCorrWait sCorr).dev = true ∧ (cellOf (run wCorrWait sCorr).dev 4).vq = [] ∧ (cellOf (run
    wCorrWait sCorr).dev 4).mq = [] ∧ entryReady (cellOf (run wCorrWait sCorr).dev 4) wCorrWait = true ∧ iComp
    wCorrWait = false ∧ vTq wCorrWait ≠ 0 ∧ 63 < iCount wCorrWait := by
  unfold RunsWord RunsOn; decide +kernel
def sCorrUnfit : State := onFour { tq := [(1, (List.replicate 64 0x3F800000))] } withImages
theorem witness_corrUnfit : RunsWord (run wCorrWait sCorrUnfit) 4 runningToken newestReq wCorrWait ∧ corrOk
    wCorrWait newestReq (run wCorrWait sCorrUnfit).dev = true ∧ (cellOf (run wCorrWait sCorrUnfit).dev 4).vq = [] ∧
    (cellOf (run wCorrWait sCorrUnfit).dev 4).mq = [] ∧ entryFits wCorrWait (cellOf (run wCorrWait sCorrUnfit).dev
    4) = false := by
  unfold RunsWord RunsOn; decide +kernel
def wScore : BitVec 128 := iw [(0, 97), (74, 6), (80, 4), (96, 63), (112, 1), (48, 4)]
def sScore : State := onFour { prog := [wScore], tq := [(6, [1, 2, 3, 4])] } (windows ∘ withImages)
theorem witness_score : RunsWord sScore 4 runningToken newestReq wScore ∧ scoreOk wScore newestReq sScore.dev = true
    ∧ waitsWipe sScore.dev 4 newestReq (scoreOffs wScore) [] = false ∧ (cellOf sScore.dev 4).vq = [] ∧ (cellOf
    sScore.dev 4).mq = [] ∧ iCount wScore ≤ (tqWords (cellOf sScore.dev 4) (fEshift wScore)).length ∧ 4 * vRowLen
    wScore ≤ 64 * fld wScore 127 112 ∧ (untilTrip (cmAccess sScore.dev 4 newestReq true) (scoreOffs wScore)).2 =
    none := by
  unfold RunsWord RunsOn; decide +kernel
def sScoreWait : State := onFour { tq := [(6, [1, 2, 3])] } (windows ∘ withImages)
theorem witness_scoreWait : RunsWord (run wScore sScoreWait) 4 runningToken newestReq wScore ∧ scoreOk wScore
    newestReq (run wScore sScoreWait).dev = true ∧ waitsWipe (run wScore sScoreWait).dev 4 newestReq (scoreOffs
    wScore) [] = false ∧ (cellOf (run wScore sScoreWait).dev 4).vq = [] ∧ (cellOf (run wScore sScoreWait).dev 4).mq
    = [] ∧ entryReady (cellOf (run wScore sScoreWait).dev 4) wScore = false ∧ entryFits wScore (cellOf (run wScore
    sScoreWait).dev 4) = true := by
  unfold RunsWord RunsOn; decide +kernel
def sScoreWiping : State := onFour {} (tagged 4096 .wipingClean ∘ windows ∘ withImages)
theorem witness_scoreWiping : RunsWord (run wScore sScoreWiping) 4 runningToken newestReq wScore ∧ scoreOk wScore
    newestReq (run wScore sScoreWiping).dev = true ∧ waitsWipe (run wScore sScoreWiping).dev 4 newestReq (scoreOffs
    wScore) [] = true := by
  unfold RunsWord RunsOn; decide +kernel
def wGather : BitVec 128 := iw [(0, 99), (30, 1), (8, 7), (48, 16)]
def sGather : State := onFour { prog := [wGather] } id
theorem witness_gather : MoverFree 4 newestReq wGather sGather ∧ RunsWord sGather 4 runningToken newestReq wGather ∧ gatherOk wGather newestReq sGather.dev
    = true ∧ (List.range (iCount wGather)).all (fun e => decide (headTrip sGather.dev newestReq (kvRank sGather.dev
    newestReq 4 + scHead wGather) (scBoff wGather + e) = none)) = true := by
  unfold RunsWord RunsOn MoverFree; decide +kernel
def wList : BitVec 128 := iw [(0, 99), (64, 1), (13, 31), (48, 1)]
def sList : State := onFour { prog := [wList], regs := [(256 * 31, 3)], extra := [(0, 1)] } windows
theorem witness_list : RunsWord sList 4 runningToken newestReq wList ∧ listOk wList newestReq sList.dev = true ∧
    MoverFree 4 newestReq wList sList ∧ (lanes (cellOf sList.dev 4) (iSrcA wList) (iCount wList)).filterMap (fun v
    => if v = 0xFFFFFFFF then none else some v.toNat) = [3] ∧ ((cellOf sList.dev 4).extra.filter (fun e => e.1 =
    scHead wList)).map (·.2) = [1] ∧ headTrip sList.dev newestReq (kvRank sList.dev newestReq 4 + scHead wList) 3 =
    none ∧ headTrip sList.dev newestReq (kvRank sList.dev newestReq 4 + scHead wList) 1 = none ∧ (untilTrip
    (cmAccess sList.dev 4 newestReq true) (chunkOffs (64 * fld wList 121 106) 2)).2 = none := by
  unfold RunsWord RunsOn MoverFree; decide +kernel
def sListShort : State := onFour { regs := [(256 * 31, 0xFFFFFFFF)] } windows
theorem witness_listShort : RunsWord (run wList sListShort) 4 runningToken newestReq wList ∧ listOk wList newestReq
    (run wList sListShort).dev = true ∧ MoverFree 4 newestReq wList (run wList sListShort) ∧ (lanes (cellOf (run
    wList sListShort).dev 4) (iSrcA wList) (iCount wList)).filterMap (fun v => if v = 0xFFFFFFFF then none else some
    v.toNat) = [] ∧ (cellOf (run wList sListShort).dev 4).extra = [] ∧ (untilTrip (cmAccess (run wList
    sListShort).dev 4 newestReq true) (chunkOffs (64 * fld wList 121 106) 1)).2 = none := by
  unfold RunsWord RunsOn MoverFree; decide +kernel

/-- The running die with a change of its power state. -/
def sPow (f : Power → Power) (l : List (Nat × W32) := []) : State := sOf (fun d => put l { d with power := f d.power }) sRun
/-- Stack port 7 is up. -/
def sHbm (m : Tbl Nat) : State := sOf (fun d => put [(R.HBM_STATUS 7, 2)] { d with mem := { d.mem with hbmOut := m } }) sRun
theorem witness_droop : alive (sPow id).dev = true ∧ (sPow id).dev.power.stretching = false ∧ (sPow id).dev.power.leftPoint = none := by
  decide +kernel
theorem witness_droopDownStep : alive (sPow (fun p => { p with leftPoint := some 3, acked := false })).dev = true ∧ (sPow (fun p => { p with leftPoint := some 3, acked := false })).dev.power.stretching = false ∧
    (sPow (fun p => { p with leftPoint := some 3, acked := false })).dev.power.leftPoint = some 3 ∧ (sPow (fun p => { p with leftPoint := some 3, acked := false })).dev.power.acked = false := by
  decide +kernel
theorem witness_droopAgain : alive (sPow (fun p => { p with stretching := true }) [(R.PWR_DROOP_CFG, 0x100000)]).dev = true ∧ (sPow (fun p => { p with stretching := true }) [(R.PWR_DROOP_CFG, 0x100000)]).dev.power.stretching = true := by
  decide +kernel
theorem witness_stretchShort : alive (sPow (fun p => { p with stretching := true }) [(R.PWR_DROOP_CFG, 0x100000)]).dev = true ∧ (sPow (fun p => { p with stretching := true }) [(R.PWR_DROOP_CFG, 0x100000)]).dev.power.stretching = true ∧
    15 < regFld (sPow (fun p => { p with stretching := true }) [(R.PWR_DROOP_CFG, 0x100000)]).dev R.PWR_DROOP_CFG 27 16 := by
  decide +kernel
theorem witness_stretchEnd : alive (sPow (fun p => { p with stretching := true }) [(R.PWR_DROOP_CFG, 0x100000)]).dev = true ∧ (sPow (fun p => { p with stretching := true }) [(R.PWR_DROOP_CFG, 0x100000)]).dev.power.stretching = true ∧
    regFld (sPow (fun p => { p with stretching := true }) [(R.PWR_DROOP_CFG, 0x100000)]).dev R.PWR_DROOP_CFG 27 16 ≤ 16 := by
  decide +kernel
theorem witness_arrayHalt : alive (sPow id).dev = true ∧ (sPow id).dev.power.halted = false := by
  decide +kernel
theorem witness_haltHeld : alive (sPow (fun p => { p with halted := true, droopFlag := true })).dev = true ∧ (sPow (fun p => { p with halted := true, droopFlag := true })).dev.power.halted = true ∧ (sPow (fun p => { p with halted := true, droopFlag := true })).dev.power.droopFlag = true := by
  decide +kernel
theorem witness_haltEnd : alive (sPow (fun p => { p with halted := true, droopClear := 5 })).dev = true ∧ (sPow (fun p => { p with halted := true, droopClear := 5 })).dev.power.halted = true ∧ (sPow (fun p => { p with halted := true, droopClear := 5 })).dev.power.droopFlag = false ∧
    (sPow (fun p => { p with halted := true, droopClear := 5 })).dev.power.droopClear ≠ 0 := by
  decide +kernel
theorem witness_hbmNotReady : alive sRun.dev = true ∧ cellClocked sRun.dev 63 = true ∧ hbmPort 7168 = 7 ∧ hbmReady sRun.dev (hbmPort 7168) = false ∧
    (7168 : Nat) / 1024 % 8 = 7 := by
  decide +kernel
theorem witness_hbmBeyondStacks : alive (sHbm []).dev = true ∧ cellClocked (sHbm []).dev 63 = true ∧ hbmPort 0x4000001C00 = 7 ∧ hbmReady (sHbm []).dev (hbmPort 0x4000001C00) = true ∧
    hbmCapacity (sHbm []).dev ≤ 0x4000001C00 := by
  decide +kernel
theorem witness_hbmTaken : alive (sHbm []).dev = true ∧ cellClocked (sHbm []).dev 63 = true ∧ hbmPort 7168 = 7 ∧ hbmReady (sHbm []).dev (hbmPort 7168) = true ∧
    7168 < hbmCapacity (sHbm []).dev ∧ tblGet 0 (sHbm []).dev.mem.hbmOut (hbmOutKey 63 7 true) + burstsOf 32768 ≤ 32 := by
  decide +kernel
theorem witness_hbmBeyond : alive (sHbm []).dev = true ∧ cellClocked (sHbm []).dev 63 = true ∧ hbmPort 7168 = 7 ∧ hbmReady (sHbm []).dev (hbmPort 7168) = true ∧
    7168 < hbmCapacity (sHbm []).dev ∧ 32 < tblGet 0 (sHbm []).dev.mem.hbmOut (hbmOutKey 63 7 true) + burstsOf 32769 := by
  decide +kernel
theorem witness_hbmReadTaken : alive (sHbm []).dev = true ∧ cellClocked (sHbm []).dev 63 = true ∧ hbmPort 0x2FFFFFFC00 = 7 ∧ hbmReady (sHbm []).dev (hbmPort 0x2FFFFFFC00) = true ∧
    0x2FFFFFFC00 < hbmCapacity (sHbm []).dev ∧ tblGet 0 (sHbm []).dev.mem.hbmOut (hbmOutKey 63 7 false) + burstsOf 65536 ≤ 64 := by
  decide +kernel
theorem witness_hbmDelivered : alive (sHbm [(1022, 1)]).dev = true ∧ cellClocked (sHbm [(1022, 1)]).dev 63 = true ∧ hbmPort 7168 = 7 ∧ hbmReady (sHbm [(1022, 1)]).dev (hbmPort 7168) = true ∧
    7168 < hbmCapacity (sHbm [(1022, 1)]).dev ∧ burstsOf 1 ≤ tblGet 0 (sHbm [(1022, 1)]).dev.mem.hbmOut (hbmOutKey 63 7 false) := by
  decide +kernel
theorem witness_hbmNotOut : alive (sHbm []).dev = true ∧ cellClocked (sHbm []).dev 63 = true ∧ hbmPort 7168 = 7 ∧ hbmReady (sHbm []).dev (hbmPort 7168) = true ∧
    7168 < hbmCapacity (sHbm []).dev ∧ tblGet 0 (sHbm []).dev.mem.hbmOut (hbmOutKey 63 7 false) < burstsOf 1 := by
  decide +kernel
theorem witness_hbmRefresh : powered (sHbm []).dev = true ∧ powerState (sHbm []).dev ≠ 3 ∧ hbmReady (sHbm []).dev 7 = true := by
  decide +kernel
/-- The same on a stopped die. -/
def sHbmStopped : State := sOf (fun d => { d with guard := sStopped.dev.guard }) (sHbm [])
theorem witness_hbmDeliveredStopped : portsRun sHbmStopped.dev = true ∧ alive sHbmStopped.dev = false ∧
    hbmReady sHbmStopped.dev (hbmPort 7168) = true ∧ 7168 < hbmCapacity sHbmStopped.dev ∧
    (∀ i, i < 8 → (wSlot sHbmStopped.dev i).resend = []) := by
  decide +kernel
theorem witness_hbmRefreshStopped : powered sHbmStopped.dev = true ∧ powerState sHbmStopped.dev ≠ 3 ∧
    hbmReady sHbmStopped.dev 7 = true ∧ alive sHbmStopped.dev = false := by
  decide +kernel

theorem witness_voltageAck : alive (sPow (fun p => { p with reqMv := 640, acked := false })).dev = true ∧ (sPow (fun p => { p with reqMv := 640, acked := false })).dev.power.acked = false ∧
    650 ≤ (sPow (fun p => { p with reqMv := 640, acked := false })).dev.power.reqMv + 10 ∧ (sPow (fun p => { p with reqMv := 640, acked := false })).dev.power.reqMv ≤ 650 + 10 := by
  decide +kernel
theorem witness_voltageFar : alive (sPow (fun p => { p with reqMv := 640, acked := false })).dev = true ∧ (sPow (fun p => { p with reqMv := 640, acked := false })).dev.power.acked = false ∧
    ¬ (651 ≤ (sPow (fun p => { p with reqMv := 640, acked := false })).dev.power.reqMv + 10) := by
  decide +kernel
theorem witness_ackTimeout : alive (sPow (fun p => { p with reqMv := 640, acked := false })).dev = true ∧ (sPow (fun p => { p with reqMv := 640, acked := false })).dev.power.acked = false ∧ (sPow (fun p => { p with reqMv := 640, acked := false })).dev.power.ackMissed = false := by
  decide +kernel
theorem witness_ackMissed : alive (sPow (fun p => { p with ackMissed := true })).dev = true ∧ (sPow (fun p => { p with ackMissed := true })).dev.power.ackMissed = true := by
  decide +kernel
theorem witness_pmAlert : alive sRun.dev = true ∧ regulatorFault sRun.dev 3 0x0008 true = true ∧
    regulatorFault sRun.dev 3 0 false = true ∧ regulatorFault (sPow id [(R.PWR_RMAP 1, 9)]).dev 1 0x0800 true = true ∧
    regulatorFault (sPow id [(R.PWR_RMAP 1, 6)]).dev 1 0x0800 true = false ∧
    regulatorFault sRun.dev 3 0x2000 true = false ∧ statusWarn 0x2000 = true ∧
    regulatorFault sRun.dev 3 0 true = false ∧ statusWarn 0 = false := by
  decide +kernel
theorem witness_powerSample : alive (sPow id [(R.PWR_RMAP 1, 9)]).dev = true ∧
    (List.range 16).find? (rmapCore (sPow id [(R.PWR_RMAP 1, 9)]).dev) = some 1 := by
  decide +kernel
theorem witness_thermTrip : alive sRun.dev = true ∧ sRun.dev.die.thermTripLow = false ∧ (920#12).toNat = 920 := by
  decide +kernel
theorem witness_clockLoss : alive sRun.dev = true ∧ locked sRun.dev = true := by
  decide +kernel
theorem witness_clockLossUnlocked : alive (sStage 4).dev = true ∧ locked (sStage 4).dev = false := by
  decide +kernel

/-- The running die in a drain phase with an attempt to enter a low-power state. -/
def sTry (a : Attempt) : State := sOf (fun d => { d with power := { d.power with attempt := some a } }) sDrain
/-- A die in Winter with wake comparators set, and one on its way out of a low-power state. -/
def sSleep (cfg : W32) : State := sOf (put [(R.WIN_WAKE_CFG, cfg), (R.WIN_WAKE_TIME_LO, 1000100)]) sWinter
def sRestore (st : W32) (l : List Nat) : State := sPow (fun p => { p with restore := l }) [(R.PWR_STATE, st)]
theorem witness_entryAsk : alive (sTry { target := 1, due := true }).dev = true ∧
    (sTry { target := 1, due := true }).dev.power.attempt = some { target := 1, due := true } ∧
    inDrain (sTry { target := 1, due := true }).dev = true := by
  decide +kernel
theorem witness_entryNoAsk : alive (sTry { target := 1, step := 1 }).dev = true ∧ (sTry { target := 1, step := 1 }).dev.power.attempt = some { target := 1, step := 1 } ∧
    (inDrain (sTry { target := 1, step := 1 }).dev = false ∨ ({ target := 1, step := 1 } : Attempt).step ≠ 0) := by
  decide +kernel
theorem witness_entryIdle : alive (sTry { target := 1, step := 1 }).dev = true ∧ (sTry { target := 1, step := 1 }).dev.power.attempt = some { target := 1, step := 1 } ∧
    1 ≤ ({ target := 1, step := 1 } : Attempt).step ∧ ({ target := 1, step := 1 } : Attempt).wake = none := by
  decide +kernel
theorem witness_entryDozeLast : alive (sTry { target := 2, step := 2 }).dev = true ∧ (sTry { target := 2, step := 2 }).dev.power.attempt = some { target := 2, step := 2 } ∧
    1 ≤ ({ target := 2, step := 2 } : Attempt).step ∧ ({ target := 2, step := 2 } : Attempt).wake = none := by
  decide +kernel
theorem witness_winterImage : alive (sTry { target := 3, step := 2 }).dev = true ∧ (sTry { target := 3, step := 2 }).dev.power.attempt = some { target := 3, step := 2 } ∧
    1 ≤ ({ target := 3, step := 2 } : Attempt).step ∧ ({ target := 3, step := 2 } : Attempt).wake = none ∧
    (sTry { target := 3, step := 2 }).dev.mem.imageAt = none ∧
    imageBase (sTry { target := 3, step := 2 }).dev + 0x22000000 ≤ 0x40000000 := by
  decide +kernel
theorem witness_entryWinter : alive (sTry { target := 3, step := 3 }).dev = true ∧ (sTry { target := 3, step := 3 }).dev.power.attempt = some { target := 3, step := 3 } ∧
    1 ≤ ({ target := 3, step := 3 } : Attempt).step ∧ ({ target := 3, step := 3 } : Attempt).wake = none := by
  decide +kernel
theorem witness_entryDoze : alive (sTry { target := 2, step := 1 }).dev = true ∧ (sTry { target := 2, step := 1 }).dev.power.attempt = some { target := 2, step := 1 } ∧
    banksSettled (sTry { target := 2, step := 1 }).dev = true := by
  decide +kernel
theorem witness_entryAbort : alive (sTry { target := 2, step := 1, wake := some 4 }).dev = true ∧ (sTry { target := 2, step := 1, wake := some 4 }).dev.power.attempt = some { target := 2, step := 1, wake := some 4 } ∧
    1 ≤ ({ target := 2, step := 1, wake := some 4 } : Attempt).step := by
  decide +kernel
/-- The same with a comparator of Winter met on the way. -/
def sMet : State := sOf (put [(R.WIN_WAKE_CFG, 7), (R.WIN_WAKE_TIME_LO, 1000100)]) (sTry { target := 3, step := 1 })
theorem witness_wakeOnEntry : alive sMet.dev = true ∧ sMet.dev.power.attempt = some { target := 3, step := 1 } ∧
    bit (getReg sMet.dev R.WIN_WAKE_CFG) 0 = true ∧ bit (getReg sMet.dev R.WIN_WAKE_CFG) 1 = true ∧
    bit (getReg sMet.dev R.WIN_WAKE_CFG) 2 = true ∧
    sMet.dev.tick.time ≤ getReg64 sMet.dev R.WIN_WAKE_TIME_LO R.WIN_WAKE_TIME_HI := by
  decide +kernel
theorem witness_wakeTime : asleep (sSleep 1).dev = true ∧ bit (getReg (sSleep 1).dev R.WIN_WAKE_CFG) 0 = true ∧
    (sSleep 1).dev.tick.time ≤ getReg64 (sSleep 1).dev R.WIN_WAKE_TIME_LO R.WIN_WAKE_TIME_HI := by
  decide +kernel
theorem witness_wakePins : asleep (sSleep 6).dev = true ∧ bit (getReg (sSleep 6).dev R.WIN_WAKE_CFG) 1 = true ∧
    bit (getReg (sSleep 6).dev R.WIN_WAKE_CFG) 2 = true := by
  decide +kernel
theorem witness_wakeNone : asleep (sSleep 0).dev = true ∧ getReg (sSleep 0).dev R.WIN_WAKE_CFG = 0 := by
  decide +kernel
theorem witness_wakeFrom1 : alive (sPow (fun p => { p with pendingWake := some 8 }) [(R.PWR_STATE, 1)]).dev = true ∧
    (sPow (fun p => { p with pendingWake := some 8 }) [(R.PWR_STATE, 1)]).dev.power.restore = [] ∧ (sPow (fun p => { p with pendingWake := some 8 }) [(R.PWR_STATE, 1)]).dev.power.pendingWake = some (8 : Fin 9).val ∧ powerState (sPow (fun p => { p with pendingWake := some 8 }) [(R.PWR_STATE, 1)]).dev = 1 := by
  decide +kernel
theorem witness_wakeFrom2 : alive (sPow (fun p => { p with pendingWake := some 8 }) [(R.PWR_STATE, 2)]).dev = true ∧
    (sPow (fun p => { p with pendingWake := some 8 }) [(R.PWR_STATE, 2)]).dev.power.restore = [] ∧ (sPow (fun p => { p with pendingWake := some 8 }) [(R.PWR_STATE, 2)]).dev.power.pendingWake = some (8 : Fin 9).val ∧ powerState (sPow (fun p => { p with pendingWake := some 8 }) [(R.PWR_STATE, 2)]).dev = 2 := by
  decide +kernel
theorem witness_restoreMore : powered (sRestore 2 [1, 2]).dev = true ∧ (sRestore 2 [1, 2]).dev.guard.stopped = false ∧ (sRestore 2 [1, 2]).dev.power.restore = [1, 2] ∧
    powerState (sRestore 2 [1, 2]).dev = 2 := by
  decide +kernel
theorem witness_restoreLast : powered (sRestore 3 [15]).dev = true ∧ (sRestore 3 [15]).dev.guard.stopped = false ∧ (sRestore 3 [15]).dev.power.restore = [15] ∧
    powerState (sRestore 3 [15]).dev = 3 := by
  decide +kernel

theorem witness_queues : sRun.pending = [] ∧ sRun.dev.die.porstLow = false ∧ State.reset.pending = [] := by
  decide +kernel

theorem witness_stopped : sStopped.dev.guard.stopped = true ∧ sStopped.dev.guard.fatal.isSome = true := by decide +kernel

theorem witness_canonical : MemCanonical sRun ∧ ∃ t, step sRun = .next t :=
  ⟨by show memWf _ = true; decide +kernel, _, rfl⟩

/-! ### Ill-formed commands -/

/-- A word that no check passes: a known opcode with COUNT 0. -/
def badWord : BitVec 128 := 0
theorem test_ill_wrst : wellFormed (.wrst 999) = false := by decide
theorem test_ill_stageImage : wellFormed (.stageImage 0 { sfdp := true, capacity := 0, slots := List.replicate 5 [] } none) = false := by decide
theorem test_ill_stageWinter : wellFormed (.stageWinter 0 [] true) = false := by decide
theorem test_ill_stageD2d : wellFormed (.stageD2d 0 [{ port := 4, width := 0, hello := none }]) = false := by decide
theorem test_ill_stageSpine : wellFormed (.stageSpine 0 [{ port := 3, width := 0, hello := none }]) = false := by decide
theorem test_ill_bringupFailLow : wellFormed (.bringupFail 0 0) = false := by decide
theorem test_ill_bringupFailHigh : wellFormed (.bringupFail 12 0) = false := by decide
theorem test_ill_workerJoin : wellFormed (.workerJoin 0 (hostFrame 0xFF 0 0 [])) = false := by decide
theorem test_ill_admitFrame : wellFormed (.admitFrame 0 (hostFrame 0xFF 0 0 [])) = false := by decide
theorem test_ill_input : wellFormed (.input 0 (hostFrame 0xFF 0 0 [])) = false := by decide
theorem test_ill_expbuf : wellFormed (.expbuf 0 (hostFrame 0xFF 0 0 [])) = false := by decide
theorem test_ill_syncWait : wellFormed (.syncWait 0 (hostFrame 0xFF 0 0 [])) = false := by decide
theorem test_ill_hello : wellFormed (.hello 0 (hostFrame 0xFF 0 0 [])) = false := by decide
theorem test_ill_echo : wellFormed (.echo 0 (hostFrame 0xFF 0 0 [])) = false := by decide
theorem test_ill_beacon : wellFormed (.beacon 0 (hostFrame 0xFF 0 0 [])) = false := by decide
theorem test_ill_report : wellFormed (.report 0 (hostFrame 0xFF 0 0 [])) = false := by decide
theorem test_ill_regRd : wellFormed (.regRd 0 (hostFrame 0xFF 0 0 [])) = false := by decide
theorem test_ill_regWr : wellFormed (.regWr 0 (hostFrame 0xFF 0 0 [])) = false := by decide
theorem test_ill_memRd : wellFormed (.memRd 0 (hostFrame 0xFF 0 0 [])) = false := by decide
theorem test_ill_memWr : wellFormed (.memWr 0 (hostFrame 0xFF 0 0 [])) = false := by decide
theorem test_ill_pwrFrame : wellFormed (.pwrFrame 0 (hostFrame 0xFF 0 0 [])) = false := by decide
theorem test_ill_wchunk : wellFormed (.wchunk 0 (hostFrame 0xFF 0 0 [])) = false := by decide
theorem test_ill_wack : wellFormed (.wack 0 (hostFrame 0xFF 0 0 [])) = false := by decide
theorem test_ill_wnack : wellFormed (.wnack 0 (hostFrame 0xFF 0 0 [])) = false := by decide
theorem test_ill_wfail : wellFormed (.wfail 0 (hostFrame 0xFF 0 0 [])) = false := by decide
theorem test_ill_pwrAnswer : wellFormed (.pwrAnswer 0 (hostFrame 0xFF 0 0 [])) = false := by decide
theorem test_ill_registerWriteSize : wellFormed (.registerWrite .keeper 0 2 0) = false := by decide
theorem test_ill_registerWriteOffset : wellFormed (.registerWrite .keeper 2 4 0) = false := by decide
theorem test_ill_i3cPrivateWrite : wellFormed (.i3cPrivateWrite (zeroBytes 5)) = false := by decide
theorem test_ill_loadFail : wellFormed (.loadFail 0 0) = false := by decide
theorem test_ill_rngEnable : wellFormed (.rngEnable .keeper 0 2) = false := by decide
theorem test_ill_rngDisable : wellFormed (.rngDisable .keeper 0 1) = false := by decide
theorem test_ill_tcxWrite : wellFormed (.tcxWrite .keeper 0 2 0) = false := by decide
theorem test_ill_entCreditScaleWrite : wellFormed (.entCreditScaleWrite .keeper 0 0) = false := by decide
theorem test_ill_nop : wellFormed (.nop 0 badWord) = false := by decide
theorem test_ill_hint : wellFormed (.hint 0 badWord) = false := by decide
theorem test_ill_bar : wellFormed (.bar 0 badWord) = false := by decide
theorem test_ill_loopInstr : wellFormed (.loopInstr 0 badWord) = false := by decide
theorem test_ill_endTok : wellFormed (.endTok 0 badWord) = false := by decide
theorem test_ill_lds : wellFormed (.lds 0 badWord) = false := by decide
theorem test_ill_nectLoad : wellFormed (.nectLoad 0 badWord) = false := by decide
theorem test_ill_nectDot : wellFormed (.nectDot 0 badWord) = false := by decide
theorem test_ill_nectAcc : wellFormed (.nectAcc 0 badWord) = false := by decide
theorem test_ill_nectRead : wellFormed (.nectRead 0 badWord) = false := by decide
theorem test_ill_accrd : wellFormed (.accrd 0 badWord) = false := by decide
theorem test_ill_accwr : wellFormed (.accwr 0 badWord) = false := by decide
theorem test_ill_accxRead : wellFormed (.accxRead 0 badWord) = false := by decide
theorem test_ill_accxWrite : wellFormed (.accxWrite 0 badWord) = false := by decide
theorem test_ill_accxClear : wellFormed (.accxClear 0 badWord) = false := by decide
theorem test_ill_topk : wellFormed (.topk 0 badWord) = false := by decide
theorem test_ill_vop : wellFormed (.vop 0 badWord) = false := by decide
theorem test_ill_lookup : wellFormed (.lookup 0 badWord) = false := by decide
theorem test_ill_epoch : wellFormed (.epoch 0 badWord) = false := by decide
theorem test_ill_vbcast : wellFormed (.vbcast 0 badWord) = false := by decide
theorem test_ill_vmask : wellFormed (.vmask 0 badWord) = false := by decide
theorem test_ill_vcvt : wellFormed (.vcvt 0 badWord) = false := by decide
theorem test_ill_vred : wellFormed (.vred 0 badWord) = false := by decide
theorem test_ill_rowstat : wellFormed (.rowstat 0 badWord) = false := by decide
theorem test_ill_rmsstat : wellFormed (.rmsstat 0 badWord) = false := by decide
theorem test_ill_sfu : wellFormed (.sfu 0 badWord) = false := by decide
theorem test_ill_mov : wellFormed (.mov 0 badWord) = false := by decide
theorem test_ill_ldt : wellFormed (.ldt 0 badWord) = false := by decide
theorem test_ill_stt : wellFormed (.stt 0 badWord) = false := by decide
theorem test_ill_appendStage : wellFormed (.appendStage 0 badWord) = false := by decide
theorem test_ill_appendPage : wellFormed (.appendPage 0 badWord) = false := by decide
theorem test_ill_pgwalk : wellFormed (.pgwalk 0 badWord) = false := by decide
theorem test_ill_fatt : wellFormed (.fatt 0 badWord) = false := by decide
theorem test_ill_score : wellFormed (.score 0 badWord) = false := by decide
theorem test_ill_corr : wellFormed (.corr 0 badWord) = false := by decide
theorem test_ill_scoutGather : wellFormed (.scoutGather 0 badWord) = false := by decide
theorem test_ill_scoutList : wellFormed (.scoutList 0 badWord) = false := by decide
theorem test_ill_mmr : wellFormed (.mmr 0 badWord none) = false := by decide
theorem test_ill_mmc : wellFormed (.mmc 0 badWord none) = false := by decide
theorem test_ill_dist : wellFormed (.dist 0 badWord none) = false := by decide
theorem test_ill_cmpx : wellFormed (.cmpx 0 badWord none) = false := by decide
theorem test_ill_vprog : wellFormed (.vprog 0 badWord []) = false := by decide
theorem test_ill_reservedOpcode : wellFormed (.reservedOpcode 0 badWord) = false := by decide
theorem test_ill_errorReport : wellFormed (.errorReport { code := 0, unit := 0, addr := 0, tenant := none, seq := none, req := 0, info := 0 }) = false := by decide
theorem test_ill_linkRetrainPending : wellFormed (.linkRetrainPending 3 8 0) = false := by decide
theorem test_ill_spineResend : wellFormed (.spineResend 3 0 0 0) = false := by decide
theorem test_ill_keeperLoRead : wellFormed (.keeperLoRead { off := 1, size := 3 }) = false := by decide

/-! ### Small tests: what each expects is written out from the spec -/

/-- A command's next state satisfies a test. -/
def after (i : Instr) (s : State) (p : State → Bool) : Bool :=
  match exec i s with
  | .next t => p t
  | _ => false

/-- No word spells a command: the table gives its rows no bits. -/
theorem test_decode_none : decodeTableWord 0 0 = none := rfl
theorem test_fetch_word_keeps (s : State) (n w : Nat) : s.withFetchWord n w = s := rfl
/-- 00, Address map: the registers of cell[12] start at 0x20C000. -/
theorem test_cell_registers : R.CEL_BANK_CTL 12 - R.CEL_BANK_CTL 0 = 12 * 0x1000 := by decide
/-- 05, example: one row in three orders. -/
theorem test_tree_example : tree ((List.replicate 60 (vZero false)) ++ [vMul (vInt 4096) (vInt 4096), vInt 1,
    vMul (vInt (-4096)) (vInt 4096), vMul (f32 0x3A800000) (f32 0x3A800000)]) = 0x3F800000 := by decide +kernel
/-- 06, example: M = 2^100 gives k = 100 and r_m = 1, for any number of equal elements. -/
theorem test_rms_example : rmsFinal ((List.replicate 16 0x71800000).foldl rmsAdd {}) 0x35800000 = (0x3F800000, 100) := by
  decide +kernel
/-- 07, example: SMEXP(-2) = 0.25 and RCP(2) = 0.5, exactly (R157). -/
theorem test_smexp_exact : smexp false 0xC0000000 = 0x3E800000 := by decide +kernel
theorem test_rcp_exact : rcp 0x40000000 = 0x3F000000 := by decide +kernel
/-- 07, Table 07-6: y = 3.25 is 0x4050 in BF16. -/
theorem test_cast_bf16 : (castTo 1 .rne (f32 0x40500000)).1 = 0x4050 := by decide +kernel
/-- 07, Table 07-6: what FATT takes from the chain of the example. -/
def exampleIn (first : Nat) : FattIn := { (fattIn 0 newestReq {} dRun 0) with
  c := 0x3E800000, exp := smexp false, fmt := 1, rnd := fun _ => .rne, comp := true, kpos := first }
/-- Scores of a block: one at the listed places, -1,000 elsewhere. -/
def exampleScores (v : W32) (at' : List Nat) : List (W32 × Bool) :=
  (List.range 16).map (fun j => (if j ∈ at' then v else 0xC47A0000, true))
/-- Row state after block 0: m = 8, l = 4, α = 1. -/
theorem test_fatt_block0 : (fattRow (exampleIn 0) {} (exampleScores 0x41000000 [2, 5, 9, 12])).1 =
    { m := 0x41000000, ls := 0x40800000, alphas := [0x3F800000] } := by decide +kernel
/-- Row state after block 1: m = 16, l = 2, α = 0.25. -/
theorem test_fatt_block1 : (fattRow (exampleIn 16) { m := 0x41000000, ls := 0x40800000 }
    (exampleScores 0x41800000 [15])).1 = { m := 0x41800000, ls := 0x40000000, alphas := [0x3E800000] } := by decide +kernel
/-- 00, Table 00-2: the voltages of the four points. -/
theorem test_point_voltages : (List.range 4).map pointMv = [800, 720, 630, 550] := by decide
/-- 13 R352: PWR_BOOST is clamped to 40. -/
theorem test_boost_clamped : after (.pwrBoostWrite .keeper 50) sRun (fun t => decide (getReg t.dev R.PWR_BOOST = 40)) = true := by
  decide +kernel
/-- 02 R58: a larger credit scale stores 256. -/
theorem test_scale_clamped : after (.entCreditScaleWrite .keeper (BitVec.ofNat 24 R.ENT_CREDIT_SCALE) 300) sDrain
    (fun t => decide (getReg t.dev R.ENT_CREDIT_SCALE = 256)) = true := by decide +kernel
/-- 03 R77: SYN_ADD adds modulo 2^32. -/
theorem test_sync_add_wraps : after (.synAddWrite .keeper 9 3) (sOf (put [(R.SYN_VALUE 9, 0xFFFFFFFF)]) sRun)
    (fun t => decide (getReg t.dev (R.SYN_VALUE 9) = 2)) = true := by decide +kernel
/-- 14 R361, R363: a rise of PORST_N shows cause 1 and stage WINTER. -/
theorem test_porst : after (.porst 3) State.reset (fun t => decide (getReg t.dev R.ID_RESET_CAUSE = 1) &&
    decide (getReg t.dev R.LNK_I3C_ADDR = 0x5B) && decide (bootStage t.dev = 1)) = true := by decide +kernel
/-- 13 R347: an array halt is counted. -/
theorem test_halt_counted : after .arrayHalt sRun (fun t => decide (getReg t.dev R.PWR_HALT_CNT = 1)) = true := by
  decide +kernel
/-- 15 R379, 05 R130: a corrected accumulator word is counted by the guard and the cell, and makes no record. -/
theorem test_corrected_word : after (.errorReport { mkReport 0x21 63 with corrected := true, place := .accumulator }) sRun
    (fun t => decide (getReg t.dev R.GRD_CORR_CNT = 1) && decide (getReg t.dev (R.CEL_ACC_ECC_CNT 63) = 1) &&
      decide (t.dev.guard.queue = [])) = true := by decide +kernel
/-- 05 R130: an uncorrectable one is counted in the high half, and recorded. -/
theorem test_uncorrectable_word : after (.errorReport { mkReport 0x21 63 with place := .accumulator }) sRun
    (fun t => decide (getReg t.dev (R.CEL_ACC_ECC_CNT 63) = 0x10000) && decide (t.dev.guard.queue.length = 1)) = true := by
  decide +kernel
/-- 03 R86: a body of one instruction that starts at word 1 passes twice. -/
theorem test_loop_counts : loopStep 2 [{ start := 1, len := 1, left := 2 }] = (1, [{ start := 1, len := 1, left := 1 }]) ∧
    loopStep 2 [{ start := 1, len := 1, left := 1 }] = (2, []) := by decide
/-- 03 R86: at the end of the body the cell comes to its first instruction again. -/
theorem test_loop_again : after (.nop 4 0x1000000000000) (onFour
    { prog := [0, 0x1000000000000], pc := 1, loops := [{ start := 1, len := 1, left := 2 }] } id) (fun t => decide ((cellOf t.dev 4).pc = 1)) = true := by decide +kernel
/-- 06, LOOKUP: an index above 8,191 is a miss. -/
theorem test_lookup_miss : lutEntry { lut0 := [(8191, 5)], lut1 := [] } 8192 = none := by decide +kernel
/-- 05, R131: ACCX read returns 0 for an invalid word. -/
theorem test_accx_invalid : after (.accxRead 0 (iw [(0, 0x22), (48, 1)])) (sOf (fun d => { d with
    cells := [(0, { regs := [(0, 7)] })] }) sRun) (fun t => decide (lane (cellOf t.dev 0) 0 0 = 0)) = true := by decide +kernel
/-! ### The ciphers and the digest against published vectors -/

/-- Bytes written as one hexadecimal number. -/
def hex (n v : Nat) : List Nat := Crypto.beBytes n v
/-- FIPS 197, C.3. -/
theorem test_aes : Crypto.encBlock (Crypto.roundKeys (List.range 32)) (hex 16 0x00112233445566778899AABBCCDDEEFF) =
    hex 16 0x8EA2B7CA516745BFEAFC49904B496089 := by decide +kernel
/-- FIPS 180-4, SHA-384 of abc. -/
theorem test_sha384 : Crypto.sha384 [0x61, 0x62, 0x63] =
    hex 48 0xCB00753F45A35E8BB5A03D699AC65007272C32AB0EDED1631A8B605A43FF5BED8086072BA1E7CC2358BAECA134C825A7 := by
  decide +kernel
/-- The GCM specification, test case 14: AES-256, a zero key, IV and block. -/
theorem test_gcm : Crypto.gcmOpen (List.replicate 32 0) (List.replicate 12 0) []
    (hex 32 0xCEA7403D4D606B6E074EC5D3BAF39D18D0D1C8A799996BF0265B98B5D48AB919) = some (List.replicate 16 0) := by
  decide +kernel
/-- IEEE 1619, vector 10: the first 64 bytes. -/
theorem test_xts : Crypto.xtsUnit false (hex 64 0x27182818284590452353602874713526624977572470936999595749669676273141592653589793238462643383279502884197169399375105820974944592)
    0xFF (List.range 64) =
    hex 64 0x1C3B3A102F770386E4836C99E370CF9BEA00803F5E482357A4AE12D414A3E63B5D31E276F8FE4A8D66B317F9AC683F44680A86AC35ADFC3345BEFECB4BB188FD := by
  decide +kernel
/-- RFC 6979, A.2.6: P-384, SHA-384, message "sample"; a signature with one bit changed does not verify. -/
theorem test_ecdsa : Crypto.ecdsaVerify (hex 96 0xec3a4e415b4e19a4568618029f427fa5da9a8bc4ae92e02e06aae5286b300c64def8f0ea9055866064a254515480bc138015d9b72d7d57244ea8ef9ac0c621896708a59367f9dfb9f54ca84b3f1c9db1288b231c3ae0d4fe7344fd2533264720)
    (Crypto.sha384 [0x73, 0x61, 0x6d, 0x70, 0x6c, 0x65])
    (hex 96 0x94edbb92a5ecb8aad4736e56c691916b3f88140666ce9fa73d64c4ea95ad133c81a648152e44acf96e36dd1e80fabe4699ef4aeb15f178cea1fe40db2603138f130e740a19624526203b6351d0a3a94fa329c145786e679e7b82c71a38628ac8) = true := by
  decide +kernel
theorem test_ecdsa_changed : Crypto.ecdsaVerify (hex 96 0xec3a4e415b4e19a4568618029f427fa5da9a8bc4ae92e02e06aae5286b300c64def8f0ea9055866064a254515480bc138015d9b72d7d57244ea8ef9ac0c621896708a59367f9dfb9f54ca84b3f1c9db1288b231c3ae0d4fe7344fd2533264720)
    (Crypto.sha384 [0x73, 0x61, 0x6d, 0x70, 0x6c, 0x65])
    (hex 96 0x94edbb92a5ecb8aad4736e56c691916b3f88140666ce9fa73d64c4ea95ad133c81a648152e44acf96e36dd1e80fabe4699ef4aeb15f178cea1fe40db2603138f130e740a19624526203b6351d0a3a94fa329c145786e679e7b82c71a38628ac9) = false := by
  decide +kernel
/-- A key of 96 bytes wrapped by OpenSSL (id-aes256-wrap-pad). -/
theorem test_kwp : Crypto.keyUnwrap (List.range 32) (hex 104 0xf7e984053c218edd854f353267e5112bde4a6f478987c849725f7524416ca07587371ec33eef14e5e07e5a339e08182fce921ae0eb2ba4838726baec38143b6a683077baef6a98e9377894dcc43985f17b9c9afe0ad9a147d030df2389a625ebb02ce063fce54f65) =
    some ((List.range 96).map (fun i => (7 * i + 1) % 256)) := by decide +kernel

/-- An empty queue: the block idles (log 4). -/
theorem test_idle : (match step State.reset with | .next t => decide (t.pending = []) | _ => false) = true := by decide +kernel
/-- The front command runs, and leaves the queue. -/
theorem test_front : (match step { sRun with pending := [.arrayHalt, .haltEnd] } with
    | .next t => decide (t.pending = [.haltEnd]) && t.dev.power.halted
    | _ => false) = true := by decide +kernel

end Sys2Proof.Tests
end

section
/-!
PROOFS. Register writes: what becomes of a write on its path (R5 to R7, R27, R370, R377), fate by fate.
-/

namespace Sys2Proof.Machine

open Sys2Proof

/-! ### Completion and frames -/

/-- A row whose meaning changes the device alone completes with the device changed. -/
theorem completes_of_onDev {i : Instr} {f : Dev → Dev} {s : State} {post : State → Prop} (hi : exec i s = onDev f s)
    (h : post { s with dev := f s.dev }) : Completes i s post := ⟨_, hi, h⟩

/-- A device with the same window keeps every register. -/
theorem regsExcept_of_regs {s t : State} (offs : List Nat) (h : t.dev.regs = s.dev.regs) : RegsExcept offs s t :=
  fun o _ => getReg_congr h o

/-- A counter counts one event. -/
theorem getReg_bump_self (d : Dev) (o : Nat) : getReg (bump d o) o = counted (getReg d o) 1 := by
  rw [getReg_bump, if_pos rfl, counted]

/-- A counted event on a device with the window of the state before changes its counter alone. -/
theorem regsExcept_bump {s t : State} {d : Dev} {o : Nat} (ht : t.dev = bump d o) (hd : d.regs = s.dev.regs) :
    RegsExcept [o] s t := by
  intro p hp
  rw [ht, getReg_bump, if_neg (by simpa using hp)]
  exact getReg_congr hd p

/-! ### The wake of a write through a port -/

/-- A wake event touches the power controller alone. -/
theorem wakeEvent_eq_power (n : Nat) (d : Dev) : wakeEvent n d = { d with power := (wakeEvent n d).power } := by
  unfold wakeEvent
  repeat' split
  all_goals rfl

/-- The wake that a path brings touches the power controller alone. -/
theorem portWake_eq_power (path : Path) (d : Dev) : portWake path d = { d with power := (portWake path d).power } := by
  cases path with
  | port p => exact wakeEvent_eq_power _ d
  | keeper => rfl
  | i3c => rfl

/-- No path but a port's brings a wake. -/
theorem portWake_of_ne_port {path : Path} (h : ∀ p, path ≠ .port p) (d : Dev) : portWake path d = d := by
  cases path with
  | port p => exact absurd rfl (h p)
  | keeper => rfl
  | i3c => rfl

/-! ### Fates of a write -/

section Fates

variable {s : State} {path : Path} {off size : Nat}

/-- On a path that acts, the fate of a write follows from its form, the lock and the path. -/
theorem writeFate_of_acts (h : PathActs s path) :
    writeFate s.dev path off size =
      if size ≠ 4 ∨ off % 4 ≠ 0 ∨ ((regRow? off).isNone && !reservedTcx s.dev off) = true then
        if path = .keeper ∨ (locked s.dev && openToPorts off) = true then .ignored else .denied
      else if !locked s.dev then (if path = .keeper then .applied else .denied)
      else if regAccess? off = some .rwl then .lockedOut
      else if path = .keeper then
        if deferredForKeeper off && inExecute s.dev then .deferred else .applied
      else if openToPorts off then .applied
      else .denied := by
  obtain ⟨halive, hkeeper⟩ := h
  have hgate : (!alive s.dev || (decide (path = .keeper) && !s.dev.keeper.running)) = false := by
    by_cases hk : path = .keeper
    · simp [halive, hkeeper hk]
    · simp [halive, hk]
  unfold writeFate
  rw [hgate]
  rfl

/-- A write that reaches no register is ignored on the keeper's path, and after lock at the offsets of R377. -/
theorem writeFate_ignored (h : PathActs s path)
    (hform : size ≠ 4 ∨ off % 4 ≠ 0 ∨ (regRow? off = none ∧ reservedTcx s.dev off = false))
    (hpath : path = .keeper ∨ (locked s.dev = true ∧ openToPorts off = true)) :
    writeFate s.dev path off size = .ignored := by
  rw [writeFate_of_acts h, if_pos (by simpa using hform), if_pos (by simpa using hpath)]

/-- Before lock a write from I3C or a port is denied; after lock so is one outside the list of R377, unless it reaches
an RWL register. -/
theorem writeFate_denied (h : PathActs s path) (hpath : path ≠ .keeper)
    (hdenied : locked s.dev = false ∨ (openToPorts off = false ∧
      (size ≠ 4 ∨ off % 4 ≠ 0 ∨ regAccess? off ≠ some .rwl))) :
    writeFate s.dev path off size = .denied := by
  rw [writeFate_of_acts h]
  rcases hdenied with hlock | ⟨hclosed, hreg⟩
  · simp [hpath, hlock]
  · split
    · simp [hpath, hclosed]
    · rename_i hform
      have hrwl : regAccess? off ≠ some .rwl := by
        rcases hreg with hsize | halign | hrwl
        · exact absurd (.inl hsize) hform
        · exact absurd (.inr (.inl halign)) hform
        · exact hrwl
      simp [hclosed, hrwl]

/-- After lock a write to an RWL register is locked out. -/
theorem writeFate_lockedOut (h : PathActs s path) (hlock : locked s.dev = true) (hrwl : regAccess? off = some .rwl)
    (halign : off % 4 = 0) : writeFate s.dev path off 4 = .lockedOut := by
  have hrow : (regRow? off).isNone = false := by
    rw [regAccess?, Option.map_eq_some_iff] at hrwl
    obtain ⟨row, hrow, -⟩ := hrwl
    simp [hrow]
  rw [writeFate_of_acts h]
  simp [halign, hrow, hlock, hrwl]

/-- A keeper write to an entrance or cell register in the execute phase is deferred. -/
theorem writeFate_deferred (h : PathActs s .keeper) (halign : off % 4 = 0) (hrow : (regRow? off).isSome = true)
    (hlock : locked s.dev = true) (hrwl : regAccess? off ≠ some .rwl) (hdefer : deferredForKeeper off = true)
    (hexec : inExecute s.dev = true) : writeFate s.dev .keeper off 4 = .deferred := by
  rw [writeFate_of_acts h]
  have hsome : (regRow? off).isNone = false := by simpa [Option.isNone_eq_false_iff] using hrow
  simp [halign, hsome, hlock, hrwl, hdefer, hexec]

end Fates

/-! ### What each fate leaves -/

section Arrival

variable {path : Path} {off size : Nat} {d : Dev} (v : W32)

theorem writeAny_ignored (h : writeFate d path off size = .ignored) : writeAny path off size v d = portWake path d := by
  simp only [writeAny, h]

theorem writeAny_denied (h : writeFate d path off size = .denied) :
    writeAny path off size v d = bump (portWake path d) R.ID_DENY_WR_CNT := by
  simp only [writeAny, h]

theorem writeAny_lockedOut (h : writeFate d path off size = .lockedOut) :
    writeAny path off size v d = bump (portWake path d) R.ID_LOCK_WR_CNT := by
  simp only [writeAny, h]

/-- The keeper's path brings no wake, so a deferred write joins the deferred ones and is counted, and no more. -/
theorem writeAny_deferred (h : writeFate d .keeper off size = .deferred) :
    writeAny .keeper off size v d =
      bump { d with keeper := { d.keeper with deferred := d.keeper.deferred ++ [(off, v)] } } R.KPR_DEFER_CNT := by
  simp only [writeAny, h, portWake]

end Arrival

/-! ### The statements -/

/-- Settles O7: the fate of the write is `lockedOut`, which counts it after the wake that its path brings. -/
theorem lockedWritesAreCounted : Obligations.LockedWritesAreCounted := by
  intro s path off val hacts hlock hrwl halign
  have hdev := writeAny_lockedOut val (writeFate_lockedOut hacts hlock hrwl halign)
  refine completes_of_onDev rfl ⟨rfl, ?_, regsExcept_bump hdev (portWake_regs path s.dev), ?_,
    portWake_eq_power path s.dev, fun hport => ?_⟩
  · simp only [hdev, getReg_bump_self, getReg_portWake]
  · rw [hdev]
    rfl
  · simp only [hdev, bump_power, portWake_of_ne_port hport]

/-- Settles O8: each clause names the conditions of one fate, and each of these fates leaves memory alone. -/
theorem writeFatesFollowPathAndLock : Obligations.WriteFatesFollowPathAndLock := by
  intro s path off size val hacts
  refine ⟨fun hform hpath => ?_, fun hpath hdenied => ?_, ?_⟩
  · have hdev := writeAny_ignored val (writeFate_ignored hacts hform hpath)
    exact completes_of_onDev rfl ⟨rfl, regsExcept_of_regs [] (by simp only [hdev, portWake_regs]),
      by simp only [SameMemory, hdev, portWake_mem]⟩
  · have hdev := writeAny_denied val (writeFate_denied hacts hpath hdenied)
    exact completes_of_onDev rfl ⟨rfl, by simp only [hdev, getReg_bump_self, getReg_portWake],
      regsExcept_bump hdev (portWake_regs path s.dev), by simp only [SameMemory, hdev, bump_mem, portWake_mem]⟩
  · rintro rfl halign hrow rfl hlock hrwl hdefer hexec
    have hdev := writeAny_deferred val (writeFate_deferred hacts halign hrow hlock hrwl hdefer hexec)
    exact completes_of_onDev rfl ⟨rfl, by simp only [hdev, bump_keeper],
      by simp only [hdev, getReg_bump_self]; rfl, regsExcept_bump hdev rfl, by simp only [SameMemory, hdev, bump_mem]⟩

end Sys2Proof.Machine
end

section
/-!
PROOFS. Completion records (R10, R68, R69, R77): what the record of a ring slot writes, and what a request's completion
does besides.
-/

namespace Sys2Proof.Machine

open Sys2Proof

/-! ### Bytes of a record -/

@[simp] theorem leBytes_length (n v : Nat) : (leBytes n v).length = n := by
  induction n generalizing v with
  | zero => rfl
  | succ n ih => simp [leBytes, ih]

/-- The 64 bytes of Table 03-6. -/
theorem completionBytes_length (c : Completion) (phase : Bool) (done slot : Nat) :
    (completionBytes c phase done slot).length = 64 := by
  simp [completionBytes, zeroBytes]

/-- A write of hive memory leaves every byte outside its range. -/
theorem hive_outside_write (d : Dev) (a : Nat) (bs : List Byte) (x : Nat) (h : x < a ∨ a + bs.length ≤ x) :
    tblGet 0 (hiveWrite d a bs).mem.hive x = tblGet 0 d.mem.hive x := by
  rw [hive_after_write, if_neg (by omega)]

/-- Hive memory reads the same on devices with the same memories. -/
theorem hiveRead_congr {d e : Dev} (h : e.mem = d.mem) (a n : Nat) : hiveRead e a n = hiveRead d a n := by
  unfold hiveRead
  rw [h]

/-! ### Sync adds (R77) -/

theorem synValue_inj {i o : Nat} : R.SYN_VALUE i = R.SYN_VALUE o ↔ i = o := by
  simp only [R.SYN_VALUE]
  omega

/-- A sync object after an add; every other register keeps its value. -/
theorem getReg_syncAdd (d : Dev) (i : Nat) (v : W32) (p : Nat) :
    getReg (syncAdd d i v) p = if p = R.SYN_VALUE i then getReg d p + v else getReg d p := by
  unfold syncAdd
  rw [getReg_setReg]
  split
  · rename_i h
    rw [h]
  · rfl

/-- A sync add where there is one: the object and the value added. -/
def syncAdd? (d : Dev) (add : Option (Nat × W32)) : Dev :=
  match add with
  | some a => syncAdd d a.1 a.2
  | none => d

/-- What a sync add, where there is one, is worth to an object. -/
def addWorth (add : Option (Nat × W32)) (o : Nat) : W32 :=
  match add with
  | some a => if a.1 = o then a.2 else 0
  | none => 0

@[simp] theorem syncAdd?_mem (d : Dev) (add : Option (Nat × W32)) : (syncAdd? d add).mem = d.mem := by
  cases add with
  | none => rfl
  | some a => rfl

theorem getReg_syncAdd?_syn (d : Dev) (add : Option (Nat × W32)) (o : Nat) :
    getReg (syncAdd? d add) (R.SYN_VALUE o) = getReg d (R.SYN_VALUE o) + addWorth add o := by
  cases add with
  | none => simp [syncAdd?, addWorth]
  | some a =>
    simp only [syncAdd?, addWorth, getReg_syncAdd, synValue_inj, eq_comm (a := o)]
    split <;> simp

theorem getReg_syncAdd?_ne (d : Dev) (add : Option (Nat × W32)) (p : Nat)
    (h : ∀ a, add = some a → p ≠ R.SYN_VALUE a.1) : getReg (syncAdd? d add) p = getReg d p := by
  cases add with
  | none => rfl
  | some a => rw [syncAdd?, getReg_syncAdd, if_neg (h a rfl)]

/-! ### Writing a record (R69) -/

/-! A ring's registers and the sync objects lie apart. -/

theorem rngPending_ne_synValue (r o : Nat) : R.RNG_PENDING r ≠ R.SYN_VALUE o := by
  simp only [R.RNG_PENDING, R.SYN_VALUE]
  omega

theorem rngSync_ne_synValue {r : Nat} (hr : r < 4096) (o : Nat) : R.RNG_SYNC r ≠ R.SYN_VALUE o := by
  simp only [R.RNG_SYNC, R.SYN_VALUE]
  omega

theorem rngSync_ne_rngPending (r : Nat) : R.RNG_SYNC r ≠ R.RNG_PENDING r := by
  simp only [R.RNG_SYNC, R.RNG_PENDING]
  omega

/-- The sync add that a ring makes for each of its records, where one is enabled. -/
def ringSyncAdd (d : Dev) (r : Nat) : Option (Nat × W32) :=
  if bit (getReg d (R.RNG_SYNC r)) 15 then some (fld (getReg d (R.RNG_SYNC r)) 13 0, 1) else none

/-- The object of a ring's sync add is one of the 16,384. -/
theorem ringSyncAdd_lt {d : Dev} {r : Nat} {a : Nat × W32} (h : ringSyncAdd d r = some a) : a.1 < 2 ^ 14 := by
  unfold ringSyncAdd at h
  split at h
  · cases h
    exact fld_lt _ 13 0
  · cases h

theorem addWorth_ringSyncAdd (s : State) (r o : Nat) : addWorth (ringSyncAdd s.dev r) o = ringAdd s r o := by
  unfold ringSyncAdd ringAdd
  split
  · simp [addWorth, *]
  · simp [addWorth, *]

/-- The ring's own add, as the writing of a record makes it. -/
theorem syncAdd?_ringSyncAdd (d : Dev) (r : Nat) : syncAdd? d (ringSyncAdd d r) =
    if bit (getReg d (R.RNG_SYNC r)) 15 then syncAdd d (fld (getReg d (R.RNG_SYNC r)) 13 0) 1 else d := by
  unfold ringSyncAdd
  split <;> rfl

/-- The record's bytes in its slot, RNG_PENDING one less, and the record counted. -/
def recordStored (d : Dev) (r : Nat) (ctr : W32) (c : Completion) : Dev :=
  let n := ctr.toNat
  let e := hiveWrite d (slotAddr d r n) (completionBytes c (lapParity d r n) (now d) (n % ringSize d r))
  countRecord c (setReg e (R.RNG_PENDING r) (getReg e (R.RNG_PENDING r) - 1))

section Record

variable (d : Dev) {r : Nat} (ctr : W32) (c : Completion) (add : Option (Nat × W32))

theorem getReg_recordStored (p : Nat) : getReg (recordStored d r ctr c) p =
    if p = R.RNG_PENDING r then getReg d (R.RNG_PENDING r) - 1 else getReg d p := by
  unfold recordStored
  rw [getReg_countRecord, getReg_setReg]
  simp only [getReg_hiveWrite]

/-- A record is stored, and then the add given and the ring's own are made. -/
theorem writeRecord_eq (hr : r < 4096) : writeRecord d r ctr c add =
    syncAdd? (syncAdd? (recordStored d r ctr c) add) (ringSyncAdd d r) := by
  have hsync : getReg (syncAdd? (recordStored d r ctr c) add) (R.RNG_SYNC r) = getReg d (R.RNG_SYNC r) := by
    rw [getReg_syncAdd?_ne _ _ _ (fun a _ => rngSync_ne_synValue hr a.1), getReg_recordStored,
      if_neg (rngSync_ne_rngPending r)]
  have hring : ringSyncAdd d r = ringSyncAdd (syncAdd? (recordStored d r ctr c) add) r := by
    simp only [ringSyncAdd, hsync]
  rw [hring, syncAdd?_ringSyncAdd]
  cases add with
  | none => rfl
  | some a => rfl

/-- Cache control has no part in a record. -/
theorem writeRecord_setCache (hr : r < 4096) (k : CacheSt) :
    writeRecord { d with cache := k } r ctr c add = { writeRecord d r ctr c add with cache := k } := by
  rw [writeRecord_eq _ ctr c add hr, writeRecord_eq d ctr c add hr]
  show syncAdd? (syncAdd? (recordStored { d with cache := k } r ctr c) add) (ringSyncAdd d r) = _
  cases add <;> cases ringSyncAdd d r <;> rfl

/-- A record changes the bytes of its slot, and no other memory. -/
theorem writeRecord_mem (hr : r < 4096) : (writeRecord d r ctr c add).mem =
    (hiveWrite d (slotAddr d r ctr.toNat) (completionBytes c (lapParity d r ctr.toNat) (now d)
      (ctr.toNat % ringSize d r))).mem := by
  rw [writeRecord_eq d ctr c add hr, syncAdd?_mem, syncAdd?_mem]
  rfl

theorem getReg_writeRecord_pending (hr : r < 4096) :
    getReg (writeRecord d r ctr c add) (R.RNG_PENDING r) = getReg d (R.RNG_PENDING r) - 1 := by
  rw [writeRecord_eq d ctr c add hr, getReg_syncAdd?_ne _ _ _ (fun a _ => rngPending_ne_synValue r a.1),
    getReg_syncAdd?_ne _ _ _ (fun a _ => rngPending_ne_synValue r a.1), getReg_recordStored, if_pos rfl]

theorem getReg_writeRecord_syn (hr : r < 4096) (o : Nat) : getReg (writeRecord d r ctr c add) (R.SYN_VALUE o) =
    getReg d (R.SYN_VALUE o) + addWorth add o + addWorth (ringSyncAdd d r) o := by
  rw [writeRecord_eq d ctr c add hr, getReg_syncAdd?_syn, getReg_syncAdd?_syn, getReg_recordStored,
    if_neg (rngPending_ne_synValue r o).symm]

/-- Apart from RNG_PENDING and the objects a record adds to, every register keeps its value. -/
theorem getReg_writeRecord_ne (hr : r < 4096) (hadd : ∀ a, add = some a → a.1 < 2 ^ 14) (p : Nat)
    (hp : p ≠ R.RNG_PENDING r) (hsyn : ∀ o, o < 2 ^ 14 → p ≠ R.SYN_VALUE o) :
    getReg (writeRecord d r ctr c add) p = getReg d p := by
  rw [writeRecord_eq d ctr c add hr, getReg_syncAdd?_ne _ _ _ (fun a ha => hsyn _ (ringSyncAdd_lt ha)),
    getReg_syncAdd?_ne _ _ _ (fun a ha => hsyn _ (hadd a ha)), getReg_recordStored, if_neg hp]

end Record

/-! ### What a request's status does to its sequence (R242, R252) -/

/-- A change of a sequence that keeps its length keeps every record. -/
theorem completionOf_updSeq (q : Nat) (f : SeqDesc → SeqDesc) (d : Dev) (r : Req)
    (hf : ∀ x, (f x).length = x.length) : completionOf (updSeq q f d) r = completionOf d r := by
  have hlen : (seqDesc (updSeq q f d) (dSeq r.desc)).length = (seqDesc d (dSeq r.desc)).length := by
    rw [seqDesc_updSeq]
    split
    · rename_i h
      rw [hf, h]
    · rfl
  unfold completionOf
  rw [hlen]
  rfl

/-- What a status does to a sequence shows in cache control alone, and in no length. -/
theorem statusNoted_eq (r : Req) (d : Dev) :
    prefixDone r (verifyFailed r d) = { d with cache := (prefixDone r (verifyFailed r d)).cache } ∧
      completionOf (prefixDone r (verifyFailed r d)) r = completionOf d r := by
  unfold prefixDone verifyFailed
  split <;> split
  · exact ⟨rfl, by rw [completionOf_updSeq, completionOf_updSeq] <;> exact fun _ => rfl⟩
  · exact ⟨rfl, by rw [completionOf_updSeq]; exact fun _ => rfl⟩
  · exact ⟨rfl, by rw [completionOf_updSeq]; exact fun _ => rfl⟩
  · exact ⟨rfl, rfl⟩

/-! ### What ends with a request -/

@[simp] theorem noteLateDone_regs (c : CellId) (d : Dev) : (noteLateDone c d).regs = d.regs := rfl
@[simp] theorem noteLateDone_mem (c : CellId) (d : Dev) : (noteLateDone c d).mem = d.mem := rfl
@[simp] theorem noteLateDone_reqs (c : CellId) (d : Dev) : (noteLateDone c d).ent.reqs = d.ent.reqs := rfl

/-- Combine tokens that end change neither registers nor memory nor a request. -/
@[simp] theorem endCombine_regs (uid : Nat) (d : Dev) : (endCombine uid d).regs = d.regs :=
  foldl_keep (·.regs) _ _ _ (fun _ _ => rfl)
@[simp] theorem endCombine_mem (uid : Nat) (d : Dev) : (endCombine uid d).mem = d.mem :=
  foldl_keep (·.mem) _ _ _ (fun _ _ => rfl)
@[simp] theorem endCombine_reqs (uid : Nat) (d : Dev) : (endCombine uid d).ent.reqs = d.ent.reqs :=
  foldl_keep (·.ent.reqs) _ _ _ (fun _ _ => rfl)

@[simp] theorem retireReq_regs (uid : Nat) (d : Dev) : (retireReq uid d).regs = d.regs := by
  unfold retireReq
  split
  · rfl
  · split <;> rfl
@[simp] theorem retireReq_mem (uid : Nat) (d : Dev) : (retireReq uid d).mem = d.mem := by
  unfold retireReq
  split
  · rfl
  · split <;> rfl

/-- A request that goes takes no other with it, and none comes. -/
theorem mem_reqs_of_retireReq {uid : Nat} {d : Dev} {r : Req} (h : r ∈ (retireReq uid d).ent.reqs) :
    r ∈ d.ent.reqs := by
  unfold retireReq at h
  split at h
  · exact h
  · split at h
    · exact (List.mem_filter.1 h).1
    · exact h

/-- What a change makes true of a request holds of every request of its identifier after it. -/
theorem of_mem_reqs_updReq {uid : Nat} {f : Req → Req} {d : Dev} {P : Req → Prop} (hf : ∀ r, P (f r))
    {r : Req} (h : r ∈ (updReq uid f d).ent.reqs) (hu : r.uid = uid) : P r := by
  obtain ⟨q, -, rfl⟩ := List.mem_map.1 h
  split at hu
  · rw [if_pos ‹_›]
    exact hf q
  · exact absurd hu ‹_›

/-! ### Completion of a request -/

/-- The sync add that a request asks for. -/
def reqSyncAdd (r : Req) : Option (Nat × W32) :=
  if dSyncEn r.desc then some (dSync r.desc, dSyncAdd r.desc) else none

theorem reqSyncAdd_lt {r : Req} {a : Nat × W32} (h : reqSyncAdd r = some a) : a.1 < 2 ^ 14 := by
  unfold reqSyncAdd at h
  split at h
  · cases h
    exact Nat.mod_lt _ (by decide)
  · cases h

theorem addWorth_reqSyncAdd (r : Req) (o : Nat) : addWorth (reqSyncAdd r) o =
    if dSyncEn r.desc = true ∧ dSync r.desc = o then dSyncAdd r.desc else 0 := by
  unfold reqSyncAdd
  split
  · simp [addWorth, *]
  · simp [addWorth, *]

theorem dRing_lt (x : BitVec 512) : dRing x < 4096 := Nat.mod_lt _ (by decide)

/-- Registers and memory after a completion are those that its record leaves, and the request waits for it no longer. -/
theorem completeReq_effect (r : Req) (d : Dev) :
    let w := writeRecord d (dRing r.desc) r.ctr (completionOf d r) (reqSyncAdd r)
    (completeReq r d).regs = w.regs ∧ (completeReq r d).mem = w.mem ∧
      ∀ q ∈ (completeReq r d).ent.reqs, q.uid = r.uid → q.recordWritten = true := by
  obtain ⟨hcache, hcompletion⟩ := statusNoted_eq r d
  have hrec : writeRecord (prefixDone r (verifyFailed r d)) (dRing r.desc) r.ctr
      (completionOf (prefixDone r (verifyFailed r d)) r) (reqSyncAdd r) =
      { writeRecord d (dRing r.desc) r.ctr (completionOf d r) (reqSyncAdd r) with
        cache := (prefixDone r (verifyFailed r d)).cache } := by
    rw [hcompletion, hcache, writeRecord_setCache _ _ _ _ (dRing_lt r.desc)]
  have hadd : (if dSyncEn r.desc then some (dSync r.desc, dSyncAdd r.desc) else none) = reqSyncAdd r := rfl
  unfold completeReq
  simp only [hadd, hrec]
  refine ⟨by simp, by simp, fun q hq hu => ?_⟩
  have hq' := mem_reqs_of_retireReq hq
  rw [noteLateDone_reqs, endCombine_reqs] at hq'
  exact of_mem_reqs_updReq (P := fun q => q.recordWritten = true) (fun _ => rfl) hq' hu

/-- The row completes a request whose record is due. -/
theorem exec_completionRecordWrite {s : State} {uid : Nat} {r : Req} (halive : alive s.dev = true)
    (hfind : findReq s.dev uid = some r) (hdue : recordDue s.dev r = true) :
    exec (.completionRecordWrite uid) s = onDev (completeReq r) s := by
  show execCompletionRecordWrite uid s = _
  simp [execCompletionRecordWrite, onDev, hfind, halive, hdue]

/-- Settles O35: the record is `writeRecord`'s, and what the completion does besides touches neither registers nor
memory. -/
theorem completionRecords : Obligations.CompletionRecords := by
  intro s uid r halive hfind hdue
  obtain ⟨hregs, hmem, hdone⟩ := completeReq_effect r s.dev
  have hr := dRing_lt r.desc
  rw [writeRecord_mem _ _ _ _ hr] at hmem
  have hlen := completionBytes_length (completionOf s.dev r) (lapParity s.dev (dRing r.desc) r.ctr.toNat) (now s.dev)
    (r.ctr.toNat % ringSize s.dev (dRing r.desc))
  refine completes_of_onDev (exec_completionRecordWrite halive hfind hdue)
    ⟨rfl, ?_, hlen, fun b hb => ?_, ?_, ?_, ?_, fun o _ => ?_, fun p hp hsyn => ?_, hdone⟩
  · rw [hiveRead_congr hmem, ← hlen, hiveRead_hiveWrite]
  · rw [hmem, hive_outside_write _ _ _ _ (by rwa [hlen])]
  · rw [hmem, hiveWrite_cm]
  · rw [hmem, hiveWrite_hbm]
  · rw [getReg_congr hregs, getReg_writeRecord_pending _ _ _ _ hr]
  · rw [getReg_congr hregs, getReg_writeRecord_syn _ _ _ _ hr, addWorth_reqSyncAdd, addWorth_ringSyncAdd]
  · rw [getReg_congr hregs, getReg_writeRecord_ne _ _ _ _ hr (fun a ha => reqSyncAdd_lt ha) p hp hsyn]

end Sys2Proof.Machine
end

section
/-!
PROOFS. Register reads (R5, R6, R8, R351): what a read answers, what it leaves, and the registers whose value a unit
derives from its own state.
-/

namespace Sys2Proof.Machine

open Sys2Proof

/-! ### Fields under a mask -/

/-- A field whose bits are all implemented reads as it is. -/
theorem fld_and_mask {w : Nat} (x m : BitVec w) (hi lo : Nat) (h : fld m hi lo = 2 ^ (hi + 1 - lo) - 1) :
    fld (x &&& m) hi lo = fld x hi lo := by
  apply Nat.eq_of_testBit_eq
  intro i
  have hbit := congrArg (·.testBit i) h
  simp only [fld_testBit, Nat.testBit_two_pow_sub_one] at hbit
  rw [fld_testBit, fld_testBit, BitVec.getLsbD_and]
  by_cases hi' : i < hi + 1 - lo
  · have hm : m.getLsbD (lo + i) = true := by simpa [hi'] using hbit
    rw [hm, Bool.and_true]
  · simp [hi']

/-- A field of a number that fits its word. -/
theorem fld_ofNat (n hi lo : Nat) (h : n < 2 ^ 32) :
    fld (BitVec.ofNat 32 n) hi lo = n / 2 ^ lo % 2 ^ (hi + 1 - lo) := by
  rw [fld, BitVec.toNat_ofNat, Nat.mod_eq_of_lt h, Nat.shiftRight_eq_div_pow]

/-- A bit is a field of one bit. -/
theorem bit_eq_fld {w : Nat} (x : BitVec w) (i : Nat) : bit x i = decide (fld x i i = 1) := by
  have h := fld_testBit x i i 0
  have hlt := fld_lt x i i
  simp only [Nat.add_sub_cancel_left, pow_one] at hlt
  simp only [Nat.add_sub_cancel_left, Nat.lt_one_iff, decide_true, Bool.true_and, Nat.add_zero] at h
  rw [bit, ← h, Nat.testBit_zero, Nat.mod_eq_of_lt hlt]

/-! ### Values -/

/-- The value of a register that can be read: its unit's view of it, or what it holds, in its implemented bits. -/
theorem regValue_of_access {off : Nat} {a : Access} (d : Dev) (ha : regAccess? off = some a) (hwo : a ≠ .wo) :
    regValue d off = (viewReg d off).getD (getReg d off) &&& regMask off := by
  unfold regValue
  rw [ha]
  cases a with
  | wo => exact absurd rfl hwo
  | _ => rfl

/-- A reserved offset reads as zero (R6). -/
theorem regValue_reserved {off : Nat} (d : Dev) (h : regRow? off = none) : regValue d off = 0 := by
  simp [regValue, regAccess?, h]

/-- The value of a read-only register that a unit derives. -/
theorem regValue_of_view {off : Nat} {d : Dev} {v m : W32} (ha : regAccess? off = some .ro ∧ regMask off = m)
    (hv : viewReg d off = some v) : regValue d off = v &&& m := by
  rw [regValue_of_access d ha.1 (by decide), hv, ha.2, Option.getD_some]

/-- A register that a unit derives, all of whose bits are implemented. -/
theorem regValue_of_full_view {off : Nat} {d : Dev} {v : W32}
    (ha : regAccess? off = some .ro ∧ regMask off = 0xFFFFFFFF) (hv : viewReg d off = some v) :
    regValue d off = v := by
  rw [regValue_of_view ha hv]
  exact BitVec.and_allOnes

theorem regValue_tickPhase (d : Dev) : regValue d R.TICK_PHASE = phaseWord d &&& 0xF :=
  regValue_of_view (by decide +kernel) rfl

theorem regValue_grdStatus (d : Dev) : regValue d R.GRD_STATUS = grdStatus d &&& 0x1FF :=
  regValue_of_view (by decide +kernel) rfl

theorem regValue_kvcFree (d : Dev) : regValue d R.KVC_FREE = BitVec.ofNat 32 (freeUnits d) :=
  regValue_of_full_view (by decide +kernel) rfl

theorem row_creditLeft : ∀ c : CellId,
    regAccess? (R.ENT_CREDIT_LEFT c.val) = some .ro ∧ regMask (R.ENT_CREDIT_LEFT c.val) = 0xFFFFFFFF := by
  decide +kernel

theorem row_wslotState : ∀ i : Fin 8,
    regAccess? (R.ENT_WSLOT_STATE i.val) = some .ro ∧ regMask (R.ENT_WSLOT_STATE i.val) = 0xFFFFF07 := by
  decide +kernel

/-- ENT_CREDIT_LEFT shows what the oldest open ledger leaves. -/
theorem viewReg_creditLeft {d : Dev} {g : Ledger} {rest : List Ledger} (h : openLedgersOf d = g :: rest) {off : Nat}
    (hlo : R.ENT_CREDIT_LEFT 0 ≤ off) (hhi : off < R.ENT_CREDIT_LEFT 64) :
    viewReg d off = some (BitVec.ofNat 32 (creditLeft d g ((off - R.ENT_CREDIT_LEFT 0) / 4))) := by
  have hlo' : 0x2100 ≤ off := hlo
  have hhi' : off < 0x2200 := hhi
  have hnlo : off ≠ R.ENT_LEDGER_LO := by simp only [R.ENT_LEDGER_LO]; omega
  have hnhi : off ≠ R.ENT_LEDGER_HI := by simp only [R.ENT_LEDGER_HI]; omega
  unfold viewReg
  rw [if_neg (by omega), if_neg (by omega), if_pos (by omega), if_neg hnlo, if_neg hnhi, if_pos ⟨hlo, hhi⟩, h]
  rfl

/-- The registers of a load slot show its word at their place in the slot. -/
theorem viewReg_wslot (d : Dev) {off : Nat} (hlo : R.ENT_WSLOT_STATE 0 ≤ off) (hhi : off < R.ENT_WSLOT_STATE 8) :
    viewReg d off = some (wslotWord (wSlot d ((off - R.ENT_WSLOT_STATE 0) / 0x20)) (off % 0x20)) := by
  have hlo' : 0x2400 ≤ off := hlo
  have hhi' : off < 0x2500 := hhi
  have hnlo : off ≠ R.ENT_LEDGER_LO := by simp only [R.ENT_LEDGER_LO]; omega
  have hnhi : off ≠ R.ENT_LEDGER_HI := by simp only [R.ENT_LEDGER_HI]; omega
  have hncredit : ¬(R.ENT_CREDIT_LEFT 0 ≤ off ∧ off < R.ENT_CREDIT_LEFT 64) := by
    simp only [R.ENT_CREDIT_LEFT]
    omega
  have hncmb : off ≠ R.ENT_CMB_INUSE := by simp only [R.ENT_CMB_INUSE]; omega
  have hnspec : off ≠ R.ENT_SPEC_OPEN := by simp only [R.ENT_SPEC_OPEN]; omega
  unfold viewReg
  rw [if_neg (by omega), if_neg (by omega), if_pos (by omega), if_neg hnlo, if_neg hnhi, if_neg hncredit, viewEnt,
    if_neg hncmb, if_neg hnspec, if_pos ⟨hlo, hhi⟩]

theorem regValue_creditLeft {d : Dev} (c : CellId) {g : Ledger} {rest : List Ledger}
    (h : openLedgersOf d = g :: rest) :
    regValue d (R.ENT_CREDIT_LEFT c.val) = BitVec.ofNat 32 (creditLeft d g c.val) := by
  have hidx : (R.ENT_CREDIT_LEFT c.val - R.ENT_CREDIT_LEFT 0) / 4 = c.val := by
    simp only [R.ENT_CREDIT_LEFT]
    omega
  have hview := viewReg_creditLeft h (off := R.ENT_CREDIT_LEFT c.val) (by simp only [R.ENT_CREDIT_LEFT]; omega)
    (by simp only [R.ENT_CREDIT_LEFT]; omega)
  rw [hidx] at hview
  exact regValue_of_full_view (row_creditLeft c) hview

theorem regValue_hintNext {d : Dev} {g k : Ledger} {rest : List Ledger} (h : openLedgersOf d = g :: k :: rest) :
    regValue d R.PWR_HINT_NEXT = BitVec.ofNat 32 g.hint := by
  apply regValue_of_full_view (by decide +kernel)
  show some (match openLedgersOf d with | g :: _ :: _ => BitVec.ofNat 32 g.hint | _ => 0) = _
  rw [h]

theorem regValue_wslotState (d : Dev) {i : Nat} (h : i < 8) :
    regValue d (R.ENT_WSLOT_STATE i) = wslotWord (wSlot d i) 0 &&& 0xFFFFF07 := by
  have hidx : (R.ENT_WSLOT_STATE i - R.ENT_WSLOT_STATE 0) / 0x20 = i := by
    simp only [R.ENT_WSLOT_STATE]
    omega
  have hoff : R.ENT_WSLOT_STATE i % 0x20 = 0 := by
    simp only [R.ENT_WSLOT_STATE]
    omega
  have hview := viewReg_wslot d (off := R.ENT_WSLOT_STATE i) (by simp only [R.ENT_WSLOT_STATE]; omega)
    (by simp only [R.ENT_WSLOT_STATE]; omega)
  rw [hidx, hoff] at hview
  exact regValue_of_view (row_wslotState ⟨i, h⟩) hview

/-! ### Fields of derived registers -/

/-- TICK_PHASE (Table 02-13). -/
theorem tickPhase_fields (d : Dev) :
    bit (regValue d R.TICK_PHASE) 0 = d.tick.admitOpen ∧ bit (regValue d R.TICK_PHASE) 1 = d.tick.inputOpen ∧
      fld (regValue d R.TICK_PHASE) 3 2 = (match d.tick.phase with | .execute => 0 | .drain => 1 | .beacon => 2) := by
  rw [regValue_tickPhase, phaseWord]
  cases d.tick.admitOpen <;> cases d.tick.inputOpen <;> cases d.tick.phase <;> decide

/-- GRD_STATUS (Table 15-7), for a queue within its 64 places. -/
theorem grdStatus_fields (d : Dev) (h : d.guard.queue.length ≤ 64) :
    fld (regValue d R.GRD_STATUS) 6 0 = d.guard.queue.length ∧
      bit (regValue d R.GRD_STATUS) 7 = d.guard.fatal.isSome ∧ bit (regValue d R.GRD_STATUS) 8 = d.guard.stopped := by
  have hlt : d.guard.queue.length + (if d.guard.fatal.isSome then 128 else 0) +
      (if d.guard.stopped then 256 else 0) < 2 ^ 32 := by
    split <;> split <;> omega
  simp only [regValue_grdStatus, bit_eq_fld]
  rw [fld_and_mask _ _ 6 0 (by decide), fld_and_mask _ _ 7 7 (by decide), fld_and_mask _ _ 8 8 (by decide), grdStatus,
    fld_ofNat _ _ _ hlt, fld_ofNat _ _ _ hlt, fld_ofNat _ _ _ hlt]
  cases d.guard.fatal.isSome <;> cases d.guard.stopped <;> simp <;> omega

theorem slotCode_lt (x : SlotState) : slotCode x < 8 := by
  cases x <;> decide

/-- The first word of a load slot's registers (Table 11-8). -/
theorem wslotWord_state (x : LoadSlot) :
    wslotWord x 0 = BitVec.ofNat 32 (slotCode x.st + 256 * x.reason + 65536 * x.tenant) := rfl

theorem wslotState_fields (d : Dev) {i : Nat} (h : i < 8) (hreason : (wSlot d i).reason < 256)
    (htenant : (wSlot d i).tenant < 4096) :
    let w := regValue d (R.ENT_WSLOT_STATE i)
    fld w 2 0 = slotCode (wSlot d i).st ∧ fld w 15 8 = (wSlot d i).reason ∧ fld w 27 16 = (wSlot d i).tenant := by
  have hcode := slotCode_lt (wSlot d i).st
  have hlt : slotCode (wSlot d i).st + 256 * (wSlot d i).reason + 65536 * (wSlot d i).tenant < 2 ^ 32 := by omega
  dsimp only
  rw [regValue_wslotState d h, fld_and_mask _ _ 2 0 (by decide), fld_and_mask _ _ 15 8 (by decide),
    fld_and_mask _ _ 27 16 (by decide), wslotWord_state, fld_ofNat _ _ _ hlt, fld_ofNat _ _ _ hlt, fld_ofNat _ _ _ hlt]
  omega

/-! ### What a read answers -/

section Read

variable {path : Path} {off size : Nat} {d : Dev}

/-- A read of another size or alignment answers zero and leaves the die as it is (R5). -/
theorem regRead_badForm (path : Path) (d : Dev) (h : size ≠ 4 ∨ off % 4 ≠ 0) :
    regRead path off size d = (0, d) := by
  unfold regRead
  rw [if_pos (by rcases h with h | h <;> simp [h])]

/-- A capture that stands on the path is what the read answers (R8). -/
theorem regRead_captured {c : Path × Nat × W32} (hans : readAnswers d path = true) (halign : off % 4 = 0)
    (h : d.die.capture.find? (fun c => decide (c.1 = path ∧ c.2.1 = off)) = some c) :
    (regRead path off 4 d).1 = c.2.2 := by
  unfold regRead
  rw [if_neg (by simp [hans, halign]), h]

/-- No capture of an offset stands on a path. -/
def NoCapture (d : Dev) (path : Path) (off : Nat) : Prop := ∀ c ∈ d.die.capture, ¬(c.1 = path ∧ c.2.1 = off)

/-- Where no capture stands, a read answers the register's value; of a _LO register it captures the _HI register, and of
PWR_HINT_FIFO it takes the oldest entry. -/
theorem regRead_fresh (hans : readAnswers d path = true) (halign : off % 4 = 0) (h : NoCapture d path off) :
    regRead path off 4 d =
      let e := if regIsLo off then putCapture path (off + 4) (regValue d (off + 4)) d else d
      (regValue d off,
        if off = R.PWR_HINT_FIFO then { e with power := { e.power with hints := e.power.hints.drop 1 } } else e) := by
  have hnone : d.die.capture.find? (fun c => decide (c.1 = path ∧ c.2.1 = off)) = none := by
    simpa [NoCapture, List.find?_eq_none] using h
  unfold regRead
  rw [if_neg (by simp [hans, halign]), hnone]
  dsimp only
  split <;> rfl

theorem regRead_fresh_value (hans : readAnswers d path = true) (halign : off % 4 = 0) (h : NoCapture d path off) :
    (regRead path off 4 d).1 = regValue d off := by
  rw [regRead_fresh hans halign h]

/-- The capture of a _HI register that the read of its _LO register leaves in front. -/
theorem regRead_fresh_capture (hans : readAnswers d path = true) (halign : off % 4 = 0) (h : NoCapture d path off)
    (hlo : regIsLo off = true) :
    ∃ cs, (regRead path off 4 d).2.die.capture = (path, off + 4, regValue d (off + 4)) :: cs := by
  rw [regRead_fresh hans halign h]
  simp only [hlo, if_true]
  split <;> exact ⟨_, rfl⟩

/-- A capture in front is what the next read of its offset on its path answers. -/
theorem regRead_front {v : W32} {cs : List (Path × Nat × W32)} (hans : readAnswers d path = true)
    (halign : off % 4 = 0) (h : d.die.capture = (path, off, v) :: cs) : (regRead path off 4 d).1 = v := by
  rw [regRead_captured hans halign (c := (path, off, v)) (by simp [h])]

/-- A read touches captures and the hint queue, and nothing else. -/
theorem regRead_rest (path : Path) (off size : Nat) (d : Dev) :
    (regRead path off size d).2 =
      { d with die := (regRead path off size d).2.die, power := (regRead path off size d).2.power } := by
  unfold regRead putCapture
  repeat' split
  all_goals rfl

@[simp] theorem regRead_regs (path : Path) (off size : Nat) (d : Dev) : (regRead path off size d).2.regs = d.regs := by
  rw [regRead_rest]
@[simp] theorem regRead_mem (path : Path) (off size : Nat) (d : Dev) : (regRead path off size d).2.mem = d.mem := by
  rw [regRead_rest]
@[simp] theorem regRead_ports (path : Path) (off size : Nat) (d : Dev) :
    (regRead path off size d).2.ports = d.ports := by
  rw [regRead_rest]

end Read

/-! ### What reads do not see -/

/-- Two devices that differ in the power controller and the ports alone, and agree on the hint queue and on the waits of
each port: no read tells them apart. -/
structure ReadsAlike (d e : Dev) : Prop where
  rest : e = { d with power := e.power, ports := e.ports }
  hints : e.power.hints = d.power.hints
  waits : ∀ k, (tblGet {} e.ports k).waits = (tblGet {} d.ports k).waits

namespace ReadsAlike

variable {d e g : Dev}

theorem refl (d : Dev) : ReadsAlike d d := ⟨rfl, rfl, fun _ => rfl⟩

theorem trans (h : ReadsAlike d e) (k : ReadsAlike e g) : ReadsAlike d g where
  rest := by
    have hg := k.rest
    rw [h.rest] at hg
    exact hg
  hints := k.hints.trans h.hints
  waits n := (k.waits n).trans (h.waits n)

theorem regs (h : ReadsAlike d e) : e.regs = d.regs := by rw [h.rest]
theorem die (h : ReadsAlike d e) : e.die = d.die := by rw [h.rest]
theorem mem (h : ReadsAlike d e) : e.mem = d.mem := by rw [h.rest]

theorem regValue (h : ReadsAlike d e) (off : Nat) : regValue e off = Machine.regValue d off := by
  obtain ⟨hrest, hhints, hwaits⟩ := h
  rw [hrest]
  unfold Machine.regValue viewReg
  simp only [hhints, hwaits]
  rfl

theorem readAnswers (h : ReadsAlike d e) (path : Path) : readAnswers e path = Machine.readAnswers d path := by
  rw [h.rest]
  rfl

theorem regRead (h : ReadsAlike d e) (path : Path) (off size : Nat) :
    (regRead path off size e).1 = (Machine.regRead path off size d).1 := by
  unfold Machine.regRead
  rw [h.readAnswers, h.die, h.regValue]
  split
  · rfl
  · split
    · rfl
    · dsimp only
      split <;> rfl

end ReadsAlike

theorem wakeEvent_readsAlike (n : Nat) (d : Dev) : ReadsAlike d (wakeEvent n d) where
  rest := by
    have h := wakeEvent_eq_power n d
    rw [wakeEvent_ports]
    exact h
  hints := by
    unfold wakeEvent
    repeat' split
    all_goals rfl
  waits k := by rw [wakeEvent_ports]

theorem i3cMatch_readsAlike (d : Dev) : ReadsAlike d (i3cMatch d) := by
  unfold i3cMatch
  split
  · exact wakeEvent_readsAlike _ d
  · exact .refl d

/-- A frame's arrival counts at its port and leaves the waits of every port. -/
theorem linkIn_readsAlike (p : PortId) (d : Dev) : ReadsAlike d (linkIn p d) := by
  unfold linkIn
  split
  · refine ⟨rfl, rfl, fun k => ?_⟩
    simp only [setPort, tblGet_set]
    split
    · rename_i h
      rw [h]
      rfl
    · rfl
  · exact .refl d

end Sys2Proof.Machine
end

section
/-!
PROOFS. The rows that read registers: frames that a live port takes, REG_RD and its answer (R324, R385), the I3C target
(R325, R356), the keeper (R8) and the hint queue (R351).
-/

namespace Sys2Proof.Machine

open Sys2Proof

/-- A row that acts where a condition holds completes with the device changed. -/
theorem completes_of_onlyIf {i : Instr} (c : Dev → Bool) {f : Dev → Dev} {s : State} {post : State → Prop}
    (hi : exec i s = onDev (fun d => onlyIf (c d) f d) s) (hc : c s.dev = true) (h : post { s with dev := f s.dev }) :
    Completes i s post := by
  refine completes_of_onDev hi ?_
  rw [hc]
  exact h

/-! ### Gates -/

/-- A live die is powered, not stopped and not in Winter. -/
theorem alive_iff (d : Dev) :
    alive d = true ↔ powered d = true ∧ d.guard.stopped = false ∧ powerState d ≠ 3 := by
  simp [alive, and_assoc]

/-- The keeper reads on a live die while its core runs. -/
theorem readAnswers_keeper {d : Dev} (halive : alive d = true) (hrun : d.keeper.running = true) :
    readAnswers d .keeper = true := by
  obtain ⟨hpowered, -, hwinter⟩ := (alive_iff d).1 halive
  simp only [powered, Bool.and_eq_true, Bool.not_eq_true'] at hpowered
  simp [readAnswers, hpowered.1, hpowered.2, hwinter, hrun]

/-! ### Frames that a live port takes -/

/-! What the checks of R315 ask of the die stands in the register window. -/

theorem portState_congr {d e : Dev} (h : e.regs = d.regs) (p : PortId) : portState e p = portState d p := by
  simp only [portState, regFld, getReg_congr h]

theorem portVer_congr {d e : Dev} (h : e.regs = d.regs) (p : PortId) : portVer e p = portVer d p := by
  simp only [portVer, regFld, getReg_congr h]

theorem dieIndex_congr {d e : Dev} (h : e.regs = d.regs) : dieIndex e = dieIndex d := by
  simp only [dieIndex, getReg_congr h]

theorem portUp_congr {d e : Dev} (h : e.regs = d.regs) (p : PortId) : portUp e p = portUp d p := by
  rw [portUp, portState_congr h, portUp]

theorem frameFate_congr {d e : Dev} (h : e.regs = d.regs) (p : PortId) (f : Frame) :
    frameFate e p f = frameFate d p f := by
  unfold frameFate
  rw [portVer_congr h, dieIndex_congr h]

/-- The header of a frame that the die originates names the die, which is a register. -/
theorem mkFrame_congr {d e : Dev} (h : e.regs = d.regs) (typ flags : Byte) (tag : BitVec 16) (dst tenant addr aux : Nat)
    (payload : List Byte) :
    mkFrame e typ flags tag dst tenant addr aux payload = mkFrame d typ flags tag dst tenant addr aux payload := by
  rw [mkFrame, dieIndex_congr h, mkFrame]

/-- The device on which a frame that a live port takes is acted on: the arrival counted, and the wake of R356 noted. -/
def arrived (p : PortId) (typ : Byte) (d : Dev) : Dev :=
  if typ.toNat < 0x20 then wakeEvent wakeFrame (linkIn p d) else linkIn p d

theorem arrived_readsAlike (p : PortId) (typ : Byte) (d : Dev) : ReadsAlike d (arrived p typ d) := by
  unfold arrived
  split
  · exact (linkIn_readsAlike p d).trans (wakeEvent_readsAlike _ _)
  · exact linkIn_readsAlike p d

/-- The wake of a frame does not touch the ports. -/
theorem arrived_ports (p : PortId) (typ : Byte) (d : Dev) : (arrived p typ d).ports = (linkIn p d).ports := by
  unfold arrived
  split
  · exact wakeEvent_ports _ _
  · rfl

theorem arrived_tick (p : PortId) (typ : Byte) (d : Dev) : (arrived p typ d).tick = d.tick := by
  unfold arrived
  split
  · rw [wakeEvent_tick, linkIn_tick]
  · rw [linkIn_tick]

/-- A port that is UP does not train. -/
theorem portTraining_of_up {d : Dev} {p : PortId} (h : portUp d p = true) : portTraining d p = false := by
  have hst : portState d p = 2 := by simpa [portUp] using h
  simp [portTraining, hst]

/-- A frame that is accepted reaches the rules of its type. -/
theorem recvFrame_accepted {s : State} {p : PortId} {f : Frame} {typ : Byte} (act : Dev → Dev)
    (h : Accepted s p f typ) : recvFrame p f typ act s.dev = act (arrived p typ s.dev) := by
  obtain ⟨halive, htyp, hup, hfate, hans, hwinter⟩ := h
  have hawake : inWinter s.dev = false := by
    obtain ⟨-, -, hstate⟩ := (alive_iff s.dev).1 halive
    simp [inWinter, hstate]
  have hserved : (s.dev.tick.fromWinter && !servedAfterWinter f.typ) = false := by
    rw [htyp]
    cases hw : s.dev.tick.fromWinter with
    | false => rfl
    | true => simp [hwinter hw]
  unfold recvFrame
  rw [if_neg (by simpa using htyp), hawake, halive, portTraining_of_up hup, hup]
  dsimp only [Bool.not_true]
  rw [if_neg (by decide), if_neg (by decide), if_neg (by decide), if_neg (by decide),
    frameFate_congr (linkIn_regs p s.dev), hfate]
  show (if (arrived p typ s.dev).tick.fromWinter && !servedAfterWinter f.typ then _ else _) = _
  rw [arrived_tick, hserved, hans]
  rfl

/-! ### Answers -/

/-- The type of a frame that is accepted may leave on the link it came on (R314). -/
theorem typeAt10_of_accept {d : Dev} {p : PortId} {f : Frame} (h : frameFate d p f = .accept) :
    (decide (portVer d p = 1) && !typeAt10 f.typ) = false := by
  unfold frameFate at h
  split at h
  · cases h
  · split at h
    · cases h
    · rename_i htype
      rw [Bool.not_eq_true, Bool.or_eq_false_iff] at htype
      exact htype.2

/-- A port that is UP and does not retrain sends the answer to an accepted frame behind what it has sent. -/
theorem answered_of_accept {s : State} {p : PortId} {f : Frame} {e : Dev} (payload : List Byte)
    (hregs : e.regs = s.dev.regs) (htx : (getPort e p).tx = (getPort s.dev p).tx)
    (hretrain : (getPort e p).retraining = false) (hup : portUp s.dev p = true)
    (hfate : frameFate s.dev p f = .accept) :
    Answered p f payload s { s with dev := answerOn p f payload e } := by
  have hsend : (!portUp e p || (decide (portVer e p = 1) && !typeAt10 f.typ)) = false := by
    rw [portUp_congr hregs, hup, typeAt10_of_accept (d := e) ((frameFate_congr hregs p f).trans hfate)]
    rfl
  show (getPort (answerOn p f payload e) p).tx = _
  unfold answerOn
  rw [mkFrame_congr hregs]
  unfold sendOn
  rw [show (mkFrame s.dev f.typ 1 f.tag f.src.toNat 0 0 0 payload).typ = f.typ from rfl, hsend]
  simp only [Bool.false_eq_true, if_false, hretrain, getPort_setPort, if_true, putOut_tx, htx]

/-! ### REG_RD -/

/-- The answer of a REG_RD on a device that has taken the frame. -/
def regRdAnswer (p : PortId) (f : Frame) (d : Dev) : Dev :=
  let r := regRead (.port p) f.addr.toNat 4 d
  answerOn p f (leBytes 4 r.1.toNat) r.2

/-- A live die answers an accepted REG_RD, and a stopped one too (R385). -/
theorem exec_regRd_live {s : State} {p : PortId} {f : Frame} (h : Accepted s p f tREG_RD) :
    exec (.regRd p f) s = .next { s with dev := regRdAnswer p f (arrived p tREG_RD s.dev) } := by
  have hgo : s.dev.guard.stopped = false := ((alive_iff s.dev).1 h.1).2.1
  show execRegRd p f s = _
  simp only [execRegRd, onDev, hgo]
  rw [if_neg (by decide), recvFrame_accepted _ h]
  rfl

theorem exec_regRd_stopped {s : State} {p : PortId} {f : Frame} (hpowered : powered s.dev = true)
    (hstopped : s.dev.guard.stopped = true) (htyp : f.typ = tREG_RD) (hup : portUp s.dev p = true)
    (hfate : frameFate s.dev p f = .accept) (hans : answersNothing f = false) :
    exec (.regRd p f) s = .next { s with dev := regRdAnswer p f (linkIn p s.dev) } := by
  show execRegRd p f s = _
  simp only [execRegRd, onDev, hstopped, hpowered, htyp, hup, hfate, hans, onlyIf]
  rfl

/-- What the answer of a REG_RD carries and leaves, where the frame's arrival shows in no read and in no frame sent. -/
theorem regRdAnswer_spec {s : State} {p : PortId} {f : Frame} {e : Dev} (halike : ReadsAlike s.dev e)
    (hports : e.ports = (linkIn p s.dev).ports) (hretrain : (getPort s.dev p).retraining = false)
    (hup : portUp s.dev p = true) (hfate : frameFate s.dev p f = .accept) :
    let t : State := { s with dev := regRdAnswer p f e }
    t.pending = s.pending ∧ Answered p f (leBytes 4 (regRead (.port p) f.addr.toNat 4 s.dev).1.toNat) s t ∧
      RegsExcept [] s t ∧ SameMemory s t := by
  have hport : getPort (regRead (.port p) f.addr.toNat 4 e).2 p = getPort (linkIn p s.dev) p := by
    simp only [getPort, regRead_ports, hports]
  dsimp only
  refine ⟨rfl, ?_, regsExcept_of_regs [] ?_, ?_⟩
  · rw [← halike.regRead]
    exact answered_of_accept _ (by rw [regRead_regs, halike.regs]) (by rw [hport, linkIn_port_tx])
      (by rw [hport, linkIn_port_retraining, hretrain]) hup hfate
  · rw [regRdAnswer, answerOn_regs, regRead_regs, halike.regs]
  · rw [SameMemory, regRdAnswer, answerOn_mem, regRead_mem, halike.mem]

/-! ### I3C -/

/-- The four bytes that name an offset: 24 bits, and a zero byte. -/
theorem leAt_offset (off : BitVec 24) :
    leAt (leBytes 4 off.toNat) 0 3 = off.toNat ∧ leAt (leBytes 4 off.toNat) 3 1 = 0 := by
  have hlt : off.toNat < 2 ^ 24 := off.isLt
  simp only [leAt, leBytes, leNat, List.drop, List.take, BitVec.toNat_ofNat]
  omega

/-- A match of the die's address is a wake event, and touches the power controller alone (R356). -/
theorem i3cMatch_eq_power (d : Dev) : i3cMatch d = { d with power := (i3cMatch d).power } := by
  unfold i3cMatch
  split
  · exact wakeEvent_eq_power _ d
  · rfl

/-- Without an entry attempt an address match changes nothing: I3C is no source of Idle or Doze (Table 13-5). -/
theorem i3cMatch_of_no_attempt {d : Dev} (h : d.power.attempt = none) : i3cMatch d = d := by
  have hsrc : ¬((powerState d = 1 ∨ powerState d = 2) ∧ 1 ≤ wakeI3c ∧ wakeI3c ≤ 3 ∧
      d.power.pendingWake.isNone) := by
    simp [wakeI3c]
  unfold i3cMatch wakeEvent
  rw [h]
  simp only [hsrc, if_false, ite_self]

/-- The I3C target takes four bytes as the offset of a read. -/
theorem i3cPrivateWrite_offset {s : State} (off : BitVec 24) (h : i3cAnswers s.dev = true) :
    Completes (.i3cPrivateWrite (leBytes 4 off.toNat)) s (fun t => t = { s with dev :=
      { i3cMatch s.dev with die := { (i3cMatch s.dev).die with i3cOff := some off.toNat, i3cNack := false } } }) := by
  obtain ⟨hoff, hzero⟩ := leAt_offset off
  refine completes_of_onlyIf i3cAnswers rfl h ?_
  simp only [hoff, hzero, leBytes_length]
  rfl

/-- The I3C target refuses a write of another length than four or eight bytes. -/
theorem i3cPrivateWrite_nack {s : State} {bytes : List Byte} (h : i3cAnswers s.dev = true) (h4 : bytes.length ≠ 4)
    (h8 : bytes.length ≠ 8) :
    Completes (.i3cPrivateWrite bytes) s (fun t => t = { s with dev :=
      { i3cMatch s.dev with die := { (i3cMatch s.dev).die with i3cNack := true } } }) := by
  refine completes_of_onlyIf i3cAnswers rfl h ?_
  rw [if_pos (.inr ⟨h8, h4⟩)]

/-- The I3C target refuses a read with no offset set (log 27). -/
theorem i3cPrivateRead_nack {s : State} (h : i3cAnswers s.dev = true) (hoff : s.dev.die.i3cOff = none) :
    Completes .i3cPrivateRead s (fun t => t = { s with dev :=
      { i3cMatch s.dev with die := { (i3cMatch s.dev).die with i3cNack := true } } }) := by
  have hoff' : (i3cMatch s.dev).die.i3cOff = none := by rw [(i3cMatch_readsAlike s.dev).die, hoff]
  refine completes_of_onlyIf i3cAnswers rfl h ?_
  simp only [hoff']

/-- The I3C target reads the offset set, and it is set no longer. -/
theorem i3cPrivateRead_reads {s : State} {off : Nat} (h : i3cAnswers s.dev = true)
    (hoff : s.dev.die.i3cOff = some off) :
    Completes .i3cPrivateRead s (fun t => t.pending = s.pending ∧ t.dev.die.i3cData = (regRead .i3c off 4 s.dev).1 ∧
      t.dev.die.i3cOff = none ∧ t.dev.die.i3cNack = false ∧ RegsExcept [] s t ∧ SameMemory s t) := by
  have halike := i3cMatch_readsAlike s.dev
  have hoff' : (i3cMatch s.dev).die.i3cOff = some off := by rw [halike.die, hoff]
  refine completes_of_onlyIf i3cAnswers rfl h ?_
  dsimp only
  rw [hoff']
  exact ⟨rfl, halike.regRead .i3c off 4, rfl, rfl, regsExcept_of_regs [] (by rw [regRead_regs, halike.regs]),
    by rw [SameMemory, regRead_mem, halike.mem]⟩

/-! ### The keeper and the hint queue -/

/-- A keeper read answers what a read of its path answers, and changes neither registers nor memory. -/
theorem keeperLoRead_reads {s : State} (x : WindowRead) (halive : alive s.dev = true)
    (hrun : s.dev.keeper.running = true) {post : State → Prop}
    (h : ∀ t : State, t.pending = s.pending → RegsExcept [] s t → SameMemory s t →
      t.dev.die.readData = (regRead .keeper x.off.toNat x.size s.dev).1 →
      t.dev.die.capture = (regRead .keeper x.off.toNat x.size s.dev).2.die.capture → post t) :
    Completes (.keeperLoRead x) s post := by
  refine completes_of_onlyIf (fun d => alive d && d.keeper.running) rfl (by rw [halive, hrun]; rfl) ?_
  exact h _ rfl (regsExcept_of_regs [] (regRead_regs _ _ _ _)) (regRead_mem _ _ _ _) rfl rfl

theorem regValue_hintFifo (d : Dev) :
    regValue d R.PWR_HINT_FIFO = d.power.hints.headD 0 &&& regMask R.PWR_HINT_FIFO :=
  regValue_of_view ⟨by decide +kernel, rfl⟩ rfl

/-- A read of PWR_HINT_FIFO takes the oldest entry (R351). -/
theorem regRead_hintFifo {d : Dev} {path : Path} (hans : readAnswers d path = true)
    (h : NoCapture d path R.PWR_HINT_FIFO) :
    (regRead path R.PWR_HINT_FIFO 4 d).1 = d.power.hints.headD 0 &&& regMask R.PWR_HINT_FIFO ∧
      (regRead path R.PWR_HINT_FIFO 4 d).2.power = { d.power with hints := d.power.hints.drop 1 } := by
  have hlo : regIsLo R.PWR_HINT_FIFO = false := by decide +kernel
  rw [regRead_fresh hans (by decide) h, hlo]
  exact ⟨regValue_hintFifo d, rfl⟩

/-! ### The statement -/

/-- Settles O18: every row reads through `regRead`, whose value the wake and the arrival of a frame or of an I3C match
leave as it is. -/
theorem registerReads : Obligations.RegisterReads := by
  refine ⟨fun d path off size h => by rw [regRead_badForm path d h], fun d off h => regValue_reserved d h,
    fun d => ⟨tickPhase_fields d, grdStatus_fields d, fun c g rest h => regValue_creditLeft c h,
      fun g k rest h => regValue_hintNext h, regValue_kvcFree d, fun i hi hr ht => wslotState_fields d hi hr ht⟩,
    fun s => ⟨fun x halive hrun => ?_, fun path off halign hans h => regRead_fresh_value hans halign h, ?_, ?_, ?_,
      ⟨i3cMatch_eq_power s.dev, i3cMatch_of_no_attempt⟩, fun off h hoff => i3cPrivateRead_reads h hoff, ?_, ?_⟩⟩
  · refine keeperLoRead_reads x halive hrun fun t hpend hregs hmem hdata hcap =>
      ⟨hpend, hregs, hmem, fun hform => by rw [hdata, regRead_badForm _ _ hform], ?_⟩
    intro hsize halign
    have hans := readAnswers_keeper halive hrun
    rw [hsize] at hdata hcap
    refine ⟨fun v hv => by rw [hdata, regRead_captured hans halign hv], fun hnone => ⟨?_, ?_⟩⟩
    · rw [hdata, regRead_fresh_value hans halign hnone]
    · intro hlo d hd hansd
      obtain ⟨cs, hcs⟩ := regRead_fresh_capture hans halign hnone hlo
      exact regRead_front hansd (by omega) (hd.trans (hcap.trans hcs))
  · rintro p f hretrain (hacc | ⟨hpowered, hstopped, htyp, hup, hfate, hans⟩)
    · exact ⟨_, exec_regRd_live hacc, regRdAnswer_spec (arrived_readsAlike p _ s.dev) (arrived_ports p _ s.dev)
        hretrain hacc.2.2.1 hacc.2.2.2.1⟩
    · exact ⟨_, exec_regRd_stopped hpowered hstopped htyp hup hfate hans,
        regRdAnswer_spec (linkIn_readsAlike p s.dev) rfl hretrain hup hfate⟩
  · intro off h
    obtain ⟨t, ht, rfl⟩ := i3cPrivateWrite_offset off h
    have halike := i3cMatch_readsAlike s.dev
    exact ⟨_, ht, rfl, rfl, rfl, regsExcept_of_regs [] halike.regs, halike.mem⟩
  · intro bytes h h4 h8
    obtain ⟨t, ht, rfl⟩ := i3cPrivateWrite_nack h h4 h8
    exact ⟨_, ht, rfl, by simp only [(i3cMatch_readsAlike s.dev).die]⟩
  · intro h hoff
    obtain ⟨t, ht, rfl⟩ := i3cPrivateRead_nack h hoff
    exact ⟨_, ht, rfl, by simp only [(i3cMatch_readsAlike s.dev).die]⟩
  · intro path hans h
    obtain ⟨hdata, hpower⟩ := regRead_hintFifo hans h
    exact ⟨_, rfl, rfl, hdata, hpower, regsExcept_of_regs [] (regRead_regs _ _ _ _), regRead_mem _ _ _ _⟩

end Sys2Proof.Machine
end

section
/-!
PROOFS. Reports that are not fatal (R379 to R383): what the guard does with one, and what it leaves alone.
-/

namespace Sys2Proof.Machine

open Sys2Proof

/-- The registers in which a report shows: the guard's own, below its record windows. -/
def guardReg (o : Nat) : Bool := decide (R.GRD_STATUS ≤ o) && decide (o < R.GRD_REC 0)

theorem guardReg_lostCnt (q : Record) : guardReg (R.GRD_LOST_CNT q.cls.toNat) = true := by
  have h := q.cls.isLt
  simp only [guardReg, Bool.and_eq_true, decide_eq_true_eq]
  simp only [R.GRD_STATUS, R.GRD_LOST_CNT, R.GRD_REC]
  omega

/-- A change of a guard register leaves every other unit's. -/
theorem getReg_setReg_guard {o p : Nat} (hp : guardReg p = false) (d : Dev) (v : W32) (ho : guardReg o = true) :
    getReg (setReg d o v) p = getReg d p := by
  refine getReg_setReg_ne d o v p ?_
  rintro rfl
  rw [ho] at hp
  cases hp

/-! ### Registers outside the guard -/

section Outside

variable {p : Nat} (hp : guardReg p = false)

include hp

theorem getReg_countReport_outside (n : Nat) (d : Dev) : getReg (countReport n d) p = getReg d p := by
  unfold countReport
  split
  · exact getReg_setReg_guard hp d _ rfl
  · split
    · exact getReg_setReg_guard hp d _ rfl
    · rfl

theorem getReg_storeRecord_outside (q : Record) (d : Dev) : getReg (storeRecord q d) p = getReg d p := by
  have hlost : getReg (bump (grdFlag 0 d) (R.GRD_LOST_CNT q.cls.toNat)) p = getReg d p :=
    (getReg_setReg_guard hp _ _ (guardReg_lostCnt q)).trans (getReg_setReg_guard hp d _ rfl)
  unfold storeRecord
  split
  · rfl
  · dsimp only
    split
    · exact hlost
    · exact (getReg_setReg_guard hp _ _ rfl).trans hlost

end Outside

/-! ### The report -/

/-- The device on which the record of a report that merges into none is stored: the report counted, the next sequence
number taken. -/
def reportCounted (r : Report) (d : Dev) : Dev :=
  let e := countReport (errClass r.code) d
  setReg e R.GRD_NEXT_SEQ (nextSeq (getReg e R.GRD_NEXT_SEQ))

/-- The record of a report that merges into none. -/
def freshRecord (r : Report) (d : Dev) : Record :=
  let e := countReport (errClass r.code) d
  recordOf e r d.tick.num (getReg e R.GRD_NEXT_SEQ)

/-- The record with which a report merges is marked and counted. -/
def reportMerged (m : Record) (d : Dev) : Dev :=
  bump (grdFlag 1 { d with guard := { d.guard with
    queue := d.guard.queue.map (fun q => if q.seqnum = m.seqnum then mergeOne q else q) } }) R.GRD_MULTI_CNT

section Contained

variable {r : Report} (hcls : errClass r.code ≠ 2) (d : Dev)

include hcls

/-- A report that is not fatal merges, or is stored as a record of its own. -/
theorem guardTake_contained :
    (∃ m, guardTake r d = (m.seqnum, reportMerged m (countReport (errClass r.code) d))) ∨
      guardTake r d = ((freshRecord r d).seqnum, storeRecord (freshRecord r d) (reportCounted r d)) := by
  have hesc : (recordOf (countReport (errClass r.code) d) r d.tick.num
      (getReg (countReport (errClass r.code) d) R.GRD_NEXT_SEQ)).hwEsc = false := by
    simp [recordOf, hcls]
  unfold guardTake guardTakeAt
  dsimp only
  split
  · rename_i m _
    exact .inl ⟨m, rfl⟩
  · rw [if_neg hcls, hesc]
    exact .inr rfl

/-- It does not reach the power controller. -/
theorem guardTake_power : (guardTake r d).2.power = d.power := by
  rcases guardTake_contained hcls d with ⟨m, h⟩ | h
  · simp [h, reportMerged, grdFlag]
  · simp [h, reportCounted]

/-- It does not stop the die. -/
theorem guardTake_stopped : (guardTake r d).2.guard.stopped = d.guard.stopped := by
  rcases guardTake_contained hcls d with ⟨m, h⟩ | h
  · rw [h]
    simp [reportMerged, grdFlag]
  · rw [h]
    unfold storeRecord reportCounted
    repeat' split
    all_goals simp [grdFlag]

/-- No register of another unit changes. -/
theorem getReg_guardTake {p : Nat} (hp : guardReg p = false) : getReg (guardTake r d).2 p = getReg d p := by
  rcases guardTake_contained hcls d with ⟨m, h⟩ | h
  · rw [h]
    calc getReg (reportMerged m (countReport (errClass r.code) d)) p
        = getReg (grdFlag 1 _) p := getReg_setReg_guard hp _ _ rfl
      _ = getReg (countReport (errClass r.code) d) p := getReg_setReg_guard hp _ _ rfl
      _ = getReg d p := getReg_countReport_outside hp _ d
  · rw [h]
    calc getReg (storeRecord (freshRecord r d) (reportCounted r d)) p
        = getReg (reportCounted r d) p := getReg_storeRecord_outside hp _ _
      _ = getReg (countReport (errClass r.code) d) p := getReg_setReg_guard hp _ _ rfl
      _ = getReg d p := getReg_countReport_outside hp _ d

/-- A report of a code without an address is stored behind the records of a queue that has room. -/
theorem guardTake_queue (haddr : errHasAddr r.code = false) (hroom : d.guard.queue.length < 64) :
    (guardTake r d).2.guard.queue = d.guard.queue ++ [freshRecord r d] := by
  have hmerge : mergesInto (countReport (errClass r.code) d) r = none := by simp [mergesInto, haddr]
  have hguard : (reportCounted r d).guard = d.guard := by simp [reportCounted]
  have h : (guardTake r d).2 = storeRecord (freshRecord r d) (reportCounted r d) := by
    unfold guardTake guardTakeAt
    simp only [hmerge, if_neg hcls]
    rw [show (recordOf (countReport (errClass r.code) d) r d.tick.num
      (getReg (countReport (errClass r.code) d) R.GRD_NEXT_SEQ)).hwEsc = false by simp [recordOf, hcls]]
    rfl
  rw [h, storeRecord, if_pos (by rwa [hguard])]
  exact congrArg (fun g : Guard => g.queue ++ [freshRecord r d]) hguard

end Contained

/-- Where a record stands or is lost, the count of corrected reports does not show it. -/
theorem getReg_storeRecord_corrCnt (q : Record) (d : Dev) :
    getReg (storeRecord q d) R.GRD_CORR_CNT = getReg d R.GRD_CORR_CNT := by
  have hlost : R.GRD_CORR_CNT ≠ R.GRD_LOST_CNT q.cls.toNat := by
    simp only [R.GRD_CORR_CNT, R.GRD_LOST_CNT]
    omega
  have hflag : getReg (grdFlag 0 d) R.GRD_CORR_CNT = getReg d R.GRD_CORR_CNT := getReg_setReg_ne _ _ _ _ (by decide)
  unfold storeRecord
  split
  · rfl
  · dsimp only
    split
    · exact (getReg_setReg_ne _ _ _ _ hlost).trans hflag
    · exact (getReg_setReg_ne _ _ _ _ (by decide)).trans ((getReg_setReg_ne _ _ _ _ hlost).trans hflag)

/-- A report of the corrected class counts in GRD_CORR_CNT (R379). -/
theorem getReg_guardTake_corrCnt {r : Report} (hcls : errClass r.code = 0) (d : Dev) :
    getReg (guardTake r d).2 R.GRD_CORR_CNT = counted (getReg d R.GRD_CORR_CNT) 1 := by
  have hcount : getReg (countReport (errClass r.code) d) R.GRD_CORR_CNT = counted (getReg d R.GRD_CORR_CNT) 1 := by
    rw [hcls]
    exact getReg_bump_self d _
  rw [← hcount]
  rcases guardTake_contained (by rw [hcls]; decide) d with ⟨m, h⟩ | h
  · rw [h]
    exact (getReg_setReg_ne _ _ _ _ (by decide)).trans (getReg_setReg_ne _ _ _ _ (by decide))
  · rw [h]
    exact (getReg_storeRecord_corrCnt _ _).trans (getReg_setReg_ne _ _ _ _ (by decide))

end Sys2Proof.Machine
end

section
/-!
PROOFS. Droop, the array halt, and HBM (R24, R112, R303, R305, R342, R346, R347).
-/

namespace Sys2Proof.Machine

open Sys2Proof

/-- A row that acts where a condition holds leaves the state as it is where the condition fails. -/
theorem completes_same_of_onlyIf {i : Instr} (c : Dev → Bool) {f : Dev → Dev} {s : State}
    (hi : exec i s = onDev (fun d => onlyIf (c d) f d) s) (hc : c s.dev = false) : Completes i s (fun t => t = s) := by
  refine completes_of_onDev hi ?_
  rw [hc]
  rfl

/-- What each member of a list leaves as it is, the fold over the list leaves. -/
theorem foldl_fixed_of_mem {α : Type} {f : Dev → α → Dev} {d : Dev} {xs : List α} (h : ∀ x ∈ xs, f d x = d) :
    xs.foldl f d = d := by
  induction xs with
  | nil => rfl
  | cons x xs ih =>
    rw [List.foldl_cons, h x List.mem_cons_self]
    exact ih fun y hy => h y (List.mem_cons_of_mem x hy)

/-! ### Stall cycles -/

@[simp] theorem stallRunning_regs (cause n : Nat) (d : Dev) : (stallRunning cause n d).regs = d.regs :=
  foldl_keep (·.regs) _ _ _ (fun _ _ => rfl)
@[simp] theorem stallRunning_mem (cause n : Nat) (d : Dev) : (stallRunning cause n d).mem = d.mem :=
  foldl_keep (·.mem) _ _ _ (fun _ _ => rfl)
@[simp] theorem stallRunning_tick (cause n : Nat) (d : Dev) : (stallRunning cause n d).tick = d.tick :=
  foldl_keep (·.tick) _ _ _ (fun _ _ => rfl)
@[simp] theorem stallRunning_power (cause n : Nat) (d : Dev) : (stallRunning cause n d).power = d.power :=
  foldl_keep (·.power) _ _ _ (fun _ _ => rfl)

/-! ### Droop (R342, R346) -/

/-- A request of the core target shows neither in the droop's state nor in a voltage held. -/
theorem requestCore_droop (d : Dev) : (requestCore d).power.stretching = d.power.stretching ∧
    (requestCore d).power.droopFlag = d.power.droopFlag ∧ (requestCore d).power.stretchStart = d.power.stretchStart ∧
    (requestCore d).power.leftPoint = d.power.leftPoint ∧ (requestCore d).power.holdMv = d.power.holdMv := by
  unfold requestCore
  split <;> exact ⟨rfl, rfl, rfl, rfl, rfl⟩

section Miss

variable (target : Nat) (d : Dev)

/-- A step that is given up is recorded, and counted in PWR_DVFS_ABANDON_CNT alone outside the guard. -/
theorem getReg_dvfsMiss {p : Nat} (hp : guardReg p = false) :
    getReg (dvfsMiss target true d) p = getReg (bump d R.PWR_DVFS_ABANDON_CNT) p :=
  getReg_guardTake (show errClass 0x02 ≠ 2 by decide) _ hp

theorem dvfsMiss_power : (dvfsMiss target true d).power = d.power :=
  guardTake_power (show errClass 0x02 ≠ 2 by decide) _

@[simp] theorem dvfsMiss_mem : (dvfsMiss target true d).mem = d.mem := guardTake_mem _ _

end Miss

/-- The droop flag is up, and a stretch begins and is counted. -/
def stretchBegun (d : Dev) : Dev :=
  bump { markRate d with power := { (markRate d).power with
    stretching := true, stretchStart := d.tick.time, droopFlag := true } } R.PWR_DROOP_CNT

/-- With no down-step waiting for its acknowledgement a droop gives none up. -/
theorem abandonDown_of_none {d : Dev} (h : d.power.leftPoint = none ∨ d.power.acked = true) : abandonDown d = d := by
  unfold abandonDown
  rcases h with h | h
  · rw [h]
  · split
    · rfl
    · rw [if_pos h]

/-- The down-step from a point is given up, and the point's voltage held (log 110). -/
def downGivenUp (q : Nat) (d : Dev) : Dev :=
  { dvfsMiss q true d with power := { d.power with leftPoint := none, holdMv := pointMv q } }

theorem downGivenUp_mem (q : Nat) (d : Dev) : (downGivenUp q d).mem = d.mem := by
  rw [downGivenUp, dvfsMiss_mem]

theorem getReg_downGivenUp (q : Nat) (d : Dev) {p : Nat} (hp : guardReg p = false) :
    getReg (downGivenUp q d) p = getReg (bump d R.PWR_DVFS_ABANDON_CNT) p := by
  rw [← getReg_dvfsMiss q d hp]
  rfl

/-- A down-step whose lower voltage is not acknowledged is given up (R342). -/
theorem abandonDown_of_some {d : Dev} {q : Nat} (hleft : d.power.leftPoint = some q) (hack : d.power.acked = false) :
    abandonDown d = requestCore (downGivenUp q d) := by
  unfold abandonDown
  rw [hleft]
  simp only [hack, dvfsMiss_power, downGivenUp, Bool.false_eq_true, if_false]

theorem exec_droopCrossing {s : State} (halive : alive s.dev = true) (h : s.dev.power.stretching = false) :
    exec .droopCrossing s = .next { s with dev := abandonDown (stretchBegun s.dev) } := by
  show execDroopCrossing s = _
  simp [execDroopCrossing, onDev, halive, h]
  rfl

theorem getReg_stretchBegun (d : Dev) (p : Nat) : getReg (stretchBegun d) p = getReg (bump d R.PWR_DROOP_CNT) p := by
  rw [stretchBegun, getReg_bump, getReg_bump]
  rfl

/-- A droop with no down-step to give up counts in PWR_DROOP_CNT and changes no other register. -/
theorem droopCrossing_plain {s : State} (halive : alive s.dev = true) (h : s.dev.power.stretching = false)
    (hnone : s.dev.power.leftPoint = none ∨ s.dev.power.acked = true) :
    exec .droopCrossing s = .next { s with dev := stretchBegun s.dev } := by
  rw [exec_droopCrossing halive h, abandonDown_of_none (d := stretchBegun s.dev) hnone]

/-- A droop that gives a down-step up. -/
theorem droopCrossing_abandons {s : State} {q : Nat} (halive : alive s.dev = true)
    (h : s.dev.power.stretching = false) (hleft : s.dev.power.leftPoint = some q) (hack : s.dev.power.acked = false) :
    exec .droopCrossing s = .next { s with dev := requestCore (downGivenUp q (stretchBegun s.dev)) } := by
  rw [exec_droopCrossing halive h, abandonDown_of_some (d := stretchBegun s.dev) hleft hack]

/-- A droop (R342, R346). -/
theorem droopCrossing_begins {s : State} (halive : alive s.dev = true) (h : s.dev.power.stretching = false) :
    Completes .droopCrossing s (fun t => t.pending = s.pending ∧ SameMemory s t ∧
      t.dev.power.stretching = true ∧ t.dev.power.droopFlag = true ∧ t.dev.power.stretchStart = s.dev.tick.time ∧
      getReg t.dev R.PWR_DROOP_CNT = counted (getReg s.dev R.PWR_DROOP_CNT) 1 ∧
      ((s.dev.power.leftPoint = none ∨ s.dev.power.acked = true) → RegsExcept [R.PWR_DROOP_CNT] s t) ∧
      ∀ q, s.dev.power.leftPoint = some q → s.dev.power.acked = false → t.dev.power.leftPoint = none ∧
        t.dev.power.holdMv = pointMv q ∧
        getReg t.dev R.PWR_DVFS_ABANDON_CNT = counted (getReg s.dev R.PWR_DVFS_ABANDON_CNT) 1) := by
  have hcount : getReg (stretchBegun s.dev) R.PWR_DROOP_CNT = counted (getReg s.dev R.PWR_DROOP_CNT) 1 := by
    rw [getReg_stretchBegun, getReg_bump_self]
  by_cases hnone : s.dev.power.leftPoint = none ∨ s.dev.power.acked = true
  · refine ⟨_, droopCrossing_plain halive h hnone, rfl, rfl, rfl, rfl, rfl, hcount,
      fun _ => regsExcept_bump rfl rfl, fun q hleft hack => ?_⟩
    rw [hleft, hack] at hnone
    simp at hnone
  · obtain ⟨hsome, hack⟩ := not_or.1 hnone
    obtain ⟨q, hleft⟩ := Option.ne_none_iff_exists'.1 hsome
    rw [Bool.not_eq_true] at hack
    obtain ⟨hstretch, hflag, hstart, hpoint, hhold⟩ := requestCore_droop (downGivenUp q (stretchBegun s.dev))
    refine ⟨_, droopCrossing_abandons halive h hleft hack, ?_⟩
    dsimp only [SameMemory]
    refine ⟨rfl, by rw [requestCore_mem, downGivenUp_mem]; rfl, hstretch, hflag, hstart, ?_,
      fun hn => absurd hn hnone, fun q' hleft' _ => ?_⟩
    · rw [getReg_requestCore, getReg_downGivenUp q _ rfl, getReg_bump, if_neg (by decide), hcount]
    · obtain rfl : q = q' := Option.some.inj (hleft.symm.trans hleft')
      refine ⟨hpoint, hhold, ?_⟩
      rw [getReg_requestCore, getReg_downGivenUp q _ rfl, getReg_bump_self, getReg_stretchBegun, getReg_bump,
        if_neg (by decide)]

/-! ### The end of a stretch (R346) -/

/-- A pair of counters holds the sum modulo 2^64. -/
theorem getReg64_bump64 (d : Dev) {lo hi : Nat} (h : lo ≠ hi) (n : Nat) :
    getReg64 (bump64 d lo hi n) lo hi = (getReg64 d lo hi + n) % 2 ^ 64 := by
  unfold bump64
  generalize getReg64 d lo hi + n = v
  simp only [getReg64, getReg_setReg64, if_neg h, if_true, BitVec.toNat_ofNat]
  omega

/-- A counted pair leaves every other register. -/
theorem getReg_bump64_ne (d : Dev) {lo hi p : Nat} (n : Nat) (h : p ∉ [lo, hi]) :
    getReg (bump64 d lo hi n) p = getReg d p := by
  simp only [List.mem_cons, List.not_mem_nil, or_false, not_or] at h
  rw [bump64, getReg_setReg64, if_neg h.2, if_neg h.1]

/-- The stretch has run to its end, its cycles counted. -/
def stretchCounted (n : Nat) (d : Dev) : Dev :=
  stallRunning 2 n (bump64 (markRate (advanceTo (d.power.stretchStart + 2 * n * 1000 / freqMhz d) d))
    R.PWR_STRETCH_LO R.PWR_STRETCH_HI n)

@[simp] theorem markRate_regs (d : Dev) : (markRate d).regs = d.regs := rfl
@[simp] theorem markRate_mem (d : Dev) : (markRate d).mem = d.mem := rfl
@[simp] theorem markRate_tick (d : Dev) : (markRate d).tick = d.tick := rfl

theorem stretchCounted_regs (n : Nat) (d : Dev) :
    (stretchCounted n d).regs = (bump64 d R.PWR_STRETCH_LO R.PWR_STRETCH_HI n).regs := by
  rw [stretchCounted, stallRunning_regs]
  unfold bump64 setReg64 setReg getReg64 getReg
  simp

theorem getReg64_congr {d e : Dev} (h : e.regs = d.regs) (lo hi : Nat) : getReg64 e lo hi = getReg64 d lo hi := by
  simp only [getReg64, getReg_congr h]

theorem stretchEnd_runs {s : State} {n : Nat} (halive : alive s.dev = true) (h : s.dev.power.stretching = true)
    (hn : regFld s.dev R.PWR_DROOP_CFG 27 16 ≤ n) :
    Completes (.stretchEnd n) s (fun t => t.pending = s.pending ∧ SameMemory s t ∧
      t.dev.power.stretching = false ∧ t.dev.power.droopFlag = false ∧ t.dev.power.droopClear = t.dev.tick.time ∧
      s.dev.tick.time ≤ t.dev.tick.time ∧
      getReg64 t.dev R.PWR_STRETCH_LO R.PWR_STRETCH_HI =
        (getReg64 s.dev R.PWR_STRETCH_LO R.PWR_STRETCH_HI + n) % 2 ^ 64 ∧
      RegsExcept [R.PWR_STRETCH_LO, R.PWR_STRETCH_HI] s t) := by
  have hregs := stretchCounted_regs n s.dev
  refine completes_of_onlyIf
    (fun d => alive d && d.power.stretching && decide (regFld d R.PWR_DROOP_CFG 27 16 ≤ n))
    (f := fun d => let e := stretchCounted n d
      { e with power := { e.power with stretching := false, droopFlag := false, droopClear := e.tick.time } })
    rfl (by simp [halive, h, hn]) ⟨rfl, ?_, rfl, rfl, rfl, ?_, ?_, fun o ho => ?_⟩
  · simp [SameMemory, stretchCounted]
  · simp only [stretchCounted, stallRunning_tick, bump64_tick, markRate_tick, advanceTo_time]
    exact le_max_right _ _
  · exact (getReg64_congr hregs _ _).trans (getReg64_bump64 s.dev (by decide) n)
  · exact (getReg_congr hregs o).trans (getReg_bump64_ne s.dev n ho)

/-! ### The array halt (R112, R347) -/

theorem arrayHalt_begins {s : State} (halive : alive s.dev = true) (h : s.dev.power.halted = false) :
    Completes .arrayHalt s (fun t => t.pending = s.pending ∧ SameMemory s t ∧
      t.dev.power.halted = true ∧ (∀ c : CellId, c ∈ t.dev.tick.waves) ∧
      getReg t.dev R.PWR_HALT_CNT = counted (getReg s.dev R.PWR_HALT_CNT) 1 ∧
      getReg t.dev R.GRD_CORR_CNT = counted (getReg s.dev R.GRD_CORR_CNT) 1 ∧ t.dev.guard.stopped = false) := by
  have hcorrected : errClass (mkReport 0x04 unitPower).code = 0 := by decide
  have hcontained : errClass (mkReport 0x04 unitPower).code ≠ 2 := by decide
  obtain ⟨-, hgo, -⟩ := (alive_iff s.dev).1 halive
  refine completes_of_onlyIf (fun d => alive d && !d.power.halted) rfl (by simp [halive, h])
    ⟨rfl, guardTake_mem _ _, ?_, fun c => ?_, ?_, ?_, ?_⟩
  · exact congrArg (·.halted) (guardTake_power hcontained _)
  · simp only [report_tick]
    exact List.mem_finRange c
  · exact (getReg_guardTake hcontained _ rfl).trans (getReg_bump_self _ _)
  · exact (getReg_guardTake_corrCnt hcorrected _).trans (congrArg (counted · 1) (getReg_setReg_ne _ _ _ _ (by decide)))
  · exact (guardTake_stopped hcontained _).trans hgo

/-- The halt is over, and its restart counted as stall cycles. -/
def haltEnded (d : Dev) : Dev := stallRunning 3 128 { d with power := { d.power with halted := false } }

theorem haltEnded_halted (d : Dev) : (haltEnded d).power.halted = false := by rw [haltEnded, stallRunning_power]

theorem haltEnd_runs {s : State} (halive : alive s.dev = true) (h : s.dev.power.halted = true)
    (hflag : s.dev.power.droopFlag = false) :
    Completes .haltEnd s (fun t => t.pending = s.pending ∧ SameMemory s t ∧ t.dev.power.halted = false ∧
      RegsExcept [] s t ∧ (s.dev.power.droopClear ≠ 0 → s.dev.power.droopClear + 2000 ≤ t.dev.tick.time)) := by
  refine completes_of_onlyIf (fun d => alive d && d.power.halted && !d.power.droopFlag)
    (f := fun d => haltEnded (if d.power.droopClear = 0 then d else advanceTo (d.power.droopClear + 2000) d))
    rfl (by simp [halive, h, hflag]) ?_
  by_cases hclear : s.dev.power.droopClear = 0
  · rw [if_pos hclear]
    exact ⟨rfl, stallRunning_mem _ _ _, by rw [haltEnded_halted], regsExcept_of_regs [] (stallRunning_regs _ _ _),
      fun hne => absurd hclear hne⟩
  · rw [if_neg hclear]
    refine ⟨rfl, (stallRunning_mem _ _ _).trans (advanceTo_mem _ _), by rw [haltEnded_halted],
      regsExcept_of_regs [] ((stallRunning_regs _ _ _).trans (advanceTo_regs _ _)), fun _ => ?_⟩
    have htime : (haltEnded (advanceTo (s.dev.power.droopClear + 2000) s.dev)).tick.time =
        max (s.dev.power.droopClear + 2000) s.dev.tick.time := by
      rw [haltEnded, stallRunning_tick, advanceTo_time]
    exact htime ▸ le_max_left _ _

/-! ### What the weight engine's resends leave (R285) -/

/-- What stands in HBM and the bursts in flight. -/
def hbmSide (d : Dev) : List Host.Cell × Tbl Nat := (d.mem.hbm, d.mem.hbmOut)

theorem hbmSide_ext {d e : Dev} (hhbm : e.mem.hbm = d.mem.hbm) (hout : e.mem.hbmOut = d.mem.hbmOut) :
    hbmSide e = hbmSide d := by
  rw [hbmSide, hhbm, hout, hbmSide]

theorem hbmSide_congr {d e : Dev} (h : e.mem = d.mem) : hbmSide e = hbmSide d := by rw [hbmSide, h, hbmSide]

theorem hbmSide_ite_syncAdd (b : Bool) (d : Dev) (i : Nat) :
    hbmSide (if b = true then syncAdd d i 1 else d) = hbmSide d := by
  split <;> rfl

theorem hbmSide_writeRecord (d : Dev) (r : Nat) (ctr : W32) (c : Completion) (add : Option (Nat × W32)) :
    hbmSide (writeRecord d r ctr c add) = hbmSide d := by
  have hstored : hbmSide (recordStored d r ctr c) = hbmSide d :=
    hbmSide_ext (by simp [recordStored]) (by simp [recordStored, hiveWrite])
  cases add with
  | none => exact (hbmSide_ite_syncAdd _ (recordStored d r ctr c) _).trans hstored
  | some a => exact (hbmSide_ite_syncAdd _ (syncAdd (recordStored d r ctr c) a.1 a.2) _).trans hstored

theorem sendWgt_mem (p : Option PortId) (t : Nat) (msg : List Byte) (d : Dev) : (sendWgt p t msg d).mem = d.mem := by
  unfold sendWgt
  cases p with
  | none => rfl
  | some p => exact sendAll_mem _ _ _

theorem hbmSide_failLoad (i reason : Nat) (d : Dev) : hbmSide (failLoad i reason d) = hbmSide d := by
  have hsent := hbmSide_congr (sendWgt_mem (wSlot d i).down (wSlot d i).tenant
    (wgtMsg 4 0 (wSlot d i).tenant (wSlot d i).version 0) d)
  unfold failLoad cmdRecord?
  dsimp only
  split
  · exact (hbmSide_writeRecord _ _ _ _ _).trans hsent
  · exact hsent

theorem hbmSide_nackChunk (i reason index : Nat) (d : Dev) : hbmSide (nackChunk i reason index d) = hbmSide d := by
  unfold nackChunk
  dsimp only
  split
  · rfl
  · split
    · exact hbmSide_failLoad i 2 d
    · exact hbmSide_congr (sendWgt_mem _ _ _ (updSlot i _ d))

theorem hbmSide_resendChunk (i : Nat) (d : Dev) (k : Nat) : hbmSide (resendChunk i d k) = hbmSide d := by
  unfold resendChunk
  dsimp only
  split
  · rfl
  · generalize (wSlot d i).relays.any (fun r => decide (r.index = k)) = kept
    generalize (if kept = true then relayBase d else (wSlot d i).dest + (k - 1) * 0x100000) = a
    split
    · split
      · exact hbmSide_nackChunk i 1 k (updSlot i _ d)
      · exact hbmSide_congr (sendWgt_mem _ _ _ (updSlot i _ d))
    · rfl

/-- Chunks that are sent again come out of HBM and go into none of it. -/
theorem hbmSide_serveResends (d : Dev) : hbmSide (serveResends d) = hbmSide d :=
  foldl_keep hbmSide _ _ _ fun _ i => foldl_keep hbmSide _ _ _ (hbmSide_resendChunk i)

/-- With no chunk asked for again nothing is sent. -/
theorem serveResends_idle {d : Dev} (h : ∀ i, i < 8 → (wSlot d i).resend = []) : serveResends d = d :=
  foldl_fixed_of_mem fun i hi => by rw [h i (List.mem_range.1 hi)]; rfl

/-! ### Requests of HBM (R24, R303) -/

/-- The bursts in flight of a cell at a controller. -/
def setBursts (k n : Nat) (d : Dev) : Dev := { d with mem := { d.mem with hbmOut := tblSet 0 d.mem.hbmOut k n } }

theorem bursts_setBursts (k n j : Nat) (d : Dev) :
    tblGet 0 (setBursts k n d).mem.hbmOut j = if j = k then n else tblGet 0 d.mem.hbmOut j :=
  tblGet_set 0 d.mem.hbmOut k n j

section Request

variable {c : CellId} {a n : Nat} {write : Bool}

/-- What a request or a delivery needs: the units of R24 act, or for bursts on their way the ports (R385). -/
def requestRuns (c : CellId) (given : Bool) (d : Dev) : Bool :=
  if given then portsRun d else alive d && cellClocked d c

/-- A request that does not run, or that names a port that is not ready, changes nothing. -/
theorem hbmRequest_idle {s : State} {given : Bool} (h : hbmReady s.dev (hbmPort a) = false) :
    Completes (.hbmRequest c a write n given) s (fun t => t = s) := by
  refine ⟨s, ?_, rfl⟩
  show execHbmRequest c a write n given s = _
  simp [execHbmRequest, h, onDev]

/-- An address beyond the stacks is a fault of the request (log 85). -/
theorem hbmRequest_beyond {s : State} (hready : hbmReady s.dev (hbmPort a) = true) (ha : hbmCapacity s.dev ≤ a)
    (hruns : requestRuns c false s.dev = true) : exec (.hbmRequest c a write n false) s = .fault .noHbmAddress := by
  have hok : (alive s.dev && cellClocked s.dev c) = true := hruns
  show execHbmRequest c a write n false s = _
  simp [execHbmRequest, hready, ha, hok]

/-- Nothing is delivered from an address beyond the stacks. -/
theorem hbmDelivery_beyond {s : State} (ha : hbmCapacity s.dev ≤ a) :
    Completes (.hbmRequest c a write n true) s (fun t => t = s) := by
  refine ⟨s, ?_, rfl⟩
  show execHbmRequest c a write n true s = _
  simp [execHbmRequest, ha, onDev]

/-- A request or a delivery within the stacks takes effect. -/
theorem exec_hbmRequest {s : State} {given : Bool} (hready : hbmReady s.dev (hbmPort a) = true)
    (ha : a < hbmCapacity s.dev) (hruns : requestRuns c given s.dev = true) :
    exec (.hbmRequest c a write n given) s = onDev (fun d =>
      let e := hbmRequest c (hbmPort a) write n given d
      if given && alive e then serveResends e else e) s := by
  have hok : (if given = true then portsRun s.dev else alive s.dev && cellClocked s.dev c) = true := hruns
  have hin : ¬ hbmCapacity s.dev ≤ a := Nat.not_le.mpr ha
  show execHbmRequest c a write n given s = _
  simp only [execHbmRequest, hready, hin, decide_false, Bool.not_false, Bool.and_true, Bool.and_false, hok, onDev]
  rfl

variable (c a n write)

/-- What a request leaves: HBM, every other cell's bursts and, with no chunk asked for again, every register. -/
def RequestKeeps (s t : State) : Prop :=
  t.pending = s.pending ∧ t.dev.mem.hbm = s.dev.mem.hbm ∧
    ((∀ i, i < 8 → (wSlot s.dev i).resend = []) → RegsExcept [] s t) ∧
    ∀ k, k ≠ hbmOutKey c (hbmPort a) write → tblGet 0 t.dev.mem.hbmOut k = tblGet 0 s.dev.mem.hbmOut k

variable {c a n write}

/-- A request within the credit takes its bursts from it. -/
theorem hbmRequest_takes {s : State} (hready : hbmReady s.dev (hbmPort a) = true) (ha : a < hbmCapacity s.dev)
    (hruns : requestRuns c false s.dev = true)
    (hcredit : tblGet 0 s.dev.mem.hbmOut (hbmOutKey c (hbmPort a) write) + burstsOf n ≤ hbmCredit write) :
    Completes (.hbmRequest c a write n false) s (fun t => RequestKeeps c a write s t ∧
      tblGet 0 t.dev.mem.hbmOut (hbmOutKey c (hbmPort a) write) =
        tblGet 0 s.dev.mem.hbmOut (hbmOutKey c (hbmPort a) write) + burstsOf n) := by
  refine completes_of_onDev (exec_hbmRequest hready ha hruns) ?_
  simp only [hbmRequest, Bool.false_eq_true, if_false, Bool.false_and, if_pos hcredit]
  exact ⟨⟨rfl, rfl, fun _ => regsExcept_of_regs [] rfl, fun k hk => (bursts_setBursts _ _ k s.dev).trans (if_neg hk)⟩,
    (bursts_setBursts _ _ _ s.dev).trans (if_pos rfl)⟩

/-- A request beyond the credit is not taken. -/
theorem hbmRequest_refused {s : State} (hready : hbmReady s.dev (hbmPort a) = true) (ha : a < hbmCapacity s.dev)
    (hruns : requestRuns c false s.dev = true)
    (hcredit : hbmCredit write < tblGet 0 s.dev.mem.hbmOut (hbmOutKey c (hbmPort a) write) + burstsOf n) :
    Completes (.hbmRequest c a write n false) s (fun t => t = s) := by
  refine completes_of_onDev (exec_hbmRequest hready ha hruns) ?_
  simp only [hbmRequest, Bool.false_eq_true, if_false, Bool.false_and, if_neg (Nat.not_le.mpr hcredit)]

/-- What the delivery of n bursts of k leaves, whether or not chunks are sent again after it. -/
theorem delivery_leaves {s : State} {k m : Nat} {d : Dev}
    (hd : d = serveResends (setBursts k m s.dev) ∨ d = setBursts k m s.dev) :
    d.mem.hbm = s.dev.mem.hbm ∧ (∀ j, tblGet 0 d.mem.hbmOut j = if j = k then m else tblGet 0 s.dev.mem.hbmOut j) ∧
      ((∀ i, i < 8 → (wSlot s.dev i).resend = []) → d.regs = s.dev.regs) := by
  have hside : hbmSide d = hbmSide (setBursts k m s.dev) := by
    rcases hd with hd | hd
    · rw [hd, hbmSide_serveResends]
    · rw [hd]
  have hhbm : d.mem.hbm = s.dev.mem.hbm := congrArg Prod.fst hside
  have hout : d.mem.hbmOut = (setBursts k m s.dev).mem.hbmOut := congrArg Prod.snd hside
  refine ⟨hhbm, fun j => ?_, fun hidle => ?_⟩
  · rw [hout, bursts_setBursts]
  · rcases hd with hd | hd
    · rw [hd, serveResends_idle (d := setBursts k m s.dev) hidle, setBursts]
    · rw [hd, setBursts]

theorem serves_or_keeps (b : Bool) (d : Dev) :
    (if b = true then serveResends d else d) = serveResends d ∨ (if b = true then serveResends d else d) = d :=
  ite_eq_or_eq _ _ _

/-- A delivery gives its bursts back. -/
theorem hbmDelivery_returns {s : State} (hready : hbmReady s.dev (hbmPort a) = true) (ha : a < hbmCapacity s.dev)
    (hruns : requestRuns c true s.dev = true)
    (hout : burstsOf n ≤ tblGet 0 s.dev.mem.hbmOut (hbmOutKey c (hbmPort a) write)) :
    Completes (.hbmRequest c a write n true) s (fun t => RequestKeeps c a write s t ∧
      tblGet 0 t.dev.mem.hbmOut (hbmOutKey c (hbmPort a) write) =
        tblGet 0 s.dev.mem.hbmOut (hbmOutKey c (hbmPort a) write) - burstsOf n) := by
  refine completes_of_onDev (exec_hbmRequest hready ha hruns) ?_
  have hreq : hbmRequest c (hbmPort a) write n true s.dev = setBursts (hbmOutKey c (hbmPort a) write)
      (tblGet 0 s.dev.mem.hbmOut (hbmOutKey c (hbmPort a) write) - burstsOf n) s.dev := by
    rw [hbmRequest, if_pos rfl, if_pos hout, setBursts]
  dsimp only [RequestKeeps]
  rw [hreq]
  obtain ⟨hhbm, hbursts, hregs⟩ := delivery_leaves (serves_or_keeps (true && alive (setBursts _ _ s.dev)) _)
  exact ⟨⟨rfl, hhbm, fun hidle => regsExcept_of_regs [] (hregs hidle),
    fun j hj => (hbursts j).trans (if_neg hj)⟩, (hbursts _).trans (if_pos rfl)⟩

/-- A delivery of more than is in flight changes nothing, where no chunk is asked for again. -/
theorem hbmDelivery_none {s : State} (hready : hbmReady s.dev (hbmPort a) = true) (ha : a < hbmCapacity s.dev)
    (hruns : requestRuns c true s.dev = true)
    (hout : tblGet 0 s.dev.mem.hbmOut (hbmOutKey c (hbmPort a) write) < burstsOf n)
    (hidle : ∀ i, i < 8 → (wSlot s.dev i).resend = []) :
    Completes (.hbmRequest c a write n true) s (fun t => t = s) := by
  refine completes_of_onDev (exec_hbmRequest hready ha hruns) ?_
  have hreq : hbmRequest c (hbmPort a) write n true s.dev = s.dev := by
    rw [hbmRequest, if_pos rfl, if_neg (Nat.not_le.mpr hout)]
  dsimp only
  rw [hreq, serveResends_idle hidle]
  split <;> rfl

end Request

/-! ### Refresh (R305) -/

/-- Stall cycles of a cell show in the telemetry, in the late ticks and in the next free value alone. -/
theorem stallCell_rest (d : Dev) (c : CellId) : stallCell d c =
    { d with tel := (stallCell d c).tel, freeIdx := (stallCell d c).freeIdx
             ent := { d.ent with late := (stallCell d c).ent.late } } := by
  unfold stallCell
  split <;> rfl

/-- What the stall cycles of a refresh leave. -/
theorem stallCells_keep (cs : List CellId) (d : Dev) :
    (cs.foldl stallCell d).regs = d.regs ∧ (cs.foldl stallCell d).mem = d.mem ∧
      (cs.foldl stallCell d).cells = d.cells ∧ (cs.foldl stallCell d).ent.reqs = d.ent.reqs ∧
      (cs.foldl stallCell d).ent.tokens = d.ent.tokens :=
  ⟨foldl_keep (·.regs) _ _ _ fun d c => by rw [stallCell_rest],
    foldl_keep (·.mem) _ _ _ fun d c => by rw [stallCell_rest],
    foldl_keep (·.cells) _ _ _ fun d c => by rw [stallCell_rest],
    foldl_keep (·.ent.reqs) _ _ _ fun d c => by rw [stallCell_rest],
    foldl_keep (·.ent.tokens) _ _ _ fun d c => by rw [stallCell_rest]⟩

/-- A port whose refresh shows, before the stall cycles that it costs. -/
def refreshShown (p : Fin 8) (temp : BitVec 12) (d : Dev) : Dev :=
  let e := setRegFld (setReg d (R.HBM_TEMP p.val) (temp.zeroExtend 32)) (R.HBM_STATUS p.val) 6 5
    (Config.refreshRate temp % 3)
  bumpBy (freshNat e).2 (R.HBM_REF_STALL_CNT p.val) (freshNat e).1

theorem refresh_eq (p : Fin 8) (temp : BitVec 12) (d : Dev) :
    refresh p temp d = (List.finRange 64).foldl stallCell (refreshShown p temp d) := rfl

/-- The registers of a port in which its refresh shows. -/
theorem getReg_refreshShown (p : Fin 8) (temp : BitVec 12) (d : Dev) :
    getReg (refreshShown p temp d) (R.HBM_TEMP p.val) = temp.zeroExtend 32 ∧
      getReg (refreshShown p temp d) (R.HBM_STATUS p.val) =
        setFld (getReg d (R.HBM_STATUS p.val)) 6 5 (Config.refreshRate temp % 3) ∧
      ∀ o, o ∉ [R.HBM_TEMP p.val, R.HBM_STATUS p.val, R.HBM_REF_STALL_CNT p.val] →
        getReg (refreshShown p temp d) o = getReg d o := by
  have hts : R.HBM_TEMP p.val ≠ R.HBM_STATUS p.val := by simp [R.HBM_TEMP, R.HBM_STATUS]
  have htc : R.HBM_TEMP p.val ≠ R.HBM_REF_STALL_CNT p.val := by simp [R.HBM_TEMP, R.HBM_REF_STALL_CNT]
  have hsc : R.HBM_STATUS p.val ≠ R.HBM_REF_STALL_CNT p.val := by simp [R.HBM_STATUS, R.HBM_REF_STALL_CNT]
  unfold refreshShown
  refine ⟨?_, ?_, fun o ho => ?_⟩
  · rw [getReg_bumpBy, if_neg htc]
    exact (getReg_setReg_ne _ _ _ _ hts).trans (getReg_setReg_self _ _ _)
  · rw [getReg_bumpBy, if_neg hsc]
    refine (getReg_setReg_self _ _ _).trans ?_
    rw [getReg_setReg_ne _ _ _ _ hts.symm]
  · simp only [List.mem_cons, List.not_mem_nil, or_false, not_or] at ho
    obtain ⟨htemp, hstatus, hcount⟩ := ho
    rw [getReg_bumpBy, if_neg hcount]
    exact (getReg_setReg_ne _ _ _ _ hstatus).trans (getReg_setReg_ne _ _ _ _ htemp)

theorem hbmRefresh_shows {s : State} (p : Fin 8) (temp : BitVec 12) (hpowered : powered s.dev = true)
    (hstate : powerState s.dev ≠ 3) (hready : hbmReady s.dev p = true) :
    Completes (.hbmRefresh p temp) s (fun t => t.pending = s.pending ∧ SameMemory s t ∧
      getReg t.dev (R.HBM_TEMP p.val) = temp.zeroExtend 32 ∧
      fld (getReg t.dev (R.HBM_STATUS p.val)) 4 0 = fld (getReg s.dev (R.HBM_STATUS p.val)) 4 0 ∧
      RegsExcept [R.HBM_TEMP p.val, R.HBM_STATUS p.val, R.HBM_REF_STALL_CNT p.val] s t ∧
      t.dev.ent.reqs = s.dev.ent.reqs ∧ t.dev.ent.tokens = s.dev.ent.tokens ∧ t.dev.cells = s.dev.cells) := by
  obtain ⟨htemp, hstatus, hothers⟩ := getReg_refreshShown p temp s.dev
  obtain ⟨hregs, hmem, hcells, hreqs, htokens⟩ := stallCells_keep (List.finRange 64) (refreshShown p temp s.dev)
  refine completes_of_onlyIf (fun d => powered d && decide (powerState d ≠ 3) && hbmReady d p) (f := refresh p temp) rfl
    (by simp [hpowered, hstate, hready]) ?_
  dsimp only [SameMemory, RegsExcept]
  rw [refresh_eq]
  refine ⟨rfl, hmem, (getReg_congr hregs _).trans htemp, ?_,
    fun o ho => (getReg_congr hregs o).trans (hothers o ho), hreqs, htokens, hcells⟩
  rw [getReg_congr hregs, hstatus]
  exact fld_setFld_ne _ 6 5 _ 4 0 (by decide) (by decide) (Or.inl (by decide))

/-! ### The statement -/

/-- Settles O55: a droop and a halt reach the power controller, their counters and the guard; a request reaches the
bursts in flight, and what the weight engine sends again after a delivery comes out of HBM; a refresh reaches three
registers. -/
theorem droopHaltAndHbm : Obligations.DroopHaltAndHbm := by
  refine ⟨fun s halive => ⟨fun h => ?_, droopCrossing_begins halive, fun n h hn => ?_,
    fun n => stretchEnd_runs halive, arrayHalt_begins halive, fun h => ⟨fun hflag => ?_, haltEnd_runs halive h⟩⟩,
    fun s c a write n => ⟨rfl, fun h _ => hbmRequest_idle h, fun hready => ⟨fun ha => ⟨fun hruns => ?_,
      hbmDelivery_beyond ha⟩, fun ha hruns => ?_, fun ha hruns => ⟨hbmDelivery_returns hready ha hruns,
      hbmDelivery_none hready ha hruns⟩⟩⟩,
    fun s p temp => hbmRefresh_shows p temp⟩
  · exact completes_same_of_onlyIf (fun d => alive d && !d.power.stretching) rfl (by simp [h])
  · exact completes_same_of_onlyIf
      (fun d => alive d && d.power.stretching && decide (regFld d R.PWR_DROOP_CFG 27 16 ≤ n)) rfl (by simp [hn])
  · exact completes_same_of_onlyIf (fun d => alive d && d.power.halted && !d.power.droopFlag) rfl (by simp [hflag])
  · exact hbmRequest_beyond hready ha (by simpa [requestRuns] using hruns)
  · have hruns' : requestRuns c false s.dev = true := by simpa [requestRuns] using hruns
    exact ⟨hbmRequest_takes hready ha hruns', hbmRequest_refused hready ha hruns'⟩

end Sys2Proof.Machine
end

section
/-!
PROOFS. The requests that SAVE_STATS marks (R196): the statement on SEND and the reduction, refuted.
-/

namespace Sys2Proof.Machine

open Sys2Proof

/-- Statistics never go into the die's own combine region. -/
theorem homeStore_stats (c : CellId) (r : Req) (d : Dev) : homeStore c .stats r d = none := rfl

/-- A SEND of statistics that the cell comes to runs. -/
theorem exec_sendStats {s : State} {c : CellId} {k : Token} {r : Req} (halive : alive s.dev = true)
    (hclock : cellClocked s.dev c = true) (hk : cellToken s.dev c = some k) (hr : findReq s.dev k.uid = some r)
    (hfetch : sendFetch (cellOf s.dev c) = true) (hok : sendOk c .stats r s.dev = true)
    (hin : sendBeyond c .stats s.dev = false) :
    exec (.send c .stats) s = .next { s with dev := instrDone c (sendAct c .stats r s.dev) } := by
  have hwaits : sendWaits c .stats r s.dev = false := by rw [sendWaits, homeStore_stats, Bool.and_false]
  have htrip : sendTrip c .stats r s.dev = none := by rw [sendTrip, homeStore_stats]; rfl
  have hword : badFetch (cellOf s.dev c) = none := by
    simp only [sendFetch, Bool.and_eq_true, Option.isNone_iff_eq_none] at hfetch
    exact hfetch.1.1
  show execSend c .stats s = _
  simp [execSend, hin, onDev, onFetch, hword, onTask, hk, hr, halive, hclock, hfetch, hok, hwaits, htrip, onlyIf]

/-- It saves them, where the request asks for it and its sends are not suppressed. -/
theorem sendAct_stats {c : CellId} {r : Req} {d : Dev} (hquiet : sendsNothing c r d = false)
    (hsaves : savesStats d r = true) : sendAct c .stats r d = saveStats c r d := by
  simp [sendAct, hquiet, hsaves]

/-- An instruction that has run leaves the requests. -/
theorem instrDone_reqs (c : CellId) (d : Dev) : (instrDone c d).ent.reqs = d.ent.reqs := by
  unfold instrDone wordsDone
  split <;> rfl

theorem statsCells_express {d : Dev} {r : Req} {c : CellId} (h : r.express = some c) : statsCells d r = [c] := by
  rw [statsCells, h]

/-- Every request of the identifier is marked by its own cells, whichever of them the token is of. -/
theorem mem_reqs_saveStats {c : CellId} {r q : Req} {e : CellId} {d : Dev} (hq : q ∈ d.ent.reqs) (hu : q.uid = r.uid)
    (hcell : q.express = some e) (hnew : r.statsBy = []) (hne : e ≠ c) :
    { q with statsBy := [c], statsSaved := false } ∈ (saveStats c r d).ent.reqs := by
  have hkept := foldl_keep (·.ent.reqs)
    (fun d (e : (Nat × Nat) × AttRow) => hbmWrite d (tenantKey d (dTenant r.desc))
      (statsAddr d r e.1.1 (firstQuery d r c + e.1.2))
      (leBytes 4 (rowMl e.2.sm).1.toNat ++ leBytes 4 (rowMl e.2.sm).2.toNat))
    ((sendOrder d r).zip (cellRows d c r)) d (fun _ _ => rfl)
  refine List.mem_map.2 ⟨q, hkept ▸ hq, ?_⟩
  simp [hu, hnew, statsCells_express hcell, hne]

/-! ### Two requests of one identifier -/

/-- A DECODE request of identifier 0 with SAVE_STATS and no rows, as an express request of a cell. -/
def statsReq (e : CellId) : Req :=
  { uid := 0, desc := BitVec.ofNat 512 (8 * 2 ^ 160), port := 0, src := 0, tick := 0, ctr := 0, version := 0,
    bucket := 0, express := some e }

/-- The express token of the first of them runs on cell 0. -/
def statsToken : Token := { uid := 0, cell := 0, tick := 0, bucket := 0, charge := 0, st := .running }

/-- Cell 0 has come to SEND, and cell 1 holds a request of the same identifier. -/
def statsState : State where
  dev :=
    { die := { porstLow := false }
      ent := { reqs := [statsReq 0, statsReq 1], tokens := [statsToken] }
      cells := [(0, { prog := [0x55] })] }

theorem sendsNothing_statsState : sendsNothing 0 (statsReq 0) statsState.dev = false := by decide
theorem sendOk_statsState : sendOk 0 .stats (statsReq 0) statsState.dev = true := by decide +kernel
theorem savesStats_statsState : savesStats statsState.dev (statsReq 0) = true := by decide +kernel
theorem sendBeyond_statsState : sendBeyond 0 .stats statsState.dev = false := by decide +kernel

/-- Refutes O36, in the clause on saved statistics: it speaks of every request of the identifier and takes the cells of
the token's own, while the model asks each request for its own cells. Where two requests share an identifier, which the
statement does not exclude, and the other's express cell has saved nothing, that one is not marked as saved. -/
theorem not_resultsLeaveThroughTheHomeCell : ¬ Obligations.ResultsLeaveThroughTheHomeCell := by
  intro h
  have halive : alive statsState.dev = true := by decide
  have hclock : cellClocked statsState.dev 0 = true := by decide
  have hk : cellToken statsState.dev 0 = some statsToken := rfl
  have hr : findReq statsState.dev statsToken.uid = some (statsReq 0) := rfl
  have hfetch : sendFetch (cellOf statsState.dev 0) = true := by decide
  obtain ⟨-, -, hsends⟩ := h statsState halive
  obtain ⟨-, -, -, hquiet⟩ := hsends 0 statsToken (statsReq 0) hclock hk hr hfetch
  obtain ⟨-, -, hstats, -⟩ := hquiet sendsNothing_statsState
  obtain ⟨t, hexec, -, -, -, -, -, hsaved⟩ := hstats sendOk_statsState savesStats_statsState sendBeyond_statsState
  have hruns := exec_sendStats halive hclock hk hr hfetch sendOk_statsState sendBeyond_statsState
  have hreqs : t.dev.ent.reqs = (saveStats 0 (statsReq 0) statsState.dev).ent.reqs := by
    rw [Host.Outcome.next.inj (hexec.symm.trans hruns), instrDone_reqs,
      sendAct_stats sendsNothing_statsState savesStats_statsState]
  have hmem : { statsReq 1 with statsBy := [0], statsSaved := false } ∈ t.dev.ent.reqs := by
    rw [hreqs]
    exact mem_reqs_saveStats (e := 1) (List.mem_cons_of_mem _ List.mem_cons_self) rfl rfl rfl (by decide)
  have hmark := hsaved _ hmem rfl
  rw [statsCells_express (r := statsReq 0) (c := 0) rfl] at hmark
  cases hmark

end Sys2Proof.Machine
end

section
/-!
PROOFS. The start of a token (R22, R23): the turn of a cell, the token that changes, and what a start leaves
of the device.
-/

namespace Sys2Proof.Machine

open Sys2Proof

/-! ### The turn of a cell (R23) -/

/-- The token that a fold over the waiting ones picks is one of them, or the one that it began with. -/
theorem picked_mem (ts : List Token) {k : Token} : ∀ m : Option Token,
    ts.foldl (fun m t => match m with
      | none => some t
      | some b => if tokenBefore b t then some b else some t) m = some k → k ∈ ts ∨ m = some k := by
  induction ts with
  | nil => exact fun m h => .inr h
  | cons t ts ih =>
    intro m h
    rcases ih _ h with hk | hk
    · exact .inl (List.mem_cons_of_mem _ hk)
    · cases m with
      | none => exact .inl (by simp_all)
      | some b =>
        dsimp only at hk
        split at hk
        · exact .inr hk
        · exact .inl (by simp_all)

/-- A token whose turn has come waits on the cell, and its request is there. -/
theorem turnOf_spec {d : Dev} {c : CellId} {k : Token} {r : Req} (h : turnOf d c = some (k, r)) :
    k ∈ d.ent.tokens ∧ k.cell = c ∧ k.st = .queued ∧ findReq d k.uid = some r := by
  unfold turnOf at h
  split at h
  · cases h
  · obtain ⟨t, ht, hpair⟩ := Option.bind_eq_some_iff.1 h
    obtain ⟨q, hq, hkr⟩ := Option.map_eq_some_iff.1 hpair
    obtain ⟨rfl, rfl⟩ := Prod.mk.inj hkr
    have hmem : t ∈ d.ent.tokens.filter _ := (picked_mem _ none ht).resolve_right (by simp)
    simp only [List.mem_filter, Bool.and_eq_true, decide_eq_true_eq] at hmem
    obtain ⟨hin, ⟨⟨hcell, hst⟩, -⟩, -⟩ := hmem
    exact ⟨hin, hcell, hst, hq⟩

theorem findReq_uid {d : Dev} {uid : Nat} {r : Req} (h : findReq d uid = some r) : r.uid = uid := by
  simpa using List.find?_some h

/-! ### A token that changes -/

section UpdToken

variable {d : Dev} {c : CellId} {k : Token} (f : Token → Token) (hk : k ∈ d.ent.tokens) (hcell : k.cell = c)
  (hst : k.st ≠ .finished)

include hk hcell hst

/-- A change reaches the tokens of a request on a cell with the mark of the first that has not finished. -/
theorem updToken_tokens : ∃ j ∈ d.ent.tokens, j.uid = k.uid ∧ j.cell = c ∧ (updToken k.uid c f d).ent.tokens =
    d.ent.tokens.map (fun t => if (t.uid = k.uid ∧ t.cell = c) ∧ t.combine = j.combine then f t else t) := by
  have hsome : (d.ent.tokens.find? (fun t => (decide (t.uid = k.uid) && decide (t.cell = c)) &&
      decide (t.st ≠ .finished))).isSome = true := by
    rw [List.find?_isSome]
    exact ⟨k, hk, by simp [hcell, hst]⟩
  obtain ⟨j, hj⟩ := Option.isSome_iff_exists.1 hsome
  have hmine := List.find?_some hj
  simp only [Bool.and_eq_true, decide_eq_true_eq] at hmine
  obtain ⟨⟨huid, hc⟩, -⟩ := hmine
  refine ⟨j, List.mem_of_find?_eq_some hj, huid, hc, ?_⟩
  unfold updToken
  simp only [hj, Option.map_some, Option.some.injEq, Bool.and_eq_true, decide_eq_true_eq]

/-- A token of the request on the cell changes. -/
theorem mem_updToken : ∃ j ∈ d.ent.tokens, j.uid = k.uid ∧ j.cell = c ∧ f j ∈ (updToken k.uid c f d).ent.tokens := by
  obtain ⟨j, hj, huid, hc, htokens⟩ := updToken_tokens f hk hcell hst
  refine ⟨j, hj, huid, hc, ?_⟩
  rw [htokens]
  exact List.mem_map.2 ⟨j, hj, if_pos ⟨⟨huid, hc⟩, rfl⟩⟩

/-- Once the last token that waits for its start has started, none of a request does. -/
theorem allStarted_updToken (hf : ∀ t, (f t).st ≠ .queued)
    (hlast : ∀ j ∈ d.ent.tokens, j.uid = k.uid → j.combine = false ∧ (j.st = .queued → j.cell = c)) :
    allStarted (updToken k.uid c f d) k.uid = true := by
  obtain ⟨j, hj, huid, -, htokens⟩ := updToken_tokens f hk hcell hst
  obtain ⟨hjc, -⟩ := hlast j hj huid
  unfold allStarted
  rw [htokens, List.all_eq_true]
  intro t ht
  obtain ⟨t₀, ht₀, rfl⟩ := List.mem_map.1 ht
  split
  · simp [hf]
  · rename_i hother
    by_cases hu : t₀.uid = k.uid
    · obtain ⟨hcomb, hqueued⟩ := hlast t₀ ht₀ hu
      have hne : t₀.st ≠ .queued := fun hq => hother ⟨⟨hu, hqueued hq⟩, hcomb.trans hjc.symm⟩
      simp [hne]
    · simp [hu]

end UpdToken

/-! ### What a start leaves of the device -/

/-- Two devices that differ in the tags and the diagnostic units of memory, the cells, the entrance, cache control and
the ports alone. -/
structure StartsAlike (d e : Dev) : Prop where
  rest : e = { d with
    mem := { d.mem with tags := e.mem.tags, diagUnits := e.mem.diagUnits }
    ent := e.ent, ports := e.ports, cache := e.cache, cells := e.cells }

namespace StartsAlike

variable {d e g : Dev}

theorem refl (d : Dev) : StartsAlike d d := ⟨rfl⟩

theorem trans (h : StartsAlike d e) (k : StartsAlike e g) : StartsAlike d g where
  rest := by
    have hg := k.rest
    rw [h.rest] at hg
    exact hg

theorem foldl {α : Type} {f : Dev → α → Dev} (hf : ∀ d x, StartsAlike d (f d x)) (xs : List α) (d : Dev) :
    StartsAlike d (xs.foldl f d) := by
  induction xs generalizing d with
  | nil => exact refl d
  | cons x xs ih => exact (hf d x).trans (ih (f d x))

theorem regs (h : StartsAlike d e) : e.regs = d.regs := by rw [h.rest]
theorem guard (h : StartsAlike d e) : e.guard = d.guard := by rw [h.rest]

theorem ccount (h : StartsAlike d e) : ccount e = Machine.ccount d := by
  rw [h.rest]
  rfl

theorem dModel (h : StartsAlike d e) (t : Nat) : dModel e t = Machine.dModel d t := by
  rw [h.rest]
  rfl

theorem headCell (h : StartsAlike d e) (t : Nat) (c : CellId) : headCell e t c = Machine.headCell d t c := by
  rw [h.rest]
  rfl

theorem takesInput (h : StartsAlike d e) (r : Req) (c : CellId) : takesInput e r c = Machine.takesInput d r c := by
  rw [h.rest]
  rfl

theorem tickArea (h : StartsAlike d e) (t op b : Nat) : tickArea e t op b = Machine.tickArea d t op b := by
  rw [h.rest]
  rfl

theorem progWords (h : StartsAlike d e) (t dest : Nat) (p : ProgArea) :
    progWords e t dest p = Machine.progWords d t dest p := by
  rw [h.rest]
  rfl

end StartsAlike

/-! ### The start of a token -/

/-- A diagnostic program on the cell has ended. -/
def diagFreed (c : CellId) (d : Dev) : Dev :=
  if d.mem.diagUnits.any (fun k => decide (k.1 = c.val)) then diagEnd c d else d

/-- The token of a request on a cell runs from now on. -/
def tokenBegun (c : CellId) (uid : Nat) (d : Dev) : Dev :=
  updToken uid c (fun t => { t with st := .running, startCyc := ccount d }) d

/-- The sequences of a request have been used. -/
def seqsTouched (r : Req) (d : Dev) : Dev :=
  (reqSeqs r.desc).foldl (fun d q => updSeq q (fun s => { s with lruTick := d.tick.num }) d) d

theorem diagFreed_alike (c : CellId) (d : Dev) : StartsAlike d (diagFreed c d) := by
  unfold diagFreed
  split
  · exact (StartsAlike.foldl (fun _ _ => ⟨rfl⟩) _ d).trans ⟨rfl⟩
  · exact StartsAlike.refl d

theorem seqsTouched_alike (r : Req) (d : Dev) : StartsAlike d (seqsTouched r d) :=
  StartsAlike.foldl (fun _ _ => ⟨rfl⟩) _ d

theorem beginToken_alike (c : CellId) (r : Req) (d : Dev) : StartsAlike d (beginToken c r d) :=
  ((diagFreed_alike c d).trans (e := diagFreed c d) (g := tokenBegun c r.uid (diagFreed c d)) ⟨rfl⟩).trans
    (seqsTouched_alike r _)

/-- The end of a diagnostic program shows in memory and on the cell alone. -/
theorem diagFreed_rest (c : CellId) (d : Dev) :
    (diagFreed c d).ent = d.ent ∧ (diagFreed c d).ports = d.ports ∧ (diagFreed c d).cache = d.cache := by
  unfold diagFreed
  split
  · exact ⟨foldl_keep (·.ent) _ _ _ fun _ _ => rfl, foldl_keep (·.ports) _ _ _ fun _ _ => rfl,
      foldl_keep (·.cache) _ _ _ fun _ _ => rfl⟩
  · exact ⟨rfl, rfl, rfl⟩

/-- What it does to memory it does whatever the rest of the device holds. -/
theorem diagFreed_mem_congr {d e : Dev} (c : CellId) (h : e.mem = d.mem) :
    (diagFreed c e).mem = (diagFreed c d).mem := by
  have hfold : ∀ (ks : List (Nat × Nat)) (d e : Dev), e.mem = d.mem →
      (ks.foldl (fun d k => setTag d k.2 .wipingClean) e).mem =
        (ks.foldl (fun d k => setTag d k.2 .wipingClean) d).mem := by
    intro ks
    induction ks with
    | nil => exact fun _ _ h => h
    | cons k ks ih => exact fun d e h => ih _ _ (by simp only [setTag, h])
  unfold diagFreed
  rw [h]
  split
  · have hkeys := hfold (d.mem.diagUnits.filter (fun k => k.1 = c.val)) d e h
    simp only [diagEnd, clearCell, h, hkeys, Bool.false_eq_true, if_false]
  · exact h

theorem beginToken_mem (c : CellId) (r : Req) (d : Dev) : (beginToken c r d).mem = (diagFreed c d).mem :=
  foldl_keep (·.mem) _ _ _ fun _ _ => rfl

theorem beginToken_tokens (c : CellId) (r : Req) (d : Dev) :
    (beginToken c r d).ent.tokens = (tokenBegun c r.uid (diagFreed c d)).ent.tokens :=
  foldl_keep (·.ent.tokens) _ _ _ fun _ _ => rfl

theorem beginToken_reqs (c : CellId) (r : Req) (d : Dev) : (beginToken c r d).ent.reqs = d.ent.reqs := by
  have htouched : (beginToken c r d).ent.reqs = (tokenBegun c r.uid (diagFreed c d)).ent.reqs :=
    foldl_keep (·.ent.reqs) _ _ _ fun _ _ => rfl
  rw [htouched, ← (diagFreed_rest c d).1]
  rfl

theorem beginToken_ports (c : CellId) (r : Req) (d : Dev) : (beginToken c r d).ports = d.ports := by
  have htouched : (beginToken c r d).ports = (tokenBegun c r.uid (diagFreed c d)).ports :=
    foldl_keep (·.ports) _ _ _ fun _ _ => rfl
  rw [htouched, ← (diagFreed_rest c d).2.1]
  rfl

/-- A start shows in a sequence's use alone. -/
theorem beginToken_seqDesc (c : CellId) (r : Req) (d : Dev) (q : Nat) :
    (seqDesc (beginToken c r d) q).spec = (seqDesc d q).spec ∧
      (seqDesc (beginToken c r d) q).length = (seqDesc d q).length := by
  have hstep : ∀ (d : Dev) (p : Nat), ((seqDesc (updSeq p (fun s => { s with lruTick := d.tick.num }) d) q).spec,
      (seqDesc (updSeq p (fun s => { s with lruTick := d.tick.num }) d) q).length) =
      ((seqDesc d q).spec, (seqDesc d q).length) := by
    intro d p
    rw [seqDesc_updSeq]
    split
    · rename_i h
      rw [h]
    · rfl
  have htouched := foldl_keep (fun d => ((seqDesc d q).spec, (seqDesc d q).length)) _ (reqSeqs r.desc)
    (tokenBegun c r.uid (diagFreed c d)) hstep
  have hbegun : seqDesc (tokenBegun c r.uid (diagFreed c d)) q = seqDesc d q := by
    rw [seqDesc, seqDesc, ← (diagFreed_rest c d).2.2]
    rfl
  rw [hbegun] at htouched
  exact Prod.mk.inj htouched

section Begins

variable {d e : Dev} {c : CellId} {k : Token} {r : Req} (hk : k ∈ d.ent.tokens) (hcell : k.cell = c)
  (hst : k.st = .queued) (huid : r.uid = k.uid)

include hk hcell hst huid

/-- A token whose turn has come runs from the cycle of the timebase on. -/
theorem mem_beginToken (htokens : e.ent.tokens = d.ent.tokens) :
    ∃ k' ∈ (beginToken c r e).ent.tokens, k'.uid = r.uid ∧ k'.cell = c ∧ k'.st = .running ∧ k'.startCyc = ccount e := by
  have hin : k ∈ (diagFreed c e).ent.tokens := by rwa [(diagFreed_rest c e).1, htokens]
  obtain ⟨j, -, hu, hc, hmem⟩ := mem_updToken (fun t => { t with st := .running, startCyc := ccount (diagFreed c e) })
    hin hcell (by rw [hst]; decide)
  rw [beginToken_tokens, huid]
  exact ⟨_, hmem, hu, hc, rfl, (diagFreed_alike c e).ccount⟩

end Begins

end Sys2Proof.Machine
end

section
/-!
PROOFS. What a cell does when it comes to a token (R50, R82, R86, R88): kill, tick program, input rows and
express buffer.
-/

namespace Sys2Proof.Machine

open Sys2Proof

/-! ### What a cell does when it comes to a token -/

section Turn

variable {d : Dev} {c : CellId} {k : Token} {r : Req} (hturn : turnOf d c = some (k, r))

include hturn

theorem startToken_killed (hkill : killApplies r k = true) : startToken c d = retireToken c r d := by
  simp [startToken, hturn, hkill]

theorem startToken_combined (hkill : killApplies r k = false) (hcomb : k.combine = true) (hdone : r.combined = true) :
    startToken c d = beginToken c r d := by
  simp [startToken, hturn, hkill, hcomb, hdone]

theorem startToken_express (hkill : killApplies r k = false) (hcomb : k.combine = false)
    (hx : r.express.isSome = true) : startToken c d = runToken c (expressRow d r) (takeExpress r d) := by
  simp [startToken, hturn, hkill, hcomb, hx]

theorem startToken_work (hkill : killApplies r k = false) (hcomb : k.combine = false) (hx : r.express = none)
    (hin : inputComplete d r = true) : startToken c d = runToken c r d := by
  simp [startToken, hturn, hkill, hcomb, hx, hin]

theorem startToken_waits (hkill : killApplies r k = false) (hcomb : k.combine = false) (hx : r.express = none)
    (hin : inputComplete d r = false) : startToken c d = d := by
  simp [startToken, hturn, hkill, hcomb, hx, hin]

end Turn

/-- The row starts the token whose turn has come. -/
theorem completes_tokenStart {s : State} {c : CellId} {e : Dev} {post : State → Prop} (halive : alive s.dev = true)
    (hclock : cellClocked s.dev c = true) (he : startToken c s.dev = e) (h : post { s with dev := e }) :
    Completes (.tokenStart c) s post := by
  subst he
  exact completes_of_onlyIf (fun d => alive d && cellClocked d c) rfl (by rw [halive, hclock]; rfl) h

/-! ### A token under a kill (R82) -/

theorem mem_retireToken {d : Dev} {c : CellId} {k : Token} {r : Req} (hk : k ∈ d.ent.tokens) (hcell : k.cell = c)
    (hst : k.st = .queued) (huid : r.uid = k.uid) :
    ∃ k' ∈ (retireToken c r d).ent.tokens, k'.uid = r.uid ∧ k'.cell = c ∧ k'.st = .finished := by
  obtain ⟨j, -, hu, hc, hmem⟩ := mem_updToken
    (d := updReq r.uid (fun r => { r with killed := true, suppressed := true }) d)
    (fun t => { t with st := .finished }) hk hcell (by rw [hst]; decide)
  rw [← huid] at hmem
  exact ⟨_, hmem, hu.trans huid.symm, hc, rfl⟩

theorem retireToken_reqs {d : Dev} {c : CellId} {r r' : Req} (h : r' ∈ (retireToken c r d).ent.reqs)
    (hu : r'.uid = r.uid) : r'.killed = true ∧ r'.suppressed = true :=
  of_mem_reqs_updReq (P := fun r => r.killed = true ∧ r.suppressed = true) (fun _ => ⟨rfl, rfl⟩) h hu

/-! ### The tick program and the input rows of a token (R86, R88) -/

/-- A cell prepared for a work token: begun, its input rows placed, its tick program taken. -/
def prepared (c : CellId) (r : Req) (d : Dev) : Dev := placeProgram c r (placeRows c r (beginToken c r d))

theorem runToken_work {c : CellId} {r : Req} {d : Dev} (hop : dOp r.desc ≠ opCOMMIT) :
    runToken c r d = prepared c r d :=
  if_neg hop

theorem placeRows_rest (c : CellId) (r : Req) (d : Dev) :
    placeRows c r d = { d with cells := (placeRows c r d).cells } := by
  unfold placeRows
  dsimp only
  split <;> rfl

theorem placeRows_alike (c : CellId) (r : Req) (d : Dev) : StartsAlike d (placeRows c r d) := by
  unfold placeRows
  dsimp only
  split
  · exact ⟨rfl⟩
  · exact StartsAlike.refl d

theorem placeProgram_rest (c : CellId) (r : Req) (d : Dev) :
    placeProgram c r d = { d with cells := (placeProgram c r d).cells } := by
  unfold placeProgram
  split <;> rfl

theorem prepared_rest (c : CellId) (r : Req) (d : Dev) :
    prepared c r d = { beginToken c r d with cells := (prepared c r d).cells } := by
  have hrows := placeRows_rest c r (beginToken c r d)
  have hprog := placeProgram_rest c r (placeRows c r (beginToken c r d))
  rw [hrows] at hprog
  exact (by rw [prepared, hrows]; exact hprog)

/-- The program is that of the image on the device on which the token started. -/
theorem prepared_prog {d e : Dev} {c : CellId} {r : Req} (halike : StartsAlike d e) {ws : List (BitVec 128)}
    (h : tickProgram d (dTenant r.desc) (dOp r.desc) r.bucket = some ws) :
    (cellOf (prepared c r e) c).prog = ws ∧ (cellOf (prepared c r e) c).pc = 0 := by
  have hplaced : StartsAlike d (placeRows c r (beginToken c r e)) :=
    (halike.trans (beginToken_alike c r e)).trans (placeRows_alike c r (beginToken c r e))
  obtain ⟨p, hp, hws⟩ := Option.map_eq_some_iff.1 h
  unfold prepared placeProgram
  rw [hplaced.tickArea, hp]
  dsimp only
  rw [cellOf_updCell, if_pos rfl]
  exact ⟨(hplaced.progWords _ _ _).trans hws, rfl⟩

/-- The tick program leaves the moving-side buffer. -/
theorem placeProgram_mov (c : CellId) (r : Req) (d : Dev) : (cellOf (placeProgram c r d) c).mov = (cellOf d c).mov := by
  unfold placeProgram
  split
  · rw [cellOf_updCell, if_pos rfl]
  · rfl

/-- Bytes of the rows that are placed (log 102). -/
def placedBytes (d : Dev) (r : Req) : Nat :=
  2 * dModel d (dTenant r.desc) * min (dRows r.desc) (0x8000 / (2 * dModel d (dTenant r.desc)))

/-- The input rows stand in the moving-side buffer of a cell that takes them. -/
theorem prepared_mov {d e : Dev} {c : CellId} {r : Req} (halike : StartsAlike d e) (hop : dOp r.desc ≠ opCOMMIT)
    (htakes : takesInput d r c = true) {i : Nat} (hi : i < placedBytes d r) :
    tblGet 0 (cellOf (prepared c r e) c).mov i = (inputBytes r 0 (placedBytes d r)).getD i 0 := by
  have hbegun := halike.trans (beginToken_alike c r e)
  have hbytes : 2 * dModel (beginToken c r e) (dTenant r.desc) *
      min (dRows r.desc) (bufSize true / (2 * dModel (beginToken c r e) (dTenant r.desc))) = placedBytes d r := by
    rw [hbegun.dModel]
    rfl
  unfold prepared
  rw [placeProgram_mov]
  unfold placeRows
  simp only [hbegun.takesInput, htakes, hop, hbytes, ne_eq, not_false_eq_true, decide_true, Bool.and_self, if_true]
  rw [cellOf_updCell, if_pos rfl]
  refine (tblGet_setList 0 _ _ 0 i).trans ?_
  rw [if_pos ⟨Nat.zero_le i, by simpa [inputBytes] using hi⟩, Nat.sub_zero]

/-! ### The express buffer (R50) -/

/-- Bytes put one after another read back. -/
theorem tblFind_putList {α : Type} (vs : List α) (t : Tbl α) (x y : Nat) :
    tblFind (tblPutList t x vs) y = if x ≤ y ∧ y < x + vs.length then vs[y - x]? else tblFind t y := by
  induction vs generalizing t x with
  | nil => simp [tblPutList]
  | cons v vs ih =>
    rw [tblPutList, ih, tblFind_put]
    by_cases hy : y = x
    · subst hy
      simp
    · by_cases hin : x + 1 ≤ y ∧ y < x + 1 + vs.length
      · have hwide : x ≤ y ∧ y < x + (v :: vs).length := by simp; omega
        have hsub : y - x = (y - (x + 1)) + 1 := by omega
        rw [if_pos hin, if_pos hwide, hsub, List.getElem?_cons_succ]
      · have hout : ¬ (x ≤ y ∧ y < x + (v :: vs).length) := by simp; omega
        rw [if_neg hin, if_neg hout, if_neg hy]

theorem tblGetList_getElem? {α : Type} (dflt : α) (t : Tbl α) (x n i : Nat) :
    (tblGetList dflt t x n)[i]? = if i < n then some (tblGet dflt t (x + i)) else none := by
  induction n generalizing x i with
  | zero => simp [tblGetList]
  | succ n ih =>
    cases i with
    | zero => simp [tblGetList]
    | succ i => simp [tblGetList, ih, Nat.add_assoc, Nat.add_comm 1 i]

/-- A copy of the first entries of a table reads as the table. -/
theorem tblGet_copy {α : Type} (dflt : α) (t : Tbl α) {n i : Nat} (hi : i < n) :
    tblGet dflt (tblPutList [] 0 (tblGetList dflt t 0 n)) i = tblGet dflt t i := by
  have hin : 0 ≤ i ∧ i < 0 + (tblGetList dflt t 0 n).length := by
    rw [tblGetList_length]
    omega
  rw [tblGet, tblFind_putList, if_pos hin, tblGetList_getElem?, Nat.sub_zero, if_pos hi, Nat.zero_add, Option.getD_some]

/-- The input row of an express token is the row that its buffer held. -/
theorem expressRow_input {d : Dev} {r : Req} {p : PortId} {b : Bool} (hbuf : r.expBuf = some (p, b)) {n i : Nat}
    (hn : n ≤ inputLen d r.desc) (hi : i < n) :
    (inputBytes (expressRow d r) 0 n).getD i 0 = tblGet 0 (expBufOf (getPort d p) b).bytes i := by
  rw [inputBytes, expressRow, hbuf, List.getD_eq_getElem?_getD, tblGetList_getElem?, if_pos hi, Option.getD_some,
    Nat.zero_add]
  exact tblGet_copy 0 _ (Nat.lt_of_lt_of_le hi hn)

theorem expressRow_rest (d : Dev) (r : Req) : expressRow d r =
    { r with input := (expressRow d r).input, expBuf := (expressRow d r).expBuf } := by
  unfold expressRow
  split <;> rfl

/-- A buffer that is read shows in its port and in the request alone. -/
theorem takeExpress_rest (r : Req) (d : Dev) : takeExpress r d =
    { d with ports := (takeExpress r d).ports, ent := { d.ent with reqs := (takeExpress r d).ent.reqs } } := by
  unfold takeExpress
  split <;> rfl

theorem takeExpress_alike (r : Req) (d : Dev) : StartsAlike d (takeExpress r d) := by
  unfold takeExpress
  split
  · exact StartsAlike.refl d
  · exact ⟨rfl⟩

theorem expBufOf_takeExpress {r : Req} {d : Dev} {p : PortId} {b : Bool} (hbuf : r.expBuf = some (p, b)) :
    expBufOf (getPort (takeExpress r d) p) b = {} := by
  unfold takeExpress
  rw [hbuf]
  dsimp only [setExpBuf]
  rw [getPort_setPort, if_pos rfl]
  cases b <;> rfl

end Sys2Proof.Machine
end

section
/-!
PROOFS. COMMIT as its token starts on a head cell (R253, R254).
-/

namespace Sys2Proof.Machine

open Sys2Proof

/-! ### What COMMIT leaves of the device (R253, R254) -/

/-- What the moves and the frees of a COMMIT leave: the entrance, the sequences, the guard and the count of commits. -/
def commitSide (d : Dev) : Entrance × Tbl SeqDesc × Guard × W32 :=
  (d.ent, d.cache.seqs, d.guard, getReg d R.KVC_COMMIT_CNT)

section Side

variable (d : Dev)

theorem commitSide_ext {d e : Dev} (hent : e.ent = d.ent) (hseqs : e.cache.seqs = d.cache.seqs)
    (hguard : e.guard = d.guard) (hcount : getReg e R.KVC_COMMIT_CNT = getReg d R.KVC_COMMIT_CNT) :
    commitSide e = commitSide d := by
  rw [commitSide, hent, hseqs, hguard, hcount, commitSide]

theorem commitSide_setHead (k : Nat) (x : PageHead) : commitSide (setHead k x d) = commitSide d :=
  commitSide_ext rfl rfl rfl rfl

theorem commitSide_decRef (u : Nat) : commitSide (decRef u d) = commitSide d := by
  unfold decRef decRefRaw
  split
  · rfl
  · split
    · rfl
    · split
      · exact commitSide_ext rfl rfl rfl rfl
      · split <;> exact commitSide_ext rfl rfl rfl rfl

theorem commitSide_freeGroup (x : PageHead) (dd : Nat) : commitSide (freeGroup x dd d) = commitSide d := by
  unfold freeGroup
  split
  · exact commitSide_decRef d _
  · exact commitSide_ext rfl rfl rfl rfl

theorem commitSide_groupWrite (x : PageHead) (off : Nat) (bs : List Byte) :
    commitSide (groupWrite x off bs d) = commitSide d := by
  unfold groupWrite
  split <;> exact commitSide_ext rfl rfl rfl rfl

theorem commitSide_groupPut (x : PageHead) (dd row : Nat) (k v : List Nat) :
    commitSide (groupPut x dd row k v d) = commitSide d :=
  (commitSide_groupWrite _ x _ _).trans (commitSide_groupWrite d x _ _)

theorem commitSide_discardCount (n : Nat) : commitSide (bumpBy d R.KVC_SPEC_DISCARD_CNT n) = commitSide d :=
  commitSide_ext rfl rfl rfl (by rw [getReg_bumpBy, if_neg (by decide)])

theorem commitSide_commitMove (q l h src dst : Nat) : commitSide (commitMove q l h src dst d) = commitSide d := by
  unfold commitMove
  split
  · dsimp only
    rw [commitSide_setHead]
    split
    · rfl
    · exact commitSide_groupPut d _ _ _ _ _
  · rfl

theorem commitSide_commitFree (q l h pos : Nat) : commitSide (commitFree q l h pos d) = commitSide d := by
  unfold commitFree
  split
  · split
    · rw [commitSide_setHead, commitSide_freeGroup]
    · exact commitSide_setHead d _ _
  · rfl

theorem commitSide_commitHead (q l h pos n : Nat) (keep : List Nat) :
    commitSide (commitHead q l h pos n keep d) = commitSide d := by
  unfold commitHead
  dsimp only
  rw [commitSide_discardCount, foldl_keep commitSide _ _ _ fun d i => commitSide_commitFree d q l h (pos + i)]
  exact foldl_keep commitSide _ _ _ fun d e => commitSide_commitMove d q l h _ _

/-- The discard of provisional rows takes the SPEC field of its sequence, and leaves the entrance and the guard. -/
theorem discardSpec_keeps (q : Nat) : (discardSpec q d).ent = d.ent ∧ (discardSpec q d).guard = d.guard ∧
    (seqDesc (discardSpec q d) q).length = (seqDesc d q).length := by
  unfold discardSpec
  split
  · exact ⟨rfl, rfl, rfl⟩
  · rename_i sp _
    dsimp only
    generalize hfold : List.foldl _ d (layerHeads d (seqDesc d q).tenant) = e
    have hside : commitSide e = commitSide d := by
      rw [← hfold]
      refine foldl_keep commitSide _ _ _ fun d lh => foldl_keep commitSide _ _ _ fun d i => ?_
      split
      · split
        · split
          · rw [commitSide_setHead, commitSide_freeGroup, commitSide_discardCount]
          · rw [commitSide_setHead, commitSide_discardCount]
        · exact commitSide_discardCount d _
      · rfl
    have hent : e.ent = d.ent := congrArg (·.1) hside
    have hseqs : e.cache.seqs = d.cache.seqs := congrArg (·.2.1) hside
    have hguard : e.guard = d.guard := congrArg (·.2.2.1) hside
    refine ⟨hent, hguard, ?_⟩
    rw [seqDesc_updSeq, if_pos rfl, seqDesc, hseqs]
    rfl

end Side

/-! ### A COMMIT as its token starts on a head cell -/

theorem placeProgram_alike (c : CellId) (r : Req) (d : Dev) : StartsAlike d (placeProgram c r d) := by
  unfold placeProgram
  split
  · exact ⟨rfl⟩
  · exact StartsAlike.refl d

theorem prepared_alike (c : CellId) (r : Req) (d : Dev) : StartsAlike d (prepared c r d) :=
  ((beginToken_alike c r d).trans (placeRows_alike c r _)).trans (placeProgram_alike c r _)

theorem prepared_ent (c : CellId) (r : Req) (d : Dev) : (prepared c r d).ent = (beginToken c r d).ent := by
  rw [prepared_rest]

theorem prepared_seqDesc (c : CellId) (r : Req) (d : Dev) (q : Nat) :
    (seqDesc (prepared c r d) q).spec = (seqDesc d q).spec ∧
      (seqDesc (prepared c r d) q).length = (seqDesc d q).length := by
  have h : seqDesc (prepared c r d) q = seqDesc (beginToken c r d) q := by
    rw [prepared_rest]
    rfl
  rw [h]
  exact beginToken_seqDesc c r d q

theorem runToken_commit {c : CellId} {r : Req} {d : Dev} (hop : dOp r.desc = opCOMMIT) :
    runToken c r d = commitEnd r (commitCell c r (prepared c r d)) :=
  if_pos hop

/-- Under BAD the request is killed, its rows are discarded and SPEC_INCOMPLETE is reported (R254). -/
def commitRejected (c : CellId) (r : Req) (d : Dev) : Dev :=
  let e := if r.checkFailed then d else discardSpec (dSeq r.desc) d
  updSeq (dSeq r.desc) (fun s => { s with spec := none }) (report (tokenReport r 0x2D (unitCell c) 0 0)
    (updReq r.uid (fun r => { r with killed := true, checkFailed := true }) e))

/-- Without BAD the rows of every layer and KV head of the cell are moved (R253). -/
def commitMoved (c : CellId) (r : Req) (n : Nat) (d : Dev) : Dev :=
  (List.range (layersOf d (dTenant r.desc))).foldl (fun d l => (cellHeads d r c).foldl
    (fun d h => commitHead (dSeq r.desc) l h (dPos r.desc) n (keptOf r) d) d) d

section Cell

variable {d : Dev} {c : CellId} {r : Req} {sp : SpecField}
  (hhead : headCell d (dTenant r.desc) c = true) (hspec : (seqDesc d (dSeq r.desc)).spec = some sp)

include hhead hspec

theorem commitCell_bad (hbad : sp.bad = true ∨ r.checkFailed = true) : commitCell c r d = commitRejected c r d := by
  have h : (r.checkFailed || sp.bad) = true := by
    rw [Bool.or_eq_true]
    exact hbad.symm
  simp [commitCell, hhead, hspec, h, commitRejected]

theorem commitCell_good (hgood : sp.bad = false) (hcheck : r.checkFailed = false) :
    commitCell c r d = commitMoved c r sp.n d := by
  simp [commitCell, hhead, hspec, hgood, hcheck, commitMoved]

end Cell

section Rejected

variable (c : CellId) (r : Req) (d : Dev)

theorem commitRejected_reqs {r' : Req} (h : r' ∈ (commitRejected c r d).ent.reqs) (hu : r'.uid = r.uid) :
    r'.killed = true ∧ r'.checkFailed = true := by
  unfold commitRejected at h
  dsimp only at h
  rw [updSeq_ent, report_ent] at h
  exact of_mem_reqs_updReq (P := fun r => r.killed = true ∧ r.checkFailed = true) (fun _ => ⟨rfl, rfl⟩) h hu

/-- Nothing more happens to a COMMIT that has been rejected. -/
theorem commitEnd_rejected : commitEnd r (commitRejected c r d) = commitRejected c r d := by
  unfold commitEnd
  split
  · rfl
  · rename_i x hx
    have hcheck := (commitRejected_reqs c r d (List.mem_of_find?_eq_some hx) (findReq_uid hx)).2
    rw [hcheck]
    rfl

theorem commitRejected_seqDesc : (seqDesc (commitRejected c r d) (dSeq r.desc)).spec = none ∧
    (seqDesc (commitRejected c r d) (dSeq r.desc)).length = (seqDesc d (dSeq r.desc)).length := by
  unfold commitRejected
  dsimp only
  rw [seqDesc_updSeq, if_pos rfl]
  refine ⟨rfl, ?_⟩
  dsimp only
  rw [seqDesc, report_cache]
  split
  · rfl
  · exact (discardSpec_keeps d (dSeq r.desc)).2.2

/-- SPEC_INCOMPLETE is stored behind the records of a queue that has room. -/
theorem commitRejected_queue (hroom : d.guard.queue.length < 64) :
    ∃ q, (commitRejected c r d).guard.queue = d.guard.queue ++ [q] ∧ q.code = 0x2D ∧ q.unit = unitCell c := by
  have hkept : (if r.checkFailed = true then d else discardSpec (dSeq r.desc) d).guard = d.guard := by
    split
    · rfl
    · exact (discardSpec_keeps d (dSeq r.desc)).2.1
  unfold commitRejected
  dsimp only
  generalize (if r.checkFailed = true then d else discardSpec (dSeq r.desc) d) = e at hkept
  have hroom' : (updReq r.uid (fun r => { r with killed := true, checkFailed := true }) e).guard.queue.length < 64 := by
    rwa [updReq_guard, hkept]
  have hqueue := guardTake_queue (r := tokenReport r 0x2D (unitCell c) 0 0) (show errClass 0x2D ≠ 2 by decide) _
    (show errHasAddr 0x2D = false by decide) hroom'
  rw [updReq_guard, hkept] at hqueue
  exact ⟨_, hqueue, rfl, rfl⟩

end Rejected

theorem commitSide_commitMoved (c : CellId) (r : Req) (n : Nat) (d : Dev) :
    commitSide (commitMoved c r n d) = commitSide d :=
  foldl_keep commitSide _ _ _ fun _ l => foldl_keep commitSide _ _ _ fun d h =>
    commitSide_commitHead d (dSeq r.desc) l h (dPos r.desc) n (keptOf r)

/-- After the last cell to start, LENGTH rises by ROWS, the SPEC field goes and the commit counts (R253). -/
theorem commitEnd_last {d : Dev} {r x : Req} (hfind : findReq d r.uid = some x) (hcheck : x.checkFailed = false)
    (hall : allStarted d r.uid = true) : commitEnd r d =
      bump (updSeq (dSeq r.desc) (fun s => { s with length := s.length + dRows r.desc, spec := none }) d)
        R.KVC_COMMIT_CNT := by
  simp [commitEnd, hfind, hcheck, hall]

theorem commitEnd_moved {d e : Dev} {r x : Req} (hside : commitSide e = commitSide d) (hfind : findReq d r.uid = some x)
    (hcheck : x.checkFailed = false) (hall : allStarted d r.uid = true) :
    (seqDesc (commitEnd r e) (dSeq r.desc)).length = (seqDesc d (dSeq r.desc)).length + dRows r.desc ∧
      (seqDesc (commitEnd r e) (dSeq r.desc)).spec = none ∧
      getReg (commitEnd r e) R.KVC_COMMIT_CNT = counted (getReg d R.KVC_COMMIT_CNT) 1 := by
  have hent : e.ent = d.ent := congrArg (·.1) hside
  have hseqs : e.cache.seqs = d.cache.seqs := congrArg (·.2.1) hside
  have hcount : getReg e R.KVC_COMMIT_CNT = getReg d R.KVC_COMMIT_CNT := congrArg (·.2.2.2) hside
  rw [commitEnd_last (by rw [findReq, hent]; exact hfind) hcheck (by rw [allStarted, hent]; exact hall)]
  have hseq : ∀ f, seqDesc (bump (updSeq (dSeq r.desc) f e) R.KVC_COMMIT_CNT) (dSeq r.desc) =
      f (seqDesc d (dSeq r.desc)) := by
    intro f
    show seqDesc (updSeq (dSeq r.desc) f e) (dSeq r.desc) = _
    rw [seqDesc_updSeq, if_pos rfl, seqDesc, seqDesc, hseqs]
  rw [hseq, getReg_bump_self, ← hcount]
  exact ⟨rfl, rfl, rfl⟩

end Sys2Proof.Machine
end

section
/-!
PROOFS. A token that is skipped for want of input (R33).
-/

namespace Sys2Proof.Machine

open Sys2Proof

/-! ### A token that is skipped (R33) -/

/-- The first skip of a request writes its record under KILLED. -/
def skippedReq (g : W32) (r : Req) : Req :=
  { r with killed := true, suppressed := true, inputMissing := true, errRef := if r.errRef = 0 then g else r.errRef }

/-- INPUT_MISSING reported, and the token ended. -/
def tokenSkipped (c : CellId) (r : Req) (d : Dev) : Dev :=
  finishToken r.uid c (guardTake (tokenReport r 0x27 (unitCell c) 0 0) d).2

theorem skipToken_first {c : CellId} {r : Req} {d : Dev} (hrec : r.recordWritten = false) : ∃ g, skipToken c r d =
    completeReq (skippedReq g r) (updReq r.uid (fun _ => skippedReq g r) (tokenSkipped c r d)) :=
  ⟨(guardTake (tokenReport r 0x27 (unitCell c) 0 0) d).1, by
    simp only [skipToken, hrec, Bool.false_eq_true, if_false, tokenSkipped, skippedReq]⟩

/-- A completion reports nothing. -/
theorem completeReq_guard (r : Req) (d : Dev) : (completeReq r d).guard = d.guard := by
  obtain ⟨hcache, -⟩ := statusNoted_eq r d
  have hretire : ∀ (uid : Nat) (d : Dev), (retireReq uid d).guard = d.guard := by
    intro uid d
    unfold retireReq
    split
    · rfl
    · split <;> rfl
  have hcombine : ∀ (uid : Nat) (d : Dev), (endCombine uid d).guard = d.guard := fun _ _ =>
    foldl_keep (·.guard) _ _ _ fun _ _ => rfl
  unfold completeReq
  dsimp only
  rw [hretire]
  refine (hcombine _ _).trans ?_
  rw [updReq_guard, writeRecord_guard, hcache]

/-- The registers above the guard's record window are no guard registers. -/
theorem guardReg_above {o : Nat} (h : 0x5100 ≤ o) : guardReg o = false := by
  have hrec : ¬ o < R.GRD_REC 0 := Nat.not_lt.mpr h
  simp [guardReg, hrec]

section Slots

variable {d e : Dev} (ring n : Nat) (h : ∀ o, 0x5100 ≤ o → getReg e o = getReg d o)

include h

/-- The place of a slot and its lap stand in the ring's registers. -/
theorem slotAddr_of_regs : slotAddr e ring n = slotAddr d ring n := by
  have hcfg := h (R.RNG_CFG ring) (by simp only [R.RNG_CFG]; omega)
  have hbase := h (R.RNG_BASE ring) (by simp only [R.RNG_BASE]; omega)
  simp only [slotAddr, ringBase, regFld, ringSize, ringShift, ringCfg, hcfg, hbase]

theorem lapParity_of_regs : lapParity e ring n = lapParity d ring n := by
  have hcfg := h (R.RNG_CFG ring) (by simp only [R.RNG_CFG]; omega)
  rw [lapParity, ringSize, ringShift, ringCfg, hcfg, lapParity, ringSize, ringShift, ringCfg]

end Slots

section Skipped

variable (c : CellId) (r : Req) (d : Dev)

theorem tokenSkipped_rest : (tokenSkipped c r d).regs = (guardTake (tokenReport r 0x27 (unitCell c) 0 0) d).2.regs ∧
    (tokenSkipped c r d).guard = (guardTake (tokenReport r 0x27 (unitCell c) 0 0) d).2.guard := by
  unfold tokenSkipped
  generalize (guardTake (tokenReport r 0x27 (unitCell c) 0 0) d).2 = e
  exact ⟨rfl, rfl⟩

/-- A report of a skip leaves every register above the guard's. -/
theorem getReg_tokenSkipped {o : Nat} (h : 0x5100 ≤ o) : getReg (tokenSkipped c r d) o = getReg d o :=
  (getReg_congr (tokenSkipped_rest c r d).1 o).trans
    (getReg_guardTake (r := tokenReport r 0x27 (unitCell c) 0 0) (show errClass 0x27 ≠ 2 by decide) d
      (guardReg_above h))

/-- INPUT_MISSING is stored behind the records of a queue that has room. -/
theorem tokenSkipped_queue (hroom : d.guard.queue.length < 64) : ∃ q, (tokenSkipped c r d).guard.queue =
    d.guard.queue ++ [q] ∧ q.code = 0x27 ∧ q.cls = 1 ∧ q.unit = unitCell c := by
  have hqueue := guardTake_queue (r := tokenReport r 0x27 (unitCell c) 0 0) (show errClass 0x27 ≠ 2 by decide) d
    (show errHasAddr 0x27 = false by decide) hroom
  rw [← (tokenSkipped_rest c r d).2] at hqueue
  exact ⟨_, hqueue, rfl, rfl, rfl⟩

end Skipped

/-- STATUS and PHASE of a record stand in its byte 6 (Table 03-6). -/
theorem completionBytes_status (x : Completion) (phase : Bool) (done slot : Nat) :
    (completionBytes x phase done slot).getD 6 0 = BitVec.ofNat 8 (x.status % 16 + (if phase then 128 else 0)) := by
  simp [completionBytes, leBytes]

/-- The record of a request whose token has been skipped says KILLED. -/
theorem statusWord_skipped (g : W32) (r : Req) (d : Dev) : statusWord d (skippedReq g r) = 2 := if_pos rfl

/-- What the first skip of a request leaves (R33). -/
theorem skipToken_effect {c : CellId} {r : Req} {d : Dev} (hrec : r.recordWritten = false) :
    getReg (skipToken c r d) (R.RNG_PENDING (dRing r.desc)) = getReg d (R.RNG_PENDING (dRing r.desc)) - 1 ∧
      (skipToken c r d).guard = (tokenSkipped c r d).guard ∧
      tblGet 0 (skipToken c r d).mem.hive (slotAddr d (dRing r.desc) r.ctr.toNat + 6) =
        (if lapParity d (dRing r.desc) r.ctr.toNat then 0x82 else 0x02) := by
  obtain ⟨g, hskip⟩ := skipToken_first (c := c) (d := d) hrec
  obtain ⟨hregs, hmem, -⟩ := completeReq_effect (skippedReq g r)
    (updReq r.uid (fun _ => skippedReq g r) (tokenSkipped c r d))
  have hring : dRing (skippedReq g r).desc = dRing r.desc := rfl
  have hctr : (skippedReq g r).ctr = r.ctr := rfl
  rw [hring, hctr] at hregs hmem
  generalize hdev : updReq r.uid (fun _ => skippedReq g r) (tokenSkipped c r d) = e at hskip hregs hmem
  have heregs : e.regs = (tokenSkipped c r d).regs := by rw [← hdev, updReq_regs]
  have heguard : e.guard = (tokenSkipped c r d).guard := by rw [← hdev, updReq_guard]
  have hpending : getReg e (R.RNG_PENDING (dRing r.desc)) = getReg d (R.RNG_PENDING (dRing r.desc)) :=
    (getReg_congr heregs _).trans (getReg_tokenSkipped c r d (by simp only [R.RNG_PENDING]; omega))
  have haddr := slotAddr_of_regs (dRing r.desc) r.ctr.toNat fun o ho =>
    (getReg_congr heregs o).trans (getReg_tokenSkipped c r d ho)
  have hlap := lapParity_of_regs (dRing r.desc) r.ctr.toNat fun o ho =>
    (getReg_congr heregs o).trans (getReg_tokenSkipped c r d ho)
  rw [hskip]
  refine ⟨?_, ?_, ?_⟩
  · rw [getReg_congr hregs, getReg_writeRecord_pending _ _ _ _ (dRing_lt r.desc), hpending]
  · rw [completeReq_guard, heguard]
  · rw [hmem, writeRecord_mem _ _ _ _ (dRing_lt r.desc), haddr, hlap, hive_after_write,
      if_pos (by rw [completionBytes_length]; omega), Nat.add_sub_cancel_left, completionBytes_status]
    have hstatus : (completionOf e (skippedReq g r)).status = 2 := statusWord_skipped g r e
    rw [hstatus]
    split <;> rfl

end Sys2Proof.Machine
end

section
/-!
PROOFS. The rows TOKEN_START, TOKEN_SKIP and EXPRESS_RELEASE (R22, R23, R33, R50, R52, R82, R253, R254).
-/

namespace Sys2Proof.Machine

open Sys2Proof

theorem getPort_congr {d e : Dev} (h : e.ports = d.ports) (p : PortId) : getPort e p = getPort d p := by
  rw [getPort, h, getPort]

theorem inputComplete_commit {d : Dev} {r : Req} (hop : dOp r.desc = opCOMMIT) : inputComplete d r = true := by
  simp [inputComplete, inputLen, hop]

/-! The row of an express token names the same work. -/

theorem expressRow_uid (d : Dev) (r : Req) : (expressRow d r).uid = r.uid := by rw [expressRow_rest]
theorem expressRow_desc (d : Dev) (r : Req) : (expressRow d r).desc = r.desc := by rw [expressRow_rest]
theorem expressRow_bucket (d : Dev) (r : Req) : (expressRow d r).bucket = r.bucket := by rw [expressRow_rest]
theorem expressRow_express (d : Dev) (r : Req) : (expressRow d r).express = r.express := by rw [expressRow_rest]

theorem takesInput_expressRow (d : Dev) (r : Req) (c : CellId) :
    takesInput d (expressRow d r) c = takesInput d r c := by
  simp only [takesInput, expressRow_desc, expressRow_express]

/-- One row that the buffer holds is placed whole. -/
theorem placedBytes_one {d : Dev} {r : Req} (hrows : dRows r.desc = 1) (hfit : 2 * dModel d (dTenant r.desc) ≤ 0x8000)
    {i : Nat} (hi : i < 2 * dModel d (dTenant r.desc)) : placedBytes d r = 2 * dModel d (dTenant r.desc) := by
  have hpos : 1 ≤ 0x8000 / (2 * dModel d (dTenant r.desc)) := Nat.div_pos hfit (Nat.lt_of_le_of_lt (Nat.zero_le i) hi)
  rw [placedBytes, hrows, Nat.min_eq_left hpos, Nat.mul_one]

/-- The token of a request runs on a cell, and no register and no byte has changed, but that a diagnostic program on the
cell has ended. -/
def Started (s : State) (c : CellId) (uid : Nat) (t : State) : Prop :=
  t.pending = s.pending ∧ RegsExcept [] s t ∧ t.dev.mem = (diagFreed c s.dev).mem ∧
    ∃ k' ∈ t.dev.ent.tokens, k'.uid = uid ∧ k'.cell = c ∧ k'.st = .running ∧ k'.startCyc = ccount s.dev

section Turn

variable {s : State} {c : CellId} {k : Token} {r : Req} (halive : alive s.dev = true)
  (hclock : cellClocked s.dev c = true) (hturn : turnOf s.dev c = some (k, r))

section Starts

include hturn

/-- A token that begins has started, whatever else its start does to the cells. -/
theorem started_of_begun {e f : Dev} {q : Req} (hq : q.uid = r.uid) (halike : StartsAlike s.dev e)
    (hmem : e.mem = s.dev.mem) (htokens : e.ent.tokens = s.dev.ent.tokens)
    (hf : f = { beginToken c q e with cells := f.cells }) : Started s c r.uid { s with dev := f } := by
  obtain ⟨hk, hcell, hst, hfind⟩ := turnOf_spec hturn
  have hruns := mem_beginToken (e := e) hk hcell hst (hq.trans (findReq_uid hfind)) htokens
  rw [halike.ccount, hq] at hruns
  have hregs : f.regs = s.dev.regs := by
    rw [hf]
    exact (halike.trans (beginToken_alike c q e)).regs
  have hfmem : f.mem = (diagFreed c s.dev).mem := by
    rw [hf]
    exact (beginToken_mem c q e).trans (diagFreed_mem_congr c hmem)
  have hftokens : f.ent.tokens = (beginToken c q e).ent.tokens := by rw [hf]
  exact ⟨rfl, regsExcept_of_regs [] hregs, hfmem, by rwa [hftokens]⟩

/-- A COMMIT whose token starts last has left no token waiting. -/
theorem allStarted_prepared
    (hlast : ∀ k' ∈ s.dev.ent.tokens, k'.uid = r.uid → k'.combine = false ∧ (k'.st = .queued → k'.cell = c)) :
    allStarted (prepared c r s.dev) r.uid = true := by
  obtain ⟨hk, hcell, hst, hfind⟩ := turnOf_spec hturn
  have huid := findReq_uid hfind
  rw [allStarted, prepared_ent, beginToken_tokens, tokenBegun, huid]
  rw [huid] at hlast
  have htokens : (diagFreed c s.dev).ent.tokens = s.dev.ent.tokens := by rw [(diagFreed_rest c s.dev).1]
  rw [← htokens] at hk hlast
  exact allStarted_updToken _ hk hcell (by rw [hst]; decide) (fun _ => by simp) hlast

theorem findReq_prepared : findReq (prepared c r s.dev) r.uid = some r := by
  obtain ⟨-, -, -, hfind⟩ := turnOf_spec hturn
  rw [findReq, prepared_ent, beginToken_reqs, findReq_uid hfind]
  exact hfind

end Starts

include halive hclock hturn

theorem tokenStart_killed (hkill : killApplies r k = true) :
    Completes (.tokenStart c) s (fun t => t.pending = s.pending ∧ RegsExcept [] s t ∧ SameMemory s t ∧
      (∀ r' ∈ t.dev.ent.reqs, r'.uid = r.uid → r'.killed = true ∧ r'.suppressed = true) ∧
      ∃ k' ∈ t.dev.ent.tokens, k'.uid = r.uid ∧ k'.cell = c ∧ k'.st = .finished) := by
  obtain ⟨hk, hcell, hst, hfind⟩ := turnOf_spec hturn
  exact completes_tokenStart halive hclock (startToken_killed hturn hkill) ⟨rfl, regsExcept_of_regs [] rfl, rfl,
    fun _ => retireToken_reqs, mem_retireToken hk hcell hst (findReq_uid hfind)⟩

theorem tokenStart_combined (hkill : killApplies r k = false) (hcomb : k.combine = true) (hdone : r.combined = true) :
    Completes (.tokenStart c) s (Started s c r.uid) :=
  completes_tokenStart halive hclock (startToken_combined hturn hkill hcomb hdone)
    (started_of_begun hturn rfl (StartsAlike.refl _) rfl rfl rfl)

theorem tokenStart_work (hkill : killApplies r k = false) (hcomb : k.combine = false) (hop : dOp r.desc ≠ opCOMMIT)
    (hx : r.express = none) (hin : inputComplete s.dev r = true) :
    Completes (.tokenStart c) s (fun t => Started s c r.uid t ∧
      (∀ ws, tickProgram s.dev (dTenant r.desc) (dOp r.desc) r.bucket = some ws →
        (cellOf t.dev c).prog = ws ∧ (cellOf t.dev c).pc = 0) ∧ t.dev.ent.reqs = s.dev.ent.reqs ∧
      (takesInput s.dev r c = true → ∀ i, i < placedBytes s.dev r →
        tblGet 0 (cellOf t.dev c).mov i = (inputBytes r 0 (placedBytes s.dev r)).getD i 0)) := by
  have hrun : startToken c s.dev = prepared c r s.dev :=
    (startToken_work hturn hkill hcomb hx hin).trans (runToken_work hop)
  refine completes_tokenStart halive hclock hrun
    ⟨started_of_begun hturn rfl (StartsAlike.refl _) rfl rfl (prepared_rest c r s.dev),
      fun ws => prepared_prog (StartsAlike.refl _), ?_,
      fun htakes i => prepared_mov (StartsAlike.refl _) hop htakes⟩
  dsimp only
  rw [prepared_ent, beginToken_reqs]

theorem tokenStart_express (hkill : killApplies r k = false) (hcomb : k.combine = false) (hop : dOp r.desc ≠ opCOMMIT)
    (hx : r.express.isSome = true) :
    Completes (.tokenStart c) s (fun t => Started s c r.uid t ∧
      (∀ ws, tickProgram s.dev (dTenant r.desc) (dOp r.desc) r.bucket = some ws →
        (cellOf t.dev c).prog = ws ∧ (cellOf t.dev c).pc = 0) ∧
      ∀ p b, r.expBuf = some (p, b) → expBufOf (getPort t.dev p) b = {} ∧
        let n := 2 * dModel s.dev (dTenant r.desc)
        (takesInput s.dev r c = true → dRows r.desc = 1 → n ≤ 0x8000 → n ≤ inputLen s.dev r.desc → ∀ i, i < n →
          tblGet 0 (cellOf t.dev c).mov i = tblGet 0 (expBufOf (getPort s.dev p) b).bytes i)) := by
  have hdesc := expressRow_desc s.dev r
  have hrun : startToken c s.dev = prepared c (expressRow s.dev r) (takeExpress r s.dev) :=
    (startToken_express hturn hkill hcomb hx).trans (runToken_work (by rwa [hdesc]))
  have halike := takeExpress_alike r s.dev
  have hmem : (takeExpress r s.dev).mem = s.dev.mem := by rw [takeExpress_rest]
  have htokens : (takeExpress r s.dev).ent.tokens = s.dev.ent.tokens := by rw [takeExpress_rest]
  refine completes_tokenStart halive hclock hrun
    ⟨started_of_begun hturn (expressRow_uid _ _) halike hmem htokens (prepared_rest _ _ _), fun ws hws => ?_,
      fun p b hbuf => ⟨?_, fun htakes hrows hfit hlen i hi => ?_⟩⟩
  · exact prepared_prog halike (by rwa [hdesc, expressRow_bucket])
  · have hports : (prepared c (expressRow s.dev r) (takeExpress r s.dev)).ports = (takeExpress r s.dev).ports := by
      rw [prepared_rest]
      exact beginToken_ports _ _ _
    exact (congrArg (expBufOf · b) (getPort_congr hports p)).trans (expBufOf_takeExpress hbuf)
  · have hplaced : placedBytes s.dev (expressRow s.dev r) = 2 * dModel s.dev (dTenant r.desc) := by
      have h := placedBytes_one (d := s.dev) (r := expressRow s.dev r) (by rwa [hdesc]) (by rwa [hdesc])
        (i := i) (by rwa [hdesc])
      rwa [hdesc] at h
    have hmov := prepared_mov (r := expressRow s.dev r) halike (by rwa [hdesc])
      (by rwa [takesInput_expressRow]) (i := i) (by rwa [hplaced])
    rw [hplaced] at hmov
    exact hmov.trans (expressRow_input hbuf hlen hi)

theorem tokenStart_waits (hkill : killApplies r k = false) (hcomb : k.combine = false) (hx : r.express = none)
    (hin : inputComplete s.dev r = false) : Completes (.tokenStart c) s (fun t => t = s) :=
  completes_tokenStart halive hclock (startToken_waits hturn hkill hcomb hx hin) rfl

section Commit

variable {sp : SpecField} (hkill : killApplies r k = false) (hcomb : k.combine = false) (hop : dOp r.desc = opCOMMIT)
  (hx : r.express = none) (hhead : headCell s.dev (dTenant r.desc) c = true)
  (hspec : (seqDesc s.dev (dSeq r.desc)).spec = some sp)

include hkill hcomb hop hx hhead hspec

theorem tokenStart_rejected (hbad : sp.bad = true ∨ r.checkFailed = true) (hroom : s.dev.guard.queue.length < 64) :
    Completes (.tokenStart c) s (fun t => t.pending = s.pending ∧
      (∀ r' ∈ t.dev.ent.reqs, r'.uid = r.uid → r'.killed = true) ∧ (seqDesc t.dev (dSeq r.desc)).spec = none ∧
      (seqDesc t.dev (dSeq r.desc)).length = (seqDesc s.dev (dSeq r.desc)).length ∧
      ∃ q, t.dev.guard.queue = s.dev.guard.queue ++ [q] ∧ q.code = 0x2D ∧ q.unit = unitCell c) := by
  have halike := prepared_alike c r s.dev
  obtain ⟨hpspec, hplen⟩ := prepared_seqDesc c r s.dev (dSeq r.desc)
  have hcell : commitCell c r (prepared c r s.dev) = commitRejected c r (prepared c r s.dev) :=
    commitCell_bad ((halike.headCell _ _).trans hhead) (hpspec.trans hspec) hbad
  have hrun : startToken c s.dev = commitRejected c r (prepared c r s.dev) := by
    rw [startToken_work hturn hkill hcomb hx (inputComplete_commit hop), runToken_commit hop, hcell, commitEnd_rejected]
  obtain ⟨hnone, hlen⟩ := commitRejected_seqDesc c r (prepared c r s.dev)
  have hqueue := commitRejected_queue c r (prepared c r s.dev) (by rwa [halike.guard])
  rw [halike.guard] at hqueue
  exact completes_tokenStart halive hclock hrun ⟨rfl, fun r' h hu => (commitRejected_reqs c r _ h hu).1, hnone,
    hlen.trans hplen, hqueue⟩

theorem tokenStart_committed (hgood : sp.bad = false) (hcheck : r.checkFailed = false)
    (hlast : ∀ k' ∈ s.dev.ent.tokens, k'.uid = r.uid → k'.combine = false ∧ (k'.st = .queued → k'.cell = c)) :
    Completes (.tokenStart c) s (fun t => t.pending = s.pending ∧
      (seqDesc t.dev (dSeq r.desc)).length = (seqDesc s.dev (dSeq r.desc)).length + dRows r.desc ∧
      (seqDesc t.dev (dSeq r.desc)).spec = none ∧
      getReg t.dev R.KVC_COMMIT_CNT = counted (getReg s.dev R.KVC_COMMIT_CNT) 1) := by
  have halike := prepared_alike c r s.dev
  obtain ⟨hpspec, hplen⟩ := prepared_seqDesc c r s.dev (dSeq r.desc)
  have hcell : commitCell c r (prepared c r s.dev) = commitMoved c r sp.n (prepared c r s.dev) :=
    commitCell_good ((halike.headCell _ _).trans hhead) (hpspec.trans hspec) hgood hcheck
  have hrun : startToken c s.dev = commitEnd r (commitMoved c r sp.n (prepared c r s.dev)) := by
    rw [startToken_work hturn hkill hcomb hx (inputComplete_commit hop), runToken_commit hop, hcell]
  obtain ⟨hlen, hnone, hcount⟩ := commitEnd_moved (commitSide_commitMoved c r sp.n (prepared c r s.dev))
    (findReq_prepared hturn) hcheck (allStarted_prepared hturn hlast)
  rw [hplen] at hlen
  rw [getReg_congr halike.regs] at hcount
  exact completes_tokenStart halive hclock hrun ⟨rfl, hlen, hnone, hcount⟩

end Commit

theorem tokenSkip_skips (hkill : killApplies r k = false) (hcomb : k.combine = false) (hx : r.express = none)
    (hin : inputComplete s.dev r = false) (hclosed : inputClosed s.dev k.tick = true) (hrec : r.recordWritten = false)
    (hroom : s.dev.guard.queue.length < 64) :
    Completes (.tokenSkip c) s (fun t => t.pending = s.pending ∧
      getReg t.dev (R.RNG_PENDING (dRing r.desc)) = getReg s.dev (R.RNG_PENDING (dRing r.desc)) - 1 ∧
      (∃ q, t.dev.guard.queue = s.dev.guard.queue ++ [q] ∧ q.code = 0x27 ∧ q.cls = 1 ∧ q.unit = unitCell c) ∧
      tblGet 0 t.dev.mem.hive (slotAddr s.dev (dRing r.desc) r.ctr.toNat + 6) =
        (if lapParity s.dev (dRing r.desc) r.ctr.toNat then 0x82 else 0x02)) := by
  have hexec : exec (.tokenSkip c) s = .next { s with dev := skipToken c r s.dev } := by
    show execTokenSkip c s = _
    simp [execTokenSkip, onDev, onlyIf, hturn, halive, hclock, hcomb, hkill, hx, hin, hclosed]
  obtain ⟨hpending, hguard, hbyte⟩ := skipToken_effect (c := c) (d := s.dev) hrec
  have hqueue := tokenSkipped_queue c r s.dev hroom
  rw [← hguard] at hqueue
  exact ⟨_, hexec, rfl, hpending, hqueue, hbyte⟩

end Turn

theorem expressRelease_releases {s : State} {c : CellId} {r : Req} (halive : alive s.dev = true)
    (hfind : s.dev.ent.reqs.find? (fun r => decide (r.express = some c) && !r.released) = some r)
    (hdue : r.tick < s.dev.tick.num ∨ r.expStart ≤ tickCycles s.dev (sinceStart s.dev)) :
    Completes (.expressRelease c) s (fun t => t.pending = s.pending ∧ RegsExcept [] s t ∧ SameMemory s t ∧
      ∀ r' ∈ t.dev.ent.reqs, r'.uid = r.uid → r'.released = true) := by
  have hexec : exec (.expressRelease c) s =
      .next { s with dev := updReq r.uid (fun r => { r with released := true }) s.dev } := by
    show execExpressRelease c s = _
    simp [execExpressRelease, onDev, onlyIf, hfind, halive, hdue]
  exact ⟨_, hexec, rfl, regsExcept_of_regs [] rfl, rfl,
    fun _ => of_mem_reqs_updReq (P := fun r => r.released = true) (fun _ => rfl)⟩

/-- Settles O34: a start changes the tags and diagnostic units of memory, the cells, the entrance, the cache's sequences
and the ports alone, so that the image, the input rows and the timebase read on the way are those of the state before;
a COMMIT's moves leave the sequences, and a skip's record goes into its slot through the completion of its request. -/
theorem tokensStartOrAreSkipped : Obligations.TokensStartOrAreSkipped := by
  intro s c halive hclock
  refine ⟨fun k r hturn => ⟨tokenStart_killed halive hclock hturn, tokenStart_combined halive hclock hturn,
    fun hkill hcomb hop => ⟨tokenStart_work halive hclock hturn hkill hcomb hop,
      tokenStart_express halive hclock hturn hkill hcomb hop⟩,
    fun hkill hcomb hop hx hhead sp hspec =>
      ⟨tokenStart_rejected halive hclock hturn hkill hcomb hop hx hhead hspec,
        tokenStart_committed halive hclock hturn hkill hcomb hop hx hhead hspec⟩,
    tokenStart_waits halive hclock hturn, tokenSkip_skips halive hclock hturn⟩, fun r => expressRelease_releases halive⟩

end Sys2Proof.Machine
end

section
/-!
PROOFS. Hop-delay echoes (R53, R312, R316): the answer to an ECHO, a measurement taken, and the next ECHO sent.
-/

namespace Sys2Proof.Machine

open Sys2Proof

/-- The row of a frame that a live port takes completes with what the rules of its type make of the arrived device. -/
theorem completes_of_accepted {i : Instr} {s : State} {p : PortId} {f : Frame} {typ : Byte} {act : Dev → Dev}
    {post : State → Prop} (hi : exec i s = onDev (recvFrame p f typ act) s) (h : Accepted s p f typ)
    (hpost : post { s with dev := act (arrived p typ s.dev) }) : Completes i s post :=
  completes_of_onDev hi (by rwa [recvFrame_accepted act h])

/-! ### What an arrival leaves -/

@[simp] theorem arrived_regs (p : PortId) (typ : Byte) (d : Dev) : (arrived p typ d).regs = d.regs :=
  (arrived_readsAlike p typ d).regs

@[simp] theorem arrived_mem (p : PortId) (typ : Byte) (d : Dev) : (arrived p typ d).mem = d.mem :=
  (arrived_readsAlike p typ d).mem

theorem arrived_guard (p : PortId) (typ : Byte) (d : Dev) : (arrived p typ d).guard = d.guard := by
  rw [(arrived_readsAlike p typ d).rest]

@[simp] theorem getReg_arrived (p : PortId) (typ : Byte) (d : Dev) (o : Nat) : getReg (arrived p typ d) o = getReg d o :=
  getReg_congr (arrived_regs p typ d) o

theorem now_arrived (p : PortId) (typ : Byte) (d : Dev) : now (arrived p typ d) = now d := by
  rw [now, arrived_tick, now]

theorem parentPort_congr {d e : Dev} (h : getReg e R.TICK_CFG = getReg d R.TICK_CFG) : parentPort e = parentPort d := by
  simp only [parentPort, regFld, h]
  rfl

/-- A port that took the frame sends and retrains as it did. -/
theorem arrived_port (p : PortId) (typ : Byte) (d : Dev) (q : PortId) :
    (getPort (arrived p typ d) q).tx = (getPort d q).tx ∧
      (getPort (arrived p typ d) q).retraining = (getPort d q).retraining := by
  have h : getPort (arrived p typ d) q = getPort (linkIn p d) q := by simp only [getPort, arrived_ports]
  rw [h]
  exact ⟨linkIn_port_tx p d q, linkIn_port_retraining p d q⟩

/-! ### Sending -/

/-- A port that is UP at a version that has the type, and does not retrain, sends the frame behind what it has sent. -/
theorem sendOn_tx {d : Dev} {p : PortId} {f : Frame} (hup : portUp d p = true) (hver : portVer d p ≠ 1)
    (hretrain : (getPort d p).retraining = false) :
    (getPort (sendOn p f d) p).tx = (getPort d p).tx ++ [f] := by
  unfold sendOn
  rw [hup, decide_eq_false hver]
  simp only [Bool.not_true, Bool.false_and, Bool.or_self, Bool.false_eq_true, if_false, hretrain, getPort_setPort,
    if_true, putOut_tx]

/-- A frame sent shows in the ports alone. -/
theorem sendOn_eq_ports (p : PortId) (f : Frame) (d : Dev) : sendOn p f d = { d with ports := (sendOn p f d).ports } := by
  unfold sendOn
  split <;> rfl

/-! ### The ECHO to the parent -/

/-- An ECHO shows in the ports and in the echo that is in flight alone. -/
theorem sendEcho_rest (d : Dev) : ∃ sent age, sendEcho d =
    { d with ports := (sendEcho d).ports, tick := { d.tick with echoSent := sent, echoAge := age } } := by
  unfold sendEcho
  split
  · exact ⟨d.tick.echoSent, d.tick.echoAge, rfl⟩
  · rename_i p _
    refine ⟨some ((getPort d p).nextTag, now d), 0, ?_⟩
    dsimp only
    rw [sendOn_eq_ports]
    rfl

/-- An ECHO leaves with the time it leaves, and is in flight. -/
theorem sendEcho_sends {d : Dev} {p : PortId} (hparent : parentPort d = some p) (hup : portUp d p = true)
    (hver : portVer d p ≠ 1) (hretrain : (getPort d p).retraining = false) :
    (sendEcho d).tick.echoSent = some ((getPort d p).nextTag, now d) ∧ (sendEcho d).tick.echoAge = 0 ∧
      (getPort (sendEcho d) p).tx =
        (getPort d p).tx ++ [mkFrame d tECHO 0 (getPort d p).nextTag 0x1FF 0 0 0 (leBytes 8 (now d))] := by
  have htag : getPort (takeTag p d).2 p = { getPort d p with nextTag := (getPort d p).nextTag + 1 } := by
    rw [takeTag, getPort_setPort, if_pos rfl]
  have hregs : (takeTag p d).2.regs = d.regs := rfl
  have hframe := sendOn_tx (d := (takeTag p d).2) (p := p)
    (f := mkFrame (takeTag p d).2 tECHO 0 (takeTag p d).1 0x1FF 0 0 0 (leBytes 8 (now d)))
    ((portUp_congr hregs p).trans hup) (by rwa [portVer_congr hregs p]) (by rw [htag]; exact hretrain)
  rw [mkFrame_congr hregs, htag] at hframe
  unfold sendEcho
  rw [hparent]
  exact ⟨rfl, rfl, hframe⟩

/-! ### A measurement (R53, R312) -/

/-- The last eight measurements with one more. -/
def hopsWith (h : Nat) (d : Dev) : List Nat := (h :: d.tick.hops).take 8

/-- The measurement has joined the last eight, its echo is no longer in flight, and their mean is shown. -/
def hopShown (h : Nat) (d : Dev) : Dev :=
  setReg { d with tick := { d.tick with hops := hopsWith h d, echoSent := none } } R.TICK_HOP_DELAY
    (BitVec.ofNat 32 (min ((hopsWith h d).sum / (hopsWith h d).length) 0xFFFF))

/-- A measurement is shown, and reported where the mean exceeds the declared latency. -/
theorem takeHop_eq (p : PortId) (h : Nat) (d : Dev) : takeHop p h d =
    if regFld d (R.LNK_DECL_LAT p.val) 15 0 < (hopsWith h d).sum / (hopsWith h d).length then
      report (mkReport 0x2F (unitPort p)) (hopShown h d)
    else hopShown h d := by
  have hne : R.LNK_DECL_LAT p.val ≠ R.TICK_HOP_DELAY := by
    simp only [R.LNK_DECL_LAT, R.TICK_HOP_DELAY]
    omega
  have hlat : regFld (hopShown h d) (R.LNK_DECL_LAT p.val) 15 0 = regFld d (R.LNK_DECL_LAT p.val) 15 0 := by
    rw [regFld, hopShown, getReg_setReg_ne _ _ _ _ hne]
    rfl
  rw [← hlat]
  rfl

theorem takeHop_tick (p : PortId) (h : Nat) (d : Dev) :
    (takeHop p h d).tick = { d.tick with hops := hopsWith h d, echoSent := none } := by
  rw [takeHop_eq]
  split
  · exact report_tick _ _
  · rfl

theorem takeHop_mem (p : PortId) (h : Nat) (d : Dev) : (takeHop p h d).mem = d.mem := by
  rw [takeHop_eq]
  split
  · exact report_mem _ _
  · rfl

/-- TICK_HOP_DELAY shows the mean, saturated. -/
theorem takeHop_delay (p : PortId) (h : Nat) (d : Dev) : (getReg (takeHop p h d) R.TICK_HOP_DELAY).toNat =
    min ((hopsWith h d).sum / (hopsWith h d).length) 0xFFFF := by
  have hshown : getReg (takeHop p h d) R.TICK_HOP_DELAY = getReg (hopShown h d) R.TICK_HOP_DELAY := by
    rw [takeHop_eq]
    split
    · exact getReg_guardTake (by decide : errClass 0x2F ≠ 2) _ rfl
    · rfl
  rw [hshown, hopShown, getReg_setReg_self, BitVec.toNat_ofNat, Nat.mod_eq_of_lt]
  exact lt_of_le_of_lt (min_le_right _ _) (by decide)

/-- The parent's answer to the echo in flight gives a measurement; on a die that does not join no echo follows. -/
theorem echoFrame_measures {d : Dev} {p : PortId} {f : Frame} {tag : BitVec 16} {t1 : Nat} (hans : isAnswer f = true)
    (hsent : d.tick.echoSent = some (tag, t1)) (hparent : parentPort d = some p) (htag : f.tag = tag)
    (hlen : f.payload.length = 24) (hjoin : d.tick.joining = false) :
    echoFrame p f d = takeHop p (((now d - t1) - (leAt f.payload 16 8 - leAt f.payload 8 8)) / 2) d := by
  unfold echoFrame
  rw [if_pos hans, hsent]
  dsimp only
  rw [if_pos ⟨hparent, htag, hlen⟩, takeHop_tick]
  exact if_neg (by simp [hjoin])

/-! ### The statement -/

/-- Settles O29: an arrival leaves the registers, the timebase and the echo in flight, so that the answer, the
measurement and the next ECHO are those of the state before. -/
theorem hopDelayEchoes : Obligations.HopDelayEchoes := by
  refine fun s p hretrain => ⟨fun f hacc _ hans => ?_, fun f tag t1 hacc hans hsent hparent htag hlen hjoin => ?_,
    fun halive hrole hrun hmember hdue hparent hup hver => ?_⟩
  · obtain ⟨htx, hre⟩ := arrived_port p tECHO s.dev p
    refine completes_of_accepted rfl hacc ?_
    rw [echoFrame, if_neg (by simp [hans]), now_arrived]
    exact ⟨rfl, regsExcept_of_regs [] (by simp), by simp [SameMemory],
      answered_of_accept _ (arrived_regs p _ _) htx (hre.trans hretrain) hacc.2.2.1 hacc.2.2.2.1⟩
  · refine completes_of_accepted rfl hacc ?_
    rw [echoFrame_measures hans (by rw [arrived_tick, hsent]) (by rw [parentPort_congr (getReg_arrived p _ _ _), hparent])
      htag hlen (by rw [arrived_tick, hjoin]), now_arrived]
    generalize ((now s.dev - t1) - (leAt f.payload 16 8 - leAt f.payload 8 8)) / 2 = h
    have hhops : hopsWith h (arrived p tECHO s.dev) = (h :: s.dev.tick.hops).take 8 := by rw [hopsWith, arrived_tick]
    have hlat : regFld (arrived p tECHO s.dev) (R.LNK_DECL_LAT p.val) 15 0 = regFld s.dev (R.LNK_DECL_LAT p.val) 15 0 := by
      simp [regFld]
    have heq := takeHop_eq p h (arrived p tECHO s.dev)
    rw [hhops, hlat] at heq
    refine ⟨rfl, by rw [takeHop_tick, hhops], by rw [takeHop_tick], by rw [takeHop_delay, hhops],
      (takeHop_mem p h _).trans (arrived_mem p _ _), fun hle => ?_, fun hlt hroom => ?_⟩
    · rw [heq, if_neg (by omega)]
      exact ⟨fun o ho => (getReg_setReg_ne _ _ _ _ (by simpa using ho)).trans (getReg_arrived p _ _ o),
        arrived_guard p _ _⟩
    · have hguard : (hopShown h (arrived p tECHO s.dev)).guard = s.dev.guard := arrived_guard p _ _
      have hqueue := guardTake_queue (r := mkReport 0x2F (unitPort p)) (by decide : errClass 0x2F ≠ 2)
        (hopShown h (arrived p tECHO s.dev)) (by decide : errHasAddr 0x2F = false) (by rwa [hguard])
      rw [heq, if_pos hlt]
      exact ⟨_, hqueue.trans (by rw [hguard]), rfl, rfl⟩
  · refine completes_of_onlyIf (fun d => alive d && decide (role d = 2) && d.tick.running && d.tick.member &&
      decide ((getReg d R.TICK_ECHO_INTERVAL).toNat ≤ d.tick.echoAge)) rfl (by simp [halive, hrole, hrun, hmember, hdue]) ?_
    obtain ⟨sent, age, hrest⟩ := sendEcho_rest s.dev
    exact ⟨rfl, regsExcept_of_regs [] (by rw [hrest]), by rw [SameMemory, hrest],
      sendEcho_sends hparent hup hver hretrain⟩

end Sys2Proof.Machine
end

section
/-!
PROOFS. Beacons at a worker (R54, R56 to R58, R392): one taken in time, one that makes it leave, one that is missing, and
the leaving.
-/

namespace Sys2Proof.Machine

open Sys2Proof

/-! ### What a beacon's effects leave -/

/-- The worker's books of its beacons: the last one in time, the misses, and the budgets. -/
def beaconBooks (t : TickUnit) : Nat × Nat × Tbl Nat := (t.lastBeacon, t.misses, t.budgets)

theorem sendEcho_mem (d : Dev) : (sendEcho d).mem = d.mem := by
  obtain ⟨_, _, h⟩ := sendEcho_rest d
  rw [h]

theorem sendEcho_books (d : Dev) : beaconBooks (sendEcho d).tick = beaconBooks d.tick := by
  obtain ⟨_, _, h⟩ := sendEcho_rest d
  rw [h]
  rfl

/-- Beacons for the children leave through the ports. -/
theorem forwardBeacon_eq_ports (bs : List Byte) (d : Dev) :
    forwardBeacon bs d = { d with ports := (forwardBeacon bs d).ports } := by
  unfold forwardBeacon
  induction childPorts d generalizing d with
  | nil => rfl
  | cons p ps ih =>
    rw [List.foldl_cons, ih, sendOn_eq_ports]
    rfl

/-- An alignment shows in the registers and the slew, and may be a cause to leave. -/
theorem alignBeacon_rest (bs : List Byte) (d : Dev) : (alignBeacon bs d).mem = d.mem ∧
    beaconBooks (alignBeacon bs d).tick = beaconBooks d.tick := by
  unfold alignBeacon
  split
  · exact ⟨rfl, rfl⟩
  · dsimp only
    split
    · exact ⟨rfl, rfl⟩
    · exact ⟨rfl, rfl⟩

/-- The activation entries of a beacon are the weight engine's. -/
theorem wgtReceiveActs_eq_wgt (k : Nat) (acts : List (Nat × Nat × Nat)) (d : Dev) :
    wgtReceiveActs k acts d = { d with wgt := (wgtReceiveActs k acts d).wgt } := by
  unfold wgtReceiveActs
  induction acts generalizing d with
  | nil => rfl
  | cons a as ih =>
    rw [List.foldl_cons, ih]
    dsimp only
    repeat' split
    all_goals rfl

/-! ### A beacon at a member of the domain -/

/-- The beacon of the tick that starts next, in time and of the die's period, is entered in the books. -/
theorem memberBeacon_taken {d : Dev} {bs : List Byte} (halone : d.tick.alone = false) (hnum : bcnTick bs = nextNum d)
    (hperiod : bcnPeriod bs = (getReg d R.TICK_PERIOD).toNat) (hmissed : d.tick.missed = false)
    (hintime : d.tick.time + 1000 ≤ nextStart d) :
    (memberBeacon bs d).mem = d.mem ∧ beaconBooks (memberBeacon bs d).tick =
      (nextNum d, 0, tblPut d.tick.budgets (nextNum d + 2) (bcnBudget bs (dieIndex d).toNat)) := by
  have hfollows (e : Dev) :
      let g := forwardBeacon bs (alignBeacon bs (wgtReceiveActs (nextNum d) (bcnActs bs) e))
      let t := if bcnFullEcho bs then sendEcho g else g
      t.mem = e.mem ∧ beaconBooks t.tick = beaconBooks e.tick := by
    intro g t
    obtain ⟨hmem, hbooks⟩ := alignBeacon_rest bs (wgtReceiveActs (nextNum d) (bcnActs bs) e)
    rw [wgtReceiveActs_eq_wgt] at hmem hbooks
    have hg : g.mem = e.mem ∧ beaconBooks g.tick = beaconBooks e.tick := by
      simp only [g]
      rw [forwardBeacon_eq_ports, wgtReceiveActs_eq_wgt]
      exact ⟨hmem, hbooks⟩
    simp only [t]
    split
    · exact ⟨(sendEcho_mem g).trans hg.1, (sendEcho_books g).trans hg.2⟩
    · exact hg
  unfold memberBeacon
  rw [if_neg (by simp [halone]), if_neg (by simp [hnum, hperiod]), if_neg (by simp [hmissed]; omega), hnum]
  exact hfollows _

/-- A beacon of another tick or period is a cause to leave (R57). -/
theorem memberBeacon_leaves {d : Dev} {bs : List Byte} (halone : d.tick.alone = false)
    (hother : bcnTick bs ≠ nextNum d ∨ bcnPeriod bs ≠ (getReg d R.TICK_PERIOD).toNat) :
    memberBeacon bs d = { d with tick := { d.tick with leaveDue := true } } := by
  unfold memberBeacon
  rw [if_neg (by simp [halone]), if_pos hother]

/-! ### The numbers of the arrived device -/

theorem nextNum_arrived (p : PortId) (typ : Byte) (d : Dev) : nextNum (arrived p typ d) = nextNum d := by
  simp only [nextNum, arrived_tick]

theorem nextStart_arrived (p : PortId) (typ : Byte) (d : Dev) : nextStart (arrived p typ d) = nextStart d := by
  simp only [nextStart, periodNs, arrived_tick, getReg_arrived]

section Beacon

variable {s : State} {p : PortId} {f : Frame} (hrole : role s.dev = 2) (hacc : Accepted s p f tBEACON)
  (hparent : parentPort s.dev = some p) (hjoined : s.dev.tick.joined = true) (hjoin : s.dev.tick.joining = false)
  (hstays : s.dev.tick.leaveDue = false)

include hrole hacc hparent hjoined hjoin hstays

/-- A worker's beacon from its PARENT port is a member's. -/
theorem completes_beacon {post : State → Prop}
    (h : post { s with dev := memberBeacon f.payload (arrived p tBEACON s.dev) }) : Completes (.beacon p f) s post := by
  have hgate : (decide (role (arrived p tBEACON s.dev) = 2) && decide (parentPort (arrived p tBEACON s.dev) = some p) &&
      (arrived p tBEACON s.dev).tick.joined && !(arrived p tBEACON s.dev).tick.joining &&
      !(arrived p tBEACON s.dev).tick.leaveDue) = true := by
    have hrole' : role (arrived p tBEACON s.dev) = 2 := by rw [← hrole]; simp only [role, regFld, getReg_arrived]
    rw [hrole', parentPort_congr (getReg_arrived p _ _ _), hparent, arrived_tick, hjoined, hjoin, hstays]
    simp
  refine completes_of_accepted rfl hacc ?_
  rw [hgate]
  exact h

theorem beacon_taken (halone : s.dev.tick.alone = false) (hnum : bcnTick f.payload = nextNum s.dev)
    (hperiod : bcnPeriod f.payload = (getReg s.dev R.TICK_PERIOD).toNat) (hmissed : s.dev.tick.missed = false)
    (hintime : s.dev.tick.time + 1000 ≤ nextStart s.dev) :
    Completes (.beacon p f) s (fun t => t.pending = s.pending ∧ SameMemory s t ∧
      t.dev.tick.lastBeacon = nextNum s.dev ∧ t.dev.tick.misses = 0 ∧
      ∃ b, tblFind t.dev.tick.budgets (nextNum s.dev + 2) = some b ∧ b ≤ 256 ∧
        b = min (leAt f.payload (0xC0 + 2 * (dieIndex s.dev).toNat) 2 % 512) 256) := by
  obtain ⟨hmem, hbooks⟩ := memberBeacon_taken (d := arrived p tBEACON s.dev) (bs := f.payload)
    (by rwa [arrived_tick]) (by rwa [nextNum_arrived]) (by rwa [getReg_arrived]) (by rwa [arrived_tick])
    (by rwa [arrived_tick, nextStart_arrived])
  rw [nextNum_arrived, dieIndex_congr (arrived_regs p _ _)] at hbooks
  obtain ⟨hlast, hmisses, hbudgets⟩ : _ ∧ _ ∧ _ := by simpa only [beaconBooks, Prod.mk.injEq] using hbooks
  refine completes_beacon hrole hacc hparent hjoined hjoin hstays
    ⟨rfl, hmem.trans (arrived_mem p _ _), hlast, hmisses, _, ?_, min_le_right _ _, rfl⟩
  exact hbudgets ▸ (tblFind_put _ _ _ _).trans (if_pos rfl)

theorem beacon_leaves (halone : s.dev.tick.alone = false) (hother : bcnTick f.payload ≠ nextNum s.dev ∨
    bcnPeriod f.payload ≠ (getReg s.dev R.TICK_PERIOD).toNat) :
    Completes (.beacon p f) s (fun t => t.pending = s.pending ∧ t.dev.tick.leaveDue = true ∧ RegsExcept [] s t ∧
      SameMemory s t) := by
  refine completes_beacon hrole hacc hparent hjoined hjoin hstays ?_
  rw [memberBeacon_leaves (by rwa [arrived_tick]) (by rwa [nextNum_arrived, getReg_arrived])]
  exact ⟨rfl, rfl, regsExcept_of_regs [] (arrived_regs p _ _), arrived_mem p _ _⟩

end Beacon

/-! ### A beacon that is missing, and the leaving (R56, R57) -/

/-- The beacon of the next tick has missed its time. -/
def beaconMissed (d : Dev) : Dev :=
  { advanceTo (nextStart d - 1000) d with
    tick := { (advanceTo (nextStart d - 1000) d).tick with
      missed := true
      misses := (advanceTo (nextStart d - 1000) d).tick.misses + 1 } }

theorem beaconMissed_rest (d : Dev) : (beaconMissed d).regs = d.regs ∧ (beaconMissed d).mem = d.mem ∧
    (beaconMissed d).tick.time = max d.tick.time (nextStart d - 1000) ∧ (beaconMissed d).tick.misses = d.tick.misses + 1 := by
  refine ⟨?_, ?_, ?_, ?_⟩ <;> dsimp only [beaconMissed]
  · exact advanceTo_regs _ d
  · exact advanceTo_mem _ d
  · rw [advanceTo_time, max_comm]
  · unfold advanceTo
    split <;> rfl

theorem beaconMissing_counts {s : State} (hrole : role s.dev = 2) (halive : alive s.dev = true)
    (hrun : s.dev.tick.running = true) (hmember : s.dev.tick.member = true) (hmissed : s.dev.tick.missed = false)
    (hlast : s.dev.tick.lastBeacon ≠ nextNum s.dev) :
    Completes .beaconMissing s (fun t => t.pending = s.pending ∧
      t.dev.tick.missed = true ∧ t.dev.tick.misses = s.dev.tick.misses + 1 ∧
      t.dev.tick.time = max s.dev.tick.time (nextStart s.dev - 1000) ∧
      getReg t.dev R.TICK_MISS_CNT = counted (getReg s.dev R.TICK_MISS_CNT) 1 ∧ RegsExcept [R.TICK_MISS_CNT] s t ∧
      SameMemory s t) := by
  refine completes_of_onlyIf (f := fun d => bump (beaconMissed d) R.TICK_MISS_CNT)
    (fun d => alive d && decide (role d = 2) && d.tick.running && d.tick.member &&
    !d.tick.missed && decide (d.tick.lastBeacon ≠ nextNum d)) ?_
    (by simp [halive, hrole, hrun, hmember, hmissed, hlast]) ?_
  · rfl
  obtain ⟨hregs, hmem, htime, hmisses⟩ := beaconMissed_rest s.dev
  refine ⟨rfl, rfl, hmisses, htime, ?_, regsExcept_bump rfl hregs, (bump_mem _ _).trans hmem⟩
  exact (getReg_bump_self _ _).trans (congrArg (counted · 1) (getReg_congr hregs _))

/-- A report that is sent toward PARENT is counted, whatever becomes of it there. -/
theorem getReg_sendReport {d : Dev} (b : Bool) (hparent : (parentPort d).isSome = true) (o : Nat) :
    getReg (sendReport b d) o = if o = R.TEL_RPT_SENT_CNT then counted (getReg d o) 1 else getReg d o := by
  obtain ⟨p, hp⟩ := Option.isSome_iff_exists.1 hparent
  unfold sendReport
  rw [hp]
  dsimp only
  rw [getReg_bump, getReg_sendOn, getReg_sendOn]
  split
  · rename_i h
    rw [h]
    rfl
  · rfl

/-- A die that is out of its domain. -/
def domainLeft (d : Dev) : Dev := { d with tick := { d.tick with member := false, leaveDue := false, misses := 0 } }

theorem domainLeave_leaves {s : State} (hrole : role s.dev = 2) (halive : alive s.dev = true)
    (hmember : s.dev.tick.member = true)
    (hcause : s.dev.tick.leaveDue = true ∨ regFld s.dev R.TICK_MISS_LIMIT 7 0 ≤ s.dev.tick.misses)
    (hparent : (parentPort s.dev).isSome = true) (hroom : s.dev.guard.queue.length < 64) :
    Completes .domainLeave s (fun t => t.pending = s.pending ∧ t.dev.tick.member = false ∧
      t.dev.tick.leaveDue = false ∧ SameMemory s t ∧
      getReg t.dev R.TEL_RPT_SENT_CNT = counted (getReg s.dev R.TEL_RPT_SENT_CNT) 1 ∧
      ∃ q, t.dev.guard.queue = s.dev.guard.queue ++ [q] ∧ q.code = 0x33 ∧ q.cls = 1 ∧ q.unit = unitTick) := by
  refine completes_of_onlyIf (fun d => alive d && decide (role d = 2) && d.tick.member &&
    (d.tick.leaveDue || decide (regFld d R.TICK_MISS_LIMIT 7 0 ≤ d.tick.misses))) rfl
    (by simpa [halive, hrole, hmember] using hcause) ?_
  have hcls : errClass (mkReport 0x33 unitTick).code ≠ 2 := by decide
  have hkeeps (o : Nat) (ho : guardReg o = false) :
      getReg (report (mkReport 0x33 unitTick) (domainLeft s.dev)) o = getReg s.dev o :=
    getReg_guardTake hcls (domainLeft s.dev) ho
  have hparent' : (parentPort (report (mkReport 0x33 unitTick) (domainLeft s.dev))).isSome = true := by
    rwa [parentPort_congr (hkeeps _ rfl)]
  have hqueue := guardTake_queue hcls (domainLeft s.dev) (by decide) hroom
  change _ ∧ (sendReport true (report (mkReport 0x33 unitTick) (domainLeft s.dev))).tick.member = false ∧ _
  refine ⟨rfl, ?_, ?_, ?_, ?_, freshRecord (mkReport 0x33 unitTick) (domainLeft s.dev), ?_, rfl, rfl, rfl⟩
  · rw [sendReport_tick, report_tick]
    rfl
  · exact congrArg TickUnit.leaveDue ((sendReport_tick _ _).trans (report_tick _ _))
  · exact (sendReport_mem _ _).trans (report_mem _ _)
  · exact (getReg_sendReport true hparent' _).trans (by rw [if_pos rfl, hkeeps _ rfl])
  · exact (congrArg Guard.queue (sendReport_guard _ _)).trans hqueue

/-- Settles O30: an arrival leaves the worker's tick unit and registers; a beacon in time is entered in its books, which
its activation entries, the alignment, the forwarding and an ECHO leave as they are. -/
theorem beaconsAtAWorker : Obligations.BeaconsAtAWorker := by
  exact fun s hrole => ⟨fun p f hacc hparent hjoined hjoin hstays =>
      ⟨beacon_taken hrole hacc hparent hjoined hjoin hstays, beacon_leaves hrole hacc hparent hjoined hjoin hstays⟩,
    beaconMissing_counts hrole, domainLeave_leaves hrole⟩

end Sys2Proof.Machine
end

section
/-!
PROOFS. ADMITs that are not accepted (R43, R57, R319, R357): the decision on the arrived device, and the answer that leaves
the entrance as it was.
-/

namespace Sys2Proof.Machine

open Sys2Proof

/-! ### The decision sees neither the power controller nor the ports beside the express buffers -/

section Elsewhere

variable (d : Dev) (w : Power) {ps : Tbl Port} {p : PortId}
  (hexp : ∀ b, expBufOf (tblGet {} ps p.val) b = expBufOf (getPort d p) b)

include hexp

theorem expressOk_elsewhere (x : BitVec 512) : expressOk { d with power := w, ports := ps } p x = expressOk d p x := by
  unfold expressOk
  rw [show getPort { d with power := w, ports := ps } p = tblGet {} ps p.val from rfl, hexp]
  rfl

theorem decideExpress_elsewhere (x : BitVec 512) (e : BitVec 128) :
    decideExpress { d with power := w, ports := ps } p x e = decideExpress d p x e := by
  unfold decideExpress
  rw [expressOk_elsewhere d w hexp]
  rfl

theorem decideAdmit_elsewhere (x : BitVec 512) :
    decideAdmit { d with power := w, ports := ps } p x = decideAdmit d p x := by
  unfold decideAdmit
  dsimp only
  rw [decideExpress_elsewhere d w hexp]
  rfl

end Elsewhere

/-- A device on which an ADMIT has arrived at a port: the power controller and the ports alone have seen it, and of that
port neither the buffers, the kept answers and the frames sent, nor whether it retrains. -/
structure AdmitAlike (p : PortId) (d e : Dev) : Prop where
  rest : e = { d with power := e.power, ports := e.ports }
  exp : ∀ b, expBufOf (getPort e p) b = expBufOf (getPort d p) b
  kept : (getPort e p).kept = (getPort d p).kept
  tx : (getPort e p).tx = (getPort d p).tx
  retraining : (getPort e p).retraining = (getPort d p).retraining

theorem linkIn_admitAlike (p : PortId) (d : Dev) : AdmitAlike p d (linkIn p d) where
  rest := (linkIn_readsAlike p d).rest
  exp b := by simp only [expBufOf, linkIn_port_exp0, linkIn_port_exp1]
  kept := linkIn_port_kept p d p
  tx := linkIn_port_tx p d p
  retraining := linkIn_port_retraining p d p

theorem arrived_admitAlike (p : PortId) (typ : Byte) (d : Dev) : AdmitAlike p d (arrived p typ d) := by
  have hport : getPort (arrived p typ d) p = getPort (linkIn p d) p := by simp only [getPort, arrived_ports]
  obtain ⟨-, hexp, hkept, htx, hretrain⟩ := linkIn_admitAlike p d
  exact ⟨(arrived_readsAlike p typ d).rest, by rwa [hport], by rwa [hport], by rwa [hport], by rwa [hport]⟩

namespace AdmitAlike

variable {p : PortId} {d e : Dev}

theorem regs (h : AdmitAlike p d e) : e.regs = d.regs := by rw [h.rest]
theorem mem (h : AdmitAlike p d e) : e.mem = d.mem := by rw [h.rest]
theorem ent (h : AdmitAlike p d e) : e.ent = d.ent := by rw [h.rest]
theorem tick (h : AdmitAlike p d e) : e.tick = d.tick := by rw [h.rest]

theorem alive (h : AdmitAlike p d e) : alive e = Machine.alive d := by rw [h.rest]; rfl

theorem keptFor (h : AdmitAlike p d e) (f : Frame) : keptFor e p f = Machine.keptFor d p f := by
  rw [Machine.keptFor, h.kept, Machine.keptFor]

theorem decideAdmit (h : AdmitAlike p d e) (x : BitVec 512) : decideAdmit e p x = Machine.decideAdmit d p x := by
  rw [h.rest]
  exact decideAdmit_elsewhere d e.power h.exp x

end AdmitAlike

/-! ### An answer after registers of the entrance have changed -/

/-- A port that is UP and does not retrain sends the answer to an accepted frame, where the port's status and the die's
index are as they were. -/
theorem answerOn_tx {d e : Dev} {p : PortId} {f : Frame} (payload : List Byte)
    (hstatus : getReg e (R.LNK_STATUS p.val) = getReg d (R.LNK_STATUS p.val))
    (hindex : getReg e R.TICK_DIE_INDEX = getReg d R.TICK_DIE_INDEX) (htx : (getPort e p).tx = (getPort d p).tx)
    (hretrain : (getPort e p).retraining = false) (hup : portUp d p = true) (hfate : frameFate d p f = .accept) :
    (getPort (answerOn p f payload e) p).tx =
      (getPort d p).tx ++ [mkFrame d f.typ 1 f.tag f.src.toNat 0 0 0 payload] := by
  have hframe : mkFrame e f.typ 1 f.tag f.src.toNat 0 0 0 payload = mkFrame d f.typ 1 f.tag f.src.toNat 0 0 0 payload := by
    simp only [mkFrame, dieIndex, hindex]
  have hstate : portState e p = portState d p := by simp only [portState, regFld, hstatus]
  have hup' : portUp e p = true := by rwa [portUp, hstate, ← portUp]
  have hver : portVer e p = portVer d p := by simp only [portVer, regFld, hstatus]
  have hsend : (!portUp e p || (decide (portVer e p = 1) && !typeAt10 f.typ)) = false := by
    rw [hup', hver, typeAt10_of_accept hfate]
    rfl
  rw [answerOn, hframe, sendOn,
    show (mkFrame d f.typ 1 f.tag f.src.toNat 0 0 0 payload).typ = f.typ from rfl, hsend]
  simp only [Bool.false_eq_true, if_false, hretrain, getPort_setPort, if_true, putOut_tx, htx]

/-- An answer sent and kept shows in the ports alone. -/
theorem keepAnswer_answerOn_rest (p : PortId) (f : Frame) (payload : List Byte) (k : KeptAnswer) (e : Dev) :
    ∃ ps, keepAnswer p k (answerOn p f payload e) = { e with ports := ps } := by
  refine ⟨(keepAnswer p k (answerOn p f payload e)).ports, ?_⟩
  rw [answerOn, sendOn_eq_ports]
  rfl

/-- Keeping an answer is no sending. -/
theorem keepAnswer_tx (p : PortId) (k : KeptAnswer) (e : Dev) : (getPort (keepAnswer p k e) p).tx = (getPort e p).tx := by
  rw [keepAnswer, getPort_setPort, if_pos rfl]

/-! ### The express buffer that a refused ADMIT names (R50) -/

theorem freeNamedBuffer_eq_ports (p : PortId) (x : BitVec 512) (d : Dev) :
    freeNamedBuffer p x d = { d with ports := (freeNamedBuffer p x d).ports } := by
  unfold freeNamedBuffer
  dsimp only
  split <;> rfl

theorem setExpBuf_port (p : PortId) (b : Bool) (e : ExpBuf) (d : Dev) :
    (getPort (setExpBuf p b e d) p).tx = (getPort d p).tx ∧
      (getPort (setExpBuf p b e d) p).retraining = (getPort d p).retraining ∧
      expBufOf (getPort (setExpBuf p b e d) p) b = e := by
  rw [setExpBuf, getPort_setPort, if_pos rfl]
  cases b <;> exact ⟨rfl, rfl, rfl⟩

theorem freeNamedBuffer_port (p : PortId) (x : BitVec 512) (d : Dev) :
    (getPort (freeNamedBuffer p x d) p).tx = (getPort d p).tx ∧
      (getPort (freeNamedBuffer p x d) p).retraining = (getPort d p).retraining := by
  unfold freeNamedBuffer
  dsimp only
  split
  · exact ⟨(setExpBuf_port _ _ _ _).1, (setExpBuf_port _ _ _ _).2.1⟩
  · exact ⟨rfl, rfl⟩

/-! ### An ADMIT that is turned away -/

/-- The device on which an ADMIT has been turned away: counted, and the buffer freed that it named. -/
def turnedAway (p : PortId) (n : Nat) (x : BitVec 512) (d : Dev) : Dev := freeNamedBuffer p x (bump d n)

section TurnedAway

variable {p : PortId} {d e : Dev} (h : AdmitAlike p d e) (n : Nat) (x : BitVec 512)

include h

theorem turnedAway_rest : (turnedAway p n x e).mem = d.mem ∧ (turnedAway p n x e).ent = d.ent ∧
    (getPort (turnedAway p n x e) p).tx = (getPort d p).tx ∧
    (getPort (turnedAway p n x e) p).retraining = (getPort d p).retraining := by
  obtain ⟨htx, hretrain⟩ := freeNamedBuffer_port p x (bump e n)
  refine ⟨?_, ?_, htx.trans h.tx, hretrain.trans h.retraining⟩ <;> rw [turnedAway, freeNamedBuffer_eq_ports]
  · exact h.mem
  · exact h.ent

theorem getReg_turnedAway (o : Nat) :
    getReg (turnedAway p n x e) o = if o = n then counted (getReg d n) 1 else getReg d o := by
  rw [turnedAway, freeNamedBuffer_eq_ports]
  show getReg (bump e n) o = _
  rw [getReg_bump, getReg_congr h.regs, getReg_congr h.regs]
  rfl

end TurnedAway

/-- The three counters of ADMITs that are not accepted. -/
def admitCounter (n : Nat) : Prop := n = R.ENT_REFUSE_CNT ∨ n = R.ENT_HELD_CNT ∨ n = R.ENT_RECOMPUTE_CNT

/-- They are no register that a frame sent depends on. -/
theorem admitCounter_apart {n : Nat} (hn : admitCounter n) (p : PortId) :
    R.LNK_STATUS p.val ≠ n ∧ R.TICK_DIE_INDEX ≠ n := by
  rcases hn with rfl | rfl | rfl <;>
    simp only [R.LNK_STATUS, R.TICK_DIE_INDEX, R.ENT_REFUSE_CNT, R.ENT_HELD_CNT, R.ENT_RECOMPUTE_CNT] <;> omega

/-- What the answer to an ADMIT that is not accepted leaves, whatever the port still keeps of it. -/
def AnsweredUncharged (s : State) (p : PortId) (f : Frame) (n : Nat) (bs : List Byte) (t : State) : Prop :=
  (t.pending = s.pending ∧ SameMemory s t ∧ t.dev.ent = s.dev.ent) ∧ Answered p f bs s t ∧
    getReg t.dev n = counted (getReg s.dev n) 1 ∧ RegsExcept [n] s t

section Uncharged

variable {s : State} {p : PortId} {f : Frame} {e : Dev} (h : AdmitAlike p s.dev e)
  (hretrain : (getPort s.dev p).retraining = false) {n : Nat} (hn : admitCounter n) (x : BitVec 512) (bs : List Byte)

include h

theorem answeredUncharged_of_ports {g : Dev} (hg : ∃ ps, g = { turnedAway p n x e with ports := ps })
    (htx : (getPort g p).tx = (getPort s.dev p).tx ++ [mkFrame s.dev f.typ 1 f.tag f.src.toNat 0 0 0 bs]) :
    AnsweredUncharged s p f n bs { s with dev := g } := by
  obtain ⟨ps, rfl⟩ := hg
  obtain ⟨hmem, hent, -, -⟩ := turnedAway_rest h n x
  have hreg := getReg_turnedAway h n x
  exact ⟨⟨rfl, hmem, hent⟩, htx, (hreg n).trans (if_pos rfl), fun o ho => (hreg o).trans (if_neg (by simpa using ho))⟩

include hn

include hretrain in
/-- On a port that is UP the answer is sent through it, and kept. -/
theorem answeredUncharged_sent (hup : portUp s.dev p = true) (hfate : frameFate s.dev p f = .accept) (k : KeptAnswer) :
    AnsweredUncharged s p f n bs { s with dev := keepAnswer p k (answerOn p f bs (turnedAway p n x e)) } := by
  obtain ⟨-, -, htx, hre⟩ := turnedAway_rest h n x
  obtain ⟨hstatus, hindex⟩ := admitCounter_apart hn p
  have hreg := getReg_turnedAway h n x
  refine answeredUncharged_of_ports h x bs (keepAnswer_answerOn_rest p f bs k _) ?_
  rw [keepAnswer_tx]
  exact answerOn_tx bs ((hreg _).trans (if_neg hstatus)) ((hreg _).trans (if_neg hindex)) htx (hre.trans hretrain) hup hfate

/-- In Winter it leaves whatever the state of the port (log 114). -/
theorem answeredUncharged_winter {g : Dev} (hg : g = turnedAway p n x e) :
    AnsweredUncharged s p f n bs
      { s with dev := setPort g p (putOut p (mkFrame g f.typ 1 f.tag f.src.toNat 0 0 0 bs) (getPort g p)) } := by
  subst hg
  obtain ⟨-, -, htx, -⟩ := turnedAway_rest h n x
  have hindex := (getReg_turnedAway h n x R.TICK_DIE_INDEX).trans (if_neg (admitCounter_apart hn p).2)
  refine answeredUncharged_of_ports h x bs ⟨_, rfl⟩ ?_
  rw [getPort_setPort, if_pos rfl, putOut_tx, htx]
  simp only [mkFrame, dieIndex, hindex]

end Uncharged

/-! ### The frame's handler -/

theorem completes_admit {s : State} {p : PortId} {f : Frame} {post : State → Prop} (ha : Accepted s p f tADMIT)
    (hc : admitCredit s.dev p ≠ 0) (h : post { s with dev := admitFrame p f (arrived p tADMIT s.dev) }) :
    Completes (.admitFrame p f) s post := by
  refine completes_of_onlyIf (fun d => decide (admitCredit d p ≠ 0)) rfl (by simpa using hc) ?_
  rwa [if_pos ha.1, recvFrame_accepted (admitFrame p f) ha]

/-- A stopped die whose port is UP, and a die in Winter, answer NO_BEACON. -/
theorem completes_admit_dead {s : State} {p : PortId} {f : Frame} {post : State → Prop} (hc : admitCredit s.dev p ≠ 0)
    (hdead : alive s.dev = false) (hpow : powered s.dev = true) (htyp : f.typ = tADMIT)
    (hup : portUp s.dev p = true ∨ inWinter s.dev = true) (hans : answersNothing f = false)
    (hfate : frameFate s.dev p f = .accept)
    (hwinter : inWinter s.dev = true → post { s with dev := admitInWinter p f s.dev })
    (hstop : portUp s.dev p = true → post { s with dev := admitFrame p f (linkIn p s.dev) }) :
    Completes (.admitFrame p f) s post := by
  refine completes_of_onlyIf (fun d => decide (admitCredit d p ≠ 0)) rfl (by simpa using hc) ?_
  rw [if_neg (by simp [hdead])]
  cases hw : inWinter s.dev with
  | true => exact hwinter hw
  | false =>
    have hup' : portUp s.dev p = true := by simpa [hw] using hup
    simpa [onlyIf, hpow, htyp, hup', hans, hfate] using hstop hup'

/-- The verdict on a new ADMIT. -/
def admitVerdict (p : PortId) (f : Frame) (d : Dev) : Verdict :=
  if alive d then decideAdmit d p (BitVec.ofNat 512 (leNat f.payload)) else .refuse refNoBeacon never

theorem AdmitAlike.admitVerdict {p : PortId} {d e : Dev} (h : AdmitAlike p d e) (f : Frame) :
    admitVerdict p f e = Machine.admitVerdict p f d := by
  rw [Machine.admitVerdict, h.alive, h.decideAdmit, Machine.admitVerdict]

/-- A verdict that turns an ADMIT away counts it in a register and answers with sixteen bytes. -/
def TurnsAway (x : BitVec 512) (v : Verdict) (n : Nat) (bs : List Byte) : Prop :=
  ∀ (p : PortId) (src : BitVec 9) (d : Dev), applyVerdict p src x v d = (bs, turnedAway p n x d)

/-- A new ADMIT that is turned away is answered, and the answer is kept. -/
theorem admitFrame_turnedAway {p : PortId} {f : Frame} {d e : Dev} (h : AdmitAlike p d e) (hnew : keptFor d p f = none)
    {n : Nat} {bs : List Byte}
    (hv : TurnsAway (BitVec.ofNat 512 (leNat f.payload)) (admitVerdict p f d) n bs) :
    admitFrame p f e = keepAnswer p { src := f.src, tag := f.tag, desc := f.payload, answer := bs }
      (answerOn p f bs (turnedAway p n (BitVec.ofNat 512 (leNat f.payload)) e)) := by
  have hdecided : applyVerdict p (BitVec.ofNat 9 f.src.toNat) (BitVec.ofNat 512 (leNat f.payload)) (admitVerdict p f e) e =
      (bs, turnedAway p n (BitVec.ofNat 512 (leNat f.payload)) e) := by
    rw [h.admitVerdict]
    exact hv p _ e
  rw [admitFrame, h.keptFor, hnew]
  dsimp only
  rw [← admitVerdict, hdecided]

section NewAdmit

variable {s : State} {p : PortId} {f : Frame} (hc : admitCredit s.dev p ≠ 0)
  (hretrain : (getPort s.dev p).retraining = false) (hnew : keptFor s.dev p f = none)

include hc hretrain hnew

/-- A live die turns an ADMIT away as R43 decides. -/
theorem admit_turnedAway (ha : Accepted s p f tADMIT) {v : Verdict} {n : Nat} {bs : List Byte}
    (hv : decideAdmit s.dev p (BitVec.ofNat 512 (leNat f.payload)) = v) (hn : admitCounter n)
    (haway : TurnsAway (BitVec.ofNat 512 (leNat f.payload)) v n bs) :
    Completes (.admitFrame p f) s (AnsweredUncharged s p f n bs) := by
  have hverdict : admitVerdict p f s.dev = v := by rw [admitVerdict, if_pos ha.1, hv]
  obtain ⟨-, -, hup, hfate, -, -⟩ := id ha
  refine completes_admit ha hc ?_
  rw [admitFrame_turnedAway (arrived_admitAlike p tADMIT s.dev) hnew (by rwa [hverdict])]
  exact answeredUncharged_sent (arrived_admitAlike p tADMIT s.dev) hretrain hn _ bs hup hfate _

/-- A die that is stopped or in Winter turns every ADMIT away. -/
theorem admit_dead (hdead : alive s.dev = false) (hpow : powered s.dev = true) (htyp : f.typ = tADMIT)
    (hup : portUp s.dev p = true ∨ inWinter s.dev = true) (hans : answersNothing f = false)
    (hfate : frameFate s.dev p f = .accept) :
    Completes (.admitFrame p f) s (AnsweredUncharged s p f R.ENT_REFUSE_CNT
      (admitAnswer false 7 refNoBeacon 0 (dReqId (BitVec.ofNat 512 (leNat f.payload))) never)) := by
  have hverdict : admitVerdict p f s.dev = .refuse refNoBeacon never := by rw [admitVerdict, hdead]; rfl
  have hn : admitCounter R.ENT_REFUSE_CNT := Or.inl rfl
  refine completes_admit_dead hc hdead hpow htyp hup hans hfate (fun hw => ?_) (fun hup => ?_)
  · have hself : AdmitAlike p s.dev s.dev := ⟨rfl, fun _ => rfl, rfl, rfl, rfl⟩
    rw [admitInWinter, if_neg (by simpa using htyp), if_neg (by simp [hans, hfate])]
    exact answeredUncharged_winter hself hn _ _ rfl
  · rw [admitFrame_turnedAway (linkIn_admitAlike p s.dev) hnew (n := R.ENT_REFUSE_CNT) (by rw [hverdict]; exact fun _ _ _ => rfl)]
    exact answeredUncharged_sent (linkIn_admitAlike p s.dev) hretrain hn _ _ hup hfate _

end NewAdmit

/-- A repeated ADMIT is answered as the first was. -/
theorem admit_repeated {s : State} {p : PortId} {f : Frame} (hc : admitCredit s.dev p ≠ 0)
    (hretrain : (getPort s.dev p).retraining = false) (ha : Accepted s p f tADMIT) {k : KeptAnswer}
    (hk : keptFor s.dev p f = some k) :
    Completes (.admitFrame p f) s (fun t => (t.pending = s.pending ∧ SameMemory s t ∧ t.dev.ent = s.dev.ent) ∧
      Answered p f k.answer s t ∧ RegsExcept [] s t) := by
  have hlike := arrived_admitAlike p tADMIT s.dev
  have hframe : admitFrame p f (arrived p tADMIT s.dev) = answerOn p f k.answer (arrived p tADMIT s.dev) := by
    rw [admitFrame, hlike.keptFor, hk]
  obtain ⟨-, -, hup, hfate, -, -⟩ := id ha
  refine completes_admit ha hc ?_
  rw [hframe]
  refine ⟨⟨rfl, ?_, ?_⟩, answered_of_accept k.answer hlike.regs hlike.tx (hlike.retraining.trans hretrain) hup hfate,
    regsExcept_of_regs [] ?_⟩
  · exact (answerOn_mem ..).trans hlike.mem
  · exact (answerOn_ent ..).trans hlike.ent
  · exact (answerOn_regs ..).trans hlike.regs

/-! ### The branches of R43 that turn an ADMIT away -/

section Decided

variable {d : Dev} {p : PortId} {x : BitVec 512}

theorem decideAdmit_apart (h : d.tick.member = false ∨ d.tick.running = false ∨ locked d = false) :
    decideAdmit d p x = .refuse refNoBeacon never := by
  rw [decideAdmit, if_pos (by rcases h with h | h | h <;> simp [h])]

variable (hm : d.tick.member = true) (hr : d.tick.running = true) (hl : locked d = true)

include hm hr hl

theorem decideAdmit_reserved (henc : reservedEncoding d x = true) : decideAdmit d p x = .refuse refDescriptor never := by
  rw [decideAdmit, if_neg (by simp [hm, hr, hl]), if_pos henc]

variable (henc : reservedEncoding d x = false)

include henc

theorem decideAdmit_tenant (ht : tcxState d (dTenant x) ≠ 1) : decideAdmit d p x = .refuse refTenant never := by
  rw [decideAdmit, if_neg (by simp [hm, hr, hl]), if_neg (by simp [henc]), if_pos ht]

variable (ht : tcxState d (dTenant x) = 1)

include ht

theorem decideAdmit_held (hb : tcxBarrier d (dTenant x) = true)
    (hx : (isPrefill (dOp x) && !dFirstChunk x && (seqEntry d (dSeq x)).prefillOpen) = false) :
    decideAdmit d p x = .held := by
  rw [decideAdmit, if_neg (by simp [hm, hr, hl]), if_neg (by simp [henc]), if_neg (by simp [ht]),
    if_pos (by rw [hb, hx]; rfl)]

variable (hb : tcxBarrier d (dTenant x) = false ∨
  (isPrefill (dOp x) && !dFirstChunk x && (seqEntry d (dSeq x)).prefillOpen) = true)

include hb

theorem decideAdmit_unheld : decideAdmit d p x =
    if 524288 < dPos x + dRows x then .refuse refLength never
    else if costBase (costEntry d x) = 0xFFFFFFFF then .refuse refDescriptor never
    else if lowestRead d x < (seqEntry d (dSeq x)).dropHi ∧ (seqEntry d (dSeq x)).dropLo < dPos x then
      .recompute (seqEntry d (dSeq x)).dropLo (seqEntry d (dSeq x)).dropHi
    else if dExpress x then decideExpress d p x (costEntry d x)
    else decideOrdinary d x (costEntry d x) := by
  rw [decideAdmit, if_neg (by simp [hm, hr, hl]), if_neg (by simp [henc]), if_neg (by simp [ht]),
    if_neg (by rcases hb with hb | hb <;> rw [hb] <;> simp)]

end Decided

/-- Settles O32: a live die turns an ADMIT away as R43 decides it, branch by branch; a die that is stopped or in Winter
answers NO_BEACON; and a repeated one is answered from what its port keeps. -/
theorem admitsThatAreNotAccepted : Obligations.AdmitsThatAreNotAccepted := by
  unfold Obligations.AdmitsThatAreNotAccepted
  intro s p f hc hretrain
  refine ⟨fun hdead hpow htyp hup hans hfate hnew => admit_dead hc hretrain hnew hdead hpow htyp hup hans hfate,
    fun ha k hk => admit_repeated hc hretrain ha hk, fun ha hnew => ?_⟩
  have refused {reason tick : Nat} (hv : decideAdmit s.dev p (BitVec.ofNat 512 (leNat f.payload)) = .refuse reason tick) :=
    admit_turnedAway hc hretrain hnew ha hv (Or.inl rfl) (fun _ _ _ => rfl)
  refine ⟨fun reason tick hv => refused hv, fun hapart => refused (decideAdmit_apart hapart), fun hm hr hl => ⟨?_, ?_⟩⟩
  · exact fun henc => refused (decideAdmit_reserved hm hr hl henc)
  · refine fun henc => ⟨fun ht => refused (decideAdmit_tenant hm hr hl henc ht), fun ht hb hx => ?_, fun ht hb => ?_⟩
    · exact admit_turnedAway hc hretrain hnew ha (decideAdmit_held hm hr hl henc ht hb hx) (Or.inr (Or.inl rfl))
        (fun _ _ _ => rfl)
    · have hopen := decideAdmit_unheld (p := p) hm hr hl henc ht hb
      refine ⟨fun hlen => refused (hopen.trans (if_pos hlen)), fun hlen hcost => ?_, fun hlen hcost hlo hhi => ?_⟩
      · rw [if_neg (Nat.not_lt.2 hlen), if_pos hcost] at hopen
        exact refused hopen
      · rw [if_neg (Nat.not_lt.2 hlen), if_neg hcost, if_pos ⟨hlo, hhi⟩] at hopen
        exact admit_turnedAway hc hretrain hnew ha hopen (Or.inr (Or.inr rfl)) (fun _ _ _ => rfl)

end Sys2Proof.Machine
end

section
/-!
PROOFS. ADMITs that are accepted (R34, R38, R43, R52, R190): what acceptance takes and charges, and that no cell is charged
beyond its credit.
-/

namespace Sys2Proof.Machine

open Sys2Proof

/-! ### The sequences of an accepted request -/

/-- A step that changes the sequence table and the speculative records alone. -/
def SeqsOnly (d e : Dev) : Prop := ∃ tab sp, e = { d with ent := { d.ent with seqTab := tab, spec := sp } }

theorem SeqsOnly.refl (d : Dev) : SeqsOnly d d := ⟨_, _, rfl⟩

theorem SeqsOnly.trans {a b c : Dev} (hab : SeqsOnly a b) (hbc : SeqsOnly b c) : SeqsOnly a c := by
  obtain ⟨_, _, rfl⟩ := hab
  obtain ⟨_, _, rfl⟩ := hbc
  exact ⟨_, _, rfl⟩

theorem updEntry_seqsOnly (q : Nat) (f : SeqEntry → SeqEntry) (d : Dev) : SeqsOnly d (updEntry q f d) := ⟨_, _, rfl⟩

theorem foldl_seqsOnly {α : Type} (f : Dev → α → Dev) (hf : ∀ d a, SeqsOnly d (f d a)) (as : List α) (d : Dev) :
    SeqsOnly d (as.foldl f d) := by
  induction as generalizing d with
  | nil => exact .refl d
  | cons a as ih => exact (hf d a).trans (ih _)

theorem acceptSeqs_seqsOnly (x : BitVec 512) (tick : Nat) (refill : Bool) (d : Dev) :
    SeqsOnly d (acceptSeqs x tick refill d) := by
  have hlast := foldl_seqsOnly (fun d q => updEntry q (fun e => { e with lastTick := max e.lastTick tick }) d)
    (fun d q => updEntry_seqsOnly q _ d) (reqSeqs x) d
  have hput (g : Dev) (r : SpecRec) :
      SeqsOnly g { g with ent := { g.ent with spec := tblSet {} g.ent.spec (dSeq x) r } } := ⟨_, _, rfl⟩
  have hif {c : Prop} [Decidable c] {a b g : Dev} (ha : SeqsOnly g a) (hb : SeqsOnly g b) :
      SeqsOnly g (if c then a else b) := by
    split
    · exact ha
    · exact hb
  exact (((hlast.trans (hif (updEntry_seqsOnly _ _ _) (.refl _))).trans (hif (updEntry_seqsOnly _ _ _) (.refl _))).trans
    (hif (hif (hput _ _) (hput _ _)) (hif (hput _ _) (.refl _))))

/-- It leaves the rest of the die, and of the entrance the requests, tokens, ledgers and the next number. -/
theorem SeqsOnly.leaves {d e : Dev} (h : SeqsOnly d e) : e.regs = d.regs ∧ e.mem = d.mem ∧ e.ports = d.ports ∧
    e.ent.reqs = d.ent.reqs ∧ e.ent.tokens = d.ent.tokens ∧ e.ent.ledgers = d.ent.ledgers ∧
    e.ent.nextUid = d.ent.nextUid := by
  obtain ⟨_, _, rfl⟩ := h
  exact ⟨rfl, rfl, rfl, rfl, rfl, rfl, rfl⟩

/-! ### The completion slot -/

/-- The completion slot's counters are registers of the rings' window. -/
theorem ringCounters_apart (r : Nat) : R.RNG_TAIL r ≠ R.RNG_PENDING r ∧ 0x40000 ≤ R.RNG_TAIL r ∧
    0x40000 ≤ R.RNG_PENDING r := by
  simp only [R.RNG_TAIL, R.RNG_PENDING]
  omega

theorem getReg_reserveSlot (d : Dev) (r o : Nat) : getReg (reserveSlot d r).2 o =
    if o = R.RNG_PENDING r then getReg d (R.RNG_PENDING r) + 1
    else if o = R.RNG_TAIL r then getReg d (R.RNG_TAIL r) + 1 else getReg d o := by
  simp only [reserveSlot, getReg_setReg]

/-- What an accepted ADMIT has taken before it is counted and answered: a slot of its ring and a request; of the registers
others than the slot's change only among those of `more`. -/
structure TakesSlot (p : PortId) (x : BitVec 512) (tick : Nat) (more : List Nat) (d a : Dev) : Prop where
  mem : a.mem = d.mem
  tail : getReg a (R.RNG_TAIL (dRing x)) = getReg d (R.RNG_TAIL (dRing x)) + 1
  pending : getReg a (R.RNG_PENDING (dRing x)) = getReg d (R.RNG_PENDING (dRing x)) + 1
  others : ∀ o, o ∉ [R.RNG_TAIL (dRing x), R.RNG_PENDING (dRing x)] ++ more → getReg a o = getReg d o
  tx : (getPort a p).tx = (getPort d p).tx
  retraining : (getPort a p).retraining = (getPort d p).retraining
  req : ∃ r, a.ent.reqs = d.ent.reqs ++ [r] ∧ r.uid = d.ent.nextUid ∧ r.desc = x ∧ r.tick = tick ∧
    r.ctr = getReg d (R.RNG_TAIL (dRing x)) ∧ r.port = p ∧ r.version = getReg d (R.TCX_VERSION (dTenant x))

/-- It takes the same from the device before the frame arrived. -/
theorem TakesSlot.before {p : PortId} {x : BitVec 512} {tick : Nat} {more : List Nat} {d e a : Dev}
    (h : TakesSlot p x tick more e a) (hlike : AdmitAlike p d e) : TakesSlot p x tick more d a := by
  obtain ⟨hmem, htail, hpending, hothers, htx, hretrain, hreq⟩ := h
  have hreg (o : Nat) : getReg e o = getReg d o := getReg_congr hlike.regs o
  simp only [hreg, hlike.mem, hlike.ent, hlike.tx, hlike.retraining] at *
  exact ⟨hmem, htail, hpending, hothers, htx, hretrain, hreq⟩

/-! ### What each kind of acceptance takes -/

/-- The tick of an ordinary request: that of its ledger, or the next where it takes a combine region. -/
def ordinaryTick (g : Nat) (region : Bool) : Nat := if region then g + 1 else g

/-- A ledger list charged for a tick. -/
def chargedLedgers (tick hint : Nat) (cs : List (CellId × Nat)) (ls : List Ledger) : List Ledger :=
  ls.map (fun l => if l.tick = tick then { l with
    hint := l.hint + hint
    used := cs.foldl (fun u c => tblSet 0 u c.1.val (tblGet 0 u c.1.val + c.2)) l.used } else l)

/-- A request and its tokens join a device whose slot is reserved and whose sequences have changed: the part that both
kinds of acceptance share. -/
theorem takesSlot_of_addReq {p : PortId} {x : BitVec 512} {tick : Nat} {more : List Nat} {r : Req} {d a b : Dev}
    {ts : List Token} (hmem : a.mem = d.mem)
    (hreg : ∀ o, o ∉ more → getReg a o = getReg (reserveSlot d (dRing x)).2 o)
    (hmore : ∀ o ∈ more, o < 0x40000)
    (htx : (getPort a p).tx = (getPort d p).tx) (hretrain : (getPort a p).retraining = (getPort d p).retraining)
    (hreqs : a.ent.reqs = d.ent.reqs) (hseqs : SeqsOnly a b)
    (hr : r.uid = d.ent.nextUid ∧ r.desc = x ∧ r.tick = tick ∧ r.ctr = getReg d (R.RNG_TAIL (dRing x)) ∧ r.port = p ∧
      r.version = getReg d (R.TCX_VERSION (dTenant x))) :
    TakesSlot p x tick more d (addReq r ts b) := by
  obtain ⟨tab, sp, rfl⟩ := hseqs
  obtain ⟨hapart, htail, hpending⟩ := ringCounters_apart (dRing x)
  have hslot (o : Nat) (ho : o ∉ more) := (hreg o ho).trans (getReg_reserveSlot d (dRing x) o)
  exact {
    mem := hmem
    tail := (hslot _ (fun h => Nat.not_lt.2 htail (hmore _ h))).trans ((if_neg hapart).trans (if_pos rfl))
    pending := (hslot _ (fun h => Nat.not_lt.2 hpending (hmore _ h))).trans (if_pos rfl)
    others := fun o ho => by
      simp only [List.cons_append, List.nil_append, List.mem_cons, not_or] at ho
      exact (hslot o ho.2.2).trans ((if_neg ho.2.1).trans (if_neg ho.1))
    tx := htx
    retraining := hretrain
    req := ⟨r, congrArg (· ++ [r]) hreqs, hr⟩ }

theorem newTokens_charged (r : Req) (tick : Nat) (combine : Bool) (cs : List (CellId × Nat)) :
    (newTokens r tick combine cs).map (fun k => (k.uid, k.cell, k.tick, k.charge, k.combine)) =
      cs.map (fun c => (r.uid, c.1, tick, c.2, combine)) := by
  rw [newTokens, List.map_map]
  rfl

section Ordinary

variable (p : PortId) (src : BitVec 9) (x : BitVec 512) (g : Nat) (region : Bool) (d : Dev)

/-- The request that an accepted ordinary ADMIT becomes. -/
def ordinaryReq : Req :=
  { newReq p src x (ordinaryTick g region) (reserveSlot d (dRing x)).1 d with
    region := region, regionIx := freeRegion d (dTenant x) }

/-- The tokens of that request. -/
def ordinaryTokens : List Token :=
  newTokens (ordinaryReq p src x g region d) g false (chargesNow d x (costEntry d x)) ++
    newTokens (ordinaryReq p src x g region d) (ordinaryTick g region) true (chargesNext d x (costEntry d x))

/-- The device with the slot reserved and the ledgers charged. -/
def ordinaryCharged : Dev :=
  let e := chargeLedger g (chargesNow d x (costEntry d x)) (dHint x) (reserveSlot d (dRing x)).2
  if region then chargeLedger (g + 1) (chargesNext d x (costEntry d x)) 0 e else e

theorem acceptOrdinary_eq : acceptOrdinary p src x g region d = ((reserveSlot d (dRing x)).1, wakeEvent wakeAdmit
    (addReq (ordinaryReq p src x g region d) (ordinaryTokens p src x g region d)
      (acceptSeqs x (ordinaryTick g region) (ordinaryReq p src x g region d).refill (ordinaryCharged x g region d)))) := rfl

theorem acceptOrdinary_ctr : (acceptOrdinary p src x g region d).1 = getReg d (R.RNG_TAIL (dRing x)) := rfl

/-- Charging leaves all but the ledgers. -/
theorem ordinaryCharged_leaves : (ordinaryCharged x g region d).mem = d.mem ∧
    (ordinaryCharged x g region d).ports = d.ports ∧
    (ordinaryCharged x g region d).regs = (reserveSlot d (dRing x)).2.regs ∧
    (ordinaryCharged x g region d).ent.reqs = d.ent.reqs ∧ (ordinaryCharged x g region d).ent.tokens = d.ent.tokens ∧
    (ordinaryCharged x g region d).ent.nextUid = d.ent.nextUid := by
  unfold ordinaryCharged
  cases region <;> exact ⟨rfl, rfl, rfl, rfl, rfl, rfl⟩

theorem ordinaryCharged_ledgers : (ordinaryCharged x g region d).ent.ledgers =
    (let ls := chargedLedgers g (dHint x) (chargesNow d x (costEntry d x)) d.ent.ledgers
      if region then chargedLedgers (g + 1) 0 (chargesNext d x (costEntry d x)) ls else ls) := by
  have hslot : (reserveSlot d (dRing x)).2.ent.ledgers = d.ent.ledgers := rfl
  unfold ordinaryCharged
  rw [← hslot]
  generalize (reserveSlot d (dRing x)).2 = e
  cases region <;> rfl

theorem acceptOrdinary_takesSlot :
    TakesSlot p x (ordinaryTick g region) [] d (acceptOrdinary p src x g region d).2 := by
  obtain ⟨hmem, hports, hregs, hreqs, -, -⟩ := ordinaryCharged_leaves x g region d
  obtain ⟨hmem, htail, hpending, hothers, htx, hretrain, hreq⟩ :=
    takesSlot_of_addReq (p := p) (x := x) (tick := ordinaryTick g region) (d := d) (more := [])
      (ts := ordinaryTokens p src x g region d) (r := ordinaryReq p src x g region d) hmem
      (fun o _ => getReg_congr hregs o) (fun _ h => nomatch h)
      (by rw [getPort, hports]; rfl) (by rw [getPort, hports]; rfl) hreqs (acceptSeqs_seqsOnly _ _ _ _)
      ⟨rfl, rfl, rfl, rfl, rfl, rfl⟩
  rw [acceptOrdinary_eq, wakeEvent_eq_power]
  exact ⟨hmem, htail, hpending, hothers, htx, hretrain, hreq⟩

/-- It queues one token for every cell charged, and charges its ledgers alone. -/
theorem acceptOrdinary_charges :
    (acceptOrdinary p src x g region d).2.ent.tokens.map (fun k => (k.uid, k.cell, k.tick, k.charge, k.combine)) =
      d.ent.tokens.map (fun k => (k.uid, k.cell, k.tick, k.charge, k.combine)) ++
        (chargesNow d x (costEntry d x)).map (fun c => (d.ent.nextUid, c.1, g, c.2, false)) ++
        (chargesNext d x (costEntry d x)).map (fun c => (d.ent.nextUid, c.1, ordinaryTick g region, c.2, true)) ∧
    (acceptOrdinary p src x g region d).2.ent.ledgers =
      (let ls := chargedLedgers g (dHint x) (chargesNow d x (costEntry d x)) d.ent.ledgers
        if region then chargedLedgers (g + 1) 0 (chargesNext d x (costEntry d x)) ls else ls) := by
  obtain ⟨-, -, -, -, htokens, hledgers, -⟩ := (acceptSeqs_seqsOnly x (ordinaryTick g region)
    (ordinaryReq p src x g region d).refill (ordinaryCharged x g region d)).leaves
  obtain ⟨-, -, -, -, hcharged, -⟩ := ordinaryCharged_leaves x g region d
  rw [acceptOrdinary_eq, wakeEvent_ent]
  constructor
  · show List.map _ (_ ++ ordinaryTokens p src x g region d) = _
    rw [htokens, hcharged, List.map_append, ordinaryTokens, List.map_append, newTokens_charged,
      newTokens_charged, ← List.append_assoc]
    rfl
  · exact hledgers.trans (ordinaryCharged_ledgers x g region d)

end Ordinary

section Express

variable (p : PortId) (src : BitVec 9) (x : BitVec 512) (c : CellId) (start free : Nat) (d : Dev)

/-- The request that an accepted express ADMIT becomes. -/
def expressReq : Req :=
  { newReq p src x d.tick.num (reserveSlot d (dRing x)).1 d with
    express := some c, expBuf := some (p, dExpBuf x), expStart := start }

/-- The device with the slot reserved, the cell's free_at written and the buffer busy. -/
def expressReserved : Dev :=
  let e := setReg (reserveSlot d (dRing x)).2 (R.ENT_EXPRESS_FREE c.val) (BitVec.ofNat 32 free)
  setExpBuf p (dExpBuf x) { expBufOf (getPort e p) (dExpBuf x) with busy := true } e

theorem acceptExpress_eq : acceptExpress p src x c start free d = ((reserveSlot d (dRing x)).1,
    addReq (expressReq p src x c start d) (newTokens (expressReq p src x c start d) d.tick.num false [(c, free - start)])
      (acceptSeqs x d.tick.num false (expressReserved p x c free d))) := rfl

theorem acceptExpress_ctr : (acceptExpress p src x c start free d).1 = getReg d (R.RNG_TAIL (dRing x)) := rfl

theorem expressReserved_leaves : (expressReserved p x c free d).mem = d.mem ∧
    (expressReserved p x c free d).ent = d.ent ∧
    (getPort (expressReserved p x c free d) p).tx = (getPort d p).tx ∧
    (getPort (expressReserved p x c free d) p).retraining = (getPort d p).retraining ∧
    (expBufOf (getPort (expressReserved p x c free d) p) (dExpBuf x)).busy = true := by
  unfold expressReserved
  generalize he : setReg (reserveSlot d (dRing x)).2 (R.ENT_EXPRESS_FREE c.val) (BitVec.ofNat 32 free) = e
  have hmem : e.mem = d.mem := by rw [← he]; rfl
  have hent : e.ent = d.ent := by rw [← he]; rfl
  have hports : e.ports = d.ports := by rw [← he]; rfl
  have hport : getPort e p = getPort d p := by rw [getPort, hports, getPort]
  obtain ⟨htx, hretrain, hbuf⟩ := setExpBuf_port p (dExpBuf x)
    { expBufOf (getPort e p) (dExpBuf x) with busy := true } e
  exact ⟨hmem, hent, htx.trans (by rw [hport]), hretrain.trans (by rw [hport]), congrArg ExpBuf.busy hbuf⟩

theorem getReg_expressReserved (o : Nat) : getReg (expressReserved p x c free d) o =
    if o = R.ENT_EXPRESS_FREE c.val then BitVec.ofNat 32 free else getReg (reserveSlot d (dRing x)).2 o := by
  have hregs : (expressReserved p x c free d).regs =
      (setReg (reserveSlot d (dRing x)).2 (R.ENT_EXPRESS_FREE c.val) (BitVec.ofNat 32 free)).regs := rfl
  rw [getReg_congr hregs, getReg_setReg]

theorem expressFree_lt : R.ENT_EXPRESS_FREE c.val < 0x2300 := by
  have := c.isLt
  simp only [R.ENT_EXPRESS_FREE]
  omega

theorem acceptExpress_takesSlot :
    TakesSlot p x d.tick.num [R.ENT_EXPRESS_FREE c.val] d (acceptExpress p src x c start free d).2 := by
  obtain ⟨hmem, hent, htx, hretrain, -⟩ := expressReserved_leaves p x c free d
  exact takesSlot_of_addReq (ts := newTokens (expressReq p src x c start d) d.tick.num false [(c, free - start)])
    (r := expressReq p src x c start d) hmem
    (fun o ho => (getReg_expressReserved p x c free d o).trans (if_neg (by simpa using ho)))
    (fun o ho => by
      rw [List.mem_singleton.1 ho]
      exact Nat.lt_of_lt_of_le (expressFree_lt c) (by decide))
    htx hretrain (congrArg Entrance.reqs hent) (acceptSeqs_seqsOnly _ _ _ _) ⟨rfl, rfl, rfl, rfl, rfl, rfl⟩

/-- The cell is free again after its charge, its buffer is busy, one token stands on it, and no ledger is charged. -/
theorem acceptExpress_charges :
    getReg (acceptExpress p src x c start free d).2 (R.ENT_EXPRESS_FREE c.val) = BitVec.ofNat 32 free ∧
    (expBufOf (getPort (acceptExpress p src x c start free d).2 p) (dExpBuf x)).busy = true ∧
    (acceptExpress p src x c start free d).2.ent.ledgers = d.ent.ledgers ∧
    (acceptExpress p src x c start free d).2.ent.tokens.map (fun k => (k.uid, k.cell, k.tick, k.charge)) =
      d.ent.tokens.map (fun k => (k.uid, k.cell, k.tick, k.charge)) ++ [(d.ent.nextUid, c, d.tick.num, free - start)] := by
  obtain ⟨-, hent, -, -, hbusy⟩ := expressReserved_leaves p x c free d
  obtain ⟨hregs, -, hports, -, htokens, hledgers, -⟩ :=
    (acceptSeqs_seqsOnly x d.tick.num false (expressReserved p x c free d)).leaves
  rw [acceptExpress_eq]
  refine ⟨(getReg_congr hregs _).trans ((getReg_expressReserved p x c free d _).trans (if_pos rfl)), ?_,
    hledgers.trans (congrArg Entrance.ledgers hent), ?_⟩
  · rw [← hbusy, getPort, getPort, ← hports]
    rfl
  · show List.map _ (_ ++ newTokens _ _ _ _) = _
    rw [htokens, hent, List.map_append]
    rfl

end Express

/-! ### The answer -/

/-- Sending and keeping an answer leaves the express buffers. -/
theorem keepAnswer_answerOn_expBuf (p : PortId) (f : Frame) (payload : List Byte) (k : KeptAnswer) (e : Dev) (b : Bool) :
    expBufOf (getPort (keepAnswer p k (answerOn p f payload e)) p) b = expBufOf (getPort e p) b := by
  have hsend : expBufOf (getPort (answerOn p f payload e) p) b = expBufOf (getPort e p) b := by
    rw [answerOn, sendOn]
    split
    · rfl
    · rw [getPort_setPort, if_pos rfl]
      split <;> simp only [expBufOf, putOut_exp0, putOut_exp1]
  rw [keepAnswer, getPort_setPort, if_pos rfl, ← hsend]
  rfl

/-- An accepted ADMIT counted, answered and kept: what it took stands. -/
theorem takesSlot_sent {s : State} {p : PortId} {f : Frame} {x : BitVec 512} {tick : Nat} {more : List Nat} {a : Dev}
    (h : TakesSlot p x tick more s.dev a) (hmore : ∀ o ∈ more, 0x2200 ≤ o ∧ o < 0x2300)
    (hretrain : (getPort s.dev p).retraining = false) (hup : portUp s.dev p = true)
    (hfate : frameFate s.dev p f = .accept) (bs : List Byte) (k : KeptAnswer) :
    let t : State := { s with dev := keepAnswer p k (answerOn p f bs (bump a R.ENT_ACCEPT_CNT)) }
    (t.pending = s.pending ∧ SameMemory s t ∧ Answered p f bs s t ∧
      getReg t.dev (R.RNG_TAIL (dRing x)) = getReg s.dev (R.RNG_TAIL (dRing x)) + 1 ∧
      getReg t.dev (R.RNG_PENDING (dRing x)) = getReg s.dev (R.RNG_PENDING (dRing x)) + 1 ∧
      getReg t.dev R.ENT_ACCEPT_CNT = counted (getReg s.dev R.ENT_ACCEPT_CNT) 1 ∧
      ∃ r, t.dev.ent.reqs = s.dev.ent.reqs ++ [r] ∧ r.uid = s.dev.ent.nextUid ∧ r.desc = x ∧ r.tick = tick ∧
        r.ctr = getReg s.dev (R.RNG_TAIL (dRing x)) ∧ r.port = p ∧ r.version = getReg s.dev (R.TCX_VERSION (dTenant x))) ∧
    (∀ o, o ∉ [R.RNG_TAIL (dRing x), R.RNG_PENDING (dRing x), R.ENT_ACCEPT_CNT] ++ more →
      getReg t.dev o = getReg s.dev o) ∧
    (∀ o ∈ more, getReg t.dev o = getReg a o) ∧ t.dev.ent = a.ent ∧
    ∀ b, expBufOf (getPort t.dev p) b = expBufOf (getPort a p) b := by
  obtain ⟨hmem, htail, hpending, hothers, htx, hre, hreq⟩ := h
  obtain ⟨hapart, htailAt, hpendingAt⟩ := ringCounters_apart (dRing x)
  obtain ⟨ps, hsent⟩ := keepAnswer_answerOn_rest p f bs k (bump a R.ENT_ACCEPT_CNT)
  have hlink : R.LNK_STATUS p.val < 0x40000 ∧ 0x8000 < R.LNK_STATUS p.val := by
    have := p.isLt
    simp only [R.LNK_STATUS]
    omega
  have hcount : R.ENT_ACCEPT_CNT = 0x2014 := rfl
  have hdie : R.TICK_DIE_INDEX = 0x1018 := rfl
  have hreg (o : Nat) (ho : o ≠ R.ENT_ACCEPT_CNT) : getReg (bump a R.ENT_ACCEPT_CNT) o = getReg a o := by
    rw [getReg_bump, if_neg ho]
  have hkept (o : Nat) (hfar : o < 0x40000) (hnot : o ∉ more) : getReg a o = getReg s.dev o :=
    hothers o (by
      simp only [List.cons_append, List.nil_append, List.mem_cons, not_or]
      exact ⟨by omega, by omega, hnot⟩)
  have hframe (o : Nat) (hfar : o < 0x40000) (hnot : o ∉ more) (ho : o ≠ R.ENT_ACCEPT_CNT) :=
    (hreg o ho).trans (hkept o hfar hnot)
  have hanswer := answerOn_tx (e := bump a R.ENT_ACCEPT_CNT) bs
    (hframe _ hlink.1 (fun hin => by have := hmore _ hin; omega) (by omega))
    (hframe _ (by omega) (fun hin => by have := hmore _ hin; omega) (by omega)) htx (hre.trans hretrain) hup hfate
  have hregs (o : Nat) : getReg (keepAnswer p k (answerOn p f bs (bump a R.ENT_ACCEPT_CNT))) o =
      getReg (bump a R.ENT_ACCEPT_CNT) o := by
    rw [hsent]
    rfl
  have hrest : (keepAnswer p k (answerOn p f bs (bump a R.ENT_ACCEPT_CNT))).mem = a.mem ∧
      (keepAnswer p k (answerOn p f bs (bump a R.ENT_ACCEPT_CNT))).ent = a.ent := by
    rw [hsent]
    exact ⟨rfl, rfl⟩
  obtain ⟨hmem', hent'⟩ := hrest
  refine ⟨⟨rfl, hmem'.trans hmem, (keepAnswer_tx ..).trans hanswer, (hregs _).trans ((hreg _ (by omega)).trans htail),
    (hregs _).trans ((hreg _ (by omega)).trans hpending), ?_, ?_⟩, fun o ho => ?_, fun o ho => ?_, hent', fun b =>
    keepAnswer_answerOn_expBuf ..⟩
  · rw [hregs, getReg_bump_self, hkept _ (by omega) (fun hin => by have := hmore _ hin; omega)]
  · rw [hent']
    exact hreq
  · simp only [List.cons_append, List.nil_append, List.mem_cons, not_or] at ho
    obtain ⟨hne, hne', hcnt, hnot⟩ := ho
    exact (hregs o).trans ((hreg o hcnt).trans (hothers o (by
      simp only [List.cons_append, List.nil_append, List.mem_cons, not_or]
      exact ⟨hne, hne', hnot⟩)))
  · exact (hregs o).trans (hreg o (by have := hmore o ho; omega))

/-- A new ADMIT that the decision of R43 accepts. -/
theorem completes_accepted {s : State} {p : PortId} {f : Frame} {post : State → Prop} (ha : Accepted s p f tADMIT)
    (hc : admitCredit s.dev p ≠ 0) (hnew : keptFor s.dev p f = none) {v : Verdict}
    (hv : decideAdmit s.dev p (BitVec.ofNat 512 (leNat f.payload)) = v)
    (h : ∀ k bs e, applyVerdict p (BitVec.ofNat 9 f.src.toNat) (BitVec.ofNat 512 (leNat f.payload)) v
        (arrived p tADMIT s.dev) = (bs, e) → post { s with dev := keepAnswer p k (answerOn p f bs e) }) :
    Completes (.admitFrame p f) s post := by
  have hlike := arrived_admitAlike p tADMIT s.dev
  have hverdict : (if alive (arrived p tADMIT s.dev) then
      decideAdmit (arrived p tADMIT s.dev) p (BitVec.ofNat 512 (leNat f.payload)) else .refuse refNoBeacon never) = v := by
    rw [hlike.alive, if_pos ha.1, hlike.decideAdmit, hv]
  refine completes_admit ha hc ?_
  rw [admitFrame, hlike.keptFor, hnew]
  dsimp only
  rw [hverdict]
  exact h _ _ _ rfl

/-! ### No cell beyond its credit (R38) -/

/-- Charges that fit, each on a cell of its own, leave every cell within its credit. -/
theorem charged_le_credit (credit : Nat) (cs : List (CellId × Nat)) (u : Tbl Nat) (hnodup : (cs.map (·.1)).Nodup)
    (hfit : ∀ c ∈ cs, tblGet 0 u c.1.val + c.2 ≤ credit) (hused : ∀ c, tblGet 0 u c ≤ credit) (c : Nat) :
    tblGet 0 (cs.foldl (fun u c => tblSet 0 u c.1.val (tblGet 0 u c.1.val + c.2)) u) c ≤ credit := by
  induction cs generalizing u with
  | nil => exact hused c
  | cons a as ih =>
    obtain ⟨hfresh, hnodup'⟩ := List.nodup_cons.1 hnodup
    refine ih _ hnodup' (fun b hb => ?_) (fun b => ?_)
    · have hne : b.1.val ≠ a.1.val := fun h => hfresh (List.mem_map.2 ⟨b, hb, Fin.ext h⟩)
      rw [tblGet_set, if_neg hne]
      exact hfit b (List.mem_cons_of_mem _ hb)
    · rw [tblGet_set]
      split
      · exact hfit a List.mem_cons_self
      · exact hused b

theorem fits_of_hasRoom {d : Dev} {l : Ledger} {cs : List (CellId × Nat)} (h : hasRoom d l cs = true)
    (hused : ∀ c, tblGet 0 l.used c ≤ l.credit) : ∀ c ∈ cs, tblGet 0 l.used c.1.val + c.2 ≤ l.credit := by
  intro c hc
  have hleft : c.2 ≤ creditLeft d l c.1.val := by simpa using List.all_eq_true.1 h c hc
  have hcell := hused c.1.val
  unfold creditLeft at hleft
  split at hleft <;> omega

/-! ### The settlement -/

namespace AdmitAlike

variable {p : PortId} {d e : Dev}

theorem costEntry (h : AdmitAlike p d e) (x : BitVec 512) : costEntry e x = Machine.costEntry d x := by rw [h.rest]; rfl
theorem ringSize (h : AdmitAlike p d e) (r : Nat) : ringSize e r = Machine.ringSize d r := by rw [h.rest]; rfl
theorem chargesNow (h : AdmitAlike p d e) (x : BitVec 512) (c : BitVec 128) : chargesNow e x c = Machine.chargesNow d x c := by
  rw [h.rest]; rfl
theorem chargesNext (h : AdmitAlike p d e) (x : BitVec 512) (c : BitVec 128) :
    chargesNext e x c = Machine.chargesNext d x c := by
  rw [h.rest]; rfl
theorem getReg (h : AdmitAlike p d e) (o : Nat) : getReg e o = Machine.getReg d o := getReg_congr h.regs o

end AdmitAlike

/-- Settles O33: what acceptance takes of the ring and charges to ledgers and cells shows on the device that the answer
leaves; a ledger with room for the charges stays within its credit. -/
theorem acceptedRequestsAreCharged : Obligations.AcceptedRequestsAreCharged := by
  unfold Obligations.AcceptedRequestsAreCharged
  refine ⟨fun s p f ha hc hretrain hnew => ?_,
    fun d l cs hnodup hroom hused => charged_le_credit l.credit cs l.used hnodup (fits_of_hasRoom hroom hused) hused⟩
  intro x tail slotTaken charge
  have hlike := arrived_admitAlike p tADMIT s.dev
  obtain ⟨-, -, hup, hfate, -, -⟩ := id ha
  refine ⟨fun g region hv => ?_, fun c start free hv => ?_⟩ <;>
    refine completes_accepted ha hc hnew hv (fun k bs e he => ?_) <;> obtain ⟨rfl, rfl⟩ := Prod.mk.inj he
  · have htakes := acceptOrdinary_takesSlot p (BitVec.ofNat 9 f.src.toNat) x g region (arrived p tADMIT s.dev)
    obtain ⟨htokens, hledgers⟩ := acceptOrdinary_charges p (BitVec.ofNat 9 f.src.toNat) x g region (arrived p tADMIT s.dev)
    simp only [hlike.costEntry, hlike.chargesNow, hlike.chargesNext, hlike.ent] at htokens hledgers
    rw [acceptOrdinary_ctr, hlike.getReg, hlike.ringSize]
    obtain ⟨hslot, hregs, -, hent, -⟩ := takesSlot_sent (htakes.before hlike) (fun o ho => nomatch ho) hretrain hup hfate
      (admitAnswer true 0 0 (tail.toNat % ringSize s.dev (dRing x)) (dReqId x) (ordinaryTick g region)) k
    exact ⟨hslot, hregs, (congrArg (List.map _) (congrArg Entrance.tokens hent)).trans htokens,
      (congrArg Entrance.ledgers hent).trans hledgers⟩
  · have htakes := acceptExpress_takesSlot p (BitVec.ofNat 9 f.src.toNat) x c start free (arrived p tADMIT s.dev)
    obtain ⟨hfree, hbusy, hledgers, htokens⟩ :=
      acceptExpress_charges p (BitVec.ofNat 9 f.src.toNat) x c start free (arrived p tADMIT s.dev)
    simp only [hlike.tick, hlike.ent] at htakes htokens hledgers
    rw [acceptExpress_ctr, hlike.getReg, hlike.ringSize, hlike.tick]
    have hmore : ∀ o ∈ [R.ENT_EXPRESS_FREE c.val], 0x2200 ≤ o ∧ o < 0x2300 := by
      intro o ho
      rw [List.mem_singleton.1 ho]
      exact ⟨Nat.le_add_right _ _, expressFree_lt c⟩
    obtain ⟨hslot, hregs, hcell, hent, hbuf⟩ := takesSlot_sent (htakes.before hlike) hmore hretrain hup hfate
      (admitAnswer true 0 0 (tail.toNat % ringSize s.dev (dRing x)) (dReqId x) s.dev.tick.num) k
    exact ⟨hslot, (hcell _ List.mem_cons_self).trans hfree, hregs, (congrArg ExpBuf.busy (hbuf _)).trans hbusy,
      (congrArg Entrance.ledgers hent).trans hledgers, (congrArg (List.map _) (congrArg Entrance.tokens hent)).trans htokens⟩

end Sys2Proof.Machine
end

section
/-!
PROOFS. What the units' work at a boundary leaves of the tick: the tick unit, the ledgers, the late ticks, the keeper's
deferred writes, the power samples, and chosen registers.
-/

namespace Sys2Proof.Machine

open Sys2Proof

/-- Nothing that a tick's boundary decides has changed, of the registers those that are watched. -/
structure Aside (P : Nat → Bool) (d e : Dev) : Prop where
  tick : e.tick = d.tick
  late : e.ent.late = d.ent.late
  ledgers : e.ent.ledgers = d.ent.ledgers
  deferred : e.keeper.deferred = d.keeper.deferred
  samples : e.power.samples = d.power.samples
  sumMw : e.power.sumMw = d.power.sumMw
  regs : ∀ o, P o = true → getReg e o = getReg d o

/-- The registers in which a report shows, and those of a stop, are not watched. -/
def reportsUnwatched (P : Nat → Bool) : Prop :=
  (∀ o, guardReg o = true → P o = false) ∧ P R.PWR_STATE_REQ = false ∧ P R.PWR_STATE = false ∧
    P R.TEL_RPT_SENT_CNT = false

namespace Aside

variable {P : Nat → Bool} {a b c d e : Dev}

theorem refl (d : Dev) : Aside P d d := ⟨rfl, rfl, rfl, rfl, rfl, rfl, fun _ _ => rfl⟩

theorem trans (hab : Aside P a b) (hbc : Aside P b c) : Aside P a c :=
  ⟨hbc.tick.trans hab.tick, hbc.late.trans hab.late, hbc.ledgers.trans hab.ledgers, hbc.deferred.trans hab.deferred,
    hbc.samples.trans hab.samples, hbc.sumMw.trans hab.sumMw, fun o ho => (hbc.regs o ho).trans (hab.regs o ho)⟩

theorem ite {q : Prop} [Decidable q] (ht : q → Aside P d a) (hf : ¬q → Aside P d b) : Aside P d (if q then a else b) := by
  split
  · exact ht ‹_›
  · exact hf ‹_›

theorem foldl {α : Type} (f : Dev → α → Dev) (xs : List α) (h : ∀ d, ∀ x ∈ xs, Aside P d (f d x)) (d : Dev) :
    Aside P d (xs.foldl f d) := by
  induction xs generalizing d with
  | nil => exact .refl d
  | cons x xs ih => exact (h d x List.mem_cons_self).trans (ih (fun d y hy => h d y (List.mem_cons_of_mem x hy)) _)

/-- A change of fields that a tick's boundary does not look at. -/
theorem of_units {e : Dev} (ht : e.tick = d.tick := by rfl) (hl : e.ent.late = d.ent.late := by rfl)
    (hg : e.ent.ledgers = d.ent.ledgers := by rfl) (hk : e.keeper.deferred = d.keeper.deferred := by rfl)
    (hs : e.power.samples = d.power.samples := by rfl) (hm : e.power.sumMw = d.power.sumMw := by rfl)
    (hr : e.regs = d.regs := by rfl) : Aside P d e :=
  ⟨ht, hl, hg, hk, hs, hm, fun o _ => getReg_congr hr o⟩

/-- A change of ports alone. -/
theorem of_ports {ps : Tbl Port} (h : e = { d with ports := ps }) : Aside P d e := by
  subst h
  exact of_units

theorem setReg {o : Nat} (h : P o = false) (d : Dev) (v : W32) : Aside P d (setReg d o v) :=
  ⟨rfl, rfl, rfl, rfl, rfl, rfl, fun p hp => getReg_setReg_ne d o v p (fun heq => by rw [heq, h] at hp; cases hp)⟩

theorem setReg64 {lo hi : Nat} (hlo : P lo = false) (hhi : P hi = false) (d : Dev) (v : Nat) :
    Aside P d (setReg64 d lo hi v) := (setReg hlo d _).trans (setReg hhi _ _)

theorem bumpBy {o : Nat} (h : P o = false) (d : Dev) (n : Nat) : Aside P d (bumpBy d o n) := setReg h d _

theorem bump {o : Nat} (h : P o = false) (d : Dev) : Aside P d (bump d o) := setReg h d _

/-! ### Frames -/

theorem setPort (d : Dev) (p : PortId) (x : Port) : Aside P d (setPort d p x) := of_ports rfl

theorem sendOn (p : PortId) (f : Frame) (d : Dev) : Aside P d (sendOn p f d) := of_ports (sendOn_eq_ports p f d)

theorem sendAll (p : PortId) (fs : List Frame) (d : Dev) : Aside P d (sendAll p fs d) :=
  foldl _ fs (fun d f _ => sendOn p f d) d

theorem takeTag (p : PortId) (d : Dev) : Aside P d (takeTag p d).2 := setPort d p _

theorem forwardBeacon (bs : List Byte) (d : Dev) : Aside P d (forwardBeacon bs d) :=
  foldl _ _ (fun d p _ => (takeTag p d).trans (sendOn p _ _)) d

theorem sendReport (h : P R.TEL_RPT_SENT_CNT = false) (b : Bool) (d : Dev) : Aside P d (sendReport b d) := by
  unfold Machine.sendReport
  split
  · exact .refl d
  · rename_i p _
    exact ((takeTag p d).trans (sendOn p _ _)).trans (bump h _)

theorem sendWgt (p : Option PortId) (t : Nat) (msg : List Byte) (d : Dev) : Aside P d (sendWgt p t msg d) := by
  cases p with
  | none => exact .refl d
  | some p => exact (takeTag p d).trans (sendAll p _ _)

/-! ### Reports -/

theorem stopWaits (d : Dev) : Aside P d (stopWaits d) :=
  foldl _ _ (fun d p _ => (foldl (answerWait p true) _ (fun d _ _ => sendOn p _ d) d).trans (setPort _ p _)) d

theorem dropAttempt (hreq : P R.PWR_STATE_REQ = false) (hstate : P R.PWR_STATE = false) (d : Dev) :
    Aside P d (dropAttempt d) := by
  unfold Machine.dropAttempt
  refine ite (fun _ => ?_) (fun _ => .refl d)
  exact ((setReg hreq d _).trans (setReg hstate _ _)).trans of_units

theorem stopDie (h : reportsUnwatched P) (d : Dev) : Aside P d (stopDie d) := by
  obtain ⟨-, hreq, hstate, hsent⟩ := h
  have hdown := (stopWaits d).trans (dropAttempt (P := P) hreq hstate _)
  unfold Machine.stopDie
  dsimp only
  generalize Machine.dropAttempt (Machine.stopWaits d) = d1 at hdown
  refine ite (fun _ => .refl d) (fun _ => ite (fun _ => ?_) (fun _ => hdown.trans of_units))
  exact (hdown.trans of_units).trans (sendReport hsent true _)

theorem report (h : reportsUnwatched P) (r : Report) (d : Dev) : Aside P d (report r d) := by
  have hguard := h.1
  have hqueue (d : Dev) (g : Guard) : Aside P d { d with guard := g } := of_units
  have hflag (i : Nat) (d : Dev) : Aside P d (grdFlag i d) := setReg (hguard _ rfl) d _
  have hcount : Aside P d (countReport (errClass r.code) d) :=
    (ite (fun _ => bump (hguard R.GRD_CORR_CNT rfl) d)
      (fun _ => ite (fun _ => bump (hguard R.GRD_CONT_CNT rfl) d) (fun _ => .refl d))).trans of_units
  have hstore (q : Record) (d : Dev) : Aside P d (storeRecord q d) := by
    have hlost := (hflag 0 d).trans (bump (hguard _ (guardReg_lostCnt q)) _)
    exact ite (fun _ => hqueue d _) (fun _ => ite (fun _ => hlost) (fun _ => hlost.trans (setReg (hguard _ rfl) _ _)))
  have hfatal (q : Record) (d : Dev) : Aside P d (storeFatal q d) := by
    unfold storeFatal
    split
    · exact hqueue d _
    · exact bump (hguard _ rfl) d
  unfold Machine.report guardTake guardTakeAt
  dsimp only
  split
  · exact ((hcount.trans (hqueue _ _)).trans (hflag 1 _)).trans (bump (hguard _ rfl) _)
  · have hseq := hcount.trans (setReg (hguard R.GRD_NEXT_SEQ rfl) _
      (nextSeq (getReg (countReport (errClass r.code) d) R.GRD_NEXT_SEQ)))
    split_ifs
    · exact ((((hseq.trans (hflag 2 _)).trans (hfatal _ _)).trans (hstore _ _)).trans (stopDie h _))
    · exact (((hseq.trans (hfatal _ _)).trans (hstore _ _)).trans (stopDie h _))
    · exact (hseq.trans (hflag 2 _)).trans (hstore _ _)
    · exact hseq.trans (hstore _ _)

end Aside

end Sys2Proof.Machine
end

section
/-!
PROOFS. The work of cache control and of the weight engine at a drain start, a beacon start and an activation leaves the tick
alone.
-/

namespace Sys2Proof.Machine

open Sys2Proof

/-- Registers in which a boundary of the tick shows: the credit scale, the operating points, the keeper's load, and the
express cells. -/
def tickReg (o : Nat) : Bool :=
  decide (o = R.ENT_CREDIT_SCALE) || decide (o = R.PWR_OP_SCHED) || decide (o = R.KPR_BUSY) ||
    (decide (R.ENT_EXPRESS_FREE 0 ≤ o) && decide (o < R.ENT_EXPRESS_FREE 4))

/-- They lie below the weight registers of the entrance, or are two of the power and keeper windows. -/
theorem tickReg_eq_false {o : Nat} (hlow : 0x2500 ≤ o) (hsched : o ≠ 0x4004) (hbusy : o ≠ 0x6004) : tickReg o = false := by
  simp only [tickReg, Bool.or_eq_false_iff, Bool.and_eq_false_iff, decide_eq_false_iff_not]
  simp only [R.ENT_CREDIT_SCALE, R.PWR_OP_SCHED, R.KPR_BUSY, R.ENT_EXPRESS_FREE]
  omega

theorem tickReg_far {o : Nat} (h : 0x10000 ≤ o) : tickReg o = false :=
  tickReg_eq_false (by omega) (by omega) (by omega)

/-- The entrance's registers of weights and activations. -/
theorem tickReg_weights {o : Nat} (h : 0x2500 ≤ o) (h' : o < 0x4000) : tickReg o = false :=
  tickReg_eq_false h (by omega) (by omega)

theorem tickReg_guard {o : Nat} (h : guardReg o = true) : tickReg o = false := by
  simp only [guardReg, Bool.and_eq_true, decide_eq_true_eq] at h
  simp only [R.GRD_STATUS, R.GRD_REC] at h
  exact tickReg_eq_false (by omega) (by omega) (by omega)

theorem reportsUnwatched_tickReg : reportsUnwatched tickReg := ⟨fun _ h => tickReg_guard h, rfl, rfl, rfl⟩

theorem tickReg_pending (r : Nat) : tickReg (R.RNG_PENDING r) = false :=
  tickReg_far (by simp only [R.RNG_PENDING]; omega)

theorem tickReg_syn (i : Nat) : tickReg (R.SYN_VALUE i) = false := tickReg_far (by simp only [R.SYN_VALUE]; omega)

theorem tickReg_tcx (t : Nat) {c : Nat} (h : 0x10000 ≤ c) : tickReg (c + 0x100 * t) = false := tickReg_far (by omega)

theorem tickReg_quarantine (t : Nat) : tickReg (R.ENT_WQ (t % 4096 / 32)) = false :=
  tickReg_weights (by simp only [R.ENT_WQ]; omega) (by simp only [R.ENT_WQ]; omega)

/-- An activation entry is not watched. -/
theorem tickReg_wact {j : Nat} (h : j < 8) : tickReg (R.ENT_WACT_ID j) = false ∧ tickReg (R.ENT_WACT_VERSION j) = false ∧
    tickReg (R.ENT_WACT_TICK_LO j) = false ∧ tickReg (R.ENT_WACT_TICK_HI j) = false := by
  refine ⟨?_, ?_, ?_, ?_⟩ <;>
    exact tickReg_weights (by simp only [R.ENT_WACT_ID, R.ENT_WACT_VERSION, R.ENT_WACT_TICK_LO, R.ENT_WACT_TICK_HI]; omega)
      (by simp only [R.ENT_WACT_ID, R.ENT_WACT_VERSION, R.ENT_WACT_TICK_LO, R.ENT_WACT_TICK_HI]; omega)

namespace Aside

/-! ### Contexts and records -/

theorem setBarrier (t : Nat) (b : Bool) (d : Dev) : Aside tickReg d (setBarrier t b d) :=
  setReg (tickReg_tcx t (by decide)) d _

theorem setTcxState (t st : Nat) (d : Dev) : Aside tickReg d (setTcxState t st d) :=
  setReg (tickReg_tcx t (by decide)) d _

theorem setQuarantine (t : Nat) (b : Bool) (d : Dev) : Aside tickReg d (setQuarantine t b d) :=
  setReg (tickReg_quarantine t) d _

theorem releaseBarrier (t : Nat) (d : Dev) : Aside tickReg d (releaseBarrier t d) :=
  ite (fun _ => .refl d) (fun _ => setBarrier t false d)

theorem syncAdd (d : Dev) (i : Nat) (v : W32) : Aside tickReg d (syncAdd d i v) := setReg (tickReg_syn i) d _

theorem cmdRecord (x : CmdRef) (result length : Nat) (d : Dev) : Aside tickReg d (cmdRecord x result length d) := by
  unfold Machine.cmdRecord writeRecord
  dsimp only
  have hrecord (e : Dev) (c : Completion) : Aside tickReg e
      (countRecord c (Machine.setReg e (R.RNG_PENDING x.ring) (getReg e (R.RNG_PENDING x.ring) - 1))) :=
    (setReg (tickReg_pending x.ring) e _).trans of_units
  have hwritten (a : Nat) (bs : List Byte) : Aside tickReg d (hiveWrite d a bs) := of_units
  exact ite (fun _ => ((hwritten _ _).trans (hrecord _ _)).trans (syncAdd _ _ _)) (fun _ => (hwritten _ _).trans (hrecord _ _))

theorem cmdRecord? (x : Option CmdRef) (result length : Nat) (d : Dev) :
    Aside tickReg d (cmdRecord? x result length d) := by
  cases x with
  | none => exact .refl d
  | some x => exact cmdRecord x result length d

/-! ### Cache control -/

theorem startRelease (q : Nat) (cmd : Option CmdRef) (d : Dev) : Aside tickReg d (startRelease q cmd d) := by
  have hlost (e : Dev) (n : Nat) : Aside tickReg e (Machine.bumpBy e R.KVC_LOST n) := bumpBy rfl e n
  unfold Machine.startRelease
  dsimp only
  generalize hopen : updCache _ _ = e
  have hstart : Aside tickReg d e := by rw [← hopen]; exact of_units
  exact ite (fun _ => (hstart.trans (hlost _ _)).trans of_units) (fun _ => hstart.trans of_units)

theorem freeContext (t : Nat) (d : Dev) : Aside tickReg d (freeContext t d) :=
  ite (fun _ => (((setTcxState t 0 d).trans (setBarrier t false _)).trans (setQuarantine t false _)).trans of_units)
    (fun _ => .refl d)

theorem contextReleasing (t : Nat) (d : Dev) : Aside tickReg d (contextReleasing t d) :=
  ite (fun _ => .refl d) (fun _ => ((setTcxState t 3 d).trans (foldl _ _ (fun d q _ => startRelease q none d) _)).trans
    (freeContext t _))

theorem contextsReleasing (d : Dev) : Aside tickReg d (contextsReleasing d) :=
  foldl _ _ (fun d t _ => contextReleasing t d) d

theorem cacheDrainBegins (d : Dev) : Aside tickReg d (cacheDrainBegins d) := by
  unfold Machine.cacheDrainBegins
  generalize he : updCache _ d = e
  have hbegin : Aside tickReg d e := by rw [← he]; exact of_units
  exact hbegin.trans (contextsReleasing e)

theorem drainEnds (d : Dev) : Aside tickReg d (drainEnds d) :=
  ((contextsReleasing d).trans (bumpBy (o := R.KVC_FLUSH_DEFER_CNT) rfl _ _)).trans of_units

/-! ### The weight engine -/

theorem updSlot (i : Nat) (f : LoadSlot → LoadSlot) (d : Dev) : Aside tickReg d (updSlot i f d) := of_units

theorem setNext (t : Nat) (v : W32) (d : Dev) : Aside tickReg d (setNext t v d) := setReg (tickReg_tcx t (by decide)) d _

theorem slotIdle (i reason : Nat) (d : Dev) : Aside tickReg d (slotIdle i reason d) :=
  (updSlot i _ d).trans (setNext _ 0 _)

theorem failLoad (i reason : Nat) (d : Dev) : Aside tickReg d (failLoad i reason d) :=
  ((sendWgt _ _ _ d).trans (slotIdle i reason _)).trans (cmdRecord? _ 5 0 _)

theorem nackChunk (i reason index : Nat) (d : Dev) : Aside tickReg d (nackChunk i reason index d) :=
  ite (fun _ => .refl d) (fun _ => ite (fun _ => failLoad i 2 d) (fun _ =>
    ((updSlot i _ d).trans (sendWgt _ _ _ _)).trans (bump rfl _)))

theorem resendChunk (i k : Nat) (d : Dev) : Aside tickReg d (resendChunk i d k) := by
  unfold Machine.resendChunk
  dsimp only
  split
  · exact updSlot i _ d
  · exact ite (fun _ => ite (fun _ => (updSlot i _ d).trans (nackChunk i 1 k _))
      (fun _ => (updSlot i _ d).trans (sendWgt _ _ _ _))) (fun _ => .refl d)

theorem serveResends (d : Dev) : Aside tickReg d (serveResends d) :=
  foldl _ _ (fun d i _ => foldl (Machine.resendChunk i) _ (fun d k _ => resendChunk i k d) d) d

theorem drainBegins (d : Dev) : Aside tickReg d (drainBegins d) := by
  have hclear (e : Dev) (is : List Nat) (f : Dev → LoadSlot → LoadSlot) :
      Aside tickReg e (is.foldl (fun d i => Machine.updSlot i (f d) d) e) := foldl _ is (fun d i _ => updSlot i _ d) e
  have hdue (e : Dev) (due : List (Nat × CmdRef)) :
      Aside tickReg e (due.foldl (fun d e => Machine.cmdRecord e.2 0 0 d) e) :=
    foldl _ due (fun d x _ => cmdRecord x.2 0 0 d) e
  unfold Machine.drainBegins
  dsimp only
  generalize hslots : List.foldl _ d _ = e
  have hbegin : Aside tickReg d e := by rw [← hslots]; exact hclear d _ _
  have hcmds (cmds : List (Nat × CmdRef)) : Aside tickReg e { e with wgt := { e.wgt with actCmds := cmds } } := of_units
  exact (((hbegin.trans (hcmds _)).trans (hdue _ _)).trans (cacheDrainBegins _)).trans (serveResends _)

/-! ### Activation -/

theorem retireActs (k : Nat) (d : Dev) : Aside tickReg d (retireActs k d) := by
  refine foldl _ _ (fun d j hj => ite (fun _ => ?_) (fun _ => .refl d)) d
  obtain ⟨hid, hversion, hlo, hhi⟩ := tickReg_wact (List.mem_range.1 hj)
  exact ((setReg hid d _).trans (setReg hversion _ _)).trans (setReg64 hlo hhi _ _)

theorem wgtReceiveActs (k : Nat) (acts : List (Nat × Nat × Nat)) (d : Dev) : Aside tickReg d (wgtReceiveActs k acts d) := by
  rw [wgtReceiveActs_eq_wgt]
  exact of_units

theorem actOne (a : Nat × Nat × Nat) (d : Dev) : Aside tickReg d (actOne a d) := by
  have hstage (k v : Nat) (d : Dev) :
      Aside tickReg d (Machine.setReg64 d (R.TCX_STAGE_LO a.1 k) (R.TCX_STAGE_HI a.1 k) v) :=
    setReg64 (tickReg_far (by simp only [R.TCX_STAGE_LO]; omega)) (tickReg_far (by simp only [R.TCX_STAGE_HI]; omega)) d v
  have hbase {lo hi : Nat} (hlo : 0x10000 ≤ lo) (hhi : 0x10000 ≤ hi) (v : Nat) (d : Dev) :
      Aside tickReg d (Machine.setReg64 d (lo + 0x100 * a.1) (hi + 0x100 * a.1) v) :=
    setReg64 (tickReg_tcx _ hlo) (tickReg_tcx _ hhi) d v
  have himages (d : Dev) (xs : List Image) : Aside tickReg d { d with wgt := { d.wgt with images := xs } } := of_units
  unfold Machine.actOne
  dsimp only
  split
  · exact .refl d
  · refine ite (fun _ => ?_) (fun _ => (bump rfl d).trans (report reportsUnwatched_tickReg _ _))
    refine (Aside.trans ?_ (himages _ _)).trans (((slotIdle _ 0 _).trans (setQuarantine _ _ _)).trans (releaseBarrier _ _))
    refine Aside.trans ?_ (foldl _ _ (fun d k _ => hstage k _ d) _)
    refine Aside.trans ?_ (setReg (tickReg_tcx a.1 (by decide)) _ _)
    refine Aside.trans ?_ (hbase (by decide) (by decide) _ _)
    refine Aside.trans ?_ (hbase (by decide) (by decide) _ _)
    exact setReg (tickReg_tcx a.1 (by decide)) d _

theorem wgtActivate (n : Nat) (d : Dev) : Aside tickReg d (wgtActivate n d) := by
  have hacts (e : Dev) (acts : List (Nat × Nat × Nat)) : Aside tickReg e { e with wgt := { e.wgt with acts := acts } } :=
    of_units
  exact ((foldl _ _ (fun d a _ => actOne a d) d).trans (hacts _ _)).trans (retireActs n _)

end Aside

end Sys2Proof.Machine
end

section
/-!
PROOFS. The boundaries of a tick (02, Table 02-1): input close, admission close, drain start and beacon start.
-/

namespace Sys2Proof.Machine

open Sys2Proof

/-! ### Deferred writes (R27) -/

/-- No register is watched. -/
def noReg (_ : Nat) : Bool := false

theorem reportsUnwatched_noReg : reportsUnwatched noReg := ⟨fun _ _ => rfl, rfl, rfl, rfl⟩

namespace Aside

theorem wakeEvent (P : Nat → Bool) (src : Nat) (d : Dev) : Aside P d (wakeEvent src d) := by
  unfold Machine.wakeEvent
  split
  · exact ite (fun _ => of_units) (fun _ => .refl d)
  · exact ite (fun _ => of_units) (fun _ => .refl d)

theorem requestCore (P : Nat → Bool) (d : Dev) : Aside P d (requestCore d) := ite (fun _ => .refl d) (fun _ => of_units)

theorem setTag (P : Nat → Bool) (d : Dev) (k : Nat) (t : Tag) : Aside P d (setTag d k t) := of_units

theorem ringReady (P : Nat → Bool) (d : Dev) (r : Nat) : Aside P d (ringReady d r) := by
  have htags := foldl (P := P) _ (ringUnits d r) (fun d u _ => setTag P d (65536 + u) .ring) d
  have hwrite (a : Nat) (bs : List Byte) (d : Dev) : Aside P d (hiveWrite d a bs) := of_units
  exact ite (fun _ => htags) (fun _ => htags.trans (foldl _ _ (fun d i _ => hwrite _ _ d) _))

theorem ringEnable (d : Dev) (r : Nat) (v : W32) : Aside noReg d (ringEnable d r v) := by
  have hset (o : Nat) (v : W32) (d : Dev) : Aside noReg d (Machine.setReg d o v) := setReg rfl d v
  have hcfg := (((hset (R.RNG_CFG r) v d).trans (hset (R.RNG_HEAD r) 0 _)).trans (hset (R.RNG_TAIL r) 0 _)).trans
    (hset (R.RNG_PENDING r) 0 _)
  unfold Machine.ringEnable
  dsimp only
  generalize Machine.setReg (Machine.setReg (Machine.setReg (Machine.setReg d (R.RNG_CFG r) v) (R.RNG_HEAD r) 0)
    (R.RNG_TAIL r) 0) (R.RNG_PENDING r) 0 = e at hcfg
  exact ite (fun _ => hcfg.trans (ringReady noReg e r))
    (fun _ => (hcfg.trans (foldl _ _ (fun d u _ => setTag noReg d (65536 + u) .wipingRing) e)).trans of_units)

theorem writeRngCfg (d : Dev) (r : Nat) (v : W32) : Aside noReg d (writeRngCfg d r v) :=
  ite (fun _ => ite (fun _ => (setReg rfl d _).trans of_units) (fun _ => bump rfl d))
    (fun _ => ite (fun _ => ite (fun _ => ringEnable d r _) (fun _ => bump rfl d)) (fun _ => setReg rfl d _))

theorem writeDoorbell (d : Dev) (r : Nat) (v : W32) : Aside noReg d (writeDoorbell d r v) :=
  ite (fun _ => bump rfl d) (fun _ => ite
    (fun _ => ite (fun _ => (setReg rfl d _).trans (wakeEvent noReg _ _)) (fun _ => bump rfl d))
    (fun _ => ite (fun _ => setReg rfl d _) (fun _ => bump rfl d)))

theorem writeTcx (d : Dev) (t o : Nat) (v : W32) : Aside noReg d (writeTcx d t o v) :=
  ite (fun _ => ite (fun _ => setReg rfl d _) (fun _ => .refl d))
    (fun _ => ite (fun _ => ite (fun _ => (setReg rfl d _).trans (bump rfl _)) (fun _ => setReg rfl d _)) (fun _ => bump rfl d))

theorem writeStateReq (d : Dev) (v : W32) : Aside noReg d (writeStateReq d v) :=
  ite (fun _ => wakeEvent noReg _ d)
    (fun _ => ite (fun _ => ((setReg rfl d _).trans (setReg rfl _ _)).trans of_units) (fun _ => .refl d))

theorem writeGrdAck (d : Dev) (v : W32) : Aside noReg d (writeGrdAck d v) := by
  unfold Machine.writeGrdAck
  split
  · exact ite (fun _ => of_units) (fun _ => bump rfl d)
  · exact bump rfl d

theorem writeNow (o : Nat) (v : W32) (d : Dev) : Aside noReg d (writeNow o v d) := by
  have hset (v : W32) : Aside noReg d (Machine.setReg d o v) := setReg rfl d v
  unfold Machine.writeNow
  refine ite (fun _ => ?_) (fun _ => ite (fun _ => ?_) (fun _ => ite (fun _ => writeTcx d _ _ v) (fun _ => ite (fun _ => hset _)
    (fun _ => ite (fun _ => hset _) (fun _ => ite (fun _ => (setReg rfl d _).trans (requestCore noReg _))
    (fun _ => ite (fun _ => writeStateReq d v) (fun _ => ite (fun _ => writeGrdAck d v) (fun _ => ite
    (fun _ => ite (fun _ => report reportsUnwatched_noReg _ d) (fun _ => .refl d))
    (fun _ => ite (fun _ => of_units) (fun _ => ?_))))))))))
  · dsimp only
    split
    · exact writeRngCfg d _ v
    · exact ite (fun _ => bump rfl d) (fun _ => setReg rfl d _)
    · exact writeDoorbell d _ v
    · exact hset _
    · exact .refl d
  · exact ite (fun _ => hset _) (fun _ => setReg rfl d _)
  · split
    · exact hset _
    · exact hset _
    · exact hset _
    · exact hset _
    · exact .refl d

end Aside

/-- The deferred writes are all made, and leave the tick as it is. -/
theorem applyDeferred_rest (d : Dev) : (applyDeferred d).tick = d.tick ∧ (applyDeferred d).ent.late = d.ent.late ∧
    (applyDeferred d).keeper.deferred = [] := by
  have h : Aside noReg { d with keeper := { d.keeper with deferred := [] } } (applyDeferred d) :=
    Aside.foldl _ _ (fun d e _ => Aside.writeNow e.1 e.2 d) _
  exact ⟨h.tick, h.late, h.deferred⟩

/-- The timebase is brought to a value: of the tick unit only the time and the slew change. -/
theorem advanceTo_eq_time (t : Nat) (d : Dev) : ∃ slew age, advanceTo t d =
    { d with tick := { d.tick with time := max d.tick.time t, slew := slew, slewAge := age } } := by
  unfold advanceTo
  split
  · rename_i h
    exact ⟨d.tick.slew, d.tick.slewAge, by rw [max_eq_left h]⟩
  · rename_i h
    exact ⟨_, _, by rw [max_eq_right (Nat.le_of_not_le h)]; rfl⟩

section AdvanceTo

variable (t : Nat) (d : Dev)

@[simp] theorem advanceTo_phase : (advanceTo t d).tick.phase = d.tick.phase := by
  obtain ⟨_, _, h⟩ := advanceTo_eq_time t d
  rw [h]

@[simp] theorem advanceTo_admitOpen : (advanceTo t d).tick.admitOpen = d.tick.admitOpen := by
  obtain ⟨_, _, h⟩ := advanceTo_eq_time t d
  rw [h]

@[simp] theorem advanceTo_num : (advanceTo t d).tick.num = d.tick.num := by
  obtain ⟨_, _, h⟩ := advanceTo_eq_time t d
  rw [h]

theorem advanceTo_reached : (advanceTo t d).tick.time = max d.tick.time t := by rw [advanceTo_time, max_comm]

end AdvanceTo

/-! ### Input close and admission close -/

@[simp] theorem dvfsShort_tick (d : Dev) : (dvfsShort d).tick = d.tick := by
  unfold dvfsShort
  dsimp only
  split
  · exact report_tick _ _
  · rfl

@[simp] theorem dvfsShort_mem (d : Dev) : (dvfsShort d).mem = d.mem := by
  unfold dvfsShort
  dsimp only
  split
  · exact report_mem _ _
  · rfl

@[simp] theorem dvfsShort_power (d : Dev) : (dvfsShort d).power = d.power := by
  unfold dvfsShort
  dsimp only
  split
  · exact guardTake_power (by decide : errClass 0x03 ≠ 2) _
  · rfl

@[simp] theorem dropUpStep_tick (d : Dev) : (dropUpStep d).tick = d.tick := by
  unfold dropUpStep
  split
  · exact requestCore_tick _
  · rfl

@[simp] theorem dropUpStep_mem (d : Dev) : (dropUpStep d).mem = d.mem := by
  unfold dropUpStep
  split
  · exact requestCore_mem _
  · rfl

@[simp] theorem requestCore_upPending (d : Dev) : (requestCore d).power.upPending = d.power.upPending := by
  unfold requestCore
  split <;> rfl

@[simp] theorem dropUpStep_upPending (d : Dev) : (dropUpStep d).power.upPending = false := by
  unfold dropUpStep
  split
  · exact requestCore_upPending _
  · rename_i h
    simpa using h

theorem phase_of_inExecute {d : Dev} (h : inExecute d = true) : d.tick.phase = .execute := by
  simp only [inExecute, Bool.and_eq_true, decide_eq_true_eq] at h
  exact h.2

theorem inputClose_closes {s : State} (halive : alive s.dev = true) (hexec : inExecute s.dev = true)
    (hin : s.dev.tick.inputOpen = true) : Completes .inputClose s (fun t => t.pending = s.pending ∧
      t.dev.tick.inputOpen = false ∧ t.dev.tick.admitOpen = s.dev.tick.admitOpen ∧ t.dev.tick.phase = .execute ∧
      t.dev.tick.time = max s.dev.tick.time (s.dev.tick.start + inputCloseNs s.dev) ∧
      t.dev.power.upPending = false ∧ SameMemory s t) := by
  refine completes_of_onlyIf (fun d => alive d && inExecute d && d.tick.inputOpen) rfl
    (by rw [halive, hexec, hin]; rfl) ?_
  refine ⟨rfl, ?_, ?_, ?_, ?_, ?_, ?_⟩
  · rw [dvfsShort_tick, dropUpStep_tick]
  · rw [dvfsShort_tick, dropUpStep_tick, advanceTo_admitOpen]
  · rw [dvfsShort_tick, dropUpStep_tick, advanceTo_phase, phase_of_inExecute hexec]
  · rw [dvfsShort_tick, dropUpStep_tick, advanceTo_reached]
  · rw [dvfsShort_power, dropUpStep_upPending]
  · exact (dvfsShort_mem _).trans ((dropUpStep_mem _).trans (advanceTo_mem _ _))

theorem admitClose_closes {s : State} (halive : alive s.dev = true) (hexec : inExecute s.dev = true)
    (hin : s.dev.tick.inputOpen = false) (hadmit : s.dev.tick.admitOpen = true) :
    Completes .admitClose s (fun t => t.pending = s.pending ∧ t.dev.tick.admitOpen = false ∧
        t.dev.tick.phase = .execute ∧
        t.dev.tick.time = max s.dev.tick.time (s.dev.tick.start + admitCloseNs s.dev) ∧
        t.dev.ent.ledgers = s.dev.ent.ledgers.map
          (fun g => if g.tick ≤ s.dev.tick.num + 1 then { g with isOpen := false } else g) ∧
        RegsExcept [] s t ∧ SameMemory s t) := by
  refine completes_of_onlyIf (fun d => alive d && inExecute d && d.tick.admitOpen && !d.tick.inputOpen) rfl
    (by rw [halive, hexec, hin, hadmit]; rfl) ?_
  refine ⟨rfl, rfl, (advanceTo_phase _ _).trans (phase_of_inExecute hexec), advanceTo_reached _ _, ?_,
    regsExcept_of_regs [] (advanceTo_regs _ _), advanceTo_mem _ _⟩
  dsimp only [closeLedger]
  rw [advanceTo_ent, advanceTo_num]

/-! ### Drain start -/

theorem markLate_tick (d : Dev) : (markLate d).tick = d.tick := by
  unfold markLate
  dsimp only
  split <;> rfl

theorem markLate_keeper (d : Dev) : (markLate d).keeper = d.keeper := by
  unfold markLate
  dsimp only
  split <;> rfl

theorem markLate_none {d : Dev} (h : lateCells d d.tick.num = []) :
    (markLate d).ent.late = d.ent.late.filter (fun l => !l.taken) := by
  unfold markLate
  dsimp only
  rw [if_pos (by rw [h]; rfl)]

theorem markLate_some {d : Dev} (h : lateCells d d.tick.num ≠ []) :
    ∃ l ∈ (markLate d).ent.late, l.tick = d.tick.num ∧ l.cells = lateCells d d.tick.num := by
  unfold markLate
  dsimp only
  rw [if_neg (by rwa [List.isEmpty_iff])]
  exact ⟨_, List.mem_append_right _ List.mem_cons_self, rfl, rfl⟩

/-- The cells that a tick leaves late do not depend on the time or the phase. -/
theorem lateCells_congr {d e : Dev} (hent : e.ent = d.ent) (hregs : e.regs = d.regs) (n : Nat) :
    lateCells e n = lateCells d n := by
  have hresult (r : Req) : resultCell e r = resultCell d r := by
    unfold resultCell homeCell
    simp only [regFld, getReg_congr hregs]
  unfold lateCells cellDone
  simp only [hent, hresult]

theorem retrainsDue_aside (P : Nat → Bool) (d : Dev) : Aside P d (retrainsDue d) :=
  Aside.foldl _ _ (fun d p _ => Aside.ite (fun _ => Aside.setPort d p _) (fun _ => .refl d)) d

/-- The command budget of a drain phase starts anew, and gated writes may be refused again (R73). -/
def drainReset (d : Dev) : Dev :=
  { d with ent := { d.ent with cmdUsed := 0, cmdRing := none, cmdBlocked := [] }, mem := { d.mem with gateRefused := [] } }

/-- What follows the deferred writes at a drain start leaves the tick alone, and the registers in which it shows. -/
theorem drainWork_aside (d : Dev) : Aside tickReg d (drainBegins (attemptDue (drainReset (retrainsDue d)))) := by
  have hreset (e : Dev) : Aside tickReg e (attemptDue (drainReset e)) := Aside.of_units
  exact ((retrainsDue_aside tickReg d).trans (hreset _)).trans (Aside.drainBegins _)

/-- One deferred write of the credit scale stores it, at most 256 (R58). -/
theorem applyDeferred_scale {d : Dev} {v : W32} (h : d.keeper.deferred = [(R.ENT_CREDIT_SCALE, v)]) :
    (getReg (applyDeferred d) R.ENT_CREDIT_SCALE).toNat = min (v.toNat % 512) 256 := by
  have happly : applyDeferred d = setReg { d with keeper := { d.keeper with deferred := [] } } R.ENT_CREDIT_SCALE
      (BitVec.ofNat 32 (clamp256 (fld v 8 0))) := by
    rw [applyDeferred, h]
    rfl
  have hfld : fld v 8 0 = v.toNat % 512 := by simp [fld]
  rw [happly, getReg_setReg_self, hfld, clamp256, BitVec.toNat_ofNat]
  omega

/-- The device at the instant of its drain start, in the drain phase. -/
def drainEntered (d : Dev) : Dev :=
  { advanceTo (d.tick.start + drainStartNs d) d with
    tick := { (advanceTo (d.tick.start + drainStartNs d) d).tick with phase := .drain } }

theorem lateCells_drainEntered (d : Dev) (n : Nat) : lateCells (drainEntered d) n = lateCells d n :=
  lateCells_congr (advanceTo_ent _ d) (advanceTo_regs _ d) n

theorem drainEntered_rest (d : Dev) : (drainEntered d).tick.phase = .drain ∧
    (drainEntered d).tick.num = d.tick.num ∧ (drainEntered d).ent = d.ent ∧ (drainEntered d).keeper = d.keeper ∧
    (drainEntered d).tick.time = max d.tick.time (d.tick.start + drainStartNs d) :=
  ⟨rfl, advanceTo_num _ d, advanceTo_ent _ d, advanceTo_keeper _ d, advanceTo_reached _ d⟩

/-- The device after its drain start. -/
def drainStarted (d : Dev) : Dev :=
  drainBegins (attemptDue (drainReset (retrainsDue (applyDeferred (markLate (drainEntered d))))))

theorem drainStarted_aside (d : Dev) : Aside tickReg (applyDeferred (markLate (drainEntered d))) (drainStarted d) :=
  drainWork_aside _

theorem drainStart_begins {s : State} (halive : alive s.dev = true) (hexec : inExecute s.dev = true)
    (hadmit : s.dev.tick.admitOpen = false) : Completes .drainStart s (fun t => t.pending = s.pending ∧
      t.dev.tick.phase = .drain ∧ t.dev.keeper.deferred = [] ∧
      t.dev.tick.time = max s.dev.tick.time (s.dev.tick.start + drainStartNs s.dev) ∧
      (lateCells s.dev s.dev.tick.num = [] → t.dev.ent.late = s.dev.ent.late.filter (fun l => !l.taken)) ∧
      (lateCells s.dev s.dev.tick.num ≠ [] → ∃ l ∈ t.dev.ent.late, l.tick = s.dev.tick.num ∧
        l.cells = lateCells s.dev s.dev.tick.num) ∧
      ∀ v, s.dev.keeper.deferred = [(R.ENT_CREDIT_SCALE, v)] →
        (getReg t.dev R.ENT_CREDIT_SCALE).toNat = min (v.toNat % 512) 256) := by
  refine completes_of_onlyIf (f := drainStarted) (fun d => alive d && inExecute d && !d.tick.admitOpen) rfl
    (by rw [halive, hexec, hadmit]; rfl) ?_
  obtain ⟨hphase, hnum, hent, hkeeper, htime⟩ := drainEntered_rest s.dev
  have hlate := lateCells_drainEntered s.dev s.dev.tick.num
  have hwork := drainStarted_aside s.dev
  obtain ⟨htick, hlist, hdefer⟩ := applyDeferred_rest (markLate (drainEntered s.dev))
  dsimp only
  rw [hwork.tick, hwork.late, hwork.deferred, hwork.regs _ rfl, htick, hlist, hdefer, markLate_tick]
  refine ⟨rfl, hphase, rfl, htime, fun hnone => ?_, fun hsome => ?_, fun v hv => ?_⟩
  · rw [← hent]
    exact markLate_none (by rw [hnum, hlate, hnone])
  · rw [← hlate, ← hnum]
    exact markLate_some (by rwa [hnum, hlate])
  · exact applyDeferred_scale (by rw [markLate_keeper, hkeeper, hv])

/-! ### Beacon start -/

theorem capCheck_aside (d : Dev) : Aside tickReg d (capCheck d) :=
  Aside.ite (fun _ => (Aside.bump rfl d).trans Aside.of_units) (fun _ => .refl d)

/-- The keeper's load is shown, and nothing else of the tick changes. -/
theorem keeperLoad_aside (busy : Nat) (d : Dev) :
    Aside tickReg (setReg d R.KPR_BUSY (BitVec.ofNat 32 (min busy 1000))) (keeperLoad busy d) := by
  have hload (e : Dev) (v : W32) : Aside tickReg e (setReg e R.KPR_LOAD v) := Aside.setReg rfl e v
  exact Aside.ite (fun _ => (Aside.bump rfl _).trans (hload _ _))
    (fun _ => Aside.ite (fun _ => hload _ _) (fun _ => hload _ _))

theorem queenBeacon_aside (d : Dev) : ∃ budgets,
    Aside tickReg { d with tick := { d.tick with budgets := budgets } } (queenBeacon d) :=
  ⟨_, ((Aside.wgtReceiveActs _ _ _).trans (Aside.forwardBeacon _ _)).trans (Aside.retireActs _ _)⟩

theorem telUnwatched (P : Nat → Bool) (d : Dev) (t : Telemetry) : Aside P d { d with tel := t } := Aside.of_units

theorem queenBooks_aside (d : Dev) : Aside tickReg d (queenBooks d) := by
  have hseen (f : Nat → W32) : Aside tickReg d ((List.range 16).foldl (fun d m => setReg d (R.TEL_RPT_SEEN m) (f m)) d) := by
    refine Aside.foldl _ _ (fun d m hm => Aside.setReg ?_ d _) d
    have hm := List.mem_range.1 hm
    refine tickReg_eq_false ?_ ?_ ?_ <;> simp only [R.TEL_RPT_SEEN] <;> omega
  exact Aside.ite (fun _ => .refl d) (fun _ => (hseen _).trans (telUnwatched _ _ _))

theorem snapshot_aside (d : Dev) : Aside tickReg d (snapshot d) := by
  have hset (o : Nat) (hlow : 0x7000 ≤ o) (v : W32) (d : Dev) : Aside tickReg d (setReg d o v) :=
    Aside.setReg (tickReg_eq_false (by omega) (by omega) (by omega)) d v
  have hstall (f : Nat → W32) (d : Dev) : Aside tickReg d
      ((List.range 256).foldl (fun d i => setReg d (R.TEL_STALL (i / 4) (i % 4)) (f i)) d) :=
    Aside.foldl _ _ (fun d i _ => hset _ (by simp only [R.TEL_STALL]; omega) _ d) d
  unfold snapshot
  refine Aside.trans ?_ (telUnwatched _ _ _)
  refine Aside.trans ?_ (hstall _ _)
  iterate 14 refine Aside.trans ?_ (hset _ (by decide) _ _)
  exact .refl d

/-- The device at the instant of its beacon start, in the beacon phase. -/
def beaconEntered (d : Dev) : Dev :=
  { advanceTo (d.tick.start + beaconStartNs d) d with
    tick := { (advanceTo (d.tick.start + beaconStartNs d) d).tick with phase := .beacon } }

/-- The new power mean has begun, and the cap is looked at. -/
def beaconMeasured (d : Dev) : Dev := capCheck (takeTickPower (serveResends (drainEnds (beaconEntered d))))

/-- A worker's report or a queen's beacon is sent. -/
def beaconSent (d : Dev) : Dev := if role d = 2 then sendReport (!d.tick.member) d else queenBeacon d

/-- The interval's books are closed, and the snapshot is taken where it is due. -/
def beaconBooked (d : Dev) : Dev :=
  let d := newInterval (queenBooks (accumulate d))
  if snapshotDue d then snapshot d else d

theorem beaconMeasured_rest (d : Dev) : (beaconMeasured d).tick = (beaconEntered d).tick ∧
    (beaconMeasured d).power.samples = 0 ∧ (beaconMeasured d).power.sumMw = 0 := by
  have hdrain := (Aside.drainEnds (beaconEntered d)).trans (Aside.serveResends _)
  unfold beaconMeasured
  generalize serveResends (drainEnds (beaconEntered d)) = e at hdrain
  have hpower : (takeTickPower e).tick = e.tick := rfl
  have hcap := capCheck_aside (takeTickPower e)
  exact ⟨hcap.tick.trans (hpower.trans hdrain.tick), hcap.samples, hcap.sumMw⟩

theorem beaconSent_rest (d : Dev) : (beaconSent d).tick.phase = d.tick.phase ∧ (beaconSent d).tick.time = d.tick.time ∧
    (beaconSent d).power.samples = d.power.samples ∧ (beaconSent d).power.sumMw = d.power.sumMw ∧
    getReg (beaconSent d) R.KPR_BUSY = getReg d R.KPR_BUSY := by
  unfold beaconSent
  split
  · have h : Aside tickReg d (sendReport (!d.tick.member) d) := Aside.sendReport rfl _ d
    exact ⟨congrArg TickUnit.phase h.tick, congrArg TickUnit.time h.tick, h.samples, h.sumMw, h.regs _ rfl⟩
  · obtain ⟨budgets, h⟩ := queenBeacon_aside d
    exact ⟨by rw [h.tick], by rw [h.tick], h.samples, h.sumMw, h.regs _ rfl⟩

theorem beaconBooked_aside (d : Dev) : Aside tickReg d (beaconBooked d) := by
  have hbooks : Aside tickReg d (newInterval (queenBooks (accumulate d))) :=
    ((telUnwatched _ d _).trans (queenBooks_aside _)).trans (telUnwatched _ _ _)
  exact Aside.ite (fun _ => hbooks.trans (snapshot_aside _)) (fun _ => hbooks)

/-- The device after its beacon start. -/
def beaconStarted (busy : Nat) (d : Dev) : Dev := beaconBooked (beaconSent (keeperLoad busy (beaconMeasured d)))

theorem beaconStart_begins {s : State} {busy : Nat} (halive : alive s.dev = true) (hdrain : inDrain s.dev = true) :
    Completes (.beaconStart busy) s (fun t => t.pending = s.pending ∧
      t.dev.tick.phase = .beacon ∧ t.dev.tick.time = max s.dev.tick.time (s.dev.tick.start + beaconStartNs s.dev) ∧
      (getReg t.dev R.KPR_BUSY).toNat = min busy 1000 ∧ t.dev.power.samples = 0 ∧ t.dev.power.sumMw = 0) := by
  refine completes_of_onlyIf (f := beaconStarted busy) (fun d => alive d && inDrain d) rfl
    (by rw [halive, hdrain]; rfl) ?_
  have hphase : (beaconEntered s.dev).tick.phase = .beacon := rfl
  have htime : (beaconEntered s.dev).tick.time = max s.dev.tick.time (s.dev.tick.start + beaconStartNs s.dev) :=
    advanceTo_reached _ s.dev
  obtain ⟨htick, hsamples, hsum⟩ := beaconMeasured_rest s.dev
  have hload := keeperLoad_aside busy (beaconMeasured s.dev)
  obtain ⟨hsphase, hstime, hssamples, hssum, hsbusy⟩ := beaconSent_rest (keeperLoad busy (beaconMeasured s.dev))
  have hbook := beaconBooked_aside (beaconSent (keeperLoad busy (beaconMeasured s.dev)))
  have hlast : (keeperLoad busy (beaconMeasured s.dev)).tick = (beaconEntered s.dev).tick := by
    rw [hload.tick, setReg_tick, htick]
  have hbusy : getReg (beaconStarted busy s.dev) R.KPR_BUSY = BitVec.ofNat 32 (min busy 1000) :=
    calc getReg (beaconStarted busy s.dev) R.KPR_BUSY
        = getReg (beaconSent (keeperLoad busy (beaconMeasured s.dev))) R.KPR_BUSY := hbook.regs _ rfl
      _ = getReg (keeperLoad busy (beaconMeasured s.dev)) R.KPR_BUSY := hsbusy
      _ = BitVec.ofNat 32 (min busy 1000) := (hload.regs _ rfl).trans (getReg_setReg_self _ _ _)
  dsimp only
  refine ⟨rfl, ?_, ?_, ?_, ?_, ?_⟩
  · rw [beaconStarted, hbook.tick, hsphase, hlast, hphase]
  · rw [beaconStarted, hbook.tick, hstime, hlast, htime]
  · rw [hbusy, BitVec.toNat_ofNat]
    omega
  · rw [beaconStarted, hbook.samples, hssamples, hload.samples, setReg_power, hsamples]
  · rw [beaconStarted, hbook.sumMw, hssum, hload.sumMw, setReg_power, hsum]

/-- Settles O27: each boundary brings the timebase to its offset and enters its phase; what the units do then leaves the tick
alone. -/
theorem tickPhasesClose : Obligations.TickPhasesClose := by
  unfold Obligations.TickPhasesClose
  exact fun s halive => ⟨inputClose_closes halive, admitClose_closes halive, drainStart_begins halive,
    fun _ => beaconStart_begins halive⟩

end Sys2Proof.Machine
end

section
/-!
PROOFS. Tick start (R35, R36, R52, R338): the tick runs with its number and start, the latched points move up, the newest
ledger has the base and credit of its point, and the express cells are free again.
-/

namespace Sys2Proof.Machine

open Sys2Proof

/-! ### The credit of a ledger (R35) -/

theorem ledgerCredit_le_base (d : Dev) (f n b : Nat) (hb : b ≤ 256) (hs : ledgerScale d n ≤ 256) :
    ledgerCredit d f n b ≤ ledgerBase d f := by
  unfold ledgerCredit
  refine Nat.div_le_of_le_mul ?_
  calc ledgerBase d f * b * ledgerScale d n ≤ ledgerBase d f * 256 * 256 := Nat.mul_le_mul (Nat.mul_le_mul_left _ hb) hs
    _ = 65536 * ledgerBase d f := by rw [Nat.mul_assoc, Nat.mul_comm]

/-- A table entry whose key a filter lets pass is found in the rest. -/
theorem tblFind_filter_key {α : Type} (p : Nat → Bool) (t : Tbl α) {x : Nat} (h : p x = true) :
    tblFind (t.filter (fun e => p e.1)) x = tblFind t x := by
  induction t with
  | nil => rfl
  | cons e t ih =>
    obtain ⟨k, v⟩ := e
    rw [List.filter_cons]
    by_cases hk : k = x
    · rw [if_pos (by rw [hk]; exact h), tblFind, if_pos hk, tblFind, if_pos hk]
    · split
      · rw [tblFind, if_neg hk, ih, tblFind, if_neg hk]
      · rw [ih, tblFind, if_neg hk]

/-- Two devices that agree in all that the ledger opened at S(n) is computed from. -/
structure LedgerAlike (n : Nat) (d e : Dev) : Prop where
  regs : ∀ o, o ≠ R.LNK_TICKIN_MISS_CNT → o ≠ R.PWR_OP_SCHED → o ≠ R.ENT_OP_FREQ → getReg e o = getReg d o
  lateTick : e.ent.lateTick = d.ent.lateTick
  lateEnd : e.ent.lateEnd = d.ent.lateEnd
  capLeft : e.power.capLeft = d.power.capLeft
  budgets : tblFind e.tick.budgets (n + 2) = tblFind d.tick.budgets (n + 2)

namespace LedgerAlike

variable {n : Nat} {a b c d e : Dev}

theorem trans (hab : LedgerAlike n a b) (hbc : LedgerAlike n b c) : LedgerAlike n a c :=
  ⟨fun o h1 h2 h3 => (hbc.regs o h1 h2 h3).trans (hab.regs o h1 h2 h3), hbc.lateTick.trans hab.lateTick,
    hbc.lateEnd.trans hab.lateEnd, hbc.capLeft.trans hab.capLeft, hbc.budgets.trans hab.budgets⟩

theorem base (h : LedgerAlike n d e) (f : Nat) : ledgerBase e f = ledgerBase d f := by
  have hreg {o : Nat} (h1 : o ≠ R.LNK_TICKIN_MISS_CNT) (h2 : o ≠ R.PWR_OP_SCHED) (h3 : o ≠ R.ENT_OP_FREQ) := h.regs o h1 h2 h3
  unfold ledgerBase ledgerRaw regFld
  rw [hreg (o := R.TICK_PERIOD) (by decide) (by decide) (by decide),
    hreg (o := R.TICK_DRAIN_LEN) (by decide) (by decide) (by decide),
    hreg (o := R.TICK_BEACON_LEN) (by decide) (by decide) (by decide),
    hreg (o := R.TICK_INPUT_CLOSE) (by decide) (by decide) (by decide),
    hreg (o := R.ENT_SLACK_CFG) (by decide) (by decide) (by decide)]

theorem scale (h : LedgerAlike n d e) : ledgerScale e n = ledgerScale d n := by
  unfold ledgerScale regFld
  rw [h.regs R.ENT_CREDIT_SCALE (by decide) (by decide) (by decide),
    h.regs R.ENT_LATE_CFG (by decide) (by decide) (by decide),
    h.regs R.PWR_CAP_CFG (by decide) (by decide) (by decide), h.lateTick, h.lateEnd, h.capLeft]

theorem credit (h : LedgerAlike n d e) (f b : Nat) : ledgerCredit e f n b = ledgerCredit d f n b := by
  rw [ledgerCredit, h.base, h.scale, ledgerCredit]

theorem budgetFor (h : LedgerAlike n d e) : budgetFor e (n + 2) = Machine.budgetFor d (n + 2) := by
  have hindex : dieIndex e = dieIndex d := by
    rw [dieIndex, h.regs _ (by decide) (by decide) (by decide), dieIndex]
  have hreg : getReg e (R.TICK_BUDGET ((dieIndex d).toNat / 2)) = getReg d (R.TICK_BUDGET ((dieIndex d).toNat / 2)) := by
    have := (dieIndex d).isLt
    refine h.regs _ ?_ ?_ ?_ <;>
      simp only [R.TICK_BUDGET, R.LNK_TICKIN_MISS_CNT, R.PWR_OP_SCHED, R.ENT_OP_FREQ] <;> omega
  unfold Machine.budgetFor role regBudget regFld
  rw [h.budgets, hindex, hreg, h.regs R.TICK_CFG (by decide) (by decide) (by decide)]

end LedgerAlike

/-! ### Opening ledgers -/

/-- The ledger of tick t that a device opens at S(n). -/
def openedLedger (t n budget : Nat) (d : Dev) : Ledger :=
  let f := ledgerFreqOf (regFld d R.PWR_OP_SCHED 3 2) (regFld d R.PWR_OP_SCHED 5 4)
  { tick := t, credit := ledgerCredit d f n budget, base := ledgerBase d f, slack := ledgerRaw d f - ledgerBase d f }

theorem openLedger_ledgers (t n budget : Nat) (d : Dev) :
    (openLedger t n budget d).ent.ledgers = d.ent.ledgers ++ [openedLedger t n budget d] := rfl

theorem getReg_openLedger (t n budget : Nat) (d : Dev) {o : Nat} (ho : o ≠ R.ENT_OP_FREQ) :
    getReg (openLedger t n budget d) o = getReg d o := getReg_setReg_ne d _ _ _ ho

theorem openLedger_alike (t n budget : Nat) (d : Dev) : LedgerAlike n d (openLedger t n budget d) :=
  ⟨fun _ _ _ h => getReg_openLedger t n budget d h, rfl, rfl, rfl, rfl⟩

/-- The ledgers of ticks before n are gone, and at a worker's first tick that of n + 1 is open at no credit. -/
def beforeNewest (first : Bool) (n : Nat) (d : Dev) : Dev :=
  let e := { d with ent := { d.ent with
    ledgers := if first then [] else d.ent.ledgers.filter (fun g => decide (n ≤ g.tick)) } }
  if first ∧ role e = 2 then openLedger (n + 1) n 0 e else e

theorem openLedgers_eq (first : Bool) (n : Nat) (d : Dev) : openLedgers first n d =
    openLedger (n + 2) n (budgetFor (beforeNewest first n d) (n + 2)) (beforeNewest first n d) := rfl

theorem beforeNewest_rest (first : Bool) (n : Nat) (d : Dev) : LedgerAlike n d (beforeNewest first n d) ∧
    (beforeNewest first n d).tick = d.tick ∧
    getReg (beforeNewest first n d) R.PWR_OP_SCHED = getReg d R.PWR_OP_SCHED := by
  have hcleared (ls : List Ledger) : LedgerAlike n d { d with ent := { d.ent with ledgers := ls } } :=
    ⟨fun _ _ _ _ => rfl, rfl, rfl, rfl, rfl⟩
  unfold beforeNewest
  generalize (if first = true then [] else d.ent.ledgers.filter (fun g => decide (n ≤ g.tick))) = ls
  dsimp only
  split
  · exact ⟨(hcleared _).trans (openLedger_alike _ _ _ _), rfl, getReg_openLedger _ _ _ _ (by decide)⟩
  · exact ⟨hcleared _, rfl, rfl⟩

/-- The newest of the ledgers opened at S(n) is that of n + 2. -/
theorem openLedgers_last (first : Bool) (n : Nat) (d : Dev) : (openLedgers first n d).ent.ledgers.getLast? =
    some (openedLedger (n + 2) n (budgetFor (beforeNewest first n d) (n + 2)) (beforeNewest first n d)) := by
  rw [openLedgers_eq, openLedger_ledgers, List.getLast?_concat]

theorem openLedgers_rest (first : Bool) (n : Nat) (d : Dev) : (openLedgers first n d).tick = d.tick ∧
    getReg (openLedgers first n d) R.PWR_OP_SCHED = getReg d R.PWR_OP_SCHED := by
  obtain ⟨-, htick, hsched⟩ := beforeNewest_rest first n d
  rw [openLedgers_eq]
  exact ⟨htick, (getReg_openLedger _ _ _ _ (by decide)).trans hsched⟩

/-! ### The latched points (R338, R341) -/

/-- A step that leaves the tick, the ledgers and the two latched points. -/
structure PointsKept (d e : Dev) : Prop where
  tick : e.tick = d.tick
  ledgers : e.ent.ledgers = d.ent.ledgers
  first : regFld e R.PWR_OP_SCHED 3 2 = regFld d R.PWR_OP_SCHED 3 2
  second : regFld e R.PWR_OP_SCHED 5 4 = regFld d R.PWR_OP_SCHED 5 4

namespace PointsKept

variable {a b c d e : Dev}

theorem trans (hab : PointsKept a b) (hbc : PointsKept b c) : PointsKept a c :=
  ⟨hbc.tick.trans hab.tick, hbc.ledgers.trans hab.ledgers, hbc.first.trans hab.first, hbc.second.trans hab.second⟩

theorem of_aside (h : Aside tickReg d e) : PointsKept d e :=
  ⟨h.tick, h.ledgers, by rw [regFld, h.regs _ rfl, regFld], by rw [regFld, h.regs _ rfl, regFld]⟩

theorem setPoint (r : Nat) (d : Dev) : PointsKept d (setPoint r d) := by
  have hreg : getReg (Machine.setPoint r d) R.PWR_OP_SCHED = setFld (getReg d R.PWR_OP_SCHED) 1 0 r := getReg_setReg_self _ _ _
  refine ⟨rfl, rfl, ?_, ?_⟩ <;> rw [regFld, hreg, regFld] <;>
    exact fld_setFld_ne _ 1 0 _ _ _ (by decide) (by decide) (.inr (by decide))

theorem setUpPending (b : Bool) (p : Nat) (d : Dev) : PointsKept d (setUpPending b p d) := by
  have hreg : getReg (Machine.setUpPending b p d) R.PWR_OP_SCHED = setBit (getReg d R.PWR_OP_SCHED) 6 b :=
    getReg_setReg_self _ _ _
  refine ⟨rfl, rfl, ?_, ?_⟩ <;> rw [regFld, hreg, regFld] <;>
    exact fld_setBit _ 6 _ _ b (by decide) (.inl (by decide))

theorem requestCore (d : Dev) : PointsKept d (requestCore d) := of_aside (Aside.requestCore _ d)

theorem dvfsMiss (target : Nat) (abandoned : Bool) (d : Dev) : PointsKept d (dvfsMiss target abandoned d) := by
  have hcnt : tickReg (if abandoned then R.PWR_DVFS_ABANDON_CNT else R.PWR_DVFS_DEFER_CNT) = false := by
    cases abandoned <;> rfl
  exact of_aside ((Aside.bump hcnt d).trans (Aside.report reportsUnwatched_tickReg _ _))

theorem power (d : Dev) (w : Power) : PointsKept d { d with power := w } := ⟨rfl, rfl, rfl, rfl⟩

theorem switchAt (p : Nat) (d : Dev) : PointsKept d (switchAt p d) := by
  have hhold := power d { d.power with leftPoint := none, holdMv := 0 }
  have hmiss (target : Nat) (abandoned : Bool) := hhold.trans (dvfsMiss target abandoned _)
  unfold Machine.switchAt holdVolt
  dsimp only
  generalize ({ d with power := { d.power with leftPoint := none, holdMv := 0 } } : Dev) = e at hhold hmiss
  split
  · split
    · split
      · exact (hhold.trans (setPoint _ e)).trans (requestCore _)
      · exact (((hmiss p false).trans (setUpPending true p _)).trans (power _ _)).trans (requestCore _)
    · exact (hmiss p false).trans (requestCore _)
  · split
    · split
      · exact ((hhold.trans (setPoint p e)).trans (power _ _)).trans (requestCore _)
      · exact (hmiss p true).trans (requestCore _)
    · exact hhold.trans (requestCore e)

end PointsKept

/-! ### The start of a tick -/

/-- The device at S(n), with the tick running. -/
def tickEntered (d : Dev) : Dev :=
  let n := nextNum d
  let first := !d.tick.running
  let alone := d.tick.missed || (decide (role d = 2) && decide (d.tick.lastBeacon ≠ n))
  let d := countEdge (advanceTo (nextStart d) d)
  { d with tick := { d.tick with
    running := true, start := nextStart d, num := n, phase := .execute, admitOpen := true, inputOpen := true,
    member := d.tick.member || first, missed := false, alone := alone, edgeSeen := false,
    echoAge := d.tick.echoAge + 1,
    budgets := d.tick.budgets.filter (fun e => decide (n + 2 ≤ e.1)) } }

/-- The points latched and the ledgers opened. -/
def tickOpened (d : Dev) : Dev :=
  capTick (openLedgers (!d.tick.running) (nextNum d) (setUpPending false 0 (latchPoint (tickEntered d))))

/-- The switch due at S(n) decided, and the waves of the tick begun. -/
def tickSwitched (d : Dev) : Dev :=
  let e := switchAt (regFld (countEdge (advanceTo (nextStart d) d)) R.PWR_OP_SCHED 3 2) (tickOpened d)
  { e with
    tick := { e.tick with startPoint := pointInForce e, waves := startWaves e, fromWinter := false }
    tel := { e.tel with stallTick := [] } }

theorem tickStart_eq (d : Dev) :
    tickStart d = tickOutRise (wgtActivate (nextNum d) (expressReset (retriesAnew (tickSwitched d)))) := rfl

/-- The edge of TICK_IN is counted, and nothing of a tick's start changes with it. -/
theorem countEdge_rest (d : Dev) : (countEdge d).tick = d.tick ∧ (countEdge d).ent = d.ent ∧
    (countEdge d).power = d.power ∧ ∀ o, o ≠ R.LNK_TICKIN_MISS_CNT → getReg (countEdge d) o = getReg d o := by
  unfold countEdge
  split
  · exact ⟨rfl, rfl, rfl, fun o ho => getReg_setReg_ne d _ _ o ho⟩
  · exact ⟨rfl, rfl, rfl, fun _ _ => rfl⟩

/-- The instant S(n) reached and the edge counted: the start of the next tick is where it was. -/
theorem startReached_rest (d : Dev) : ∃ e, e = countEdge (advanceTo (nextStart d) d) ∧ nextStart e = nextStart d ∧
    e.tick.time = max d.tick.time (nextStart d) ∧ e.tick.budgets = d.tick.budgets ∧ e.ent = d.ent ∧ e.power = d.power ∧
    ∀ o, o ≠ R.LNK_TICKIN_MISS_CNT → getReg e o = getReg d o := by
  obtain ⟨htick, hent, hpower, hreg⟩ := countEdge_rest (advanceTo (nextStart d) d)
  obtain ⟨slew, age, h⟩ := advanceTo_eq_time (nextStart d) d
  have hkept (o : Nat) (ho : o ≠ R.LNK_TICKIN_MISS_CNT) :
      getReg (countEdge (advanceTo (nextStart d) d)) o = getReg d o :=
    (hreg o ho).trans (getReg_congr (advanceTo_regs _ d) o)
  have hclock : (countEdge (advanceTo (nextStart d) d)).tick =
      { d.tick with time := max d.tick.time (nextStart d), slew := slew, slewAge := age } := htick.trans (by rw [h])
  refine ⟨_, rfl, ?_, by rw [hclock], by rw [hclock], hent.trans (advanceTo_ent _ d), hpower.trans (advanceTo_power _ d), hkept⟩
  rw [nextStart, hclock, periodNs, hkept _ (by decide), nextStart, periodNs]

theorem tickEntered_rest (d : Dev) : (tickEntered d).tick.running = true ∧ (tickEntered d).tick.num = nextNum d ∧
    (tickEntered d).tick.start = nextStart d ∧ (tickEntered d).tick.time = max d.tick.time (nextStart d) ∧
    (tickEntered d).tick.phase = .execute ∧ (tickEntered d).tick.admitOpen = true ∧
    (tickEntered d).tick.inputOpen = true := by
  obtain ⟨e, he, hstart, htime, -, -, -, -⟩ := startReached_rest d
  unfold tickEntered
  rw [← he]
  exact ⟨rfl, rfl, hstart, htime, rfl, rfl, rfl⟩

theorem tickEntered_alike (d : Dev) : LedgerAlike (nextNum d) d (tickEntered d) ∧
    getReg (tickEntered d) R.PWR_OP_SCHED = getReg d R.PWR_OP_SCHED := by
  obtain ⟨e, he, -, -, hbudgets, hent, hpower, hreg⟩ := startReached_rest d
  unfold tickEntered
  rw [← he]
  refine ⟨⟨fun o h _ _ => hreg o h, congrArg Entrance.lateTick hent, congrArg Entrance.lateEnd hent,
    congrArg Power.capLeft hpower, ?_⟩, hreg _ (by decide)⟩
  refine Eq.trans ?_ (congrArg (tblFind · (nextNum d + 2)) hbudgets)
  exact tblFind_filter_key (fun k => decide (nextNum d + 2 ≤ k)) e.tick.budgets (by simp)

/-- The points latched at S(n): the second has become the first, and PWR_OP_NEXT the second. -/
theorem latchPoint_points (d : Dev) : regFld (latchPoint d) R.PWR_OP_SCHED 3 2 = regFld d R.PWR_OP_SCHED 5 4 ∧
    regFld (latchPoint d) R.PWR_OP_SCHED 5 4 = regFld d R.PWR_OP_NEXT 1 0 := by
  have hreg : getReg (latchPoint d) R.PWR_OP_SCHED = setFld (setFld (getReg d R.PWR_OP_SCHED) 3 2
      (fld (getReg d R.PWR_OP_SCHED) 5 4)) 5 4 (regFld d R.PWR_OP_NEXT 1 0) := getReg_setReg_self _ _ _
  have hsecond := fld_lt (getReg d R.PWR_OP_SCHED) 5 4
  have hnext := fld_lt (getReg d R.PWR_OP_NEXT) 1 0
  constructor <;> rw [regFld, hreg]
  · rw [fld_setFld_ne _ 5 4 _ _ _ (by decide) (by decide) (.inl (by decide)),
      fld_setFld_self _ 3 2 _ (by decide) (by decide)]
    exact Nat.mod_eq_of_lt hsecond
  · rw [fld_setFld_self _ 5 4 _ (by decide) (by decide)]
    exact Nat.mod_eq_of_lt hnext

/-- Latching leaves what the ledger is computed from, its points apart. -/
theorem latched_alike (n : Nat) (d : Dev) : LedgerAlike n d (setUpPending false 0 (latchPoint d)) :=
  ⟨fun o _ h _ => (getReg_setReg_ne _ _ _ o h).trans (getReg_setReg_ne d _ _ o h), rfl, rfl, rfl, rfl⟩

/-- The newest ledger opened at S(n) has the base and credit of its latched points. -/
theorem newestLedger_opened {n p1 p2 : Nat} {first : Bool} {d l : Dev} (halike : LedgerAlike n d l)
    (hfirst : regFld l R.PWR_OP_SCHED 3 2 = p1) (hsecond : regFld l R.PWR_OP_SCHED 5 4 = p2) :
    ∃ g, (openLedgers first n l).ent.ledgers.getLast? = some g ∧ g.tick = n + 2 ∧ g.isOpen = true ∧ g.used = [] ∧
      g.base = ledgerBase d (ledgerFreqOf p1 p2) ∧
      g.credit = ledgerCredit d (ledgerFreqOf p1 p2) n (budgetFor d (n + 2)) := by
  obtain ⟨hbefore, -, hsched⟩ := beforeNewest_rest first n l
  have hall := halike.trans hbefore
  have hfreq : ledgerFreqOf (regFld (beforeNewest first n l) R.PWR_OP_SCHED 3 2)
      (regFld (beforeNewest first n l) R.PWR_OP_SCHED 5 4) = ledgerFreqOf p1 p2 := by
    rw [← hfirst, ← hsecond, regFld, regFld, hsched, regFld, regFld]
  refine ⟨_, openLedgers_last first n l, rfl, rfl, rfl, ?_, ?_⟩
  · rw [openedLedger, hfreq, hall.base]
  · rw [openedLedger, hfreq, hall.credit, hall.budgetFor]

/-- What the tick's start has latched and opened. -/
theorem tickOpened_rest (d : Dev) : (tickOpened d).tick = (tickEntered d).tick ∧
    regFld (tickOpened d) R.PWR_OP_SCHED 3 2 = regFld d R.PWR_OP_SCHED 5 4 ∧
    regFld (tickOpened d) R.PWR_OP_SCHED 5 4 = regFld d R.PWR_OP_NEXT 1 0 ∧
    ∃ g, (tickOpened d).ent.ledgers.getLast? = some g ∧ g.tick = nextNum d + 2 ∧ g.isOpen = true ∧ g.used = [] ∧
      g.base = ledgerBase d (ledgerFreqOf (regFld d R.PWR_OP_SCHED 5 4) (regFld d R.PWR_OP_NEXT 1 0)) ∧
      g.credit = ledgerCredit d (ledgerFreqOf (regFld d R.PWR_OP_SCHED 5 4) (regFld d R.PWR_OP_NEXT 1 0)) (nextNum d)
        (budgetFor d (nextNum d + 2)) := by
  obtain ⟨hentered, hsched⟩ := tickEntered_alike d
  obtain ⟨hfirst, hsecond⟩ := latchPoint_points (tickEntered d)
  obtain ⟨htick, -, hset, hset'⟩ := PointsKept.setUpPending false 0 (latchPoint (tickEntered d))
  have hpoint1 : regFld (setUpPending false 0 (latchPoint (tickEntered d))) R.PWR_OP_SCHED 3 2 =
      regFld d R.PWR_OP_SCHED 5 4 := by rw [hset, hfirst, regFld, hsched, regFld]
  have hpoint2 : regFld (setUpPending false 0 (latchPoint (tickEntered d))) R.PWR_OP_SCHED 5 4 =
      regFld d R.PWR_OP_NEXT 1 0 := by
    rw [hset', hsecond, regFld, hentered.regs _ (by decide) (by decide) (by decide), regFld]
  have hnewest := newestLedger_opened (first := !d.tick.running) (hentered.trans (latched_alike _ _)) hpoint1 hpoint2
  obtain ⟨hotick, hosched⟩ := openLedgers_rest (!d.tick.running) (nextNum d)
    (setUpPending false 0 (latchPoint (tickEntered d)))
  obtain ⟨hctick, hcledgers, hc1, hc2⟩ := PointsKept.power (openLedgers (!d.tick.running) (nextNum d)
    (setUpPending false 0 (latchPoint (tickEntered d)))) (tickOpened d).power
  refine ⟨hctick.trans (hotick.trans htick), hc1.trans (Eq.trans ?_ hpoint1), hc2.trans (Eq.trans ?_ hpoint2), hnewest⟩ <;>
    rw [regFld, hosched, regFld]

/-! ### What follows the opening of the ledgers -/

theorem retriesAnew_aside (d : Dev) : Aside tickReg d (retriesAnew d) :=
  Aside.foldl _ _ (fun d p _ => Aside.setPort d p _) d

theorem tickSwitched_rest (d : Dev) : (tickSwitched d).tick.running = (tickOpened d).tick.running ∧
    (tickSwitched d).tick.num = (tickOpened d).tick.num ∧ (tickSwitched d).tick.start = (tickOpened d).tick.start ∧
    (tickSwitched d).tick.time = (tickOpened d).tick.time ∧ (tickSwitched d).tick.phase = (tickOpened d).tick.phase ∧
    (tickSwitched d).tick.admitOpen = (tickOpened d).tick.admitOpen ∧
    (tickSwitched d).tick.inputOpen = (tickOpened d).tick.inputOpen ∧
    (tickSwitched d).ent.ledgers = (tickOpened d).ent.ledgers ∧
    regFld (tickSwitched d) R.PWR_OP_SCHED 3 2 = regFld (tickOpened d) R.PWR_OP_SCHED 3 2 ∧
    regFld (tickSwitched d) R.PWR_OP_SCHED 5 4 = regFld (tickOpened d) R.PWR_OP_SCHED 5 4 := by
  unfold tickSwitched
  dsimp only
  obtain ⟨htick, hledgers, hfirst, hsecond⟩ :=
    PointsKept.switchAt (regFld (countEdge (advanceTo (nextStart d) d)) R.PWR_OP_SCHED 3 2) (tickOpened d)
  rw [htick]
  exact ⟨rfl, rfl, rfl, rfl, rfl, rfl, rfl, hledgers, hfirst, hsecond⟩

theorem expressReset_eq (d : Dev) : expressReset d = setReg (setReg (setReg (setReg d (R.ENT_EXPRESS_FREE 0) 176)
    (R.ENT_EXPRESS_FREE 1) 176) (R.ENT_EXPRESS_FREE 2) 176) (R.ENT_EXPRESS_FREE 3) 176 := rfl

/-- Every express cell is free at cycle 176, and nothing else of the tick changes. -/
theorem expressReset_rest (d : Dev) : (∀ e, e < 4 → getReg (expressReset d) (R.ENT_EXPRESS_FREE e) = 176) ∧
    (expressReset d).tick = d.tick ∧ (expressReset d).ent = d.ent ∧
    getReg (expressReset d) R.PWR_OP_SCHED = getReg d R.PWR_OP_SCHED := by
  rw [expressReset_eq]
  refine ⟨fun e he => ?_, rfl, rfl, ?_⟩
  · interval_cases e <;> simp [getReg_setReg, R.ENT_EXPRESS_FREE]
  · simp [getReg_setReg, R.ENT_EXPRESS_FREE, R.PWR_OP_SCHED]

theorem tickOutRise_rest (d : Dev) : ∃ out rise, tickOutRise d =
    { d with tick := { d.tick with tickOut := out, tickOutRise := rise } } := by
  unfold tickOutRise
  split
  · exact ⟨_, _, rfl⟩
  · exact ⟨d.tick.tickOut, d.tick.tickOutRise, rfl⟩

/-- The express cells freed and the activations due made: the tick is as it was switched. -/
theorem tickFinished_rest (d : Dev) :
    let t := wgtActivate (nextNum d) (expressReset (retriesAnew (tickSwitched d)))
    t.tick = (tickSwitched d).tick ∧ t.ent.ledgers = (tickSwitched d).ent.ledgers ∧
    getReg t R.PWR_OP_SCHED = getReg (tickSwitched d) R.PWR_OP_SCHED ∧
    ∀ e, e < 4 → getReg t (R.ENT_EXPRESS_FREE e) = 176 := by
  have hretries := retriesAnew_aside (tickSwitched d)
  obtain ⟨hfree, htick, hent, hsched⟩ := expressReset_rest (retriesAnew (tickSwitched d))
  have hact := Aside.wgtActivate (nextNum d) (expressReset (retriesAnew (tickSwitched d)))
  have hcell {e : Nat} (he : e < 4) : tickReg (R.ENT_EXPRESS_FREE e) = true := by
    interval_cases e <;> rfl
  refine ⟨?_, ?_, ?_, fun e he => ?_⟩
  · rw [hact.tick, htick, hretries.tick]
  · rw [hact.ledgers, hent, hretries.ledgers]
  · rw [hact.regs _ rfl, hsched, hretries.regs _ rfl]
  · rw [hact.regs _ (hcell he), hfree e he]

/-- Settles O26: the tick is entered, its points latched and its ledgers opened; the switch, the express cells and the
activations that follow leave all that. -/
theorem tickStartOpensATick : Obligations.TickStartOpensATick := by
  unfold Obligations.TickStartOpensATick
  refine ⟨fun s halive hjoined hjoining hlocked hnext => ?_, ledgerCredit_le_base⟩
  refine completes_of_onlyIf (fun d => alive d && d.tick.joined && !d.tick.joining && locked d &&
    (!d.tick.running || decide (d.tick.phase = .beacon))) rfl ?_ ?_
  · rcases hnext with hnext | hnext <;> simp [halive, hjoined, hjoining, hlocked, hnext]
  dsimp only
  obtain ⟨hrunning, hnum, hstart, htime, hphase, hadmit, hinput⟩ := tickEntered_rest s.dev
  obtain ⟨hotick, hfirst, hsecond, hledger⟩ := tickOpened_rest s.dev
  rw [← hotick] at hrunning hnum hstart htime hphase hadmit hinput
  obtain ⟨hsrunning, hsnum, hsstart, hstime, hsphase, hsadmit, hsinput, hsledgers, hsfirst, hssecond⟩ := tickSwitched_rest s.dev
  obtain ⟨hftick, hfledgers, hfsched, hfree⟩ := tickFinished_rest s.dev
  rw [tickStart_eq]
  obtain ⟨out, rise, hout⟩ := tickOutRise_rest (wgtActivate (nextNum s.dev) (expressReset (retriesAnew (tickSwitched s.dev))))
  generalize wgtActivate (nextNum s.dev) (expressReset (retriesAnew (tickSwitched s.dev))) = t at *
  rw [hout]
  dsimp only
  rw [hftick, hfledgers, hsledgers]
  refine ⟨rfl, hsrunning.trans hrunning, hsnum.trans hnum, hsstart.trans hstart, hstime.trans htime, hsphase.trans hphase,
    hsadmit.trans hadmit, hsinput.trans hinput, ?_, ?_, hledger, hfree⟩
  · rw [← hfirst, ← hsfirst, regFld, regFld, ← hfsched]
    rfl
  · rw [← hsecond, ← hssecond, regFld, regFld, ← hfsched]
    rfl

end Sys2Proof.Machine
end

section
/-!
PROOFS. Copies of an image's blocks into the hive window (R283, R290, R293, R297, R300): what a byte of the hive holds after
a run of copies, and what the copies leave.
-/

namespace Sys2Proof.Machine

open Sys2Proof

/-! ### The blocks of an image -/

/-- Only bytes of hive memory and their damage have changed. -/
def HiveOnly (d e : Dev) : Prop := ∃ h b, e = { d with mem := { d.mem with hive := h, badHive := b } }

theorem HiveOnly.refl (d : Dev) : HiveOnly d d := ⟨_, _, rfl⟩

theorem HiveOnly.trans {a b c : Dev} (hab : HiveOnly a b) (hbc : HiveOnly b c) : HiveOnly a c := by
  obtain ⟨_, _, rfl⟩ := hab
  obtain ⟨_, _, rfl⟩ := hbc
  exact ⟨_, _, rfl⟩

/-- The block of an image that the weight engine copies: the hot block of a layer, or the rotary table (none). Its bytes of
the hive window: -/
def inBlock (d : Dev) (t dest : Nat) (k : Option Nat) (b : Nat) : Prop :=
  match k with
  | some l => let e := layerEntry d t dest l
    e.2.2.1 = true ∧ hvBase d t + e.2.2.2 ≤ b ∧ b < hvBase d t + e.2.2.2 + e.2.1
  | none => let rope := 4096 * regFld d (R.TCX_ROPE_BASE t) 15 0
    rope ≤ b ∧ b < rope + (ropeEntry d t dest).2

/-- The byte of the image that belongs at a place of the block. -/
def blockByte (d : Dev) (t dest : Nat) (k : Option Nat) (b : Nat) : Byte :=
  match k with
  | some l => let e := layerEntry d t dest l
    hbmByteKey d (tenantKey d t) (dest + e.1 + (b - (hvBase d t + e.2.2.2)))
  | none => hbmByteKey d (tenantKey d t) (dest + (ropeEntry d t dest).1 + (b - 4096 * regFld d (R.TCX_ROPE_BASE t) 15 0))

/-- The copy of a block. -/
def copyBlock (t dest : Nat) (k : Option Nat) (d : Dev) : Dev :=
  match k with
  | some l => copyHotLayer t dest l d
  | none => copyRope t dest d

theorem HiveOnly.inBlock {d e : Dev} (h : HiveOnly d e) (t dest : Nat) (k : Option Nat) (b : Nat) :
    inBlock e t dest k b ↔ Machine.inBlock d t dest k b := by
  obtain ⟨_, _, rfl⟩ := h
  cases k <;> exact Iff.rfl

theorem HiveOnly.blockByte {d e : Dev} (h : HiveOnly d e) (t dest : Nat) (k : Option Nat) (b : Nat) :
    blockByte e t dest k b = Machine.blockByte d t dest k b := by
  obtain ⟨_, _, rfl⟩ := h
  cases k <;> rfl

theorem HiveOnly.badHbm {d e : Dev} (h : HiveOnly d e) : e.mem.badHbm = d.mem.badHbm := by
  obtain ⟨_, _, rfl⟩ := h
  rfl

/-! ### One copy -/

theorem hiveWrite_hiveOnly (d : Dev) (a : Nat) (bs : List Byte) : HiveOnly d (hiveWrite d a bs) := ⟨_, _, rfl⟩

/-- With no damaged word in HBM a copy is a write of the hive. -/
theorem copyToHive_eq {d : Dev} (hgood : d.mem.badHbm = []) (t src n dst : Nat) :
    copyToHive t src n dst d = hiveWrite d dst (hbmRead d (tenantKey d t) src n) := by
  have hnone : (hiveWrite d dst (hbmRead d (tenantKey d t) src n)).mem.badHbm = [] := hgood
  unfold copyToHive
  dsimp only
  rw [hnone]
  rfl

theorem hive_copyToHive {d : Dev} (hgood : d.mem.badHbm = []) (t src n dst b : Nat) :
    tblGet 0 (copyToHive t src n dst d).mem.hive b =
      if dst ≤ b ∧ b < dst + n then hbmByteKey d (tenantKey d t) (src + (b - dst)) else tblGet 0 d.mem.hive b := by
  have hlen : (hbmRead d (tenantKey d t) src n).length = n := by simp [hbmRead]
  rw [copyToHive_eq hgood, hive_after_write, hlen]
  split
  · rename_i h
    have hb : b - dst < n := by omega
    simp [hbmRead, List.getD_eq_getElem?_getD, hb]
  · rfl

/-- A block's bytes come from its image; no other byte changes. -/
theorem copyBlock_copies {d : Dev} (hgood : d.mem.badHbm = []) (t dest : Nat) (k : Option Nat) :
    HiveOnly d (copyBlock t dest k d) ∧ ∀ b,
      (inBlock d t dest k b → tblGet 0 (copyBlock t dest k d).mem.hive b = blockByte d t dest k b) ∧
      (¬ inBlock d t dest k b → tblGet 0 (copyBlock t dest k d).mem.hive b = tblGet 0 d.mem.hive b) := by
  have hcopy (src n dst : Nat) : HiveOnly d (copyToHive t src n dst d) := by
    rw [copyToHive_eq hgood]
    exact hiveWrite_hiveOnly d _ _
  cases k with
  | none => exact ⟨hcopy _ _ _, fun b => ⟨fun h => (hive_copyToHive hgood ..).trans (if_pos h),
      fun h => (hive_copyToHive hgood ..).trans (if_neg h)⟩⟩
  | some l =>
    dsimp only [copyBlock, copyHotLayer]
    split
    · rename_i hot
      exact ⟨hcopy _ _ _, fun b => ⟨fun h => (hive_copyToHive hgood ..).trans (if_pos h.2),
        fun h => (hive_copyToHive hgood ..).trans (if_neg fun hin => h ⟨hot, hin⟩)⟩⟩
    · rename_i hcold
      exact ⟨.refl d, fun b => ⟨fun h => absurd h.1 hcold, fun _ => rfl⟩⟩

/-! ### A run of copies -/

/-- A run of copies: of each block, with the place of its image. -/
def copyBlocks (t : Nat) (xs : List (Nat × Option Nat)) (d : Dev) : Dev := xs.foldl (fun d x => copyBlock t x.1 x.2 d) d

theorem copyBlocks_hiveOnly {t : Nat} (xs : List (Nat × Option Nat)) {d : Dev} (hgood : d.mem.badHbm = []) :
    HiveOnly d (copyBlocks t xs d) := by
  induction xs generalizing d with
  | nil => exact .refl d
  | cons x xs ih =>
    have hstep := (copyBlock_copies hgood t x.1 x.2).1
    exact hstep.trans (ih (hstep.badHbm.trans hgood))

/-- A byte that lies in none of the blocks stays. -/
theorem copyBlocks_outside {t b : Nat} (xs : List (Nat × Option Nat)) {d : Dev} (hgood : d.mem.badHbm = [])
    (hout : ∀ x ∈ xs, ¬ inBlock d t x.1 x.2 b) : tblGet 0 (copyBlocks t xs d).mem.hive b = tblGet 0 d.mem.hive b := by
  induction xs generalizing d with
  | nil => rfl
  | cons x xs ih =>
    obtain ⟨hstep, hbytes⟩ := copyBlock_copies hgood t x.1 x.2
    refine (ih (hstep.badHbm.trans hgood) fun y hy => ?_).trans ((hbytes b).2 (hout x List.mem_cons_self))
    rw [hstep.inBlock]
    exact hout y (List.mem_cons_of_mem x hy)

/-- The last block that holds a byte decides it. -/
theorem copyBlocks_last {t b : Nat} (pre : List (Nat × Option Nat)) (x : Nat × Option Nat) (post : List (Nat × Option Nat))
    {d : Dev} (hgood : d.mem.badHbm = []) (hin : inBlock d t x.1 x.2 b) (hout : ∀ y ∈ post, ¬ inBlock d t y.1 y.2 b) :
    tblGet 0 (copyBlocks t (pre ++ x :: post) d).mem.hive b = blockByte d t x.1 x.2 b := by
  have hpre := copyBlocks_hiveOnly (t := t) pre hgood
  obtain ⟨hstep, hbytes⟩ := copyBlock_copies (hpre.badHbm.trans hgood) t x.1 x.2
  have hall := hpre.trans hstep
  have hrun : copyBlocks t (pre ++ x :: post) d = copyBlocks t post (copyBlock t x.1 x.2 (copyBlocks t pre d)) :=
    List.foldl_append
  rw [hrun, copyBlocks_outside post (hall.badHbm.trans hgood) fun y hy => ?_, (hbytes b).1 ((hpre.inBlock ..).2 hin),
    hpre.blockByte]
  rw [hall.inBlock]
  exact hout y hy

/-- Where all blocks that hold a byte agree, they decide it. -/
theorem copyBlocks_agreed {t b : Nat} {v : Byte} (xs : List (Nat × Option Nat)) {d : Dev} (hgood : d.mem.badHbm = [])
    (hin : ∃ x ∈ xs, inBlock d t x.1 x.2 b) (hagree : ∀ x ∈ xs, inBlock d t x.1 x.2 b → blockByte d t x.1 x.2 b = v) :
    tblGet 0 (copyBlocks t xs d).mem.hive b = v := by
  induction xs generalizing d with
  | nil => obtain ⟨x, hx, -⟩ := hin; cases hx
  | cons x xs ih =>
    obtain ⟨hstep, hbytes⟩ := copyBlock_copies hgood t x.1 x.2
    have hgood' := hstep.badHbm.trans hgood
    by_cases hlater : ∃ y ∈ xs, inBlock d t y.1 y.2 b
    · refine ih hgood' ?_ fun y hy hb => ?_
      · obtain ⟨y, hy, hb⟩ := hlater
        exact ⟨y, hy, (hstep.inBlock ..).2 hb⟩
      · rw [hstep.blockByte]
        exact hagree y (List.mem_cons_of_mem x hy) ((hstep.inBlock ..).1 hb)
    · have hhere : inBlock d t x.1 x.2 b := by
        obtain ⟨y, hy, hb⟩ := hin
        rcases List.mem_cons.1 hy with rfl | hy
        · exact hb
        · exact absurd ⟨y, hy, hb⟩ hlater
      have hrest : ∀ y ∈ xs, ¬ inBlock (copyBlock t x.1 x.2 d) t y.1 y.2 b := fun y hy hb =>
        hlater ⟨y, hy, (hstep.inBlock ..).1 hb⟩
      refine (copyBlocks_outside xs hgood' hrest).trans (((hbytes b).1 hhere).trans ?_)
      exact hagree x List.mem_cons_self hhere

end Sys2Proof.Machine
end

section
/-!
PROOFS. Hot copies and the revert (R290, R297, R300): the image in the hive window, the record of the command, and BARRIER
cleared where nothing else holds it.
-/

namespace Sys2Proof.Machine

open Sys2Proof

/-! ### A whole image -/

/-- The blocks of an image in the order in which they are copied: the layers given, then the rotary table. -/
def imageBlocks (dest : Nat) (ls : List Nat) : List (Nat × Option Nat) := ls.map (fun l => (dest, some l)) ++ [(dest, none)]

theorem copyBlocks_image (t dest : Nat) (ls : List Nat) (d : Dev) : copyBlocks t (imageBlocks dest ls) d =
    copyRope t dest (ls.foldl (fun d l => copyHotLayer t dest l d) d) := by
  rw [copyBlocks, imageBlocks, List.foldl_append, List.foldl_map]
  rfl

theorem imageBlocks_split (dest : Nat) (pre : List Nat) (l : Nat) (post : List Nat) :
    imageBlocks dest (pre ++ l :: post) = pre.map (fun l => (dest, some l)) ++ (dest, some l) :: imageBlocks dest post := by
  simp [imageBlocks]

/-- A byte of the window after an image's n layers have been copied, each before those that come after it, and then its
rotary table. -/
theorem imageBlocks_bytes {d : Dev} (hgood : d.mem.badHbm = []) {t dest n : Nat} {ls : List Nat} (hmem : ∀ l, l ∈ ls ↔ l < n)
    {after : Nat → Nat → Prop} (hord : ls.Pairwise after) (b : Nat) :
    (inBlock d t dest none b →
      tblGet 0 (copyBlocks t (imageBlocks dest ls) d).mem.hive b = blockByte d t dest none b) ∧
    (¬ inBlock d t dest none b →
      (∀ l, l < n → inBlock d t dest (some l) b → (∀ k, k < n → after l k → ¬ inBlock d t dest (some k) b) →
        tblGet 0 (copyBlocks t (imageBlocks dest ls) d).mem.hive b = blockByte d t dest (some l) b) ∧
      ((∀ l, l < n → ¬ inBlock d t dest (some l) b) →
        tblGet 0 (copyBlocks t (imageBlocks dest ls) d).mem.hive b = tblGet 0 d.mem.hive b)) := by
  refine ⟨fun hrope => copyBlocks_last _ (dest, none) [] hgood hrope (fun _ h => nomatch h), fun hrope => ⟨?_, ?_⟩⟩
  · intro l hl hin hlast
    obtain ⟨pre, post, rfl⟩ := List.append_of_mem ((hmem l).2 hl)
    have hpost : ∀ k ∈ post, after l k := (List.pairwise_cons.1 (List.pairwise_append.1 hord).2.1).1
    rw [imageBlocks_split]
    refine copyBlocks_last _ (dest, some l) _ hgood hin fun y hy => ?_
    rcases List.mem_append.1 hy with hy | hy
    · obtain ⟨k, hk, rfl⟩ := List.mem_map.1 hy
      have hkn : k < n := (hmem k).1 (List.mem_append_right _ (List.mem_cons_of_mem _ hk))
      exact hlast k hkn (hpost k hk)
    · rw [List.mem_singleton.1 hy]
      exact hrope
  · intro hnone
    refine copyBlocks_outside _ hgood fun y hy => ?_
    rcases List.mem_append.1 hy with hy | hy
    · obtain ⟨k, hk, rfl⟩ := List.mem_map.1 hy
      exact hnone k ((hmem k).1 hk)
    · rw [List.mem_singleton.1 hy]
      exact hrope

/-! ### The record of a swap or a revert -/

/-- The command's record lies apart from a byte of the hive. -/
def recordApart (d : Dev) (c : Option CmdRef) (b : Nat) : Prop :=
  ∀ x, c = some x → b < slotAddr d x.ring x.ctr.toNat ∨ slotAddr d x.ring x.ctr.toNat + 64 ≤ b

theorem completionBytes_result (x : Completion) (phase : Bool) (done slot : Nat) :
    (completionBytes x phase done slot).getD 0x2E 0 = BitVec.ofNat 8 x.result := by
  simp [completionBytes, leBytes]

theorem slotAddr_congr {d e : Dev} (h : ∀ o, o < 0x100000 → getReg e o = getReg d o) {r : Nat} (hr : r < 4096) (n : Nat) :
    slotAddr e r n = slotAddr d r n := by
  have hbase : getReg e (R.RNG_BASE r) = getReg d (R.RNG_BASE r) := h _ (by simp only [R.RNG_BASE]; omega)
  have hcfg : getReg e (R.RNG_CFG r) = getReg d (R.RNG_CFG r) := h _ (by simp only [R.RNG_CFG]; omega)
  unfold slotAddr ringBase ringSize ringShift ringCfg regFld
  rw [hbase, hcfg]

section Record

variable (c : Option CmdRef) (hring : ∀ x, c = some x → x.ring < 4096) (d : Dev)

theorem cmdRecord?_wgt (result length : Nat) : (cmdRecord? c result length d).wgt = d.wgt := by
  cases c with
  | none => rfl
  | some x => exact cmdRecord_wgt x _ _ d

include hring

theorem cmdRecord?_mem (result length : Nat) : ∃ a bs, (cmdRecord? c result length d).mem = (hiveWrite d a bs).mem ∧
    (∀ b, recordApart d c b → tblGet 0 (hiveWrite d a bs).mem.hive b = tblGet 0 d.mem.hive b) ∧
    ∀ x, c = some x → tblGet 0 (hiveWrite d a bs).mem.hive (slotAddr d x.ring x.ctr.toNat + 0x2E) =
      BitVec.ofNat 8 result := by
  cases c with
  | none => exact ⟨0, [], by simp [cmdRecord?, hiveWrite, tblSetList], fun _ _ => rfl, fun _ h => nomatch h⟩
  | some x =>
    refine ⟨_, _, writeRecord_mem d x.ctr _ none (hring x rfl), fun b hb => ?_, fun y hy => ?_⟩
    · exact hive_outside_write _ _ _ _ (by rw [completionBytes_length]; exact hb x rfl)
    · cases hy
      rw [hive_after_write, if_pos (by rw [completionBytes_length]; omega), Nat.add_sub_cancel_left,
        completionBytes_result]

/-- The record of a command that ends, on a device whose rings are those of the state before: it says DONE in its slot, and
leaves every byte apart from it. -/
theorem cmdRecord?_done {e : Dev} (hreg : ∀ o, o < 0x100000 → getReg e o = getReg d o) :
    (cmdRecord? c 0 0 e).mem.cm = e.mem.cm ∧ (cmdRecord? c 0 0 e).mem.hbm = e.mem.hbm ∧
    (∀ x, c = some x → tblGet 0 (cmdRecord? c 0 0 e).mem.hive (slotAddr d x.ring x.ctr.toNat + 0x2E) = 0) ∧
    ∀ b, recordApart d c b → tblGet 0 (cmdRecord? c 0 0 e).mem.hive b = tblGet 0 e.mem.hive b := by
  have haddr (x : CmdRef) (hx : c = some x) : slotAddr e x.ring x.ctr.toNat = slotAddr d x.ring x.ctr.toNat :=
    slotAddr_congr hreg (hring x hx) _
  obtain ⟨a, bs, hmem, hapart, hdone⟩ := cmdRecord?_mem c hring e 0 0
  rw [hmem]
  refine ⟨rfl, rfl, fun x hx => ?_, fun b hb => hapart b fun x hx => ?_⟩
  · rw [← haddr x hx, hdone x hx]
    rfl
  · rw [haddr x hx]
    exact hb x hx

theorem getReg_cmdRecord?_far (result length : Nat) {o : Nat} (ho : 0x100000 ≤ o) :
    getReg (cmdRecord? c result length d) o = getReg d o := by
  cases c with
  | none => rfl
  | some x =>
    have hr := hring x rfl
    refine getReg_writeRecord_ne d x.ctr _ none hr (fun _ h => nomatch h) o ?_ fun i hi => ?_
    · simp only [R.RNG_PENDING]; omega
    · simp only [R.SYN_VALUE]; omega

end Record

/-! ### BARRIER -/

/-- A slot of the tenant holds BARRIER: a swap, a swapped image or a revert. -/
def holdsBarrier (d : Dev) (t j : Nat) : Prop :=
  (wSlot d j).tenant = t ∧ ((wSlot d j).st = .swapping ∨ (wSlot d j).st = .ready ∨ (wSlot d j).st = .reverting)

/-- Nothing holds BARRIER of a tenant. -/
def barrierFree (d : Dev) (t : Nat) : Prop :=
  quarantined d t = false ∧ (∀ j, j < 8 → ¬ holdsBarrier d t j) ∧ t ∉ d.wgt.copies ∧ ∀ e ∈ d.wgt.recopies, e.1 ≠ t

theorem releaseBarrier_eq (t : Nat) (d : Dev) : (barrierFree d t → releaseBarrier t d = setBarrier t false d) ∧
    (¬ barrierFree d t → releaseBarrier t d = d) := by
  have hslots : (slotsWith d (fun s => decide (s.tenant = t) && (decide (s.st = .swapping) || decide (s.st = .ready) ||
      decide (s.st = .reverting)))).isEmpty = true ↔ ∀ j, j < 8 → ¬ holdsBarrier d t j := by
    unfold slotsWith holdsBarrier
    simp only [List.isEmpty_iff, List.filter_eq_nil_iff, List.mem_range, Bool.and_eq_true, Bool.or_eq_true,
      decide_eq_true_eq]
    refine forall₂_congr fun j _ => not_congr ⟨fun h => ?_, fun h => ?_⟩
    · obtain ⟨-, ht, h⟩ := h
      exact ⟨ht, by tauto⟩
    · obtain ⟨ht, h⟩ := h
      refine ⟨?_, ht, by tauto⟩
      rcases h with h | h | h <;> rw [h] <;> decide
  have hcond : (quarantined d t || !(slotsWith d (fun s => decide (s.tenant = t) && (decide (s.st = .swapping) ||
      decide (s.st = .ready) || decide (s.st = .reverting)))).isEmpty || d.wgt.copies.contains t ||
      d.wgt.recopies.any (fun e => decide (e.1 = t))) = false ↔ barrierFree d t := by
    simp only [Bool.or_eq_false_iff, Bool.not_eq_false', hslots, barrierFree, and_assoc]
    simp
  unfold releaseBarrier
  dsimp only
  constructor
  · intro h
    rw [if_neg (by rw [hcond.2 h]; decide)]
  · intro h
    rw [if_pos (by rw [← Bool.not_eq_false, hcond]; exact h)]

/-- BARRIER clears where nothing holds it; STATE, the other registers, the memory and the load slots stay. -/
theorem releaseBarrier_rest (t : Nat) (d : Dev) : (releaseBarrier t d).mem = d.mem ∧ (releaseBarrier t d).wgt = d.wgt ∧
    (∀ o, o ≠ R.TCX_STATE t → getReg (releaseBarrier t d) o = getReg d o) ∧
    tcxState (releaseBarrier t d) t = tcxState d t ∧
    (barrierFree d t → tcxBarrier (releaseBarrier t d) t = false) ∧
    (¬ barrierFree d t → tcxBarrier (releaseBarrier t d) t = tcxBarrier d t) := by
  obtain ⟨hfree, hheld⟩ := releaseBarrier_eq t d
  by_cases h : barrierFree d t
  · have hreg : getReg (setBarrier t false d) (R.TCX_STATE t) = setBit (getReg d (R.TCX_STATE t)) 2 false :=
      getReg_setReg_self _ _ _
    rw [hfree h]
    refine ⟨rfl, rfl, fun o ho => getReg_setReg_ne d _ _ o ho, ?_, fun _ => ?_, fun hn => absurd h hn⟩
    · rw [tcxState, regFld, hreg, fld_setBit _ 2 1 0 false (by decide) (.inl (by decide)), tcxState, regFld]
    · rw [tcxBarrier, hreg, bit_setBit _ 2 2 false (by decide), if_pos rfl]
  · rw [hheld h]
    exact ⟨rfl, rfl, fun _ _ => rfl, rfl, fun hf => absurd hf h, fun _ => rfl⟩

/-! ### Slots and turns -/

theorem slotIn_spec {d : Dev} {t i : Nat} {st : SlotState} (h : slotIn d t st = some i) :
    i < 8 ∧ (wSlot d i).tenant = t ∧ (wSlot d i).st = st := by
  have hmem := List.mem_of_mem_head? h
  unfold slotsWith at hmem
  simp only [List.mem_filter, List.mem_range, Bool.and_eq_true, decide_eq_true_eq] at hmem
  obtain ⟨hi, -, ht, hst⟩ := hmem
  exact ⟨hi, ht, hst⟩

/-- In a drain phase the weight engine has its turn unless a flush engine waits or an entry has stopped it. -/
theorem copyTurn_iff {d : Dev} (hdrain : inDrain d = true) :
    copyTurn d = true ↔ flushWaits d 0 0x2000 = false ∧ entryStopped d = false := by
  have hphase : inDrainOrBeacon d = true := by
    simp only [inDrain, Bool.and_eq_true, decide_eq_true_eq] at hdrain
    simp [inDrainOrBeacon, hdrain.1, hdrain.2]
  simp [copyTurn, weightTurn, hphase]

end Sys2Proof.Machine
end

section
/-!
PROOFS. The swap's layers and end, the revert's end, and hot copies (R290, R291, R293, R297, R300) as the tenant's commands
carry them out.
-/

namespace Sys2Proof.Machine

open Sys2Proof

theorem HiveOnly.rest {d e : Dev} (h : HiveOnly d e) : e.regs = d.regs ∧ e.wgt = d.wgt ∧ e.mem.cm = d.mem.cm ∧
    e.mem.hbm = d.mem.hbm := by
  obtain ⟨_, _, rfl⟩ := h
  exact ⟨rfl, rfl, rfl, rfl⟩

/-- Of the memory only the hive may have changed. -/
def QuietStep (s t : State) : Prop := t.pending = s.pending ∧ t.dev.mem.cm = s.dev.mem.cm ∧ t.dev.mem.hbm = s.dev.mem.hbm

/-- The command's record says DONE. -/
def RecordDone (s : State) (c : Option CmdRef) (t : State) : Prop :=
  ∀ x, c = some x → tblGet 0 t.dev.mem.hive (slotAddr s.dev x.ring x.ctr.toNat + 0x2E) = 0

/-- The hive window holds a whole image: the rotary table, elsewhere the layer that no later copy holds too, and elsewhere
what it held. -/
def ImageCopied (s : State) (T dest : Nat) (after : Nat → Nat → Prop) (c : Option CmdRef) (t : State) : Prop :=
  ∀ b, recordApart s.dev c b →
    (inBlock s.dev T dest none b → tblGet 0 t.dev.mem.hive b = blockByte s.dev T dest none b) ∧
    (¬ inBlock s.dev T dest none b →
      (∀ l, l < layersOf s.dev T → inBlock s.dev T dest (some l) b →
        (∀ k, k < layersOf s.dev T → after l k → ¬ inBlock s.dev T dest (some k) b) →
        tblGet 0 t.dev.mem.hive b = blockByte s.dev T dest (some l) b) ∧
      ((∀ l, l < layersOf s.dev T → ¬ inBlock s.dev T dest (some l) b) →
        tblGet 0 t.dev.mem.hive b = tblGet 0 s.dev.mem.hive b))

/-- BARRIER has cleared where nothing else held it. -/
def BarrierAfter (s : State) (T : Nat) (free : Prop) (t : State) : Prop :=
  tcxState t.dev T = tcxState s.dev T ∧ (free → tcxBarrier t.dev T = false) ∧
    (¬ free → tcxBarrier t.dev T = tcxBarrier s.dev T)

/-! ### Commands on a tenant's slot -/

/-- A row that acts on the slot of its tenant that is in a state, where a condition holds. -/
def onSlot (T : Nat) (st : SlotState) (c : Nat → Dev → Bool) (f : Nat → Dev → Dev) (d : Dev) : Dev :=
  match slotIn d T st with
  | none => d
  | some i => onlyIf (c i d) (f i) d

theorem completes_onSlot {instr : Instr} {s : State} {post : State → Prop} {T i : Nat} {st : SlotState}
    {c : Nat → Dev → Bool} {f : Nat → Dev → Dev} (hi : exec instr s = onDev (onSlot T st c f) s)
    (hslot : slotIn s.dev T st = some i) (hc : c i s.dev = true) (h : post { s with dev := f i s.dev }) :
    Completes instr s post := by
  refine completes_of_onDev hi ?_
  rw [onSlot, hslot]
  dsimp only
  rwa [hc]

/-- Where the condition fails on every slot nothing changes. -/
theorem completes_same_onSlot {instr : Instr} {s : State} {T : Nat} {st : SlotState} {c : Nat → Dev → Bool}
    {f : Nat → Dev → Dev} (hi : exec instr s = onDev (onSlot T st c f) s)
    (hc : ∀ i, slotIn s.dev T st = some i → c i s.dev = false) : Completes instr s (fun t => t = s) := by
  refine completes_of_onDev hi ?_
  have hsame : onSlot T st c f s.dev = s.dev := by
    unfold onSlot
    split
    · rfl
    · rw [hc _ ‹_›]
      rfl
  rw [hsame]

/-- When a layer of a swap may be copied, and its copy. -/
def swapLayerDue (T i : Nat) (d : Dev) : Bool :=
  alive d && inDrain d && copyTurn d && (wSlot d i).started && dropsDone d T && decide ((wSlot d i).layer < layersOf d T)

def swapLayerStep (T i : Nat) (d : Dev) : Dev :=
  updSlot i (fun s => { s with layer := s.layer + 1 }) (copyBlock T (wSlot d i).dest (some (wSlot d i).layer) d)

theorem exec_swapLayer (tenant : TenantId) (s : State) : exec (.swapLayer tenant) s =
    onDev (onSlot tenant.toNat .swapping (swapLayerDue tenant.toNat) (swapLayerStep tenant.toNat)) s := by
  show execSwapLayer tenant s = _
  unfold execSwapLayer
  refine congrArg (onDev · s) (funext fun d => ?_)
  unfold onSlot onlyIf
  cases slotIn d tenant.toNat .swapping <;> rfl

/-- When a swap may end, and its end. -/
def swapEndDue (T i : Nat) (d : Dev) : Bool :=
  alive d && inDrain d && copyTurn d && (wSlot d i).started && decide ((wSlot d i).layer = layersOf d T)

def swapEndStep (T i : Nat) (d : Dev) : Dev :=
  cmdRecord? (wSlot d i).swapCmd 0 0
    (updSlot i (fun s => { s with st := .ready, rope := true, swapCmd := none }) (copyBlock T (wSlot d i).dest none d))

theorem exec_swapEnd (tenant : TenantId) (s : State) : exec (.swapEnd tenant) s =
    onDev (onSlot tenant.toNat .swapping (swapEndDue tenant.toNat) (swapEndStep tenant.toNat)) s := by
  show execSwapEnd tenant s = _
  unfold execSwapEnd
  refine congrArg (onDev · s) (funext fun d => ?_)
  unfold onSlot onlyIf
  cases slotIn d tenant.toNat .swapping <;> rfl

/-- When a revert may end, and its end. -/
def revertEndDue (_ : Nat) (d : Dev) : Bool := alive d && inDrain d && copyTurn d

def revertEndStep (T i : Nat) (d : Dev) : Dev :=
  cmdRecord? (wSlot d i).abortCmd 0 0 (releaseBarrier T (slotIdle i (wSlot d i).reason
    (copyBlocks T (imageBlocks (weightBase d T) (List.range (layersOf d T)).reverse) d)))

theorem exec_revertEnd (tenant : TenantId) (s : State) : exec (.revertEnd tenant) s =
    onDev (onSlot tenant.toNat .reverting revertEndDue (revertEndStep tenant.toNat)) s := by
  show execRevertEnd tenant s = _
  unfold execRevertEnd
  refine congrArg (onDev · s) (funext fun d => ?_)
  unfold onSlot onlyIf revertEndStep
  simp only [copyBlocks_image]
  cases slotIn d tenant.toNat .reverting <;> rfl

/-- BARRIER after a release on a device that still shows the tenant's state. -/
theorem barrierAfter_release {s t : State} {T : Nat} {e : Dev} {free : Prop}
    (hin : getReg e (R.TCX_STATE T) = getReg s.dev (R.TCX_STATE T))
    (hout : getReg t.dev (R.TCX_STATE T) = getReg (releaseBarrier T e) (R.TCX_STATE T))
    (hfree : barrierFree e T ↔ free) : BarrierAfter s T free t := by
  obtain ⟨-, -, -, hstate, hclear, hheld⟩ := releaseBarrier_rest T e
  unfold BarrierAfter tcxState tcxBarrier regFld
  rw [hout, ← hin, ← hfree]
  exact ⟨hstate, hclear, hheld⟩

/-- What holds BARRIER of a tenant is seen in ENT_WQ and in the weight engine. -/
theorem barrierFree_congr {d e : Dev} {T : Nat} {P : Nat → Prop} {C E : Prop}
    (hquarantine : getReg e (R.ENT_WQ (T % 4096 / 32)) = getReg d (R.ENT_WQ (T % 4096 / 32)))
    (hslots : (∀ j, j < 8 → ¬ holdsBarrier e T j) ↔ ∀ j, j < 8 → P j)
    (hcopies : T ∉ e.wgt.copies ↔ C) (hrecopies : (∀ x ∈ e.wgt.recopies, x.1 ≠ T) ↔ E) :
    barrierFree e T ↔ (quarantined d T = false ∧ (∀ j, j < 8 → P j) ∧ C ∧ E) := by
  rw [barrierFree, hslots, hcopies, hrecopies, quarantined, hquarantine, ← quarantined]

/-- A slot that becomes IDLE keeps its tenant and a reason; of the registers only the tenant's next version changes. -/
theorem slotIdle_rest (i reason : Nat) (d : Dev) : (slotIdle i reason d).mem = d.mem ∧
    (slotIdle i reason d).wgt.copies = d.wgt.copies ∧ (slotIdle i reason d).wgt.recopies = d.wgt.recopies ∧
    (∀ j, wSlot (slotIdle i reason d) j =
      if j = i then { reason := reason, tenant := (wSlot d i).tenant } else wSlot d j) ∧
    ∀ o, getReg (slotIdle i reason d) o =
      if o = R.TCX_VERSION_NEXT (wSlot d i).tenant then 0 else getReg d o :=
  ⟨rfl, rfl, rfl, wSlot_updSlot i (fun _ => { reason := reason, tenant := (wSlot d i).tenant }) d,
    fun o => getReg_setReg _ _ _ o⟩

/-- The tenant's first copy is no longer asked for. -/
def copyDropped (T : Nat) (d : Dev) : Dev := { d with wgt := { d.wgt with copies := d.wgt.copies.filter (fun x => x ≠ T) } }

/-- The end of a first copy. -/
def hotCopyStep (T : Nat) (d : Dev) : Dev :=
  releaseBarrier T (copyDropped T (copyBlocks T (imageBlocks (weightBase d T) (List.range (layersOf d T))) d))

theorem exec_hotCopyEnd (tenant : TenantId) (s : State) : exec (.hotCopyEnd tenant) s = onDev (fun d => onlyIf
    (alive d && inDrain d && copyTurn d && d.wgt.copies.contains tenant.toNat && !windowWiping d tenant.toNat)
    (hotCopyStep tenant.toNat) d) s := by
  show execHotCopyEnd tenant s = _
  unfold execHotCopyEnd
  refine congrArg (onDev · s) (funext fun d => ?_)
  unfold onlyIf hotCopyStep
  simp only [copyBlocks_image]
  rfl

/-- Where the image of a block stands: the layers that a swap has replaced, or the current image. -/
def blockImage (d : Dev) (T : Nat) (k : Option Nat) : Nat :=
  match k with
  | some l => layerImage d T l
  | none => ropeImage d T

theorem HiveOnly.blockImage {d e : Dev} (h : HiveOnly d e) (T : Nat) (k : Option Nat) :
    blockImage e T k = Machine.blockImage d T k := by
  obtain ⟨_, _, rfl⟩ := h
  cases k <;> rfl

/-- The blocks that are due to be copied again, with their images. -/
def dueBlocks (d : Dev) (T : Nat) (xs : List (Nat × Option Nat × Nat)) : List (Nat × Option Nat) :=
  xs.map (fun e => (blockImage d T e.2.1, e.2.1))

theorem recopies_eq {d0 : Dev} (hgood : d0.mem.badHbm = []) (T : Nat) (xs : List (Nat × Option Nat × Nat)) {d : Dev}
    (h : HiveOnly d0 d) : xs.foldl (fun d e => recopy T e.2.1 d) d = copyBlocks T (dueBlocks d0 T xs) d := by
  induction xs generalizing d with
  | nil => rfl
  | cons e xs ih =>
    have hone : recopy T e.2.1 d = copyBlock T (blockImage d0 T e.2.1) e.2.1 d := by
      rw [← h.blockImage]
      cases e.2.1 <;> rfl
    have hstep := h.trans (copyBlock_copies (h.badHbm.trans hgood) T (blockImage d0 T e.2.1) e.2.1).1
    rw [List.foldl_cons, hone, ih hstep]
    rfl

/-- The copies again that are due are no longer asked for. -/
def recopiesDropped (due : List (Nat × Option Nat × Nat)) (d : Dev) : Dev :=
  { d with wgt := { d.wgt with recopies := d.wgt.recopies.filter (fun e => !due.contains e) } }

/-- The copies again of a tenant's damaged blocks. -/
def recopyStep (T : Nat) (d : Dev) : Dev :=
  releaseBarrier T (recopiesDropped (recopiesDue d T) ((recopiesDue d T).foldl (fun d e => recopy T e.2.1 d) d))

theorem exec_hotBlockRecopy (tenant : TenantId) (s : State) : exec (.hotBlockRecopy tenant) s = onDev (fun d => onlyIf
    (alive d && inDrain d && copyTurn d && !(recopiesDue d tenant.toNat).isEmpty) (recopyStep tenant.toNat) d) s := rfl

theorem hotCopyEnd_waits {s : State} {tenant : TenantId}
    (h : tenant.toNat ∉ s.dev.wgt.copies ∨ windowWiping s.dev tenant.toNat = true) :
    Completes (.hotCopyEnd tenant) s (fun t => t = s) := by
  refine completes_same_of_onlyIf _ (exec_hotCopyEnd tenant s) ?_
  rcases h with h | h
  · simp [h]
  · simp [h]

theorem hotBlockRecopy_idle {s : State} {tenant : TenantId} (h : recopiesDue s.dev tenant.toNat = []) :
    Completes (.hotBlockRecopy tenant) s (fun t => t = s) :=
  completes_same_of_onlyIf _ (exec_hotBlockRecopy tenant s) (by simp [h])

section Commands

variable {s : State} {tenant : TenantId} {i : Nat} (halive : alive s.dev = true) (hdrain : inDrain s.dev = true)

/-! ### The swap -/

section Swap

variable (hslot : slotIn s.dev tenant.toNat .swapping = some i) (hstarted : (wSlot s.dev i).started = true)
  (hgood : s.dev.mem.badHbm = []) (hturn : copyTurn s.dev = true)

include halive hdrain hslot hstarted hgood hturn

theorem swapLayer_copies (hdone : dropsDone s.dev tenant.toNat = true)
    (hlayer : (wSlot s.dev i).layer < layersOf s.dev tenant.toNat) :
    Completes (.swapLayer tenant) s (fun t => QuietStep s t ∧ RegsExcept [] s t ∧
      wSlot t.dev i = { wSlot s.dev i with layer := (wSlot s.dev i).layer + 1 } ∧
      ∀ b, (inBlock s.dev tenant.toNat (wSlot s.dev i).dest (some (wSlot s.dev i).layer) b → tblGet 0 t.dev.mem.hive b =
          blockByte s.dev tenant.toNat (wSlot s.dev i).dest (some (wSlot s.dev i).layer) b) ∧
        (¬ inBlock s.dev tenant.toNat (wSlot s.dev i).dest (some (wSlot s.dev i).layer) b →
          tblGet 0 t.dev.mem.hive b = tblGet 0 s.dev.mem.hive b)) := by
  refine completes_onSlot (exec_swapLayer tenant s) hslot
    (by simp [swapLayerDue, halive, hdrain, hturn, hstarted, hdone, hlayer]) ?_
  obtain ⟨hcopy, hbytes⟩ := copyBlock_copies hgood tenant.toNat (wSlot s.dev i).dest (some (wSlot s.dev i).layer)
  unfold swapLayerStep
  generalize copyBlock tenant.toNat (wSlot s.dev i).dest (some (wSlot s.dev i).layer) s.dev = e at hcopy hbytes ⊢
  obtain ⟨hregs, hwgt, hcm, hhbm⟩ := hcopy.rest
  refine ⟨⟨rfl, hcm, hhbm⟩, regsExcept_of_regs [] hregs, ?_, hbytes⟩
  dsimp only
  rw [wSlot_updSlot, if_pos rfl, wSlot, hwgt, ← wSlot]

theorem swapEnd_ends (hlayer : (wSlot s.dev i).layer = layersOf s.dev tenant.toNat)
    (hring : ∀ c, (wSlot s.dev i).swapCmd = some c → c.ring < 4096) :
    Completes (.swapEnd tenant) s (fun t => QuietStep s t ∧
      wSlot t.dev i = { wSlot s.dev i with st := .ready, rope := true, swapCmd := none } ∧
      RecordDone s (wSlot s.dev i).swapCmd t ∧ ∀ b, recordApart s.dev (wSlot s.dev i).swapCmd b →
        (inBlock s.dev tenant.toNat (wSlot s.dev i).dest none b →
          tblGet 0 t.dev.mem.hive b = blockByte s.dev tenant.toNat (wSlot s.dev i).dest none b) ∧
        (¬ inBlock s.dev tenant.toNat (wSlot s.dev i).dest none b →
          tblGet 0 t.dev.mem.hive b = tblGet 0 s.dev.mem.hive b)) := by
  refine completes_onSlot (exec_swapEnd tenant s) hslot
    (by simp [swapEndDue, halive, hdrain, hturn, hstarted, hlayer]) ?_
  obtain ⟨hcopy, hbytes⟩ := copyBlock_copies hgood tenant.toNat (wSlot s.dev i).dest none
  unfold swapEndStep
  generalize copyBlock tenant.toNat (wSlot s.dev i).dest none s.dev = e at hcopy hbytes ⊢
  obtain ⟨hregs, hwgt, hcm, hhbm⟩ := hcopy.rest
  generalize hready : updSlot i _ e = e'
  have hmem : e'.mem = e.mem := by rw [← hready]; rfl
  have hreg (o : Nat) : getReg e' o = getReg s.dev o := by rw [← hready]; exact getReg_congr hregs o
  have hslot' : wSlot e' i = { wSlot s.dev i with st := .ready, rope := true, swapCmd := none } := by
    rw [← hready, wSlot_updSlot, if_pos rfl, wSlot, hwgt, ← wSlot]
  obtain ⟨hcm', hhbm', hdone, hapart⟩ := cmdRecord?_done (wSlot s.dev i).swapCmd hring s.dev fun o _ => hreg o
  rw [hmem] at hcm' hhbm' hapart
  refine ⟨⟨rfl, hcm'.trans hcm, hhbm'.trans hhbm⟩, ?_, hdone, fun b hb => ?_⟩ <;> dsimp only
  · rw [wSlot, cmdRecord?_wgt, ← wSlot, hslot']
  · rw [hapart b hb]
    exact hbytes b

end Swap

/-! ### The revert -/

include halive hdrain

theorem revertEnd_reverts (hslot : slotIn s.dev tenant.toNat .reverting = some i) (hgood : s.dev.mem.badHbm = [])
    (hturn : copyTurn s.dev = true) (hring : ∀ c, (wSlot s.dev i).abortCmd = some c → c.ring < 4096) :
    Completes (.revertEnd tenant) s (fun t => QuietStep s t ∧ (wSlot t.dev i).st = .idle ∧
      (wSlot t.dev i).reason = (wSlot s.dev i).reason ∧ getReg t.dev (R.TCX_VERSION_NEXT tenant.toNat) = 0 ∧
      RecordDone s (wSlot s.dev i).abortCmd t ∧
      ImageCopied s tenant.toNat (weightBase s.dev tenant.toNat) (fun l k => k < l) (wSlot s.dev i).abortCmd t ∧
      BarrierAfter s tenant.toNat (quarantined s.dev tenant.toNat = false ∧
        (∀ j, j < 8 → j ≠ i → ¬ holdsBarrier s.dev tenant.toNat j) ∧ tenant.toNat ∉ s.dev.wgt.copies ∧
        ∀ e ∈ s.dev.wgt.recopies, e.1 ≠ tenant.toNat) t) := by
  refine completes_onSlot (exec_revertEnd tenant s) hslot (by simp [revertEndDue, halive, hdrain, hturn]) ?_
  have hcopy := copyBlocks_hiveOnly (t := tenant.toNat)
    (imageBlocks (weightBase s.dev tenant.toNat) (List.range (layersOf s.dev tenant.toNat)).reverse) hgood
  have hbytes := imageBlocks_bytes hgood (t := tenant.toNat) (dest := weightBase s.dev tenant.toNat)
    (n := layersOf s.dev tenant.toNat) (ls := (List.range (layersOf s.dev tenant.toNat)).reverse) (by simp)
    (after := fun l k => k < l) (by simpa [List.pairwise_reverse] using List.pairwise_lt_range)
  unfold revertEndStep
  generalize copyBlocks tenant.toNat (imageBlocks (weightBase s.dev tenant.toNat)
    (List.range (layersOf s.dev tenant.toNat)).reverse) s.dev = e at hcopy hbytes ⊢
  obtain ⟨hregs, hwgt, hcm, hhbm⟩ := hcopy.rest
  obtain ⟨hi, htenant, -⟩ := slotIn_spec hslot
  have hslots (j : Nat) : wSlot e j = wSlot s.dev j := by rw [wSlot, hwgt, ← wSlot]
  obtain ⟨himem, hicopies, hirecopies, hislot, hireg⟩ := slotIdle_rest i (wSlot s.dev i).reason e
  generalize slotIdle i (wSlot s.dev i).reason e = e1 at himem hicopies hirecopies hislot hireg ⊢
  rw [hslots i, htenant] at hireg hislot
  have hreg1 (o : Nat) (ho : o ≠ R.TCX_VERSION_NEXT tenant.toNat) : getReg e1 o = getReg s.dev o := by
    rw [hireg, if_neg ho, getReg_congr hregs]
  have hfree : barrierFree e1 tenant.toNat ↔ (quarantined s.dev tenant.toNat = false ∧
      (∀ j, j < 8 → j ≠ i → ¬ holdsBarrier s.dev tenant.toNat j) ∧ tenant.toNat ∉ s.dev.wgt.copies ∧
      ∀ e ∈ s.dev.wgt.recopies, e.1 ≠ tenant.toNat) := by
    refine barrierFree_congr (hreg1 _ ?_) (forall₂_congr fun j _ => ?_) (by rw [hicopies, hwgt]) (by rw [hirecopies, hwgt])
    · simp only [R.ENT_WQ, R.TCX_VERSION_NEXT]; omega
    · unfold holdsBarrier
      rw [hislot]
      split
      · simp [*]
      · simp [*]
  have hstateAt : R.TCX_STATE tenant.toNat ≠ R.TCX_VERSION_NEXT tenant.toNat := by
    simp only [R.TCX_STATE, R.TCX_VERSION_NEXT]; omega
  obtain ⟨hrmem, hrwgt, hrreg, -, -, -⟩ := releaseBarrier_rest tenant.toNat e1
  have hbarrier (t : State) := barrierAfter_release (t := t) (hreg1 _ hstateAt) (hfree := hfree)
  generalize releaseBarrier tenant.toNat e1 = e2 at hrmem hrwgt hrreg hbarrier ⊢
  obtain ⟨hcm', hhbm', hdone, hapart⟩ := cmdRecord?_done (wSlot s.dev i).abortCmd hring s.dev (e := e2) fun o ho => by
    rw [hrreg o (by simp only [R.TCX_STATE]; omega), hreg1 o (by simp only [R.TCX_VERSION_NEXT]; omega)]
  rw [hrmem, himem] at hcm' hhbm' hapart
  have hfar {o : Nat} (ho : 0x100000 ≤ o) := getReg_cmdRecord?_far (wSlot s.dev i).abortCmd hring e2 0 0 ho
  have hidle : wSlot (cmdRecord? (wSlot s.dev i).abortCmd 0 0 e2) i =
      { reason := (wSlot s.dev i).reason, tenant := tenant.toNat } := by
    rw [wSlot, cmdRecord?_wgt, hrwgt, ← wSlot, hislot, if_pos rfl]
  refine ⟨⟨rfl, hcm'.trans hcm, hhbm'.trans hhbm⟩, congrArg LoadSlot.st hidle, by dsimp only; rw [hidle], ?_, hdone,
    fun b hb => ?_, hbarrier _ (hfar (by simp only [R.TCX_STATE]; omega))⟩
  · dsimp only
    rw [hfar (by simp only [R.TCX_VERSION_NEXT]; omega), hrreg _ hstateAt.symm, hireg, if_pos rfl]
  · dsimp only
    rw [hapart b hb]
    exact hbytes b

/-! ### A first copy -/

theorem hotCopyEnd_copies (hin : tenant.toNat ∈ s.dev.wgt.copies) (hwipe : windowWiping s.dev tenant.toNat = false)
    (hgood : s.dev.mem.badHbm = []) (hturn : copyTurn s.dev = true) :
    Completes (.hotCopyEnd tenant) s (fun t => QuietStep s t ∧
      tenant.toNat ∉ t.dev.wgt.copies ∧ RegsExcept [R.TCX_STATE tenant.toNat] s t ∧
      ImageCopied s tenant.toNat (weightBase s.dev tenant.toNat) (fun l k => l < k) none t ∧
      BarrierAfter s tenant.toNat (quarantined s.dev tenant.toNat = false ∧
        (∀ j, j < 8 → ¬ holdsBarrier s.dev tenant.toNat j) ∧ ∀ e ∈ s.dev.wgt.recopies, e.1 ≠ tenant.toNat) t) := by
  refine completes_of_onlyIf _ (exec_hotCopyEnd tenant s) (by simp [halive, hdrain, hturn, hin, hwipe]) ?_
  have hcopy := copyBlocks_hiveOnly (t := tenant.toNat)
    (imageBlocks (weightBase s.dev tenant.toNat) (List.range (layersOf s.dev tenant.toNat))) hgood
  have hbytes := imageBlocks_bytes hgood (t := tenant.toNat) (dest := weightBase s.dev tenant.toNat)
    (n := layersOf s.dev tenant.toNat) (ls := List.range (layersOf s.dev tenant.toNat)) (by simp)
    (after := fun l k => l < k) List.pairwise_lt_range
  unfold hotCopyStep
  generalize copyBlocks tenant.toNat (imageBlocks (weightBase s.dev tenant.toNat)
    (List.range (layersOf s.dev tenant.toNat))) s.dev = e at hcopy hbytes ⊢
  obtain ⟨hregs, hwgt, hcm, hhbm⟩ := hcopy.rest
  generalize hdrop : copyDropped tenant.toNat e = e1
  have hmem1 : e1.mem = e.mem := by rw [← hdrop]; rfl
  have hreg1 (o : Nat) : getReg e1 o = getReg s.dev o := by rw [← hdrop]; exact getReg_congr hregs o
  have hcopies1 : tenant.toNat ∉ e1.wgt.copies := by rw [← hdrop]; simp [copyDropped]
  have hfree : barrierFree e1 tenant.toNat ↔ (quarantined s.dev tenant.toNat = false ∧
      (∀ j, j < 8 → ¬ holdsBarrier s.dev tenant.toNat j) ∧ ∀ e ∈ s.dev.wgt.recopies, e.1 ≠ tenant.toNat) := by
    rw [barrierFree_congr (P := fun j => ¬ holdsBarrier s.dev tenant.toNat j) (C := True)
      (E := ∀ e ∈ s.dev.wgt.recopies, e.1 ≠ tenant.toNat) (hreg1 _) ?_ (iff_true_intro hcopies1) ?_, true_and]
    · rw [← hdrop]
      simp only [holdsBarrier, wSlot, copyDropped, hwgt]
    · rw [← hdrop]
      simp only [copyDropped, hwgt]
  obtain ⟨hrmem, hrwgt, hrreg, -, -, -⟩ := releaseBarrier_rest tenant.toNat e1
  refine ⟨⟨rfl, ?_, ?_⟩, ?_, fun o ho => ?_, fun b _ => ?_, barrierAfter_release (hreg1 _) rfl hfree⟩ <;> dsimp only
  · rw [hrmem, hmem1, hcm]
  · rw [hrmem, hmem1, hhbm]
  · rwa [hrwgt]
  · rw [hrreg o (by simpa using ho), hreg1]
  · rw [hrmem, hmem1]
    exact hbytes b

/-! ### A copy after a damage -/

theorem hotBlockRecopy_copies (hdue : recopiesDue s.dev tenant.toNat ≠ []) (hgood : s.dev.mem.badHbm = [])
    (hturn : copyTurn s.dev = true) : Completes (.hotBlockRecopy tenant) s (fun t => QuietStep s t ∧
      t.dev.wgt.recopies = s.dev.wgt.recopies.filter (fun e => decide (e ∉ recopiesDue s.dev tenant.toNat)) ∧
      RegsExcept [R.TCX_STATE tenant.toNat] s t ∧
      (∀ b, ((∀ e ∈ recopiesDue s.dev tenant.toNat,
            ¬ inBlock s.dev tenant.toNat (blockImage s.dev tenant.toNat e.2.1) e.2.1 b) →
          tblGet 0 t.dev.mem.hive b = tblGet 0 s.dev.mem.hive b) ∧
        ∀ e ∈ recopiesDue s.dev tenant.toNat, inBlock s.dev tenant.toNat (blockImage s.dev tenant.toNat e.2.1) e.2.1 b →
          (∀ k ∈ recopiesDue s.dev tenant.toNat, k ≠ e →
            ¬ inBlock s.dev tenant.toNat (blockImage s.dev tenant.toNat k.2.1) k.2.1 b) →
          tblGet 0 t.dev.mem.hive b = blockByte s.dev tenant.toNat (blockImage s.dev tenant.toNat e.2.1) e.2.1 b) ∧
      BarrierAfter s tenant.toNat (quarantined s.dev tenant.toNat = false ∧
        (∀ j, j < 8 → ¬ holdsBarrier s.dev tenant.toNat j) ∧ tenant.toNat ∉ s.dev.wgt.copies ∧
        ∀ e ∈ s.dev.wgt.recopies, e.1 = tenant.toNat → e ∈ recopiesDue s.dev tenant.toNat) t) := by
  refine completes_of_onlyIf _ (exec_hotBlockRecopy tenant s) (by simp [halive, hdrain, hturn, hdue]) ?_
  unfold recopyStep
  rw [recopies_eq hgood tenant.toNat _ (.refl s.dev)]
  have hcopy := copyBlocks_hiveOnly (t := tenant.toNat) (dueBlocks s.dev tenant.toNat (recopiesDue s.dev tenant.toNat)) hgood
  have hout (b : Nat) := copyBlocks_outside (t := tenant.toNat) (b := b)
    (dueBlocks s.dev tenant.toNat (recopiesDue s.dev tenant.toNat)) hgood
  have hagreed (b : Nat) (v : Byte) := copyBlocks_agreed (t := tenant.toNat) (b := b) (v := v)
    (dueBlocks s.dev tenant.toNat (recopiesDue s.dev tenant.toNat)) hgood
  generalize copyBlocks tenant.toNat (dueBlocks s.dev tenant.toNat (recopiesDue s.dev tenant.toNat)) s.dev = e
    at hcopy hout hagreed ⊢
  obtain ⟨hregs, hwgt, hcm, hhbm⟩ := hcopy.rest
  simp only [dueBlocks, List.forall_mem_map] at hout hagreed
  generalize hdrop : recopiesDropped (recopiesDue s.dev tenant.toNat) e = e1
  have hmem1 : e1.mem = e.mem := by rw [← hdrop]; rfl
  have hreg1 (o : Nat) : getReg e1 o = getReg s.dev o := by rw [← hdrop]; exact getReg_congr hregs o
  have hrecopies1 : e1.wgt.recopies =
      s.dev.wgt.recopies.filter (fun e => decide (e ∉ recopiesDue s.dev tenant.toNat)) := by
    rw [← hdrop]
    simp [recopiesDropped, hwgt]
  have hfree : barrierFree e1 tenant.toNat ↔ (quarantined s.dev tenant.toNat = false ∧
      (∀ j, j < 8 → ¬ holdsBarrier s.dev tenant.toNat j) ∧ tenant.toNat ∉ s.dev.wgt.copies ∧
      ∀ e ∈ s.dev.wgt.recopies, e.1 = tenant.toNat → e ∈ recopiesDue s.dev tenant.toNat) := by
    refine barrierFree_congr (hreg1 _) ?_ ?_ ?_
    · rw [← hdrop]
      simp only [holdsBarrier, wSlot, recopiesDropped, hwgt]
    · rw [← hdrop]
      simp only [recopiesDropped, hwgt]
    · rw [hrecopies1]
      simp only [List.mem_filter, decide_eq_true_eq]
      exact ⟨fun h x hx ht => by_contra fun hnot => h x ⟨hx, hnot⟩ ht, fun h x hx ht => hx.2 (h x hx.1 ht)⟩
  obtain ⟨hrmem, hrwgt, hrreg, -, -, -⟩ := releaseBarrier_rest tenant.toNat e1
  refine ⟨⟨rfl, ?_, ?_⟩, ?_, fun o ho => ?_, fun b => ⟨fun hnone => ?_, fun x hx hin honly => ?_⟩,
    barrierAfter_release (hreg1 _) rfl hfree⟩ <;> dsimp only
  · rw [hrmem, hmem1, hcm]
  · rw [hrmem, hmem1, hhbm]
  · rw [hrwgt, hrecopies1]
  · rw [hrreg o (by simpa using ho), hreg1]
  · rw [hrmem, hmem1]
    exact hout b hnone
  · rw [hrmem, hmem1]
    refine hagreed b _ ⟨_, List.mem_map_of_mem hx, hin⟩ fun k hk hkin => ?_
    rw [by_contra fun hne => honly k hk hne hkin]

end Commands

/-! ### Out of turn -/

/-- Where a flush engine waits or an entry has stopped the engine, none of the tenant's copies is made. -/
theorem copies_wait {s : State} {tenant : TenantId} (hturn : copyTurn s.dev = false) {cmd : Instr}
    (hcmd : cmd ∈ [Instr.swapLayer tenant, .swapEnd tenant, .revertEnd tenant, .hotCopyEnd tenant,
      .hotBlockRecopy tenant]) : Completes cmd s (fun t => t = s) := by
  simp only [List.mem_cons, List.not_mem_nil, or_false] at hcmd
  rcases hcmd with rfl | rfl | rfl | rfl | rfl
  · exact completes_same_onSlot (exec_swapLayer tenant s) fun i _ => by simp [swapLayerDue, hturn]
  · exact completes_same_onSlot (exec_swapEnd tenant s) fun i _ => by simp [swapEndDue, hturn]
  · exact completes_same_onSlot (exec_revertEnd tenant s) fun i _ => by simp [revertEndDue, hturn]
  · exact completes_same_of_onlyIf _ (exec_hotCopyEnd tenant s) (by simp [hturn])
  · exact completes_same_of_onlyIf _ (exec_hotBlockRecopy tenant s) (by simp [hturn])

end Sys2Proof.Machine
end

section
/-!
PROOFS. The start of a swap (R45, R254, R292, R293): speculations end, and KV_DROP drops the whole length of a sequence of
another version; then all of a tenant's swaps and hot copies.
-/

namespace Sys2Proof.Machine

open Sys2Proof

/-! ### Page work -/

/-- Work on pages, leaves and frames: the memory, the entrance, the weight engine, the descriptors and the registers of
contexts stay. -/
structure PagesOnly (d e : Dev) : Prop where
  mem : e.mem = d.mem
  ent : e.ent = d.ent
  wgt : e.wgt = d.wgt
  seqs : e.cache.seqs = d.cache.seqs
  regs : ∀ o, 0x100000 ≤ o → getReg e o = getReg d o

namespace PagesOnly

variable {a b c d e : Dev}

theorem refl (d : Dev) : PagesOnly d d := ⟨rfl, rfl, rfl, rfl, fun _ _ => rfl⟩

theorem trans (hab : PagesOnly a b) (hbc : PagesOnly b c) : PagesOnly a c :=
  ⟨hbc.mem.trans hab.mem, hbc.ent.trans hab.ent, hbc.wgt.trans hab.wgt, hbc.seqs.trans hab.seqs,
    fun o ho => (hbc.regs o ho).trans (hab.regs o ho)⟩

theorem foldl {α : Type} (f : Dev → α → Dev) (h : ∀ d x, PagesOnly d (f d x)) (xs : List α) (d : Dev) :
    PagesOnly d (xs.foldl f d) := by
  induction xs generalizing d with
  | nil => exact refl d
  | cons x xs ih => exact (h d x).trans (ih _)

/-- A change of cache control that keeps the descriptors. -/
theorem cache (c : CacheSt) (h : c.seqs = d.cache.seqs) : PagesOnly d { d with cache := c } :=
  ⟨rfl, rfl, rfl, h, fun _ _ => rfl⟩

theorem setHead (k : Nat) (x : PageHead) (d : Dev) : PagesOnly d (setHead k x d) := cache _ rfl

theorem setPtr (u k v : Nat) (d : Dev) : PagesOnly d (setPtr u k v d) := cache _ rfl

theorem bumpBy {o : Nat} (h : o < 0x100000) (d : Dev) (n : Nat) : PagesOnly d (bumpBy d o n) :=
  ⟨rfl, rfl, rfl, rfl, fun p hp => getReg_setReg_ne d o _ p (by omega)⟩

theorem decRef (u : Nat) (d : Dev) : PagesOnly d (decRef u d) := by
  unfold Machine.decRef decRefRaw
  split
  · exact refl d
  · split
    · exact refl d
    · split
      · exact cache _ rfl
      · split
        · exact cache _ rfl
        · exact cache _ rfl

theorem incRef (u : Nat) (d : Dev) : PagesOnly d (incRef u d) := by
  unfold Machine.incRef
  split
  · exact refl d
  · split
    · exact refl d
    · split
      · refine PagesOnly.trans ?_ (bumpBy (o := R.KVC_PIN_CNT) (by decide) _ 1)
        exact cache _ rfl
      · exact cache _ rfl

theorem freeGroup (x : PageHead) (dd : Nat) (d : Dev) : PagesOnly d (freeGroup x dd d) := by
  unfold Machine.freeGroup
  split
  · exact decRef _ d
  · exact cache _ rfl

theorem allocFrame {src : FrameSrc} {t k : Nat} {kind : FrameKind} {r : Nat × Dev}
    (h : allocFrame src t k kind d = some r) : PagesOnly d r.2 := by
  obtain ⟨p, -, rfl⟩ := Option.map_eq_some_iff.1 h
  exact cache _ rfl

/-- One head of a leaf that is copied. -/
theorem copyHead (u v j : Nat) (d : Dev) : PagesOnly d (if (headAt d (16 * u + j)).st = .flushed
    then Machine.incRef (headAt d (16 * u + j)).loc (Machine.setHead (16 * v + j) (headAt d (16 * u + j)) d)
    else Machine.setHead (16 * v + j) (headAt d (16 * u + j)) d) := by
  split
  · exact (setHead _ _ d).trans (incRef _ _)
  · exact setHead _ _ d

theorem copyLeaf {src : FrameSrc} {t u : Nat} {r : Nat × Dev} (h : copyLeaf src t u d = some r) : PagesOnly d r.2 := by
  unfold Machine.copyLeaf at h
  generalize List.range 16 = js at h
  obtain ⟨p, hp, rfl⟩ := Option.map_eq_some_iff.1 h
  exact (allocFrame hp).trans (foldl _ (fun d j => copyHead u p.1 j d) js p.2)

theorem privateLeaf {src : FrameSrc} {q l h i : Nat} {r : Nat × Dev} (hr : privateLeaf src q l h i d = some r) :
    PagesOnly d r.2 := by
  unfold Machine.privateLeaf at hr
  dsimp only at hr
  split at hr
  · cases hr
  · rename_i dir _
    split at hr
    · cases hr
    · rename_i b e hblock
      have hstart : PagesOnly d e := by
        split at hblock
        · cases hblock
          exact refl d
        · obtain ⟨p, hp, hpe⟩ := Option.map_eq_some_iff.1 hblock
          cases hpe
          exact (allocFrame hp).trans (setPtr _ _ _ _)
      refine hstart.trans ?_
      split at hr
      · obtain ⟨p, hp, rfl⟩ := Option.map_eq_some_iff.1 hr
        exact (allocFrame hp).trans (setPtr _ _ _ _)
      · split at hr
        · obtain ⟨p, hp, rfl⟩ := Option.map_eq_some_iff.1 hr
          exact (copyLeaf hp).trans (((setPtr _ _ _ _).trans (decRef _ _)).trans (bumpBy (o := R.KVC_COW_CNT) (by decide) _ 1))
        · cases hr
          exact refl e

theorem dropPage (q l h i : Nat) (d : Dev) : PagesOnly d (dropPage q l h i d) := by
  have hwait (d : Dev) : PagesOnly d (updCache (fun c =>
      if (q, l, h, i) ∈ c.waiting then c else { c with waiting := c.waiting ++ [(q, l, h, i)] }) d) :=
    cache _ (by dsimp only; split <;> rfl)
  unfold Machine.dropPage
  dsimp only
  split
  · exact refl d
  · split
    · exact refl d
    · split
      · exact hwait d
      · split
        · exact hwait d
        · rename_i u' e hleaf
          refine (privateLeaf hleaf).trans ?_
          dsimp only
          refine (setHead (16 * u' + i % 16) (droppedHead (pageHead d q l h i)) e).trans ?_
          generalize Machine.setHead _ _ e = e1
          refine (cache (c := { e1.cache with waiting := e1.cache.waiting.filter (fun w => w ≠ (q, l, h, i)) }) rfl).trans ?_
          split
          · exact decRef _ _
          · exact freeGroup _ _ _
          · exact refl _

theorem dropPages (q : Nat) (heads : List (Nat × Nat)) (pages : List Nat) (d : Dev) :
    PagesOnly d (heads.foldl (fun d lh => pages.foldl (fun d i => Machine.dropPage q lh.1 lh.2 i d) d) d) :=
  foldl _ (fun d lh => foldl _ (fun d i => dropPage q lh.1 lh.2 i d) pages d) heads d

end PagesOnly

/-! ### The discard and the drop of a swap's start -/

/-- What a swap's start does: speculations end and pages go; the memory, the load slots, the requests, the registers of
contexts and everything else in the descriptors stay. -/
structure SwapStep (d e : Dev) : Prop where
  mem : e.mem = d.mem
  wgt : e.wgt = d.wgt
  reqs : e.ent.reqs = d.ent.reqs
  regs : ∀ o, 0x100000 ≤ o → getReg e o = getReg d o
  desc : ∀ p, seqDesc e p = { seqDesc d p with spec := (seqDesc e p).spec }
  ended : ∀ p, (seqDesc d p).spec = none → (seqDesc e p).spec = none
  gone : ∀ p, tblFind d.ent.spec p = none → tblFind e.ent.spec p = none

theorem PagesOnly.swapStep {d e : Dev} (h : PagesOnly d e) : SwapStep d e := by
  have hdesc (p : Nat) : seqDesc e p = seqDesc d p := by rw [seqDesc, h.seqs, ← seqDesc]
  exact ⟨h.mem, h.wgt, by rw [h.ent], h.regs, fun p => by rw [hdesc], fun p hp => by rwa [hdesc],
    fun p hp => by rwa [h.ent]⟩

namespace SwapStep

variable {a b c d e : Dev}

theorem refl (d : Dev) : SwapStep d d := (PagesOnly.refl d).swapStep

theorem trans (hab : SwapStep a b) (hbc : SwapStep b c) : SwapStep a c :=
  ⟨hbc.mem.trans hab.mem, hbc.wgt.trans hab.wgt, hbc.reqs.trans hab.reqs, fun o ho => (hbc.regs o ho).trans (hab.regs o ho),
    fun p => (hbc.desc p).trans (by rw [hab.desc p]), fun p hp => hbc.ended p (hab.ended p hp),
    fun p hp => hbc.gone p (hab.gone p hp)⟩

/-- The live PREFIX_LEN and the page lengths that a drop widens by stay. -/
theorem livePrefix (h : SwapStep d e) (q : Nat) : livePrefix e q = Machine.livePrefix d q := by
  unfold Machine.livePrefix
  rw [h.reqs, h.desc q]

theorem prefixTokens (h : SwapStep d e) (t : Nat) : prefixTokens e t = Machine.prefixTokens d t := by
  unfold Machine.prefixTokens regFld
  rw [h.regs _ (by simp only [R.TCX_PAGE]; omega)]

end SwapStep

/-- The SPEC field of a sequence goes. -/
theorem specEnds (q : Nat) (d : Dev) : SwapStep d (updSeq q (fun x => { x with spec := none }) d) := by
  refine ⟨rfl, rfl, rfl, fun _ _ => rfl, fun p => ?_, fun p hp => ?_, fun _ h => h⟩ <;> rw [seqDesc_updSeq] <;> split
  · rename_i hpq
    rw [hpq]
  · rfl
  · rfl
  · exact hp

/-- The discard of provisional rows ends the speculation in its sequence's descriptor. -/
theorem discardSpec_ends (q : Nat) (d : Dev) : SwapStep d (discardSpec q d) ∧ (discardSpec q d).ent = d.ent ∧
    (seqDesc (discardSpec q d) q).spec = none := by
  refine ⟨?_, (discardSpec_keeps d q).1, ?_⟩
  · unfold discardSpec
    split
    · exact .refl d
    · dsimp only
      refine (PagesOnly.foldl _ (fun d lh => PagesOnly.foldl _ (fun d i => ?_) _ d) _ d).swapStep.trans (specEnds q _)
      have hcount := PagesOnly.bumpBy (o := R.KVC_SPEC_DISCARD_CNT) (by decide) d (pageHead d q lh.1 lh.2 i).prov.length
      split
      · split
        · split
          · exact hcount.trans ((PagesOnly.freeGroup _ _ _).trans (.setHead _ _ _))
          · exact hcount.trans (.setHead _ _ _)
        · exact hcount
      · exact .refl d
  · unfold discardSpec
    split
    · assumption
    · dsimp only
      rw [seqDesc_updSeq, if_pos rfl]

/-- A swap's start ends the speculation of a sequence. -/
def endSpec (q : Nat) (d : Dev) : Dev := discardSpec q { d with ent := { d.ent with spec := tblErase d.ent.spec q } }

theorem endSpec_ends (q : Nat) (d : Dev) : SwapStep d (endSpec q d) ∧ (endSpec q d).ent.seqTab = d.ent.seqTab ∧
    tblFind (endSpec q d).ent.spec q = none ∧ (seqDesc (endSpec q d) q).spec = none := by
  have herase : SwapStep d { d with ent := { d.ent with spec := tblErase d.ent.spec q } } :=
    ⟨rfl, rfl, rfl, fun _ _ => rfl, fun _ => rfl, fun _ h => h, fun p hp => by
      show tblFind (tblErase d.ent.spec q) p = none
      rw [tblFind_erase, hp, ite_self]⟩
  obtain ⟨hstep, hent, hspec⟩ := discardSpec_ends q { d with ent := { d.ent with spec := tblErase d.ent.spec q } }
  refine ⟨herase.trans hstep, ?_, ?_, hspec⟩
  · rw [endSpec, hent]
  · rw [endSpec, hent]
    dsimp only
    rw [tblFind_erase, if_pos rfl]

/-- The speculations of all sequences of a list end. -/
theorem endSpecs_ends (qs : List Nat) (d : Dev) : SwapStep d (qs.foldl (fun d q => endSpec q d) d) ∧
    (qs.foldl (fun d q => endSpec q d) d).ent.seqTab = d.ent.seqTab ∧
    ∀ q ∈ qs, tblFind (qs.foldl (fun d q => endSpec q d) d).ent.spec q = none ∧
      (seqDesc (qs.foldl (fun d q => endSpec q d) d) q).spec = none := by
  induction qs generalizing d with
  | nil => exact ⟨.refl d, rfl, fun _ h => nomatch h⟩
  | cons x xs ih =>
    obtain ⟨hfirst, htab, hspec, hdesc⟩ := endSpec_ends x d
    obtain ⟨hrest, htab', hmem⟩ := ih (endSpec x d)
    rw [List.foldl_cons]
    refine ⟨hfirst.trans hrest, htab'.trans htab, fun q hq => ?_⟩
    rcases List.mem_cons.1 hq with rfl | hq
    · exact ⟨hrest.gone _ hspec, hrest.ended _ hdesc⟩
    · exact hmem q hq

/-! ### The drop of a whole sequence -/

theorem pageStart_first {d : Dev} {t pl : Nat} (h : pl % prefixTokens d t = 0) :
    pageStart d t pl (pageIdx d t pl 0) = 0 := by
  unfold pageStart pageIdx
  rcases Nat.eq_zero_or_pos pl with rfl | hpos
  · simp
  · have hn : 0 < pl / prefixTokens d t := Nat.div_pos (Nat.le_of_dvd hpos (Nat.dvd_of_mod_eq_zero h)) (Nat.two_pow_pos _)
    simp [hpos, hn]

/-- The page that holds a position ends beyond it. -/
theorem pageEnd_gt {d : Dev} {t pl : Nat} (h : pl % prefixTokens d t = 0) (k : Nat) :
    k < pageStart d t pl (pageIdx d t pl k) + pageTokens d t pl (pageIdx d t pl k) := by
  have hp : 0 < prefixTokens d t := Nat.two_pow_pos _
  have ht : 0 < tailTokens d t := Nat.two_pow_pos _
  unfold pageStart pageIdx pageTokens
  dsimp only
  by_cases hk : k < pl
  · have hn : k / prefixTokens d t < pl / prefixTokens d t :=
      Nat.div_lt_div_of_lt_of_dvd (Nat.dvd_of_mod_eq_zero h) hk
    rw [if_pos hk, if_pos hn, if_pos hn]
    exact Nat.lt_div_mul_add hp
  · rw [if_neg hk, if_neg (Nat.not_lt.2 (Nat.le_add_right _ _)),
      if_neg (Nat.not_lt.2 (Nat.le_add_right _ _)), Nat.add_sub_cancel_left]
    have := Nat.lt_div_mul_add (a := k - pl) ht
    omega

/-- The whole length of a sequence is in its dropped range. -/
def wholeDropped (x : SeqDesc) (e : SeqEntry) : Prop := e.dropLo ≤ x.posLo ∧ x.posLo + x.length ≤ e.dropHi

/-- A swap's start drops the whole length of a sequence. -/
def dropWhole (q : Nat) (d : Dev) : Dev :=
  dropRange q (seqDesc d q).posLo ((seqDesc d q).posLo + (seqDesc d q).length) none d

theorem seqEntry_dropPages (q : Nat) (heads : List (Nat × Nat)) (pages : List Nat) (d : Dev) (p : Nat) :
    seqEntry (heads.foldl (fun d lh => pages.foldl (fun d i => dropPage q lh.1 lh.2 i d) d) d) p = seqEntry d p := by
  rw [seqEntry, (PagesOnly.dropPages q heads pages d).ent, ← seqEntry]

theorem updEntry_swapStep (q : Nat) (f : SeqEntry → SeqEntry) (d : Dev) : SwapStep d (updEntry q f d) :=
  ⟨rfl, rfl, rfl, fun _ _ => rfl, fun _ => rfl, fun _ h => h, fun _ h => h⟩

theorem dropWhole_drops (q : Nat) (d : Dev) : SwapStep d (dropWhole q d) ∧
    (∀ p, p ≠ q → seqEntry (dropWhole q d) p = seqEntry d p) ∧
    (0 < (seqDesc d q).length → livePrefix d q % prefixTokens d (seqDesc d q).tenant = 0 →
      wholeDropped (seqDesc d q) (seqEntry (dropWhole q d) q)) := by
  unfold dropWhole dropRange
  dsimp only
  rw [max_self, min_self, Nat.sub_self, Nat.add_sub_cancel_left]
  split
  · exact ⟨.refl d, fun _ _ => rfl, fun hlen => by omega⟩
  · refine ⟨(updEntry_swapStep q _ d).trans (PagesOnly.dropPages q _ _ _).swapStep, fun p hp => ?_, fun hlen hpl => ?_⟩
    · rw [seqEntry_dropPages, seqEntry_updEntry, if_neg hp]
    · rw [seqEntry_dropPages, seqEntry_updEntry, if_pos rfl, pageStart_first hpl]
      have hend := pageEnd_gt hpl ((seqDesc d q).length - 1)
      unfold wholeDropped
      dsimp only
      constructor
      · split <;> omega
      · split <;> omega

/-- The whole lengths of all sequences of a list are dropped, as they were before the first drop. -/
theorem dropWholes_drop (qs : List Nat) {d0 d : Dev} (h : SwapStep d0 d) :
    SwapStep d0 (qs.foldl (fun d q => dropWhole q d) d) ∧
    ∀ q, 0 < (seqDesc d0 q).length → livePrefix d0 q % prefixTokens d0 (seqDesc d0 q).tenant = 0 →
      (q ∈ qs ∨ wholeDropped (seqDesc d0 q) (seqEntry d q)) →
      wholeDropped (seqDesc d0 q) (seqEntry (qs.foldl (fun d q => dropWhole q d) d) q) := by
  induction qs generalizing d with
  | nil => exact ⟨h, fun q _ _ hq => hq.resolve_left (fun hmem => nomatch hmem)⟩
  | cons x xs ih =>
    obtain ⟨hstep, hother, hwhole⟩ := dropWhole_drops x d
    obtain ⟨hrest, hdrop⟩ := ih (h.trans hstep)
    rw [List.foldl_cons]
    refine ⟨hrest, fun q hlen hpl hq => hdrop q hlen hpl ?_⟩
    by_cases hqx : q = x
    · subst hqx
      have hd := hwhole (by rw [h.desc]; exact hlen) (by rw [h.livePrefix, h.prefixTokens, h.desc]; exact hpl)
      rw [h.desc] at hd
      exact .inr hd
    · rw [hother q hqx]
      exact hq.imp_left fun hmem => (List.mem_cons.1 hmem).resolve_left hqx

end Sys2Proof.Machine
end

section
/-!
PROOFS. The start of a swap as its command carries it out, and all of a tenant's swaps and hot copies.
-/

namespace Sys2Proof.Machine

open Sys2Proof

/-- What is found in a table is one of its entries. -/
theorem mem_of_tblFind {α : Type} {t : Tbl α} {x : Nat} {v : α} (h : tblFind t x = some v) : (x, v) ∈ t := by
  induction t with
  | nil => cases h
  | cons e t ih =>
    obtain ⟨k, w⟩ := e
    rw [tblFind] at h
    split at h
    · rename_i hk
      cases h
      rw [hk]
      exact List.mem_cons_self
    · exact List.mem_cons_of_mem _ (ih h)

/-! ### The start of a swap -/

/-- The sequences of a tenant. -/
def tenantSeqs (d : Dev) (T : Nat) : List Nat := (d.cache.seqs.filter (fun e => e.2.tenant = T)).map (·.1)

theorem mem_tenantSeqs {d : Dev} {T q : Nat} (htenant : (seqDesc d q).tenant = T) (hfound : tblFind d.cache.seqs q ≠ none) :
    q ∈ tenantSeqs d T := by
  obtain ⟨x, hx⟩ := Option.ne_none_iff_exists'.1 hfound
  rw [seqDesc, tblGet, hx] at htenant
  exact List.mem_map.2 ⟨(q, x), List.mem_filter.2 ⟨mem_of_tblFind hx, decide_eq_true htenant⟩, rfl⟩

/-- A sequence that has positions has a descriptor of its own. -/
theorem found_of_length_pos {d : Dev} {q : Nat} (h : 0 < (seqDesc d q).length) : tblFind d.cache.seqs q ≠ none := by
  intro hnone
  rw [seqDesc, tblGet, hnone] at h
  exact absurd h (Nat.lt_irrefl 0)

theorem mem_kvDropped {d : Dev} {T q : Nat} {v : W32} (htenant : (seqDesc d q).tenant = T)
    (hopen : (seqEntry d q).isOpen = true) (hlen : 0 < (seqDesc d q).length) (hpin : (seqDesc d q).pinVersion ≠ v) :
    q ∈ kvDropped d T v :=
  List.mem_filter.2 ⟨mem_tenantSeqs htenant (found_of_length_pos hlen), by simp [hopen, hlen, hpin]⟩

/-- The sequences that a swap's start drops. -/
def startDrops (T i : Nat) (d : Dev) : List Nat := if (wSlot d i).kvDrop then kvDropped d T (wSlot d i).version else []

/-- When a swap may start, and its start. -/
def swapStartDue (T i : Nat) (d : Dev) : Bool :=
  alive d && inDrain d && (wSlot d i).clear && !(wSlot d i).started && dropsAllowed d (startDrops T i d)

def swapStartStep (T i : Nat) (d : Dev) : Dev :=
  updSlot i (fun s => { s with started := true })
    ((startDrops T i d).foldl (fun d q => dropWhole q d) ((tenantSeqs d T).foldl (fun d q => endSpec q d) d))

theorem exec_swapStart (tenant : TenantId) (s : State) : exec (.swapStart tenant) s =
    onDev (onSlot tenant.toNat .swapping (swapStartDue tenant.toNat) (swapStartStep tenant.toNat)) s := by
  show execSwapStart tenant s = _
  unfold execSwapStart
  refine congrArg (onDev · s) (funext fun d => ?_)
  unfold onSlot onlyIf
  cases slotIn d tenant.toNat .swapping <;> rfl

/-- R45 lets the drops of a swap's start happen: it makes none, or those that it makes are allowed. -/
theorem dropsAllowed_startDrops {d : Dev} {T i : Nat} : dropsAllowed d (startDrops T i d) = true ↔
    (wSlot d i).kvDrop = false ∨ dropsAllowed d (kvDropped d T (wSlot d i).version) = true := by
  unfold startDrops
  cases h : (wSlot d i).kvDrop
  · simp [dropsAllowed]
  · simp

section Start

variable {s : State} {tenant : TenantId} {i : Nat} (hslot : slotIn s.dev tenant.toNat .swapping = some i)

include hslot

theorem swapStart_waits (h : (wSlot s.dev i).clear = false ∨
    dropsAllowed s.dev (startDrops tenant.toNat i s.dev) ≠ true) : Completes (.swapStart tenant) s (fun t => t = s) := by
  refine completes_same_onSlot (exec_swapStart tenant s) fun j hj => ?_
  cases hslot.symm.trans hj
  rcases h with h | h
  · simp [swapStartDue, h]
  · simp [swapStartDue, h]

theorem swapStart_starts (halive : alive s.dev = true) (hdrain : inDrain s.dev = true)
    (hclear : (wSlot s.dev i).clear = true) (hstarted : (wSlot s.dev i).started = false)
    (hdrops : dropsAllowed s.dev (startDrops tenant.toNat i s.dev) = true) :
    Completes (.swapStart tenant) s (fun t => QuietStep s t ∧ (wSlot t.dev i).started = true ∧
      (∀ q, (seqDesc s.dev q).tenant = tenant.toNat → tblFind s.dev.cache.seqs q ≠ none →
        tblFind t.dev.ent.spec q = none ∧ (seqDesc t.dev q).spec = none) ∧
      ((wSlot s.dev i).kvDrop = false → t.dev.ent.seqTab = s.dev.ent.seqTab) ∧
      ((wSlot s.dev i).kvDrop = true → ∀ q, (seqDesc s.dev q).tenant = tenant.toNat →
        (seqEntry s.dev q).isOpen = true → 0 < (seqDesc s.dev q).length →
        (seqDesc s.dev q).pinVersion ≠ (wSlot s.dev i).version →
        livePrefix s.dev q % prefixTokens s.dev tenant.toNat = 0 →
        wholeDropped (seqDesc s.dev q) (seqEntry t.dev q))) := by
  refine completes_onSlot (exec_swapStart tenant s) hslot
    (by simp [swapStartDue, halive, hdrain, hclear, hstarted, hdrops]) ?_
  obtain ⟨hspecs, htab, hended⟩ := endSpecs_ends (tenantSeqs s.dev tenant.toNat) s.dev
  have hafter := (dropWholes_drop (startDrops tenant.toNat i s.dev)
    (.refl ((tenantSeqs s.dev tenant.toNat).foldl (fun d q => endSpec q d) s.dev))).1
  obtain ⟨hstep, hdropped⟩ := dropWholes_drop (startDrops tenant.toNat i s.dev) hspecs
  have htab' (h : (wSlot s.dev i).kvDrop = false) : ((startDrops tenant.toNat i s.dev).foldl (fun d q => dropWhole q d)
      ((tenantSeqs s.dev tenant.toNat).foldl (fun d q => endSpec q d) s.dev)).ent.seqTab = s.dev.ent.seqTab := by
    rw [startDrops, h]
    exact htab
  unfold swapStartStep
  generalize (tenantSeqs s.dev tenant.toNat).foldl (fun d q => endSpec q d) s.dev = e at *
  generalize (startDrops tenant.toNat i s.dev).foldl (fun d q => dropWhole q d) e = e' at *
  refine ⟨⟨rfl, congrArg (·.cm) hstep.mem, congrArg (·.hbm) hstep.mem⟩, ?_, fun q htenant hfound => ?_, htab',
    fun hkv q htenant hopen hlen hpin hpl => ?_⟩
  · dsimp only
    rw [wSlot_updSlot, if_pos rfl]
  · obtain ⟨hspec, hdesc⟩ := hended q (mem_tenantSeqs htenant hfound)
    exact ⟨hafter.gone q hspec, hafter.ended q hdesc⟩
  · refine hdropped q hlen (by rw [htenant]; exact hpl) (.inl ?_)
    rw [startDrops, if_pos hkv]
    exact mem_kvDropped htenant hopen hlen hpin

end Start

/-! ### All of a tenant's swaps and hot copies -/

/-- Settles O47: each row on the slot or the queue that it acts on, in turn and out of turn. -/
theorem swapsAndHotCopies : Obligations.SwapsAndHotCopies := by
  intro s tenant halive hdrain T good turn quiet hv rope src inHot inRope hotByte ropeByte apart done imageCopied holds
    barrier
  have hturn : turn ↔ copyTurn s.dev = true := (copyTurn_iff hdrain).symm
  refine ⟨fun i hslot => ⟨fun h => ?_, fun hclear hstarted hdrop => ?_, fun hstarted hdone hlayer hgood ht => ?_,
    fun hstarted hlayer hgood ht hring => ?_⟩, fun i hslot hgood ht hring => ?_, fun ht cmd hcmd => ?_,
    hotCopyEnd_waits, fun hin hwipe hgood ht => ?_, hotBlockRecopy_idle, fun hdue hgood ht => ?_⟩
  · refine swapStart_waits hslot (h.imp_right fun h => ?_)
    rwa [Ne, dropsAllowed_startDrops]
  · exact swapStart_starts hslot halive hdrain hclear hstarted (dropsAllowed_startDrops.2 hdrop)
  · exact swapLayer_copies halive hdrain hslot hstarted hgood (hturn.1 ht) hdone hlayer
  · exact swapEnd_ends halive hdrain hslot hstarted hgood (hturn.1 ht) hlayer hring
  · exact revertEnd_reverts halive hdrain hslot hgood (hturn.1 ht) hring
  · exact copies_wait (by rwa [hturn, Bool.not_eq_true] at ht) hcmd
  · exact hotCopyEnd_copies halive hdrain hin hwipe hgood (hturn.1 ht)
  · have hcopied := hotBlockRecopy_copies halive hdrain hdue hgood (hturn.1 ht)
    have hinBlock (k : Option Nat) (b : Nat) : inBlock s.dev T (blockImage s.dev T k) k b = match k with
        | some l => inHot (layerImage s.dev T l) l b
        | none => inRope (ropeImage s.dev T) b := by cases k <;> rfl
    have hblockByte (k : Option Nat) (b : Nat) : blockByte s.dev T (blockImage s.dev T k) k b = match k with
        | some l => hotByte (layerImage s.dev T l) l b
        | none => ropeByte (ropeImage s.dev T) b := by cases k <;> rfl
    simp only [show tenant.toNat = T from rfl, hinBlock, hblockByte] at hcopied
    exact hcopied

end Sys2Proof.Machine
end

section
/-!
PROOFS. Writes that apply to a ring's registers (R65, R66, R70, R72, R271): doorbells, configuration, base and sync.
-/

namespace Sys2Proof.Machine

open Sys2Proof

/-! ### Writes that apply -/

/-- A stored register shows its value; what the store began with shows in every other. -/
theorem regsExcept_setReg {s t : State} {d : Dev} {o : Nat} {v : W32} (ht : t.dev = setReg d o v)
    (hd : d.regs = s.dev.regs) : RegsExcept [o] s t := by
  intro p hp
  rw [ht, getReg_setReg_ne _ _ _ _ (by simpa using hp)]
  exact getReg_congr hd p

/-- A row that writes a register completes, where its write applies, on the device on which the wake of its path is
noted. -/
theorem completes_of_applied {i : Instr} {s : State} {post : State → Prop} {path : Path} {off : Nat} {v : W32}
    (hi : exec i s = onDev (writeAny path off 4 v) s) (happ : WriteApplies s path off)
    (h : post { s with dev := writeNow off v (portWake path s.dev) }) : Completes i s post :=
  completes_of_onDev hi (by rwa [writeAny_applied path off v s.dev happ])

/-! ### The registers of a ring -/

/-- Where an offset of a ring's window lies: in the window, at a place of the ring's 64 bytes. -/
theorem ringOffset_place {off k : Nat} (r : RingId) (h : off = 0x40000 + 64 * r.toNat + k) (hk : k < 64) :
    (0x40000 ≤ off ∧ off < 0x80000) ∧ (off - 0x40000) / 64 = r.toNat ∧ off % 64 = k := by
  have hr : r.toNat < 4096 := r.isLt
  omega

theorem writeNow_rngCfg (r : RingId) (v : W32) (d : Dev) :
    writeNow (R.RNG_CFG r.toNat) v d = writeRngCfg d r.toNat v := by
  obtain ⟨hin, hring, hplace⟩ := ringOffset_place (k := 0x00) r (off := R.RNG_CFG r.toNat) rfl (by decide)
  simp only [writeNow, if_pos hin, hring, hplace]

theorem writeNow_rngBase (r : RingId) (v : W32) (d : Dev) :
    writeNow (R.RNG_BASE r.toNat) v d = writeRngBase d r.toNat v := by
  obtain ⟨hin, hring, hplace⟩ := ringOffset_place (k := 0x04) r (off := R.RNG_BASE r.toNat)
    (by simp only [R.RNG_BASE]; omega) (by decide)
  simp only [writeNow, if_pos hin, hring, hplace]

theorem writeNow_rngDoorbell (r : RingId) (v : W32) (d : Dev) :
    writeNow (R.RNG_DOORBELL r.toNat) v d = writeDoorbell d r.toNat v := by
  obtain ⟨hin, hring, hplace⟩ := ringOffset_place (k := 0x10) r (off := R.RNG_DOORBELL r.toNat)
    (by simp only [R.RNG_DOORBELL]; omega) (by decide)
  simp only [writeNow, if_pos hin, hring, hplace]

/-- Of the rows of a ring's window (Table 03-4), up to the place of an offset, the one of that place covers it. -/
theorem rowCovers_ring (r : RingId) (k m : Nat) (a : Access) (reset mask : W32) (c : Bool) (hk : 4 * k ≤ 4 * m)
    (hm : 4 * m < 64) :
    rowCovers ⟨0x40000 + 4 * k, 0x40, 4096, 0x4, 1, a, reset, mask, c⟩ (0x40000 + 4 * m + 0x40 * r.toNat) =
      decide (k = m) := by
  have hr : r.toNat < 4096 := r.isLt
  have hd : 0x40000 + 4 * m + 0x40 * r.toNat - (0x40000 + 4 * k) = 64 * r.toNat + 4 * (m - k) := by omega
  have hin : (64 * r.toNat + 4 * (m - k)) % 64 = 4 * (m - k) := by omega
  rw [Bool.eq_iff_iff]
  simp only [rowCovers, hd, hin, Bool.and_eq_true, decide_eq_true_eq]
  omega

/-- RNG_SYNC implements its object and its enable bit (Table 03-5). -/
theorem regMask_rngSync (r : RingId) : regMask (R.RNG_SYNC r.toNat) = 0xBFFF := by
  have hr : r.toNat < 4096 := r.isLt
  have hrows : rowsAt (0x40000 + 4 * 6 + 0x40 * r.toNat) = rowsRng := by
    unfold rowsAt
    rw [if_neg (by omega), if_neg (by omega), if_neg (by omega), if_neg (by omega), if_neg (by omega),
      if_neg (by omega), if_neg (by omega), if_neg (by omega), if_neg (by omega), if_neg (by omega),
      if_neg (by omega), if_pos (by omega)]
  have hcov := fun k hk a reset mask c => rowCovers_ring r k 6 a reset mask c hk (by decide)
  show regMask (0x40000 + 4 * 6 + 0x40 * r.toNat) = _
  rw [regMask, regRow?, hrows, rowsRng, List.find?_cons, hcov 0 (by decide), List.find?_cons, hcov 1 (by decide),
    List.find?_cons, hcov 2 (by decide), List.find?_cons, hcov 3 (by decide), List.find?_cons, hcov 4 (by decide),
    List.find?_cons, hcov 5 (by decide), List.find?_cons, hcov 6 (by decide)]
  rfl

theorem writeNow_rngSync (r : RingId) (v : W32) (d : Dev) :
    writeNow (R.RNG_SYNC r.toNat) v d = setReg d (R.RNG_SYNC r.toNat) (v &&& 0xBFFF) := by
  obtain ⟨hin, hring, hplace⟩ := ringOffset_place (k := 0x18) r (off := R.RNG_SYNC r.toNat)
    (by simp only [R.RNG_SYNC]; omega) (by decide)
  simp only [writeNow, if_pos hin, hplace, regMask_rngSync]

/-- What an event that only counts in RNG_ERR_CNT leaves. -/
theorem ringErr_counted {s t : State} {d : Dev} {n : Nat} (ht : t.dev = bump d (R.RNG_ERR_CNT n))
    (hd : d.regs = s.dev.regs) :
    getReg t.dev (R.RNG_ERR_CNT n) = counted (getReg s.dev (R.RNG_ERR_CNT n)) 1 ∧ RegsExcept [R.RNG_ERR_CNT n] s t :=
  ⟨by rw [ht, getReg_bump_self, getReg_congr hd], regsExcept_bump ht hd⟩

/-- What a store leaves. -/
theorem reg_stored {s t : State} {d : Dev} {o : Nat} {v : W32} (ht : t.dev = setReg d o v) (hd : d.regs = s.dev.regs) :
    getReg t.dev o = v ∧ RegsExcept [o] s t := ⟨by rw [ht, getReg_setReg_self], regsExcept_setReg ht hd⟩

/-! ### Doorbells (R70, R72) -/

/-- The entries between two counter values, modulo 2^32. -/
theorem ringDistance (a b : W32) : (a.toNat + 2 ^ 32 - b.toNat) % 2 ^ 32 = (a - b).toNat := by
  have hb : b.toNat < 2 ^ 32 := b.isLt
  rw [BitVec.toNat_sub]
  congr 1
  omega

theorem ringUsed_eq (d : Dev) (r : Nat) : ringUsed d r = (getReg d (R.RNG_TAIL r) - getReg d (R.RNG_HEAD r)).toNat :=
  ringDistance _ _

theorem doorbellCommandOk_iff (d : Dev) (r : Nat) (v : W32) :
    doorbellCommandOk d r v = true ↔ 1 ≤ (v - getReg d (R.RNG_TAIL r)).toNat ∧
      (v - getReg d (R.RNG_TAIL r)).toNat ≤
        2 ^ fld (getReg d (R.RNG_CFG r)) 6 2 - (getReg d (R.RNG_TAIL r) - getReg d (R.RNG_HEAD r)).toNat := by
  simp only [doorbellCommandOk, ringTail, ringDistance, ringUsed_eq, Bool.and_eq_true, decide_eq_true_eq]
  rfl

theorem doorbellCompletionOk_iff (d : Dev) (r : Nat) (v : W32) :
    doorbellCompletionOk d r v = true ↔
      (v - getReg d (R.RNG_HEAD r)).toNat ≤ (getReg d (R.RNG_TAIL r) - getReg d (R.RNG_HEAD r)).toNat ∧
        ∀ i, i < (v - getReg d (R.RNG_HEAD r)).toNat →
          slotWritten d r (((getReg d (R.RNG_HEAD r)).toNat + i) % 2 ^ 32) = true := by
  simp only [doorbellCompletionOk, ringHead, ringDistance, ringUsed_eq, Bool.and_eq_true, decide_eq_true_eq,
    List.all_eq_true, List.mem_range]

/-- A doorbell acts on a ring of its kind as a write of RNG_DOORBELL. -/
theorem exec_rngDoorbellCommand {s : State} {r : RingId} (path : Path) (v : W32) (hcmd : ringIsCmd s.dev r.toNat = true) :
    exec (.rngDoorbellCommand path r v) s = onDev (writeAny path (R.RNG_DOORBELL r.toNat) 4 v) s := by
  show execRngDoorbellCommand path r v s = _
  simp only [execRngDoorbellCommand, onDev, hcmd, onlyIf_true]

theorem exec_rngDoorbellCompletion {s : State} {r : RingId} (path : Path) (v : W32)
    (hcmd : ringIsCmd s.dev r.toNat = false) :
    exec (.rngDoorbellCompletion path r v) s = onDev (writeAny path (R.RNG_DOORBELL r.toNat) 4 v) s := by
  show execRngDoorbellCompletion path r v s = _
  simp only [execRngDoorbellCompletion, onDev, hcmd, Bool.not_false, onlyIf_true]

/-- A doorbell on an enabled command ring stores the tail and wakes the die, or counts. -/
theorem writeDoorbell_command {d : Dev} {r : Nat} (v : W32) (hen : ringEn d r = true) (hcmd : ringIsCmd d r = true) :
    writeDoorbell d r v = if doorbellCommandOk d r v then wakeEvent wakeDoorbell (setReg d (R.RNG_TAIL r) v)
      else bump d (R.RNG_ERR_CNT r) := by
  simp only [writeDoorbell, hen, hcmd, Bool.not_true, Bool.false_eq_true, if_false, if_true]

theorem writeDoorbell_completion {d : Dev} {r : Nat} (v : W32) (hen : ringEn d r = true) (hcmd : ringIsCmd d r = false) :
    writeDoorbell d r v = if doorbellCompletionOk d r v then setReg d (R.RNG_HEAD r) v
      else bump d (R.RNG_ERR_CNT r) := by
  simp only [writeDoorbell, hen, hcmd, Bool.not_true, Bool.false_eq_true, if_false]

theorem writeDoorbell_disabled {d : Dev} {r : Nat} (v : W32) (hen : ringEn d r = false) :
    writeDoorbell d r v = bump d (R.RNG_ERR_CNT r) := by
  simp only [writeDoorbell, hen, Bool.not_false, if_true]

/-! The wake of a path, in the power controller, shows in no ring. -/

@[simp] theorem ringEn_portWake (path : Path) (d : Dev) (r : Nat) : ringEn (portWake path d) r = ringEn d r := by
  rw [ringEn, ringCfg, getReg_portWake, ringEn, ringCfg]

@[simp] theorem ringIsCmd_portWake (path : Path) (d : Dev) (r : Nat) : ringIsCmd (portWake path d) r = ringIsCmd d r := by
  rw [ringIsCmd, ringCfg, getReg_portWake, ringIsCmd, ringCfg]

@[simp] theorem doorbellCommandOk_portWake (path : Path) (d : Dev) (r : Nat) (v : W32) :
    doorbellCommandOk (portWake path d) r v = doorbellCommandOk d r v := by
  rw [portWake_eq_power]
  rfl

@[simp] theorem doorbellCompletionOk_portWake (path : Path) (d : Dev) (r : Nat) (v : W32) :
    doorbellCompletionOk (portWake path d) r v = doorbellCompletionOk d r v := by
  rw [portWake_eq_power]
  rfl

/-- Settles O13: R72 holds of the value, or fails. -/
theorem commandRingDoorbells : Obligations.CommandRingDoorbells := by
  intro s path r v happ hen hcmd
  refine completes_of_applied (exec_rngDoorbellCommand path v hcmd) happ ?_
  have hdev := writeDoorbell_command (d := portWake path s.dev) (r := r.toNat) v ((ringEn_portWake _ _ _).trans hen)
    ((ringIsCmd_portWake _ _ _).trans hcmd)
  rw [doorbellCommandOk_portWake] at hdev
  rw [writeNow_rngDoorbell, ← doorbellCommandOk_iff, hdev]
  refine ⟨rfl, ?_, fun hok => ?_, fun hbad => ?_⟩
  · simp only [SameMemory]
    split <;> simp
  · rw [if_pos hok]
    exact ⟨by rw [getReg_wakeEvent, getReg_setReg_self], fun o ho => by
      rw [getReg_wakeEvent, getReg_setReg_ne _ _ _ _ (by simpa using ho), getReg_portWake]⟩
  · rw [if_neg hbad]
    exact ringErr_counted rfl (portWake_regs path s.dev)

/-- Settles O14: R70 holds of the value, or fails. -/
theorem completionRingDoorbells : Obligations.CompletionRingDoorbells := by
  intro s path r v happ hen hcmd
  refine completes_of_applied (exec_rngDoorbellCompletion path v hcmd) happ ?_
  have hdev := writeDoorbell_completion (d := portWake path s.dev) (r := r.toNat) v ((ringEn_portWake _ _ _).trans hen)
    ((ringIsCmd_portWake _ _ _).trans hcmd)
  rw [doorbellCompletionOk_portWake] at hdev
  rw [writeNow_rngDoorbell, ← doorbellCompletionOk_iff, hdev]
  refine ⟨rfl, ?_, fun hok => ?_, fun hbad => ?_⟩
  · simp only [SameMemory]
    split <;> simp
  · rw [if_pos hok]
    exact reg_stored rfl (portWake_regs path s.dev)
  · rw [if_neg hbad]
    exact ringErr_counted rfl (portWake_regs path s.dev)

end Sys2Proof.Machine
end

section
/-!
PROOFS. Enabling, disabling and wiping a ring (R65, R66, R271): the tags of its buffer's units, the marks of its slots, and
the statement.
-/

namespace Sys2Proof.Machine

open Sys2Proof

/-! ### Changes of memory alone -/

/-- Nothing but memory has changed. -/
def MemOnly (d e : Dev) : Prop := ∃ m, e = { d with mem := m }

theorem MemOnly.refl (d : Dev) : MemOnly d d := ⟨_, rfl⟩

theorem MemOnly.trans {a b c : Dev} (hab : MemOnly a b) (hbc : MemOnly b c) : MemOnly a c := by
  obtain ⟨_, rfl⟩ := hab
  obtain ⟨_, rfl⟩ := hbc
  exact ⟨_, rfl⟩

/-- A run of steps that change memory alone. -/
theorem MemOnly.foldl {α : Type} (f : Dev → α → Dev) (hf : ∀ d x, MemOnly d (f d x)) (xs : List α) (d : Dev) :
    MemOnly d (xs.foldl f d) := by
  induction xs generalizing d with
  | nil => exact .refl d
  | cons x xs ih => exact (hf d x).trans (ih _)

theorem MemOnly.regs {d e : Dev} (h : MemOnly d e) : e.regs = d.regs := by
  obtain ⟨_, rfl⟩ := h
  rfl

theorem MemOnly.ent {d e : Dev} (h : MemOnly d e) : e.ent = d.ent := by
  obtain ⟨_, rfl⟩ := h
  rfl

/-! ### What a ring's registers say -/

theorem ringUnits_congr {d e : Dev} (h : e.regs = d.regs) (r : Nat) : ringUnits e r = ringUnits d r := by
  simp only [ringUnits, ringCfg, ringBase, regFld, getReg_congr h]

theorem ringIsCmd_congr {d e : Dev} (h : e.regs = d.regs) (r : Nat) : ringIsCmd e r = ringIsCmd d r := by
  simp only [ringIsCmd, ringCfg, getReg_congr h]

theorem ringSize_congr {d e : Dev} (h : e.regs = d.regs) (r : Nat) : ringSize e r = ringSize d r := by
  simp only [ringSize, ringShift, ringCfg, getReg_congr h]

theorem ringBase_congr {d e : Dev} (h : e.regs = d.regs) (r : Nat) : ringBase e r = ringBase d r := by
  simp only [ringBase, regFld, getReg_congr h]

@[simp] theorem ringMayEnable_portWake (path : Path) (d : Dev) (r : Nat) (cfg : W32) :
    ringMayEnable (portWake path d) r cfg = ringMayEnable d r cfg := by
  rw [portWake_eq_power]
  rfl

/-! ### Tags of a run of units -/

/-- Units of the general hive region, tagged alike. -/
def tagUnits (t : Tag) (us : List Nat) (d : Dev) : Dev := us.foldl (fun d u => setTag d (65536 + u) t) d

theorem tagUnits_memOnly (t : Tag) (us : List Nat) (d : Dev) : MemOnly d (tagUnits t us d) :=
  .foldl _ (fun _ _ => ⟨_, rfl⟩) us d

theorem hiveTag_tagUnits (t : Tag) (us : List Nat) (d : Dev) (u : Nat) :
    hiveTag (tagUnits t us d) u = if u ∈ us then t else hiveTag d u := by
  induction us generalizing d with
  | nil => rfl
  | cons x us ih =>
    have hhead : hiveTag (setTag d (65536 + x) t) u = if u = x then t else hiveTag d u := by
      simp only [hiveTag, tag_setTag, Nat.add_left_cancel_iff]
    rw [show tagUnits t (x :: us) d = tagUnits t us (setTag d (65536 + x) t) from rfl, ih, hhead]
    by_cases hx : u = x <;> by_cases hus : u ∈ us <;> simp [hx, hus]

/-! ### Marks of a completion ring's slots -/

/-- The slot whose STATUS byte lies at an address is marked with lap parity 1. -/
def markSlot (r : Nat) (d : Dev) (i : Nat) : Dev :=
  hiveWrite d (ringBase d r + 64 * i + 6) [tblGet 0 d.mem.hive (ringBase d r + 64 * i + 6) ||| 0x80]

theorem markSlots_eq (d : Dev) (r : Nat) :
    markSlots d r = if ringIsCmd d r then d else (List.range (ringSize d r)).foldl (markSlot r) d := rfl

theorem markSlot_memOnly (r : Nat) (d : Dev) (i : Nat) : MemOnly d (markSlot r d i) := ⟨_, rfl⟩

/-- A mark stays when another slot is marked. -/
theorem bit7_markSlot (r : Nat) (d : Dev) (i a : Nat) (h : bit (tblGet 0 d.mem.hive a) 7 = true ∨ a = ringBase d r + 64 * i + 6) :
    bit (tblGet 0 (markSlot r d i).mem.hive a) 7 = true := by
  rw [markSlot, hive_after_write]
  split
  · rename_i hin
    have ha : a = ringBase d r + 64 * i + 6 := by
      simp only [List.length_singleton] at hin
      omega
    subst ha
    simp [bit]
  · rename_i hout
    refine h.resolve_right fun ha => hout ?_
    simp only [List.length_singleton]
    omega

/-- After a run of marks every slot of the run is marked, and no mark is lost. -/
theorem bit7_markSlots (r : Nat) (is : List Nat) (d : Dev) (a : Nat)
    (h : bit (tblGet 0 d.mem.hive a) 7 = true ∨ ∃ i ∈ is, a = ringBase d r + 64 * i + 6) :
    bit (tblGet 0 (is.foldl (markSlot r) d).mem.hive a) 7 = true := by
  induction is generalizing d with
  | nil => exact h.resolve_right (by simp)
  | cons i is ih =>
    have hbase : ringBase (markSlot r d i) r = ringBase d r := ringBase_congr (markSlot_memOnly r d i).regs r
    refine ih _ ?_
    rw [hbase]
    rcases h with h | ⟨j, hj, ha⟩
    · exact .inl (bit7_markSlot r d i a (.inl h))
    · rcases List.mem_cons.1 hj with rfl | hj
      · exact .inl (bit7_markSlot r d j a (.inr ha))
      · exact .inr ⟨j, hj, ha⟩

theorem tags_markSlots (d : Dev) (r : Nat) : (markSlots d r).mem.tags = d.mem.tags := by
  rw [markSlots_eq]
  split
  · rfl
  · exact foldl_keep (·.mem.tags) _ _ _ fun _ _ => rfl

/-! ### A buffer that is ready -/

theorem ringReady_eq (d : Dev) (r : Nat) : ringReady d r = markSlots (tagUnits .ring (ringUnits d r) d) r := rfl

theorem ringReady_memOnly (d : Dev) (r : Nat) : MemOnly d (ringReady d r) := by
  rw [ringReady_eq]
  refine (tagUnits_memOnly .ring (ringUnits d r) d).trans ?_
  rw [markSlots_eq]
  split
  · exact .refl _
  · exact .foldl _ (markSlot_memOnly r) _ _

/-- A ready buffer is tagged RING. -/
theorem hiveTag_ringReady {d : Dev} {r u : Nat} (hu : u ∈ ringUnits d r) : hiveTag (ringReady d r) u = .ring := by
  have htags : hiveTag (ringReady d r) u = hiveTag (tagUnits .ring (ringUnits d r) d) u := by
    rw [ringReady_eq, hiveTag, tags_markSlots, hiveTag]
  rw [htags, hiveTag_tagUnits, if_pos hu]

/-- Every slot of a ready completion ring is marked (R66). -/
theorem bit7_ringReady {d : Dev} {r i : Nat} (hcmd : ringIsCmd d r = false) (hi : i < ringSize d r) :
    bit (tblGet 0 (ringReady d r).mem.hive (ringBase d r + 64 * i + 6)) 7 = true := by
  have hregs := (tagUnits_memOnly .ring (ringUnits d r) d).regs
  rw [ringReady_eq, markSlots_eq, ringIsCmd_congr hregs, hcmd, if_neg (by decide), ringSize_congr hregs]
  exact bit7_markSlots r _ _ _ (.inr ⟨i, List.mem_range.2 hi, by rw [ringBase_congr hregs]⟩)

/-! ### Enabling (R66, R271) -/

/-- The configuration stored, and the counters zeroed. -/
def ringOpened (d : Dev) (r : Nat) (cfg : W32) : Dev :=
  setReg (setReg (setReg (setReg d (R.RNG_CFG r) cfg) (R.RNG_HEAD r) 0) (R.RNG_TAIL r) 0) (R.RNG_PENDING r) 0

/-- The units of a buffer that were another's. -/
def dirtyUnits (d : Dev) (r : Nat) : List Nat := (ringUnits d r).filter (fun u => hiveTag d u ≠ .clean ∧ hiveTag d u ≠ .ring)

theorem mem_dirtyUnits {d : Dev} {r u : Nat} :
    u ∈ dirtyUnits d r ↔ u ∈ ringUnits d r ∧ ¬(hiveTag d u = .clean ∨ hiveTag d u = .ring) := by
  simp [dirtyUnits, List.mem_filter, not_or]

/-- The ring waits for the wipe of units. -/
def ringWiping (d : Dev) (r : Nat) (us : List Nat) : Dev :=
  let e := tagUnits .wipingRing us d
  { e with ent := { e.ent with ringWipe := e.ent.ringWipe ++ [BitVec.ofNat 12 r] } }

theorem ringEnable_eq (d : Dev) (r : Nat) (cfg : W32) : ringEnable d r cfg =
    if (dirtyUnits (ringOpened d r cfg) r).isEmpty then ringReady (ringOpened d r cfg) r
    else ringWiping (ringOpened d r cfg) r (dirtyUnits (ringOpened d r cfg) r) := rfl

theorem ringEnable_regs (d : Dev) (r : Nat) (cfg : W32) : (ringEnable d r cfg).regs = (ringOpened d r cfg).regs := by
  rw [ringEnable_eq]
  split
  · exact (ringReady_memOnly _ _).regs
  · exact (tagUnits_memOnly _ _ _).regs

/-- The registers of a ring that has been opened. -/
theorem getReg_ringOpened (d : Dev) (r : Nat) (cfg : W32) (o : Nat) : getReg (ringOpened d r cfg) o =
    if o = R.RNG_PENDING r then 0 else if o = R.RNG_TAIL r then 0 else if o = R.RNG_HEAD r then 0
    else if o = R.RNG_CFG r then cfg else getReg d o := by
  simp only [ringOpened, getReg_setReg]

section Enable

variable {d : Dev} {r : Nat} {cfg : W32}

theorem hiveTag_ringOpened (u : Nat) : hiveTag (ringOpened d r cfg) u = hiveTag d u := rfl

theorem ringUnits_ringEnable : ringUnits (ringEnable d r cfg) r = ringUnits (ringOpened d r cfg) r :=
  ringUnits_congr (ringEnable_regs d r cfg) r

/-- A buffer without another's unit is ready at once. -/
theorem ringEnable_clean (h : ∀ u ∈ ringUnits (ringEnable d r cfg) r, hiveTag d u = .clean ∨ hiveTag d u = .ring) :
    ringEnable d r cfg = ringReady (ringOpened d r cfg) r := by
  rw [ringUnits_ringEnable] at h
  have hnone : dirtyUnits (ringOpened d r cfg) r = [] :=
    List.eq_nil_iff_forall_not_mem.2 fun u hu => (mem_dirtyUnits.1 hu).2 (h u (mem_dirtyUnits.1 hu).1)
  rw [ringEnable_eq, hnone]
  rfl

/-- It is tagged RING, and a completion ring's slots are marked. -/
theorem ringEnable_ready (h : ∀ u ∈ ringUnits (ringEnable d r cfg) r, hiveTag d u = .clean ∨ hiveTag d u = .ring) :
    (ringEnable d r cfg).ent = d.ent ∧
      (∀ u ∈ ringUnits (ringEnable d r cfg) r, hiveTag (ringEnable d r cfg) u = .ring) ∧
      (ringIsCmd (ringEnable d r cfg) r = false → ∀ i, i < ringSize (ringEnable d r cfg) r →
        bit (tblGet 0 (ringEnable d r cfg).mem.hive (ringBase (ringEnable d r cfg) r + 64 * i + 6)) 7 = true) := by
  rw [ringEnable_clean h]
  have hmem := ringReady_memOnly (ringOpened d r cfg) r
  rw [ringUnits_congr hmem.regs, ringIsCmd_congr hmem.regs, ringSize_congr hmem.regs, ringBase_congr hmem.regs]
  exact ⟨hmem.ent, fun u hu => hiveTag_ringReady hu, fun hcmd i hi => bit7_ringReady hcmd hi⟩

/-- A dirty unit is being wiped, and its ring waits. -/
theorem ringEnable_dirty {u : Nat} (hr : r < 4096) (hu : u ∈ ringUnits (ringEnable d r cfg) r)
    (hdirty : ¬(hiveTag d u = .clean ∨ hiveTag d u = .ring)) :
    hiveTag (ringEnable d r cfg) u = .wipingRing ∧ ringWaitsWipe (ringEnable d r cfg) r = true := by
  rw [ringUnits_ringEnable] at hu
  have hmem : u ∈ dirtyUnits (ringOpened d r cfg) r := mem_dirtyUnits.2 ⟨hu, hdirty⟩
  have hsome : (dirtyUnits (ringOpened d r cfg) r).isEmpty = false :=
    List.isEmpty_eq_false_iff_exists_mem.2 ⟨u, hmem⟩
  rw [ringEnable_eq, hsome, if_neg (by decide)]
  refine ⟨?_, ?_⟩
  · show hiveTag (tagUnits .wipingRing _ _) u = _
    rw [hiveTag_tagUnits, if_pos hmem]
  · simp [ringWaitsWipe, ringWiping, Nat.mod_eq_of_lt hr]

theorem getReg_ringEnable (o : Nat) : getReg (ringEnable d r cfg) o =
    if o = R.RNG_PENDING r then 0 else if o = R.RNG_TAIL r then 0 else if o = R.RNG_HEAD r then 0
    else if o = R.RNG_CFG r then cfg else getReg d o :=
  (getReg_congr (ringEnable_regs d r cfg) o).trans (getReg_ringOpened d r cfg o)

end Enable

/-! ### Writes of RNG_CFG, by the state of the ring -/

/-- The write that disables a ring: EN cleared and nothing else, and no record of a completion ring pending (R65). -/
theorem writeRngCfg_enabled {d : Dev} {r : Nat} (v : W32) (hen : ringEn d r = true) : writeRngCfg d r v =
    if v &&& 0xFFFFF = setBit (getReg d (R.RNG_CFG r)) 0 false ∧
        (ringIsCmd d r = true ∨ getReg d (R.RNG_PENDING r) = 0) then
      let e := setReg d (R.RNG_CFG r) (v &&& 0xFFFFF)
      { e with ent := { e.ent with ringWipe := e.ent.ringWipe.filter (fun x => x.toNat ≠ r) } }
    else bump d (R.RNG_ERR_CNT r) := by
  have hpend : ¬((!ringIsCmd d r) = true ∧ ringPending d r ≠ 0) ↔
      (ringIsCmd d r = true ∨ getReg d (R.RNG_PENDING r) = 0) := by
    have hzero : getReg d (R.RNG_PENDING r) = 0 ↔ ringPending d r = 0 := by
      rw [ringPending, ← BitVec.toNat_inj]
      rfl
    rw [hzero]
    cases ringIsCmd d r <;> simp
  simp only [writeRngCfg, hen, if_true, hpend]
  rfl

theorem writeRngCfg_opens {d : Dev} {r : Nat} {v : W32} (hen : ringEn d r = false) (hv : bit v 0 = true) :
    writeRngCfg d r v = if ringMayEnable d r (v &&& 0xFFFFF) then ringEnable d r (v &&& 0xFFFFF)
      else bump d (R.RNG_ERR_CNT r) := by
  have hv' : bit (v &&& 0xFFFFF) 0 = true := by simpa [bit] using hv
  simp only [writeRngCfg, hen, hv', Bool.false_eq_true, if_false, if_true]

theorem writeRngCfg_stores {d : Dev} {r : Nat} {v : W32} (hen : ringEn d r = false) (hv : bit v 0 = false) :
    writeRngCfg d r v = setReg d (R.RNG_CFG r) (v &&& 0xFFFFF) := by
  have hv' : bit (v &&& 0xFFFFF) 0 = false := by simpa [bit] using hv
  simp only [writeRngCfg, hen, hv', Bool.false_eq_true, if_false]

/-- A write that sets EN does not disable. -/
theorem setEn_not_disable {v w : W32} (hv : bit v 0 = true) : v &&& 0xFFFFF ≠ setBit w 0 false := by
  intro h
  have hbit : bit (setBit w 0 false) 0 = false := by rw [bit_setBit _ _ _ _ (by decide), if_pos rfl]
  rw [← h] at hbit
  simp [bit] at hbit hv
  rw [hv] at hbit
  cases hbit

/-! ### The rows -/

theorem exec_rngEnable {s : State} {v : W32} (path : Path) (r : RingId) (hv : bit v 0 = true) :
    exec (.rngEnable path r v) s = onDev (writeAny path (R.RNG_CFG r.toNat) 4 v) s := by
  show execRngEnable path r v s = _
  rw [execRngEnable, hv]
  rfl

theorem exec_rngDisable {s : State} {v : W32} (path : Path) (r : RingId) (hv : bit v 0 = false) :
    exec (.rngDisable path r v) s = onDev (writeAny path (R.RNG_CFG r.toNat) 4 v) s := by
  show execRngDisable path r v s = _
  rw [execRngDisable, hv]
  rfl

section Rows

variable {s : State} {path : Path} {r : RingId} {v : W32}

/-- A write that only counts in RNG_ERR_CNT. -/
def RingErr (r : RingId) (s t : State) : Prop :=
  t.pending = s.pending ∧ SameMemory s t ∧
    getReg t.dev (R.RNG_ERR_CNT r.toNat) = counted (getReg s.dev (R.RNG_ERR_CNT r.toNat)) 1 ∧
    RegsExcept [R.RNG_ERR_CNT r.toNat] s t

/-- A write that is stored, and no more. -/
def RegStored (off : Nat) (w : W32) (s t : State) : Prop :=
  t.pending = s.pending ∧ SameMemory s t ∧ getReg t.dev off = w ∧ RegsExcept [off] s t

theorem ringErr_of_bump (path : Path) (r : RingId) (s : State) :
    RingErr r s { s with dev := bump (portWake path s.dev) (R.RNG_ERR_CNT r.toNat) } :=
  ⟨rfl, by simp only [SameMemory, bump_mem, portWake_mem], ringErr_counted rfl (portWake_regs path s.dev)⟩

theorem regStored_of_setReg (path : Path) (off : Nat) (w : W32) (s : State) :
    RegStored off w s { s with dev := setReg (portWake path s.dev) off w } :=
  ⟨rfl, by simp only [SameMemory, setReg_mem, portWake_mem], reg_stored rfl (portWake_regs path s.dev)⟩

/-- A ring that R66 forbids is not enabled, and neither is one that is enabled. -/
theorem rngEnable_counted (happ : WriteApplies s path (R.RNG_CFG r.toNat)) (hv : bit v 0 = true)
    (hno : ringEn s.dev r.toNat = true ∨ ringMayEnable s.dev r.toNat (v &&& 0xFFFFF) = false) :
    Completes (.rngEnable path r v) s (RingErr r s) := by
  refine completes_of_applied (exec_rngEnable path r hv) happ ?_
  have hbump : writeRngCfg (portWake path s.dev) r.toNat v = bump (portWake path s.dev) (R.RNG_ERR_CNT r.toNat) := by
    cases hen : ringEn s.dev r.toNat with
    | true => rw [writeRngCfg_enabled v (by rwa [ringEn_portWake]), if_neg fun h => setEn_not_disable hv h.1]
    | false =>
      rw [writeRngCfg_opens (by rwa [ringEn_portWake]) hv, ringMayEnable_portWake,
        hno.resolve_left (by simp [hen]), if_neg (by decide)]
  rw [writeNow_rngCfg, hbump]
  exact ringErr_of_bump path r s

/-- What an enabled ring's registers and buffer hold (R66, R271). -/
theorem rngEnable_enables (happ : WriteApplies s path (R.RNG_CFG r.toNat)) (hv : bit v 0 = true)
    (hen : ringEn s.dev r.toNat = false) (hmay : ringMayEnable s.dev r.toNat (v &&& 0xFFFFF) = true) :
    Completes (.rngEnable path r v) s (fun t => t = { s with dev := ringEnable (portWake path s.dev) r.toNat (v &&& 0xFFFFF) }) := by
  refine completes_of_applied (exec_rngEnable path r hv) happ ?_
  rw [writeNow_rngCfg, writeRngCfg_opens (by rwa [ringEn_portWake]) hv, ringMayEnable_portWake, hmay, if_pos rfl]

/-- A write with EN clear to an enabled ring disables it or is counted (R65). -/
theorem rngDisable_enabled (happ : WriteApplies s path (R.RNG_CFG r.toNat)) (hv : bit v 0 = false)
    (hen : ringEn s.dev r.toNat = true) :
    let ok := v &&& 0xFFFFF = setBit (getReg s.dev (R.RNG_CFG r.toNat)) 0 false ∧
      (ringIsCmd s.dev r.toNat = true ∨ getReg s.dev (R.RNG_PENDING r.toNat) = 0)
    Completes (.rngDisable path r v) s (fun t =>
      (ok → RegStored (R.RNG_CFG r.toNat) (v &&& 0xFFFFF) s t) ∧ (¬ok → RingErr r s t)) := by
  refine completes_of_applied (exec_rngDisable path r hv) happ ?_
  rw [writeNow_rngCfg, writeRngCfg_enabled v (by rwa [ringEn_portWake]), getReg_portWake, getReg_portWake,
    ringIsCmd_portWake]
  refine ⟨fun hok => ?_, fun hbad => ?_⟩
  · rw [if_pos hok]
    exact regStored_of_setReg path _ _ s
  · rw [if_neg hbad]
    exact ringErr_of_bump path r s

/-- The wipe of a ring's buffer has ended (R271). -/
theorem ringWipeEnd_ends (halive : alive s.dev = true) (hwait : ringWaitsWipe s.dev r.toNat = true)
    (hdone : ∀ u ∈ ringUnits s.dev r.toNat, (hiveTag s.dev u).isWiping = false) :
    Completes (.ringWipeEnd r) s (fun t => t.pending = s.pending ∧ RegsExcept [] s t ∧
      ringWaitsWipe t.dev r.toNat = false ∧ ∀ u ∈ ringUnits s.dev r.toNat, hiveTag t.dev u = .ring) := by
  refine completes_of_onlyIf alive rfl halive ?_
  have hall : (ringWaitsWipe s.dev r.toNat && (ringUnits s.dev r.toNat).all (fun u => !(hiveTag s.dev u).isWiping)) = true := by
    rw [hwait, Bool.true_and, List.all_eq_true]
    exact fun u hu => by rw [hdone u hu]; rfl
  rw [ringWipeEnd, if_pos hall]
  generalize hd : ({ s.dev with ent := { s.dev.ent with ringWipe := s.dev.ent.ringWipe.filter (fun x => x ≠ r) } } : Dev) = d
  have hready := ringReady_memOnly d r.toNat
  have hregs : d.regs = s.dev.regs := by rw [← hd]
  refine ⟨rfl, regsExcept_of_regs [] (hready.regs.trans hregs), ?_, fun u hu => ?_⟩
  · have hent : (ringReady d r.toNat).ent.ringWipe = s.dev.ent.ringWipe.filter (fun x => x ≠ r) := by
      rw [hready.ent, ← hd]
    rw [ringWaitsWipe, hent, List.any_filter]
    simp [← BitVec.toNat_inj]
  · exact hiveTag_ringReady (by rwa [ringUnits_congr hregs])

/-- A disabled ring's base, and a ring's sync object, are stored (R65). -/
theorem rngBase_written (happ : WriteApplies s path (R.RNG_BASE r.toNat)) {off : BitVec 24}
    (hoff : off.toNat = R.RNG_BASE r.toNat) :
    (ringEn s.dev r.toNat = false →
      Completes (.registerWrite path off 4 v) s (RegStored (R.RNG_BASE r.toNat) (v &&& 0xFFFF) s)) ∧
    (ringEn s.dev r.toNat = true → Completes (.registerWrite path off 4 v) s (RingErr r s)) := by
  have hexec : exec (.registerWrite path off 4 v) s = onDev (writeAny path (R.RNG_BASE r.toNat) 4 v) s := by
    rw [← hoff]
    rfl
  refine ⟨fun hen => completes_of_applied hexec happ ?_, fun hen => completes_of_applied hexec happ ?_⟩
  · rw [writeNow_rngBase, writeRngBase, ringEn_portWake, hen, if_neg (by decide)]
    exact regStored_of_setReg path _ _ s
  · rw [writeNow_rngBase, writeRngBase, ringEn_portWake, hen, if_pos rfl]
    exact ringErr_of_bump path r s

theorem rngSync_written (happ : WriteApplies s path (R.RNG_SYNC r.toNat)) {off : BitVec 24}
    (hoff : off.toNat = R.RNG_SYNC r.toNat) :
    Completes (.registerWrite path off 4 v) s (RegStored (R.RNG_SYNC r.toNat) (v &&& 0xBFFF) s) := by
  have hexec : exec (.registerWrite path off 4 v) s = onDev (writeAny path (R.RNG_SYNC r.toNat) 4 v) s := by
    rw [← hoff]
    rfl
  refine completes_of_applied hexec happ ?_
  rw [writeNow_rngSync]
  exact regStored_of_setReg path _ _ s

/-- A doorbell to a disabled ring only counts (R70, R72). -/
theorem doorbell_disabled {i : Instr} (hi : exec i s = onDev (writeAny path (R.RNG_DOORBELL r.toNat) 4 v) s)
    (happ : WriteApplies s path (R.RNG_DOORBELL r.toNat)) (hen : ringEn s.dev r.toNat = false) :
    Completes i s (RingErr r s) := by
  refine completes_of_applied hi happ ?_
  rw [writeNow_rngDoorbell, writeDoorbell_disabled v (by rwa [ringEn_portWake])]
  exact ringErr_of_bump path r s

/-- What enabling leaves of the registers and does to the buffer (R66, R271). -/
theorem rngEnable_effect (happ : WriteApplies s path (R.RNG_CFG r.toNat)) (hv : bit v 0 = true)
    (hen : ringEn s.dev r.toNat = false) (hmay : ringMayEnable s.dev r.toNat (v &&& 0xFFFFF) = true) :
    let n := r.toNat
    Completes (.rngEnable path r v) s (fun t => t.pending = s.pending ∧
      getReg t.dev (R.RNG_CFG n) = v &&& 0xFFFFF ∧ getReg t.dev (R.RNG_HEAD n) = 0 ∧
      getReg t.dev (R.RNG_TAIL n) = 0 ∧ getReg t.dev (R.RNG_PENDING n) = 0 ∧
      RegsExcept [R.RNG_CFG n, R.RNG_HEAD n, R.RNG_TAIL n, R.RNG_PENDING n] s t ∧
      ((∀ u ∈ ringUnits t.dev n, hiveTag s.dev u = .clean ∨ hiveTag s.dev u = .ring) →
        t.dev.ent = s.dev.ent ∧ (∀ u ∈ ringUnits t.dev n, hiveTag t.dev u = .ring) ∧
        (ringIsCmd t.dev n = false → ∀ i, i < ringSize t.dev n →
          bit (tblGet 0 t.dev.mem.hive (ringBase t.dev n + 64 * i + 6)) 7 = true)) ∧
      (∀ u ∈ ringUnits t.dev n, ¬(hiveTag s.dev u = .clean ∨ hiveTag s.dev u = .ring) →
        hiveTag t.dev u = .wipingRing ∧ ringWaitsWipe t.dev n = true)) := by
  obtain ⟨t, ht, rfl⟩ := rngEnable_enables happ hv hen hmay
  have htag : ∀ u, hiveTag (portWake path s.dev) u = hiveTag s.dev u := fun u => by simp only [hiveTag, portWake_mem]
  simp only [← htag]
  refine ⟨_, ht, rfl, ?_, ?_, ?_, ?_, fun o ho => ?_, fun hclean => ?_, fun u hu hdirty => ringEnable_dirty r.isLt hu hdirty⟩
  iterate 4
    rw [getReg_ringEnable]
    simp [R.RNG_CFG, R.RNG_HEAD, R.RNG_TAIL, R.RNG_PENDING]
  · simp only [List.mem_cons, List.not_mem_nil, or_false, not_or] at ho
    obtain ⟨hcfg, hhead, htail, hpend⟩ := ho
    rw [getReg_ringEnable, if_neg hpend, if_neg htail, if_neg hhead, if_neg hcfg, getReg_portWake]
  · obtain ⟨hent, hrest⟩ := ringEnable_ready hclean
    exact ⟨hent.trans (portWake_ent path s.dev), hrest⟩

end Rows

/-! ### The statement -/

/-- Settles O15: each write of RNG_CFG by the state of the ring and by R66, and the writes of its other registers. -/
theorem ringsEnableAndDisable : Obligations.RingsEnableAndDisable := by
  intro s path r v
  dsimp only
  refine ⟨fun happ hv _ hno => rngEnable_counted happ hv (.inr hno),
    fun happ hv hen hmay => rngEnable_effect happ hv hen hmay,
    fun halive hwait hdone => ringWipeEnd_ends halive hwait hdone, fun happ hv hen => ?_,
    fun happ hv hen => rngEnable_counted happ hv (.inl hen), fun happ hv hen => ?_,
    fun off hoff happ => rngBase_written (hoff ▸ happ) hoff, fun off hoff happ => rngSync_written (hoff ▸ happ) hoff,
    fun happ hen => ⟨fun hcmd => doorbell_disabled (exec_rngDoorbellCommand path v hcmd) happ hen,
      fun hcmd => doorbell_disabled (exec_rngDoorbellCompletion path v hcmd) happ hen⟩⟩
  · obtain ⟨t, ht, hstored, hcounted⟩ := rngDisable_enabled happ hv hen
    by_cases hok : v &&& 0xFFFFF = setBit (getReg s.dev (R.RNG_CFG r.toNat)) 0 false ∧
        (ringIsCmd s.dev r.toNat = true ∨ getReg s.dev (R.RNG_PENDING r.toNat) = 0)
    · obtain ⟨hpend, hmem, hcfg, hrest⟩ := hstored hok
      exact ⟨t, ht, hpend, hmem, fun _ => ⟨hcfg, by simpa [ringEn, ringCfg, hcfg, bit] using hv, hrest⟩,
        fun h => absurd hok h⟩
    · obtain ⟨hpend, hmem, herr⟩ := hcounted hok
      exact ⟨t, ht, hpend, hmem, fun h => absurd h hok, fun _ => herr⟩
  · refine completes_of_applied (exec_rngDisable path r hv) happ ?_
    rw [writeNow_rngCfg, writeRngCfg_stores (by rwa [ringEn_portWake]) hv]
    exact regStored_of_setReg path _ _ s

end Sys2Proof.Machine
end

section
/-!
PROOFS. Writes to a tenant context (R80): stored while it is FREE; HOT alone in an ACTIVE one; counted elsewhere.
-/

namespace Sys2Proof.Machine

open Sys2Proof

/-! ### Words but for their bit 0 -/

theorem setBit_zero_false (w : W32) : setBit w 0 false = w &&& 0xFFFFFFFE := by
  have hmask : ∀ i < 32, (0xFFFFFFFE : W32).getLsbD i = decide (i ≠ 0) := by decide
  apply BitVec.eq_of_getLsbD_eq
  intro i hi
  have hset := bit_setBit w 0 i false (by decide)
  rw [bit, bit] at hset
  rw [hset, BitVec.getLsbD_and, hmask i hi]
  by_cases h : i = 0 <;> simp [h]

theorem setBit_zero_and (w : W32) (b : Bool) : setBit w 0 b &&& 0xFFFFFFFE = w &&& 0xFFFFFFFE := by
  rw [← setBit_zero_false, ← setBit_zero_false]
  apply BitVec.eq_of_getLsbD_eq
  intro i hi
  have hbit := fun (x : W32) => bit_setBit x 0 i false (by decide)
  have hset := bit_setBit w 0 i b (by decide)
  simp only [bit] at hbit hset
  rw [hbit, hbit, hset]
  split <;> rfl

/-- A counter after no event. -/
theorem counted_zero (w : W32) : counted w 0 = w := by
  have hw : w.toNat < 2 ^ 32 := w.isLt
  rw [counted, Nat.add_zero, Nat.min_eq_left (by omega), BitVec.ofNat_toNat, BitVec.setWidth_eq]

/-! ### The window of a context -/

/-- A write in the window of a context is R80's. -/
theorem writeNow_tcx (T : TenantId) (off : BitVec 8) (v : W32) (d : Dev) :
    writeNow (0x100000 + 256 * T.toNat + off.toNat) v d = writeTcx d T.toNat off.toNat v := by
  have hT : T.toNat < 4096 := T.isLt
  have hoff : off.toNat < 256 := off.isLt
  have htenant : (0x100000 + 256 * T.toNat + off.toNat - 0x100000) / 256 = T.toNat := by omega
  have hplace : (0x100000 + 256 * T.toNat + off.toNat) % 256 = off.toNat := by omega
  unfold writeNow
  rw [if_neg (by omega), if_neg (by omega), if_pos (by omega), htenant, hplace]

section Context

variable {d : Dev} {t o : Nat} (v : W32)

theorem writeTcx_free (hfree : tcxState d t = 0) (hrw : regAccess? (0x100000 + 256 * t + o) = some .rw) :
    writeTcx d t o v = setReg d (0x100000 + 256 * t + o) (v &&& regMask (0x100000 + 256 * t + o)) := by
  rw [writeTcx, if_pos hfree, if_pos hrw]

theorem writeTcx_active (hactive : tcxState d t = 1) :
    let mode := 0x100000 + 256 * t + 4
    let e := setReg d mode (setBit (getReg d mode) 0 (bit v 0))
    writeTcx d t 4 v =
      if v &&& 0xFFFFFFFE = getReg d mode &&& 0xFFFFFFFE then e else bump e R.ENT_TCX_IGN_CNT := by
  have hfree : ¬ tcxState d t = 0 := by omega
  rw [writeTcx, if_neg hfree, if_pos ⟨hactive, rfl⟩]
  simp only [setBit_zero_false, ne_eq, ite_not]

theorem writeTcx_busy (hbusy : tcxState d t ≠ 0) (hother : ¬(tcxState d t = 1 ∧ o = 4)) :
    writeTcx d t o v = bump d R.ENT_TCX_IGN_CNT := by
  rw [writeTcx, if_neg hbusy, if_neg hother]

end Context

@[simp] theorem tcxState_portWake (path : Path) (d : Dev) (t : Nat) : tcxState (portWake path d) t = tcxState d t := by
  rw [tcxState, regFld, getReg_portWake, tcxState, regFld]

/-- A write to TCX_MODE of an ACTIVE context: HOT is stored, and a change of another bit counts. -/
theorem tcxMode_active {d : Dev} (T : TenantId) (v : W32) :
    let mode := 0x100000 + 256 * T.toNat + 4
    let e := setReg d mode (setBit (getReg d mode) 0 (bit v 0))
    let f := if v &&& 0xFFFFFFFE = getReg d mode &&& 0xFFFFFFFE then e else bump e R.ENT_TCX_IGN_CNT
    bit (getReg f mode) 0 = bit v 0 ∧ getReg f mode &&& 0xFFFFFFFE = getReg d mode &&& 0xFFFFFFFE ∧
      getReg f R.ENT_TCX_IGN_CNT = counted (getReg d R.ENT_TCX_IGN_CNT)
        (if v &&& 0xFFFFFFFE = getReg d mode &&& 0xFFFFFFFE then 0 else 1) ∧
      ∀ o, o ∉ [mode, R.ENT_TCX_IGN_CNT] → getReg f o = getReg d o := by
  intro mode e f
  have hne : mode ≠ R.ENT_TCX_IGN_CNT := by
    simp only [mode, R.ENT_TCX_IGN_CNT]
    omega
  have hcnt : getReg e R.ENT_TCX_IGN_CNT = getReg d R.ENT_TCX_IGN_CNT := getReg_setReg_ne _ _ _ _ hne.symm
  have hmode : getReg f mode = setBit (getReg d mode) 0 (bit v 0) := by
    simp only [f]
    split
    · exact getReg_setReg_self _ _ _
    · rw [getReg_bump, if_neg hne]
      exact getReg_setReg_self _ _ _
  refine ⟨?_, ?_, ?_, fun o ho => ?_⟩
  · rw [hmode, bit_setBit _ _ _ _ (by decide), if_pos rfl]
  · rw [hmode, setBit_zero_and]
  · simp only [f]
    split
    · rw [hcnt, counted_zero]
    · rw [getReg_bump_self, hcnt]
  · simp only [List.mem_cons, List.not_mem_nil, or_false, not_or] at ho
    obtain ⟨hmode', hcnt'⟩ := ho
    simp only [f]
    split
    · exact getReg_setReg_ne _ _ _ _ hmode'
    · rw [getReg_bump, if_neg hcnt']
      exact getReg_setReg_ne _ _ _ _ hmode'

/-- A write to a context touches no memory. -/
theorem writeTcx_mem (d : Dev) (t o : Nat) (v : W32) : (writeTcx d t o v).mem = d.mem := by
  unfold writeTcx
  split
  · dsimp only
    split <;> rfl
  · split
    · dsimp only
      split <;> rfl
    · rfl

/-- Settles O11: by the state of the context. -/
theorem contextWritesNeedFree : Obligations.ContextWritesNeedFree := by
  intro s path T off val
  dsimp only
  intro happ
  refine completes_of_applied rfl happ ?_
  have hregs := portWake_regs path s.dev
  rw [writeNow_tcx]
  refine ⟨rfl, by rw [SameMemory, writeTcx_mem, portWake_mem], fun hfree hrw => ?_, fun hactive hoff => ?_,
    fun hbusy hother => ?_⟩
  · rw [writeTcx_free val (by rwa [tcxState_portWake]) hrw]
    exact reg_stored rfl hregs
  · subst hoff
    have hmode := tcxMode_active (d := portWake path s.dev) T val
    simp only [getReg_portWake] at hmode
    have hdev := writeTcx_active (d := portWake path s.dev) val ((tcxState_portWake _ _ _).trans hactive)
    simp only [getReg_portWake] at hdev
    rw [show (4 : BitVec 8).toNat = 4 from rfl, hdev]
    exact hmode
  · rw [writeTcx_busy val (by rwa [tcxState_portWake]) (by
      rw [tcxState_portWake]
      exact fun h => hother ⟨h.1, BitVec.eq_of_toNat_eq h.2⟩)]
    exact ⟨by rw [getReg_bump_self, getReg_portWake], regsExcept_bump rfl hregs⟩

end Sys2Proof.Machine
end

section
/-!
PROOFS. Hive memory by frame (R67, R271, R324): MEM_WR and MEM_RD, within rings and elsewhere.
-/

namespace Sys2Proof.Machine

open Sys2Proof

/-! What decides an access reads the window, the rings that wait for a wipe, and hive memory. -/

theorem inRings_arrived (p : PortId) (typ : Byte) (d : Dev) (ok : Dev → Nat → Bool) (a n : Nat)
    (hok : ∀ e, e.regs = d.regs → ok e = ok d) :
    inRings (arrived p typ d) (ok (arrived p typ d)) a n = inRings d (ok d) a n := by
  have halike := arrived_readsAlike p typ d
  rw [hok _ halike.regs, halike.rest]
  rfl

theorem ringRead_arrived (p : PortId) (typ : Byte) (d : Dev) (a n : Nat) :
    ringRead (arrived p typ d) a n = ringRead d a n := by
  rw [(arrived_readsAlike p typ d).rest]
  rfl

section Served

variable {s : State} {p : PortId} {f : Frame}

/-- The answer to an accepted frame, from a device that differs from the arrived one in memory alone. -/
theorem answered_of_memOnly {typ : Byte} {e : Dev} (payload : List Byte) (he : MemOnly (arrived p typ s.dev) e)
    (hretrain : (getPort s.dev p).retraining = false) (hacc : Accepted s p f typ) :
    Answered p f payload s { s with dev := answerOn p f payload e } := by
  obtain ⟨_, _, hup, hfate, _⟩ := hacc
  obtain ⟨m, rfl⟩ := he
  obtain ⟨htx, hre⟩ := arrived_port p typ s.dev p
  exact answered_of_accept payload (arrived_readsAlike p typ s.dev).regs htx (hre.trans hretrain) hup hfate

/-- An access that lies elsewhere: answered, and counted in ENT_HIVE_DENY_CNT. -/
theorem hiveDenied {typ : Byte} (payload : List Byte) (hretrain : (getPort s.dev p).retraining = false)
    (hacc : Accepted s p f typ) :
    let t : State := { s with dev := answerOn p f payload (bump (arrived p typ s.dev) R.ENT_HIVE_DENY_CNT) }
    t.pending = s.pending ∧ Answered p f payload s t ∧ SameMemory s t ∧
      getReg t.dev R.ENT_HIVE_DENY_CNT = counted (getReg s.dev R.ENT_HIVE_DENY_CNT) 1 ∧
      RegsExcept [R.ENT_HIVE_DENY_CNT] s t := by
  obtain ⟨_, _, hup, hfate, _⟩ := hacc
  have halike := arrived_readsAlike p typ s.dev
  obtain ⟨htx, hre⟩ := arrived_port p typ s.dev p
  have hstatus : R.LNK_STATUS p.val ≠ R.ENT_HIVE_DENY_CNT := by
    simp only [R.LNK_STATUS, R.ENT_HIVE_DENY_CNT]
    omega
  have hkeep : ∀ o, o ≠ R.ENT_HIVE_DENY_CNT →
      getReg (bump (arrived p typ s.dev) R.ENT_HIVE_DENY_CNT) o = getReg s.dev o := fun o ho => by
    rw [getReg_bump, if_neg ho, getReg_congr halike.regs]
  refine ⟨rfl, answerOn_tx payload (hkeep _ hstatus) (hkeep _ (by decide)) htx (hre.trans hretrain) hup hfate, ?_, ?_,
    fun o ho => ?_⟩
  · rw [SameMemory, answerOn_mem, bump_mem, halike.mem]
  · rw [getReg_answerOn, getReg_bump_self, getReg_congr halike.regs]
  · rw [getReg_answerOn, hkeep o (by simpa using ho)]

/-- MEM_WR into command rings stores its payload. -/
theorem memWr_stored (hretrain : (getPort s.dev p).retraining = false) (hacc : Accepted s p f tMEM_WR)
    (hin : inRings s.dev (ringIsCmd s.dev) f.addr.toNat f.payload.length = true) :
    Completes (.memWr p f) s (fun t => t.pending = s.pending ∧ Answered p f [] s t ∧ RegsExcept [] s t ∧
      hiveRead t.dev f.addr.toNat f.payload.length = f.payload ∧ t.dev.mem.cm = s.dev.mem.cm ∧
      ∀ a, a < f.addr.toNat ∨ f.addr.toNat + f.payload.length ≤ a →
        tblGet 0 t.dev.mem.hive a = tblGet 0 s.dev.mem.hive a) := by
  have halike := arrived_readsAlike p tMEM_WR s.dev
  refine completes_of_onDev rfl ?_
  rw [recvFrame_accepted _ hacc]
  dsimp only
  rw [inRings_arrived p _ s.dev ringIsCmd _ _ fun e he => funext fun r => ringIsCmd_congr he r, hin, if_pos rfl]
  refine ⟨rfl, answered_of_memOnly _ ⟨_, rfl⟩ hretrain hacc, regsExcept_of_regs [] ?_, ?_, ?_, fun a ha => ?_⟩
  · rw [answerOn_regs, hiveWrite_regs, halike.regs]
  · rw [hiveRead_congr (answerOn_mem _ _ _ _), hiveRead_hiveWrite]
  · rw [answerOn_mem, hiveWrite_cm, halike.mem]
  · rw [answerOn_mem, hive_outside_write _ _ _ _ ha, halike.mem]

/-- MEM_RD from rings is answered with the bytes. -/
theorem memRd_served (hretrain : (getPort s.dev p).retraining = false) (hacc : Accepted s p f tMEM_RD)
    (hin : inRings s.dev (fun _ => true) f.addr.toNat f.aux.toNat = true) :
    Completes (.memRd p f) s (fun t => t.pending = s.pending ∧ SameMemory s t ∧ RegsExcept [] s t ∧
      Answered p f (ringRead s.dev f.addr.toNat f.aux.toNat) s t) := by
  have halike := arrived_readsAlike p tMEM_RD s.dev
  refine completes_of_onDev rfl ?_
  rw [recvFrame_accepted _ hacc]
  dsimp only
  rw [inRings_arrived p _ s.dev (fun _ _ => true) _ _ fun _ _ => rfl, hin, if_pos rfl, ringRead_arrived]
  refine ⟨rfl, ?_, regsExcept_of_regs [] ?_, answered_of_memOnly _ (.refl _) hretrain hacc⟩
  · rw [SameMemory, answerOn_mem, halike.mem]
  · rw [answerOn_regs, halike.regs]

end Served

/-- Settles O20: by frame, and by where its blocks lie. -/
theorem hiveAccessByFrame : Obligations.HiveAccessByFrame := by
  intro s p f hretrain
  refine ⟨fun hacc => ⟨fun hin => memWr_stored hretrain hacc hin, fun hout => ?_⟩,
    fun hacc => ⟨fun hin => memRd_served hretrain hacc hin, fun hout => ?_⟩⟩
  · refine completes_of_onDev rfl ?_
    rw [recvFrame_accepted _ hacc]
    dsimp only
    rw [inRings_arrived p _ s.dev ringIsCmd _ _ fun e he => funext fun r => ringIsCmd_congr he r, hout, if_neg (by decide)]
    exact hiveDenied _ hretrain hacc
  · refine completes_of_onDev rfl ?_
    rw [recvFrame_accepted _ hacc]
    dsimp only
    rw [inRings_arrived p _ s.dev (fun _ _ => true) _ _ fun _ _ => rfl, hout, if_neg (by decide)]
    obtain ⟨hpend, hans, hmem, hcnt⟩ := hiveDenied (zeroBytes f.aux.toNat) hretrain hacc
    exact ⟨hpend, hmem, hans, hcnt⟩

end Sys2Proof.Machine
end

section
/-!
PROOFS. SYNC_WAIT (R79, R385): as it arrives, as its comparison passes or its timeout, and as the die stops.
-/

namespace Sys2Proof.Machine

open Sys2Proof

/-! ### A SYNC_WAIT that arrives -/

theorem syncPasses_iff (v t : W32) : syncPasses v t = true ↔ (v - t).toNat < 2 ^ 31 := by simp [syncPasses]

/-- The wait that a SYNC_WAIT is held as. -/
def waitOf (f : Frame) (time : Nat) : Wait :=
  { tag := f.tag, src := f.src, obj := BitVec.ofNat 14 (leAt f.payload 0 4 % 2 ^ 14),
    threshold := BitVec.ofNat 32 (leAt f.payload 4 4), deadline := time + 1000 * leAt f.payload 8 4 }

section Arrives

variable {s : State} {p : PortId} {f : Frame}

/-- What a SYNC_WAIT does on a device that has taken it: an answer, or one more held wait, and no register or byte of memory
changes. -/
theorem syncWaitFrame_effect {e : Dev} (halike : ReadsAlike s.dev e) (htick : e.tick = s.dev.tick)
    (hport : (getPort e p).tx = (getPort s.dev p).tx ∧ (getPort e p).retraining = (getPort s.dev p).retraining)
    (hretrain : (getPort s.dev p).retraining = false) (hup : portUp s.dev p = true) (hfate : frameFate s.dev p f = .accept) :
    let v := getReg s.dev (R.SYN_VALUE (leAt f.payload 0 4 % 2 ^ 14))
    let passes := syncPasses v (BitVec.ofNat 32 (leAt f.payload 4 4)) = true
    let t : State := { s with dev := syncWaitFrame p f e }
    (t.pending = s.pending ∧ RegsExcept [] s t ∧ SameMemory s t) ∧
      (s.dev.guard.stopped = true → Answered p f (waitAnswer v true false) s t) ∧
      (s.dev.guard.stopped = false →
        (passes → Answered p f (waitAnswer v false false) s t) ∧
        (¬passes → (getPort s.dev p).waits.length < 64 → (getPort t.dev p).tx = (getPort s.dev p).tx ∧
          (getPort t.dev p).waits = (getPort s.dev p).waits ++ [waitOf f s.dev.tick.time]) ∧
        (¬passes → 64 ≤ (getPort s.dev p).waits.length → Answered p f (waitAnswer v false true) s t)) := by
  obtain ⟨htx, hre⟩ := hport
  have hguard : e.guard = s.dev.guard := by rw [halike.rest]
  have hval : getReg e (R.SYN_VALUE (leAt f.payload 0 4 % 2 ^ 14)) =
      getReg s.dev (R.SYN_VALUE (leAt f.payload 0 4 % 2 ^ 14)) := getReg_congr halike.regs _
  have hwaits : (getPort e p).waits = (getPort s.dev p).waits := halike.waits p.val
  have hans := fun payload => answered_of_accept (p := p) (f := f) (e := e) payload halike.regs htx (hre.trans hretrain)
    hup hfate
  have hquiet : ∀ payload, let t : State := { s with dev := answerOn p f payload e }
      t.pending = s.pending ∧ RegsExcept [] s t ∧ SameMemory s t := fun payload =>
    ⟨rfl, regsExcept_of_regs [] (by rw [answerOn_regs, halike.regs]), by rw [SameMemory, answerOn_mem, halike.mem]⟩
  dsimp only [syncWaitFrame]
  rw [hguard, hval, hwaits]
  cases hstopped : s.dev.guard.stopped with
  | true =>
    rw [if_pos rfl]
    exact ⟨hquiet _, fun _ => hans _, fun h => absurd h (by decide)⟩
  | false =>
    rw [if_neg (by decide)]
    split
    · rename_i hpasses
      exact ⟨hquiet _, fun h => absurd h (by decide),
        fun _ => ⟨fun _ => hans _, fun h => absurd hpasses h, fun h => absurd hpasses h⟩⟩
    · rename_i hpasses
      split
      · rename_i hfull
        exact ⟨hquiet _, fun h => absurd h (by decide),
          fun _ => ⟨fun h => absurd h hpasses, fun _ h => absurd hfull (by omega), fun _ _ => hans _⟩⟩
      · rename_i hroom
        refine ⟨⟨rfl, regsExcept_of_regs [] halike.regs, halike.mem⟩, fun h => absurd h (by decide),
          fun _ => ⟨fun h => absurd h hpasses, fun _ _ => ?_, fun _ h => absurd h hroom⟩⟩
        rw [getPort_setPort, if_pos rfl, htick]
        exact ⟨htx, rfl⟩

theorem going_of_alive {d : Dev} (h : alive d = true) : d.guard.stopped = false := by
  obtain ⟨-, hgo, -⟩ := (alive_iff d).1 h
  exact hgo

/-- A live die takes an accepted SYNC_WAIT. -/
theorem exec_syncWait_live (hacc : Accepted s p f tSYNC_WAIT) :
    exec (.syncWait p f) s = .next { s with dev := syncWaitFrame p f (arrived p tSYNC_WAIT s.dev) } := by
  have hgo : s.dev.guard.stopped = false := going_of_alive hacc.1
  show execSyncWait p f s = _
  simp only [execSyncWait, onDev, hgo]
  rw [if_neg (by decide), recvFrame_accepted _ hacc]

/-- A stopped die still takes one (R385). -/
theorem exec_syncWait_stopped (hpowered : powered s.dev = true) (hstopped : s.dev.guard.stopped = true)
    (hup : portUp s.dev p = true) (htyp : f.typ = tSYNC_WAIT) (hans : answersNothing f = false)
    (hfate : frameFate s.dev p f = .accept) :
    exec (.syncWait p f) s = .next { s with dev := syncWaitFrame p f (linkIn p s.dev) } := by
  show execSyncWait p f s = _
  simp only [execSyncWait, onDev, hstopped, hpowered, htyp, hup, hfate, hans, onlyIf]
  rfl

end Arrives

/-! ### A wait that a port holds -/

/-- The answer of a held wait (R79). -/
def waitFrame (d : Dev) (timeout : Bool) (w : Wait) : Frame :=
  mkFrame d tSYNC_WAIT 1 w.tag w.src.toNat 0 0 0 (waitAnswer (getReg d (R.SYN_VALUE w.obj.toNat)) timeout false)

theorem waitFrame_congr {d e : Dev} (h : e.regs = d.regs) (timeout : Bool) (w : Wait) :
    waitFrame e timeout w = waitFrame d timeout w := by
  rw [waitFrame, getReg_congr h, mkFrame_congr h, waitFrame]

theorem answerWait_eq (p : PortId) (timeout : Bool) (d : Dev) (w : Wait) :
    answerWait p timeout d w = sendOn p (waitFrame d timeout w) d := rfl

/-- The type of an answer to a SYNC_WAIT may leave on a link of any version (R314), on a port that is UP. -/
theorem syncWait_leaves {d : Dev} {p : PortId} (hup : portUp d p = true) :
    (!portUp d p || (decide (portVer d p = 1) && !typeAt10 tSYNC_WAIT)) = false := by
  rw [hup]
  simp [typeAt10]

/-- A port that is UP and does not retrain sends it. -/
theorem answerWait_port {d : Dev} {p : PortId} (timeout : Bool) (w : Wait) (hup : portUp d p = true)
    (hretrain : (getPort d p).retraining = false) :
    (getPort (answerWait p timeout d w) p).tx = (getPort d p).tx ++ [waitFrame d timeout w] ∧
      (getPort (answerWait p timeout d w) p).waits = (getPort d p).waits ∧
      (getPort (answerWait p timeout d w) p).retraining = false := by
  have htyp : (waitFrame d timeout w).typ = tSYNC_WAIT := rfl
  rw [answerWait_eq, sendOn, htyp, syncWait_leaves hup]
  simp only [Bool.false_eq_true, if_false, hretrain, getPort_setPort, if_true, putOut_tx, putOut_waits,
    putOut_retraining, and_self]

/-- A wait that ends, whatever of the timebase has moved with it. -/
theorem heldWait_ends {s : State} {p : PortId} (timeout : Bool) (w : Wait) (e : Dev) (hregs : e.regs = s.dev.regs)
    (hmem : e.mem = s.dev.mem) (hports : e.ports = s.dev.ports) (hup : portUp s.dev p = true)
    (hretrain : (getPort s.dev p).retraining = false) :
    let t : State := { s with dev := answerWait p timeout (dropWait p w e) w }
    t.pending = s.pending ∧ RegsExcept [] s t ∧ SameMemory s t ∧ t.dev.tick = e.tick ∧
      (getPort t.dev p).waits = (getPort s.dev p).waits.erase w ∧
      (getPort t.dev p).tx = (getPort s.dev p).tx ++ [waitFrame s.dev timeout w] := by
  have hport : getPort e p = getPort s.dev p := by simp only [getPort, hports]
  have hdrop : getPort (dropWait p w e) p = { getPort s.dev p with waits := (getPort s.dev p).waits.erase w } := by
    rw [dropWait, getPort_setPort, if_pos rfl, hport]
  have hdregs : (dropWait p w e).regs = s.dev.regs := hregs
  obtain ⟨htx, hwaits, -⟩ := answerWait_port (d := dropWait p w e) (p := p) timeout w
    (by rwa [portUp_congr hdregs]) (by rw [hdrop]; exact hretrain)
  refine ⟨rfl, regsExcept_of_regs [] ?_, ?_, ?_, ?_, ?_⟩
  · rw [answerWait_regs, hdregs]
  · rw [SameMemory, answerWait_mem]
    exact hmem
  · rw [answerWait_tick]
    rfl
  · rw [hwaits, hdrop]
  · rw [htx, hdrop, waitFrame_congr hdregs]

/-! ### STOP (R385) -/

/-- What STOP makes of the waits of one port. -/
def stopPort (d : Dev) (p : PortId) : Dev :=
  let e := (getPort d p).waits.foldl (answerWait p true) d
  setPort e p { getPort e p with waits := [] }

theorem stopWaits_eq (d : Dev) : stopWaits d = (List.finRange 6).foldl stopPort d := rfl

/-- A run of answers on one port. -/
theorem foldl_answerWait_port {p : PortId} (ws : List Wait) (d : Dev) (hup : portUp d p = true)
    (hretrain : (getPort d p).retraining = false) :
    (ws.foldl (answerWait p true) d).regs = d.regs ∧
      (getPort (ws.foldl (answerWait p true) d) p).tx = (getPort d p).tx ++ ws.map (waitFrame d true) ∧
      (getPort (ws.foldl (answerWait p true) d) p).retraining = false := by
  induction ws generalizing d with
  | nil => exact ⟨rfl, by simp, hretrain⟩
  | cons w ws ih =>
    have hregs : (answerWait p true d w).regs = d.regs := answerWait_regs p true d w
    obtain ⟨htx, -, hre⟩ := answerWait_port true w hup hretrain
    obtain ⟨hregs', htx', hre'⟩ := ih _ (by rwa [portUp_congr hregs]) hre
    refine ⟨hregs'.trans hregs, ?_, hre'⟩
    rw [List.foldl_cons, htx', htx, List.map_cons, List.append_assoc, List.singleton_append]
    congr 2
    exact List.map_congr_left fun x _ => waitFrame_congr hregs true x

/-- Answers on one port leave another. -/
theorem getPort_answerWait_ne {p q : PortId} (h : p ≠ q) (d : Dev) (w : Wait) :
    getPort (answerWait q true d w) p = getPort d p := by
  rw [answerWait_eq, sendOn]
  split
  · rfl
  · rw [getPort_setPort, if_neg h]

theorem getPort_stopPort_ne {p q : PortId} (h : p ≠ q) (d : Dev) : getPort (stopPort d q) p = getPort d p := by
  have hrun : ∀ (ws : List Wait) (e : Dev), getPort (ws.foldl (answerWait q true) e) p = getPort e p := by
    intro ws
    induction ws with
    | nil => exact fun _ => rfl
    | cons w ws ih => exact fun e => (ih _).trans (getPort_answerWait_ne h e w)
  rw [stopPort, getPort_setPort, if_neg h, hrun]

theorem stopPort_regs (d : Dev) (q : PortId) : (stopPort d q).regs = d.regs := by
  have hrun : ((getPort d q).waits.foldl (answerWait q true) d).regs = d.regs :=
    foldl_keep (·.regs) _ _ _ fun e w => answerWait_regs q true e w
  rw [stopPort, setPort_regs, hrun]

theorem getPort_stopPort_self {d : Dev} {p : PortId} (hup : portUp d p = true)
    (hretrain : (getPort d p).retraining = false) :
    (getPort (stopPort d p) p).waits = [] ∧ (getPort (stopPort d p) p).retraining = false ∧
      (getPort (stopPort d p) p).tx = (getPort d p).tx ++ (getPort d p).waits.map (waitFrame d true) := by
  obtain ⟨-, htx, hre⟩ := foldl_answerWait_port (getPort d p).waits d hup hretrain
  rw [stopPort, getPort_setPort, if_pos rfl]
  exact ⟨rfl, hre, htx⟩

/-- The steps of STOP at other ports leave a port. -/
theorem getPort_foldl_stopPort {p : PortId} (qs : List PortId) (d : Dev) (hp : p ∉ qs) :
    getPort (qs.foldl stopPort d) p = getPort d p := by
  induction qs generalizing d with
  | nil => rfl
  | cons q qs ih =>
    rw [List.mem_cons, not_or] at hp
    exact (ih _ hp.2).trans (getPort_stopPort_ne hp.1 d)

/-- A run of the steps of STOP, one of them at a port that is UP: its waits are answered in their order, and it holds none
after it. -/
theorem foldl_stopPort_port {d : Dev} {p : PortId} (pre post : List PortId) (hnodup : (pre ++ p :: post).Nodup)
    (hup : portUp d p = true) (hretrain : (getPort d p).retraining = false) :
    let e := (pre ++ p :: post).foldl stopPort d
    (getPort e p).waits = [] ∧ (getPort e p).retraining = false ∧
      (getPort e p).tx = (getPort d p).tx ++ (getPort d p).waits.map (waitFrame d true) := by
  rw [List.nodup_append, List.nodup_cons] at hnodup
  obtain ⟨-, ⟨hpost, -⟩, hdisjoint⟩ := hnodup
  have hpre : p ∉ pre := fun h => hdisjoint p h p List.mem_cons_self rfl
  have hregs : (pre.foldl stopPort d).regs = d.regs := foldl_keep (·.regs) _ _ _ stopPort_regs
  have hbefore : getPort (pre.foldl stopPort d) p = getPort d p := getPort_foldl_stopPort pre d hpre
  obtain ⟨hwaits, hre, htx⟩ := getPort_stopPort_self (d := pre.foldl stopPort d) (p := p)
    (by rwa [portUp_congr hregs]) (by rwa [hbefore])
  have hframes : (getPort d p).waits.map (waitFrame (pre.foldl stopPort d) true) =
      (getPort d p).waits.map (waitFrame d true) := List.map_congr_left fun w _ => waitFrame_congr hregs true w
  rw [hbefore, hframes] at htx
  rw [List.foldl_append, List.foldl_cons]
  dsimp only
  rw [getPort_foldl_stopPort post _ hpost]
  exact ⟨hwaits, hre, htx⟩

theorem stopWaits_port {d : Dev} {p : PortId} (hup : portUp d p = true) (hretrain : (getPort d p).retraining = false) :
    (getPort (stopWaits d) p).waits = [] ∧ (getPort (stopWaits d) p).retraining = false ∧
      (getPort (stopWaits d) p).tx = (getPort d p).tx ++ (getPort d p).waits.map (waitFrame d true) := by
  rw [stopWaits_eq]
  have hnodup := List.nodup_finRange 6
  have hmem := List.mem_finRange p
  generalize List.finRange 6 = ps at hnodup hmem
  obtain ⟨pre, post, rfl⟩ := List.append_of_mem hmem
  exact foldl_stopPort_port pre post hnodup hup hretrain

/-- A worker's report leaves behind what its port has sent, and no port's waits change. -/
theorem sendReport_port (b : Bool) {d : Dev} {p : PortId} (hretrain : (getPort d p).retraining = false) :
    (getPort (sendReport b d) p).waits = (getPort d p).waits ∧
      ∃ notice, (getPort (sendReport b d) p).tx = (getPort d p).tx ++ notice := by
  unfold sendReport
  split
  · exact ⟨rfl, [], (List.append_nil _).symm⟩
  · rename_i q _
    show (getPort (sendOn q _ (takeTag q d).2) p).waits = _ ∧ ∃ notice, (getPort (sendOn q _ (takeTag q d).2) p).tx = _
    have htag : (getPort (takeTag q d).2 p).waits = (getPort d p).waits ∧ (getPort (takeTag q d).2 p).tx = (getPort d p).tx ∧
        (getPort (takeTag q d).2 p).retraining = false := by
      rw [show (takeTag q d).2 = setPort d q { getPort d q with nextTag := (getPort d q).nextTag + 1 } from rfl,
        getPort_setPort]
      split
      · rename_i h
        subst h
        exact ⟨rfl, rfl, hretrain⟩
      · exact ⟨rfl, rfl, hretrain⟩
    obtain ⟨hwaits, htx, hre⟩ := htag
    unfold sendOn
    split
    · exact ⟨hwaits, [], by rw [htx, List.append_nil]⟩
    · dsimp only
      rw [getPort_setPort]
      split
      · rename_i h
        subst h
        rw [hre, if_neg (by decide), putOut_waits, putOut_tx, htx]
        exact ⟨hwaits, _, rfl⟩
      · exact ⟨hwaits, [], by rw [htx, List.append_nil]⟩

/-- Every unit stopped, the keeper's core halted, and the in-band interrupt raised. -/
def dieDown (d : Dev) : Dev :=
  { d with
    die := { d.die with i3cIbi := true }
    keeper := { d.keeper with running := false }
    guard := { d.guard with stopped := true } }

@[simp] theorem dieDown_ports (d : Dev) : (dieDown d).ports = d.ports := rfl

theorem stopDie_eq {d : Dev} (hgo : d.guard.stopped = false) : stopDie d =
    if role d = 2 then sendReport true (dieDown (dropAttempt (stopWaits d))) else dieDown (dropAttempt (stopWaits d)) := by
  unfold stopDie
  rw [hgo]
  rfl

/-- STOP of a die that runs: every wait of a port that is UP is answered, and a worker's fatal notice alone may follow. -/
theorem stopDie_port {d : Dev} {p : PortId} (hgo : d.guard.stopped = false) (hup : portUp d p = true)
    (hretrain : (getPort d p).retraining = false) :
    (getPort (stopDie d) p).waits = [] ∧ ∃ notice, (role d ≠ 2 → notice = []) ∧
      (getPort (stopDie d) p).tx = (getPort d p).tx ++ (getPort d p).waits.map (waitFrame d true) ++ notice := by
  have hport : getPort (dropAttempt (stopWaits d)) p = getPort (stopWaits d) p := by
    simp only [getPort, dropAttempt_ports]
  have hwaits := stopWaits_port hup hretrain
  rw [← hport] at hwaits
  rw [stopDie_eq hgo]
  generalize dropAttempt (stopWaits d) = e at hwaits
  obtain ⟨hwaits, hre, htx⟩ := hwaits
  rw [← htx]
  split
  · rename_i hrole
    obtain ⟨hw, notice, hn⟩ := sendReport_port true (d := dieDown e) hre
    exact ⟨hw.trans hwaits, notice, fun h => absurd hrole h, hn⟩
  · exact ⟨hwaits, [], fun _ => rfl, (List.append_nil _).symm⟩

/-- The device on which a fatal report stops the die: the report counted and its record stored. -/
theorem report_forced (d : Dev) : ∃ e, report (mkReport 0x45 unitKeeper) d = stopDie e ∧ e.ports = d.ports ∧
    e.guard.stopped = d.guard.stopped ∧ ∀ o, guardReg o = false → getReg e o = getReg d o := by
  have hmerge : mergesInto (countReport 2 d) (mkReport 0x45 unitKeeper) = none := rfl
  let q := recordOf (countReport 2 d) (mkReport 0x45 unitKeeper) d.tick.num (getReg (countReport 2 d) R.GRD_NEXT_SEQ)
  let e := setReg (countReport 2 d) R.GRD_NEXT_SEQ (nextSeq (getReg (countReport 2 d) R.GRD_NEXT_SEQ))
  have hfatal : (storeFatal q e).guard.stopped = e.guard.stopped ∧
      ∀ o, guardReg o = false → getReg (storeFatal q e) o = getReg e o := by
    unfold storeFatal
    split
    · exact ⟨rfl, fun _ _ => rfl⟩
    · exact ⟨rfl, fun o ho => getReg_setReg_guard ho _ _ rfl⟩
  have hstop : (storeRecord q (storeFatal q e)).guard.stopped = (storeFatal q e).guard.stopped := by
    unfold storeRecord
    dsimp only
    split
    · rfl
    · split <;> rfl
  refine ⟨storeRecord q (storeFatal q e), ?_, ?_, hstop.trans (hfatal.1.trans ?_), fun o ho => ?_⟩
  · show (guardTakeAt d.tick.num (mkReport 0x45 unitKeeper) d).2 = _
    unfold guardTakeAt
    rw [show errClass (mkReport 0x45 unitKeeper).code = 2 from rfl]
    dsimp only
    rw [hmerge]
    dsimp only
    rw [if_pos (rfl : 2 = 2), show (recordOf (countReport 2 d) (mkReport 0x45 unitKeeper) d.tick.num
      (getReg (countReport 2 d) R.GRD_NEXT_SEQ)).hwEsc = false from rfl, if_neg (by decide)]
  · rw [storeRecord_ports, storeFatal_ports, setReg_ports, countReport_ports]
  · rw [setReg_guard, countReport_guard]
  · rw [getReg_storeRecord_outside ho, hfatal.2 o ho, getReg_setReg_guard ho _ _ rfl, getReg_countReport_outside ho]

/-- A write that applies reaches a live die. -/
theorem alive_of_applies {s : State} {path : Path} {off : Nat} (h : WriteApplies s path off) : alive s.dev = true := by
  unfold WriteApplies writeFate at h
  by_contra hdead
  rw [Bool.not_eq_true] at hdead
  rw [hdead] at h
  cases h

theorem writeNow_grdForce (d : Dev) : writeNow R.GRD_FORCE 0xFA7A0001 d = report (mkReport 0x45 unitKeeper) d := rfl

/-- GRD_FORCE stops the die (R393), and its ports answer their waits. -/
theorem grdForce_waits {s : State} {p : PortId} {path : Path} (happ : WriteApplies s path R.GRD_FORCE)
    (hup : portUp s.dev p = true) (hretrain : (getPort s.dev p).retraining = false) :
    Completes (.grdForce path 0xFA7A0001) s (fun t => (getPort t.dev p).waits = [] ∧
      ∃ notice, (role s.dev ≠ 2 → notice = []) ∧
        (getPort t.dev p).tx = (getPort s.dev p).tx ++ (getPort s.dev p).waits.map (waitFrame s.dev true) ++ notice) := by
  refine completes_of_applied rfl happ ?_
  obtain ⟨e, hstop, hports, hstopped, hkeep⟩ := report_forced (portWake path s.dev)
  have hreg : ∀ o, guardReg o = false → getReg e o = getReg s.dev o := fun o ho => by rw [hkeep o ho, getReg_portWake]
  have hport : getPort e p = getPort s.dev p := by simp only [getPort, hports, portWake_ports]
  have hstatus : getReg e (R.LNK_STATUS p.val) = getReg s.dev (R.LNK_STATUS p.val) := by
    refine hreg _ (Bool.and_eq_false_iff.2 (.inr (decide_eq_false ?_)))
    simp only [R.LNK_STATUS, R.GRD_REC]
    omega
  have hsyn : ∀ o, getReg e (R.SYN_VALUE o) = getReg s.dev (R.SYN_VALUE o) := fun o => by
    refine hreg _ (Bool.and_eq_false_iff.2 (.inr (decide_eq_false ?_)))
    simp only [R.SYN_VALUE, R.GRD_REC]
    omega
  have hframe : ∀ w, waitFrame e true w = waitFrame s.dev true w := fun w => by
    simp only [waitFrame, hsyn, mkFrame, dieIndex, hreg R.TICK_DIE_INDEX rfl]
  have hgo : e.guard.stopped = false := by
    rw [hstopped, portWake_guard]
    exact going_of_alive (alive_of_applies happ)
  have hrole : role e = role s.dev := by simp only [role, regFld, hreg R.TICK_CFG rfl]
  have hrun := stopDie_port (d := e) (p := p) hgo (by rwa [portUp, portState, regFld, hstatus]) (by rwa [hport])
  rw [hport, hrole, List.map_congr_left fun w _ => hframe w] at hrun
  rw [writeNow_grdForce, hstop]
  exact hrun

/-! ### The statement -/

/-- Settles O21: a SYNC_WAIT as it arrives, a held one as it ends, and all of a port's at STOP. -/
theorem syncWaits : Obligations.SyncWaits := by
  intro s p hretrain
  refine ⟨fun f hacc => ?_, fun f hpowered hstopped hup htyp hans hfate => ?_, fun tag w halive hup hheld => ?_,
    fun tag w halive hup hheld => ?_, fun path happ hup => grdForce_waits happ hup hretrain⟩
  · have hexec := exec_syncWait_live hacc
    obtain ⟨halive, -, hup, hfate, -⟩ := hacc
    obtain ⟨⟨hpend, hregs, hmem⟩, -, hlive⟩ := syncWaitFrame_effect (s := s) (p := p) (f := f)
      (arrived_readsAlike p tSYNC_WAIT s.dev) (arrived_tick p _ _) (arrived_port p _ _ p) hretrain hup hfate
    obtain ⟨hpass, hhold, hfull⟩ := hlive (going_of_alive halive)
    simp only [← syncPasses_iff]
    refine ⟨_, hexec, hpend, hregs, hmem, hpass, fun hno hroom => ?_, hfull⟩
    obtain ⟨htx, hwaits⟩ := hhold hno hroom
    exact ⟨htx, _, hwaits, rfl, rfl⟩
  · obtain ⟨⟨hpend, hregs, hmem⟩, hstop, -⟩ := syncWaitFrame_effect (s := s) (p := p) (f := f) (linkIn_readsAlike p s.dev)
      (linkIn_tick p _) ⟨linkIn_port_tx p _ p, linkIn_port_retraining p _ p⟩ hretrain hup hfate
    exact ⟨_, exec_syncWait_stopped hpowered hstopped hup htyp hans hfate, hpend, hregs, hmem, hstop hstopped⟩
  · obtain ⟨hpend, hregs, hmem, -, hwaits, htx⟩ := heldWait_ends (s := s) false w s.dev rfl rfl rfl hup hretrain
    refine ⟨_, rfl, ?_⟩
    dsimp only
    rw [hheld]
    dsimp only
    rw [halive]
    exact ⟨hpend, hregs, hmem, hwaits, htx⟩
  · obtain ⟨hpend, hregs, hmem, htick, hwaits, htx⟩ := heldWait_ends (s := s) true w (advanceTo w.deadline s.dev)
      (advanceTo_regs _ _) (advanceTo_mem _ _) (advanceTo_ports _ _) hup hretrain
    refine ⟨_, rfl, ?_⟩
    dsimp only
    rw [hheld]
    dsimp only
    rw [halive]
    exact ⟨hpend, hregs, hmem, by rw [Nat.max_comm, ← advanceTo_time, ← htick]; rfl, hwaits, htx⟩

end Sys2Proof.Machine
end

section
/-!
PROOFS. The command reader (R68, R69, R73, R74, R76, R276): the device on which a command's action acts, what its record
leaves, and the commands BAD_CMD, SYNC_SET and CT_LOAD.
-/

namespace Sys2Proof.Machine

open Sys2Proof

/-! ### A command that has been taken -/

/-- The reference of a command that its record echoes. -/
def cmdRefOf (e : CmdEntry) (d : Dev) : CmdRef :=
  { ring := e.ring, ctr := getReg d (R.RNG_TAIL e.ring), cmdId := e.cmdId, code := e.code, tenant := e.tenant,
    seq := e.seq, tick := d.tick.num }

/-- The entries of a command behind its first. -/
def cmdPayload (ring : RingId) (n : Nat) (d : Dev) : List (List Byte) :=
  (List.range (n - 1)).map (fun k => cmdEntryAt d ring.toNat (k + 1))

/-- The command's entries are consumed. -/
def cmdConsumed (ring : RingId) (e : CmdEntry) (d : Dev) : Dev :=
  consumeEntries ring.toNat (cmdSize e.code) (pickCmd d (cmdOrder d)).2 d

/-- The command's entries are consumed, and its completion slot is reserved. -/
def cmdTaken (ring : RingId) (e : CmdEntry) (d : Dev) : Dev := (reserveSlot (cmdConsumed ring e d) e.ring).2

/-- What the reader does with the RESULT of an action: a record, or none yet. -/
def cmdAnswer (e : CmdEntry) (x : CmdRef) (out : Option Nat × Dev) : Dev :=
  match out.1 with
  | some res => cmdRecord x res (cmdLength out.2 e) out.2
  | none => out.2

/-- Registers that neither the reader nor a ring's record touches, the sync objects among them. -/
def ApartFromReader (o : Nat) : Prop := (o < 0x40000 ∨ 0x80000 ≤ o) ∧ o ≠ R.ENT_CMD_CNT ∧ o ≠ R.ENT_CMD_NEXT

section Taken

variable (ring : RingId) (e : CmdEntry) (d : Dev)

theorem getReg_cmdConsumed (p : Nat) : getReg (cmdConsumed ring e d) p =
    if p = R.ENT_CMD_NEXT then BitVec.ofNat 32 ((ring.toNat + 1) % 4096)
    else if p = R.ENT_CMD_CNT then counted (getReg d R.ENT_CMD_CNT) (cmdSize e.code)
    else if p = R.RNG_HEAD ring.toNat then getReg d (R.RNG_HEAD ring.toNat) + BitVec.ofNat 32 (cmdSize e.code)
    else getReg d p := by
  have hcnt : R.ENT_CMD_CNT ≠ R.RNG_HEAD ring.toNat := by simp only [R.ENT_CMD_CNT, R.RNG_HEAD]; omega
  show getReg (setReg (bumpBy (setReg d (R.RNG_HEAD ring.toNat) _) R.ENT_CMD_CNT _) R.ENT_CMD_NEXT _) p = _
  simp only [getReg_setReg, getReg_bumpBy, if_neg hcnt, counted]

theorem getReg_cmdTaken (p : Nat) : getReg (cmdTaken ring e d) p =
    if p = R.RNG_PENDING e.ring then getReg d p + 1
    else if p = R.RNG_TAIL e.ring then getReg d p + 1
    else getReg (cmdConsumed ring e d) p := by
  have htail : getReg (cmdConsumed ring e d) (R.RNG_TAIL e.ring) = getReg d (R.RNG_TAIL e.ring) := by
    rw [getReg_cmdConsumed, if_neg, if_neg, if_neg]
    all_goals simp only [R.ENT_CMD_NEXT, R.ENT_CMD_CNT, R.RNG_HEAD, R.RNG_TAIL]; omega
  have hpend : getReg (cmdConsumed ring e d) (R.RNG_PENDING e.ring) = getReg d (R.RNG_PENDING e.ring) := by
    rw [getReg_cmdConsumed, if_neg, if_neg, if_neg]
    all_goals simp only [R.ENT_CMD_NEXT, R.ENT_CMD_CNT, R.RNG_HEAD, R.RNG_PENDING]; omega
  show getReg (setReg (setReg (cmdConsumed ring e d) _ _) _ _) p = _
  rw [getReg_setReg, getReg_setReg, htail, hpend]
  split
  · rename_i h
    rw [h]
  · split
    · rename_i h
      rw [h]
    · rfl

variable {e} in
/-- Registers of other units are as they were. -/
theorem getReg_cmdTaken_apart (hr : e.ring < 4096) {p : Nat} (hp : ApartFromReader p) :
    getReg (cmdTaken ring e d) p = getReg d p := by
  obtain ⟨hwin, hcnt, hnext⟩ := hp
  have hring : ring.toNat < 4096 := ring.isLt
  rw [getReg_cmdTaken, if_neg, if_neg, getReg_cmdConsumed, if_neg hnext, if_neg hcnt, if_neg]
  all_goals simp only [R.RNG_HEAD, R.RNG_TAIL, R.RNG_PENDING]; omega

/-- The configuration of a ring, its base, its sync object and its error count are as they were. -/
theorem getReg_cmdTaken_cfg {p : Nat} (hp : 0x40000 ≤ p) (hk : p % 64 ≠ 8 ∧ p % 64 ≠ 12 ∧ p % 64 ≠ 20) :
    getReg (cmdTaken ring e d) p = getReg d p := by
  rw [getReg_cmdTaken, if_neg, if_neg, getReg_cmdConsumed, if_neg, if_neg, if_neg]
  all_goals simp only [R.ENT_CMD_NEXT, R.ENT_CMD_CNT, R.RNG_HEAD, R.RNG_TAIL, R.RNG_PENDING]; omega

/-- Beside registers, taking a command shows in the entrance's books of the reader alone. -/
theorem cmdTaken_eq : cmdTaken ring e d = { d with
    regs := (cmdTaken ring e d).regs
    ent := { d.ent with
      cmdUsed := d.ent.cmdUsed + cmdSize e.code
      cmdRing := some (BitVec.ofNat 12 ring.toNat)
      cmdBlocked := d.ent.cmdBlocked ++ (pickCmd d (cmdOrder d)).2 } } := rfl

end Taken

/-! ### The reader's turn -/

theorem ring_lt_of_front {s : State} {ring : RingId} {code : Nat} {e : CmdEntry} (h : CommandFront s ring code e) :
    e.ring < 4096 := by
  obtain ⟨-, -, -, rfl, -⟩ := h
  exact Nat.mod_lt _ (by decide)

theorem code_of_front {s : State} {ring : RingId} {code : Nat} {e : CmdEntry} (h : CommandFront s ring code e) :
    e.code = code := by
  obtain ⟨-, -, -, -, hcode⟩ := h
  exact hcode

theorem entry_of_front {s : State} {ring : RingId} {code : Nat} {e : CmdEntry} (h : CommandFront s ring code e) :
    cmdEntryOf (cmdEntryAt s.dev ring.toNat 0) = e := by
  obtain ⟨-, -, -, hentry, -⟩ := h
  exact hentry

theorem seq_lt_of_front {s : State} {ring : RingId} {code : Nat} {e : CmdEntry} (h : CommandFront s ring code e) :
    e.seq < 2 ^ 18 := by
  obtain ⟨-, -, -, rfl, -⟩ := h
  exact Nat.mod_lt _ (by decide)

theorem tenant_lt_of_front {s : State} {ring : RingId} {code : Nat} {e : CmdEntry} (h : CommandFront s ring code e) :
    e.tenant < 4096 := by
  obtain ⟨-, -, -, rfl, -⟩ := h
  exact Nat.mod_lt _ (by decide)

section Reader

variable {s : State} {ring : RingId} {code : Nat} {e : CmdEntry} {p : Nat → Bool}
  (act : CmdEntry → List (List Byte) → CmdRef → Dev → Option Nat × Dev)

theorem ringIsCompletion_cmdConsumed (hr : e.ring < 4096) (d : Dev) :
    ringIsCompletion (cmdConsumed ring e d) e.ring = ringIsCompletion d e.ring := by
  have h : getReg (cmdConsumed ring e d) (R.RNG_CFG e.ring) = getReg d (R.RNG_CFG e.ring) := by
    rw [getReg_cmdConsumed, if_neg, if_neg, if_neg]
    all_goals simp only [R.ENT_CMD_NEXT, R.ENT_CMD_CNT, R.RNG_HEAD, R.RNG_CFG]; omega
  simp only [ringIsCompletion, ringEn, ringIsCmd, ringCfg, h]

/-- A command without a completion ring is consumed and counted (R76). -/
theorem readCommand_noRing (h : CommandFront s ring code e) (hp : p code = true)
    (hring : ringIsCompletion s.dev e.ring = false) :
    readCommand ring p act s.dev = bump (cmdConsumed ring e s.dev) (R.RNG_ERR_CNT ring.toNat) := by
  have hring' := (ringIsCompletion_cmdConsumed (ring := ring) (ring_lt_of_front h) s.dev).trans hring
  obtain ⟨halive, hdrain, hpick, rfl, rfl⟩ := h
  unfold readCommand
  simp only [halive, hdrain, hpick, hp, Bool.not_true, Bool.or_self, ne_eq, not_true_eq_false, decide_false,
    Bool.false_eq_true, if_false]
  exact if_pos (by simp only [cmdConsumed] at hring'; simp only [hring', Bool.not_false])

/-- A command with a completion ring takes its slot (R68), and then its error or its action decides. -/
theorem readCommand_taken (h : CommandFront s ring code e) (hp : p code = true)
    (hring : ringIsCompletion s.dev e.ring = true) :
    readCommand ring p act s.dev = match badEntry s.dev ring.toNat (cmdSize code) with
      | some c => stopCommand (cmdRefOf e s.dev) c (cmdTaken ring e s.dev)
      | none => cmdAnswer e (cmdRefOf e s.dev) (if e.bad then (some resBadCmd, cmdTaken ring e s.dev)
          else act e (cmdPayload ring (cmdSize code) s.dev) (cmdRefOf e s.dev) (cmdTaken ring e s.dev)) := by
  have hr := ring_lt_of_front h
  have hring' := (ringIsCompletion_cmdConsumed (ring := ring) hr s.dev).trans hring
  have hctr : (reserveSlot (cmdConsumed ring e s.dev) e.ring).1 = getReg s.dev (R.RNG_TAIL e.ring) := by
    show getReg (cmdConsumed ring e s.dev) (R.RNG_TAIL e.ring) = _
    rw [getReg_cmdConsumed, if_neg, if_neg, if_neg]
    all_goals simp only [R.ENT_CMD_NEXT, R.ENT_CMD_CNT, R.RNG_HEAD, R.RNG_TAIL]; omega
  have href : ({ cmdRefOf e s.dev with ctr := (reserveSlot (cmdConsumed ring e s.dev) e.ring).1 } : CmdRef) =
      cmdRefOf e s.dev := by
    rw [hctr]
    rfl
  obtain ⟨halive, hdrain, hpick, he, rfl⟩ := h
  unfold readCommand
  simp only [halive, hdrain, hpick, hp, he, Bool.not_true, Bool.or_self, ne_eq, not_true_eq_false, decide_false,
    Bool.false_eq_true, if_false]
  change (if (!ringIsCompletion (cmdConsumed ring e s.dev) e.ring) = true then _ else _) = _
  rw [hring', if_neg (by decide), ← href]
  rfl

/-- A damaged word stops the command (R276). -/
theorem readCommand_damaged (h : CommandFront s ring code e) (hp : p code = true)
    (hring : ringIsCompletion s.dev e.ring = true) {chunk : Nat}
    (hbad : badEntry s.dev ring.toNat (cmdSize code) = some chunk) :
    readCommand ring p act s.dev = stopCommand (cmdRefOf e s.dev) chunk (cmdTaken ring e s.dev) := by
  rw [readCommand_taken act h hp hring, hbad]

end Reader

/-- The completion that a command's record carries (Table 03-6). -/
def cmdCompletion (x : CmdRef) (result length : Nat) : Completion :=
  { reqId := x.cmdId, tenant := x.tenant, status := 0, op := BitVec.ofNat 8 (0x80 + x.code % 128), tick := x.tick,
    seq := x.seq, length := length, result := result }

/-! ### The record of a command that is carried out -/

/-- What an action leaves of the device on which it acts: the memories, and every register but those of a list, which the
reader and the rings have no part in. -/
structure ActedOn (ring : RingId) (e : CmdEntry) (s : State) (offs : List Nat) (d : Dev) : Prop where
  cm : d.mem.cm = s.dev.mem.cm
  hbm : d.mem.hbm = s.dev.mem.hbm
  hive : d.mem.hive = s.dev.mem.hive
  regs : ∀ o, o ∉ offs → getReg d o = getReg (cmdTaken ring e s.dev) o
  apart : ∀ o ∈ offs, ApartFromReader o

theorem actedOn_of_same {ring : RingId} {e : CmdEntry} {s : State} {d : Dev} (hmem : d.mem = s.dev.mem)
    (hregs : d.regs = (cmdTaken ring e s.dev).regs) : ActedOn ring e s [] d where
  cm := by rw [hmem]
  hbm := by rw [hmem]
  hive := by rw [hmem]
  regs o _ := getReg_congr hregs o
  apart := by simp

theorem actedOn_taken (ring : RingId) (e : CmdEntry) (s : State) : ActedOn ring e s [] (cmdTaken ring e s.dev) :=
  actedOn_of_same rfl rfl

theorem leNat_leBytes (n v : Nat) (h : v < 256 ^ n) : leNat (leBytes n v) = v := by
  induction n generalizing v with
  | zero => simp only [pow_zero, Nat.lt_one_iff] at h; simp [leBytes, leNat, h]
  | succ n ih =>
    have hdiv : v / 256 < 256 ^ n := Nat.div_lt_of_lt_mul (by rw [pow_succ'] at h; exact h)
    rw [leBytes, leNat, ih _ hdiv, BitVec.toNat_ofNat]
    omega

theorem completionBytes_reqId (x : Completion) (phase : Bool) (done slot : Nat) :
    (completionBytes x phase done slot).take 4 = leBytes 4 x.reqId.toNat := by
  simp [completionBytes, leBytes]

theorem completionBytes_op (x : Completion) (phase : Bool) (done slot : Nat) :
    (completionBytes x phase done slot).getD 7 0 = x.op := by
  simp [completionBytes, leBytes]

theorem completionBytes_errRef (x : Completion) (phase : Bool) (done slot : Nat) :
    ((completionBytes x phase done slot).drop 0x30).take 4 = leBytes 4 x.errRef.toNat := by
  simp [completionBytes, leBytes, zeroBytes]

/-- Bytes read within what has just been written. -/
theorem hiveRead_within (d : Dev) (a k n : Nat) (bs : List Byte) (h : k + n ≤ bs.length) :
    hiveRead (hiveWrite d a bs) (a + k) n = (bs.drop k).take n := by
  refine List.ext_getElem? fun i => ?_
  rw [hiveRead, tblGetList_getElem?, List.getElem?_take]
  split
  · rename_i hi
    rw [hive_after_write, if_pos (by omega), List.getElem?_drop, show a + k + i - a = k + i by omega,
      List.getD_eq_getElem _ _ (by omega), List.getElem?_eq_getElem]
  · rfl

/-- The record's bytes stand in the command's slot, and no other memory changes. -/
theorem record_mem_of_slot {s : State} {e : CmdEntry} {d : Dev} (hr : e.ring < 4096)
    (hslot : slotAddr d e.ring (cmdRefOf e s.dev).ctr.toNat = cmdSlot e s) (c : Completion) : ∃ phase done slot,
    (writeRecord d e.ring (cmdRefOf e s.dev).ctr c none).mem =
      (hiveWrite d (cmdSlot e s) (completionBytes c phase done slot)).mem := by
  have hmem := writeRecord_mem d (cmdRefOf e s.dev).ctr c none hr
  rw [hslot] at hmem
  exact ⟨_, _, _, hmem⟩

/-- The record of a command shows its CMD_ID, its code and its RESULT. -/
theorem commandResult_of_slot {s t : State} {e : CmdEntry} {d : Dev} {res len : Nat} (hr : e.ring < 4096)
    (hslot : slotAddr d e.ring (cmdRefOf e s.dev).ctr.toNat = cmdSlot e s)
    (ht : t.dev = cmdRecord (cmdRefOf e s.dev) res len d) : CommandResult e res s t := by
  change t.dev = writeRecord d e.ring (cmdRefOf e s.dev).ctr (cmdCompletion (cmdRefOf e s.dev) res len) none at ht
  obtain ⟨phase, done, slot, hmem⟩ := record_mem_of_slot hr hslot (cmdCompletion (cmdRefOf e s.dev) res len)
  rw [← ht] at hmem
  have hlen := completionBytes_length (cmdCompletion (cmdRefOf e s.dev) res len) phase done slot
  have hbyte (k : Nat) (hk : k < 64) : tblGet 0 t.dev.mem.hive (cmdSlot e s + k) =
      (completionBytes (cmdCompletion (cmdRefOf e s.dev) res len) phase done slot).getD k 0 := by
    rw [hmem, hive_after_write, if_pos (by omega), Nat.add_sub_cancel_left]
  have hid := hiveRead_within d (cmdSlot e s) 0 4
    (completionBytes (cmdCompletion (cmdRefOf e s.dev) res len) phase done slot) (by omega)
  refine ⟨?_, ?_, ?_⟩
  · rw [Nat.add_zero, List.drop_zero, completionBytes_reqId] at hid
    rw [hiveRead_congr hmem, hid]
    exact leNat_leBytes 4 _ e.cmdId.isLt
  · rw [hbyte 7 (by decide), completionBytes_op]
    rfl
  · rw [hbyte 0x2E (by decide), completionBytes_result]
    rfl

section Record

variable {s : State} {ring : RingId} {e : CmdEntry} {offs : List Nat} {d : Dev} (h : ActedOn ring e s offs d)
  (hr : e.ring < 4096)

include h

/-- Of a ring's registers an action leaves what taking the command has left. -/
theorem getReg_actedOn_ring {o : Nat} (hlo : 0x40000 ≤ o) (hhi : o < 0x80000) :
    getReg d o = getReg (cmdTaken ring e s.dev) o :=
  h.regs o fun hmem => by
    have := (h.apart o hmem).1
    omega

include hr

/-- The slot that the record takes, on the device on which the action has acted. -/
theorem slotAddr_actedOn : slotAddr d e.ring (cmdRefOf e s.dev).ctr.toNat = cmdSlot e s := by
  have hcfg : getReg d (R.RNG_CFG e.ring) = getReg s.dev (R.RNG_CFG e.ring) := by
    rw [getReg_actedOn_ring h, getReg_cmdTaken_cfg] <;> simp only [R.RNG_CFG] <;> omega
  have hbase : getReg d (R.RNG_BASE e.ring) = getReg s.dev (R.RNG_BASE e.ring) := by
    rw [getReg_actedOn_ring h, getReg_cmdTaken_cfg] <;> simp only [R.RNG_BASE] <;> omega
  simp only [cmdSlot, slotAddr, ringBase, regFld, ringSize, ringShift, ringCfg, hcfg, hbase]
  rfl

/-- The object of the ring's sync add is the one before. -/
theorem ringSyncAdd_actedOn : ringSyncAdd d e.ring = ringSyncAdd s.dev e.ring := by
  have hsync : getReg d (R.RNG_SYNC e.ring) = getReg s.dev (R.RNG_SYNC e.ring) := by
    rw [getReg_actedOn_ring h, getReg_cmdTaken_cfg] <;> simp only [R.RNG_SYNC] <;> omega
  simp only [ringSyncAdd, hsync]

/-- An action whose record is not yet written leaves the command read. -/
theorem commandRead_of_actedOn {t : State} (hp : t.pending = s.pending) (hcm : t.dev.mem.cm = s.dev.mem.cm)
    (hhbm : t.dev.mem.hbm = s.dev.mem.hbm)
    (hregs : ∀ o, o = R.RNG_HEAD ring.toNat ∨ o = R.RNG_TAIL e.ring ∨ o = R.ENT_CMD_CNT ∨ o = R.ENT_CMD_NEXT →
      getReg t.dev o = getReg d o) : CommandRead ring e s t := by
  have hring : ring.toNat < 4096 := ring.isLt
  refine ⟨hp, hcm, hhbm, ?_, ?_, ?_, ?_⟩
  · rw [hregs _ (.inl rfl), getReg_actedOn_ring h, getReg_cmdTaken, if_neg, if_neg, getReg_cmdConsumed, if_neg,
      if_neg, if_pos rfl]
    all_goals simp only [R.ENT_CMD_NEXT, R.ENT_CMD_CNT, R.RNG_HEAD, R.RNG_TAIL, R.RNG_PENDING]; omega
  · rw [hregs _ (.inr (.inl rfl)), getReg_actedOn_ring h, getReg_cmdTaken, if_neg, if_pos rfl]
    all_goals simp only [R.RNG_TAIL, R.RNG_PENDING]; omega
  · rw [hregs _ (.inr (.inr (.inl rfl))), h.regs _ fun hmem => (h.apart _ hmem).2.1 rfl, getReg_cmdTaken, if_neg,
      if_neg, getReg_cmdConsumed, if_neg (by decide), if_pos rfl]
    all_goals simp only [R.ENT_CMD_CNT, R.RNG_TAIL, R.RNG_PENDING]; omega
  · rw [hregs _ (.inr (.inr (.inr rfl))), h.regs _ fun hmem => (h.apart _ hmem).2.2 rfl, getReg_cmdTaken, if_neg,
      if_neg, getReg_cmdConsumed, if_pos rfl]
    all_goals simp only [R.ENT_CMD_NEXT, R.RNG_TAIL, R.RNG_PENDING]; omega

/-- Registers of a record on the device on which the action has acted: RNG_PENDING is what it was before the command was
taken, and besides the ring's sync object none changes. -/
theorem getReg_record_actedOn (c : Completion) (p : Nat) :
    getReg (writeRecord d e.ring (cmdRefOf e s.dev).ctr c none) p =
      if p = R.RNG_PENDING e.ring then getReg s.dev p
      else if p ∈ ringSync s e.ring then getReg d p + 1
      else getReg d p := by
  have hpend : getReg d (R.RNG_PENDING e.ring) = getReg s.dev (R.RNG_PENDING e.ring) + 1 := by
    rw [getReg_actedOn_ring h, getReg_cmdTaken, if_pos rfl] <;> simp only [R.RNG_PENDING] <;> omega
  by_cases hp : p = R.RNG_PENDING e.ring
  · rw [if_pos hp, hp, getReg_writeRecord_pending _ _ _ _ hr, hpend, BitVec.add_sub_cancel]
  · rw [if_neg hp, writeRecord_eq _ _ _ _ hr, ringSyncAdd_actedOn h hr, ringSyncAdd, ringSync]
    split
    · simp only [syncAdd?, getReg_syncAdd, List.mem_singleton, getReg_recordStored, if_neg hp]
    · simp only [syncAdd?, getReg_recordStored, if_neg hp, List.not_mem_nil, if_false]

variable {t : State}

/-- A register below the sync objects that is not RNG_PENDING does not show the record. -/
theorem getReg_record_below {c : Completion} (ht : t.dev = writeRecord d e.ring (cmdRefOf e s.dev).ctr c none) {o : Nat}
    (ho : o < 0x80000) (hpend : o ≠ R.RNG_PENDING e.ring) : getReg t.dev o = getReg d o := by
  have hsync : o ∉ ringSync s e.ring := by
    unfold ringSync
    split
    · simp only [List.mem_singleton, R.SYN_VALUE]
      omega
    · exact List.not_mem_nil
  rw [ht, getReg_record_actedOn h hr, if_neg hpend, if_neg hsync]

/-- The command is answered in its record. -/
theorem commandAnswered_of_actedOn {res len : Nat} (hp : t.pending = s.pending)
    (ht : t.dev = cmdRecord (cmdRefOf e s.dev) res len d) :
    CommandAnswered ring e res s t ∧ RegsExcept (offs ++ doneRegs ring e s) s t := by
  have hresult := commandResult_of_slot hr (slotAddr_actedOn h hr) ht
  change t.dev = writeRecord d e.ring (cmdRefOf e s.dev).ctr (cmdCompletion (cmdRefOf e s.dev) res len) none at ht
  obtain ⟨phase, done, slot, hmem⟩ := record_mem_of_slot hr (slotAddr_actedOn h hr)
    (cmdCompletion (cmdRefOf e s.dev) res len)
  rw [← ht] at hmem
  have hlen := completionBytes_length (cmdCompletion (cmdRefOf e s.dev) res len) phase done slot
  refine ⟨⟨commandRead_of_actedOn h hr hp ?_ ?_ fun o ho => ?_, hresult, ?_, fun b hb => ?_⟩, fun p hp => ?_⟩
  · rw [hmem, hiveWrite_cm, h.cm]
  · rw [hmem, hiveWrite_hbm, h.hbm]
  · have hring : ring.toNat < 4096 := ring.isLt
    simp only [R.RNG_HEAD, R.RNG_TAIL, R.ENT_CMD_CNT, R.ENT_CMD_NEXT] at ho
    exact getReg_record_below h hr ht (by omega) (by simp only [R.RNG_PENDING]; omega)
  · rw [ht, getReg_record_actedOn h hr, if_pos rfl]
  · rw [hmem, hive_outside_write _ _ _ _ (by rwa [hlen]), h.hive]
  · simp only [doneRegs, cmdRegs, List.mem_append, List.mem_cons, List.not_mem_nil, or_false, not_or] at hp
    obtain ⟨hoffs, ⟨hhead, htail, hcnt, hnext⟩, hsync⟩ := hp
    rw [ht, getReg_record_actedOn h hr, if_neg hsync]
    split
    · rfl
    · rename_i hpend
      rw [h.regs p hoffs, getReg_cmdTaken, if_neg hpend, if_neg htail, getReg_cmdConsumed, if_neg hnext, if_neg hcnt,
        if_neg hhead]

/-- The command's record is still to come. -/
theorem commandKept_of_actedOn (hp : t.pending = s.pending) (ht : t.dev = d) (hmem : d.mem = s.dev.mem) :
    CommandKept ring e s t ∧ RegsExcept (R.RNG_PENDING e.ring :: offs ++ cmdRegs ring e) s t := by
  subst ht
  refine ⟨⟨commandRead_of_actedOn h hr hp (by rw [hmem]) (by rw [hmem]) fun o _ => rfl, hmem, ?_⟩, fun p hp => ?_⟩
  · rw [getReg_actedOn_ring h, getReg_cmdTaken, if_pos rfl] <;> simp only [R.RNG_PENDING] <;> omega
  · simp only [cmdRegs, List.mem_append, List.mem_cons, List.not_mem_nil, or_false, not_or] at hp
    obtain ⟨⟨hpend, hoffs⟩, hhead, htail, hcnt, hnext⟩ := hp
    rw [h.regs p hoffs, getReg_cmdTaken, if_neg hpend, if_neg htail, getReg_cmdConsumed, if_neg hnext, if_neg hcnt,
      if_neg hhead]

/-- A sync object after a command's record: what the action has left, and the ring's own add. -/
theorem getReg_record_syn {c : Completion} (ht : t.dev = writeRecord d e.ring (cmdRefOf e s.dev).ctr c none) (o : Nat) :
    getReg t.dev (R.SYN_VALUE o) = getReg d (R.SYN_VALUE o) + ringAdd s e.ring o := by
  rw [ht, getReg_writeRecord_syn _ _ _ _ hr, ringSyncAdd_actedOn h hr, addWorth_ringSyncAdd]
  simp [addWorth]

end Record

/-! ### Rows of the reader -/

theorem workKept_of_record {s t : State} {ring : RingId} {e : CmdEntry} {x : CmdRef} {res len : Nat}
    (ht : t.dev = cmdRecord x res len (cmdTaken ring e s.dev)) : WorkKept s t := by
  simp only [WorkKept, ht, cmdRecord_ent, cmdRecord_cache, cmdRecord_wgt, cmdRecord_cells]
  exact ⟨rfl, rfl, rfl, rfl, rfl, rfl, rfl⟩

section Rows

variable {s : State} {ring : RingId} {code : Nat} {e : CmdEntry} {p : Nat → Bool} {i : Instr}
  {act : CmdEntry → List (List Byte) → CmdRef → Dev → Option Nat × Dev} {post : State → Prop}
  (hi : exec i s = onDev (readCommand ring p act) s)

include hi

/-- A command with a reserved bit set is answered BAD_CMD. -/
theorem completes_bad (h : CommandFront s ring code e) (hring : ringIsCompletion s.dev e.ring = true)
    (hgood : badEntry s.dev ring.toNat (cmdSize code) = none) (hbad : e.bad = true) (hp : p code = true) :
    Completes i s (fun t => CommandAnswered ring e resBadCmd s t ∧ RegsExcept (doneRegs ring e s) s t ∧
      WorkKept s t) := by
  have hdev := readCommand_taken act h hp hring
  rw [hgood] at hdev
  simp only [hbad, if_true, cmdAnswer] at hdev
  obtain ⟨hans, hregs⟩ := commandAnswered_of_actedOn (t := { s with dev := readCommand ring p act s.dev })
    (actedOn_taken ring e s) (ring_lt_of_front h) rfl hdev
  exact completes_of_onDev hi ⟨hans, hregs, workKept_of_record hdev⟩

variable (h : CommandAt s ring code e) (hp : p code = true)

include h hp

omit hi in
/-- A command that is carried out is answered as its action says. -/
theorem readCommand_carried : readCommand ring p act s.dev = cmdAnswer e (cmdRefOf e s.dev)
    (act e (cmdPayload ring (cmdSize code) s.dev) (cmdRefOf e s.dev) (cmdTaken ring e s.dev)) := by
  obtain ⟨hfront, hring, hgood, hnone⟩ := h
  rw [readCommand_taken act hfront hp hring, hnone, hgood]
  rfl

variable {res : Nat} {d : Dev} {offs : List Nat}

/-- A command whose action answers a RESULT. -/
theorem completes_answered (hact : act e (cmdPayload ring (cmdSize code) s.dev) (cmdRefOf e s.dev)
      (cmdTaken ring e s.dev) = (some res, d)) (hd : ActedOn ring e s offs d)
    (hpost : ∀ t : State, t.dev = cmdRecord (cmdRefOf e s.dev) res (cmdLength d e) d → CommandAnswered ring e res s t →
      RegsExcept (offs ++ doneRegs ring e s) s t → post t) : Completes i s post := by
  have hdev := readCommand_carried h hp (act := act)
  rw [hact] at hdev
  obtain ⟨hans, hregs⟩ := commandAnswered_of_actedOn (t := { s with dev := readCommand ring p act s.dev }) hd
    (ring_lt_of_front h.1) rfl hdev
  exact completes_of_onDev hi (hpost _ hdev hans hregs)

/-- A command whose action answers a RESULT and does nothing. -/
theorem completes_refused (hact : act e (cmdPayload ring (cmdSize code) s.dev) (cmdRefOf e s.dev)
      (cmdTaken ring e s.dev) = (some res, cmdTaken ring e s.dev)) :
    Completes i s (fun t => CommandAnswered ring e res s t ∧ RegsExcept (doneRegs ring e s) s t ∧ WorkKept s t) :=
  completes_answered hi h hp hact (actedOn_taken ring e s) fun _ ht hans hregs => ⟨hans, hregs, workKept_of_record ht⟩

/-- A command whose action leaves its record for later. -/
theorem completes_kept (hact : act e (cmdPayload ring (cmdSize code) s.dev) (cmdRefOf e s.dev)
      (cmdTaken ring e s.dev) = (none, d)) (hd : ActedOn ring e s offs d) (hmem : d.mem = s.dev.mem)
    (hpost : ∀ t : State, t.dev = d → CommandKept ring e s t →
      RegsExcept (R.RNG_PENDING e.ring :: offs ++ cmdRegs ring e) s t → post t) : Completes i s post := by
  have hdev := readCommand_carried h hp (act := act)
  rw [hact] at hdev
  obtain ⟨hkept, hregs⟩ := commandKept_of_actedOn (t := { s with dev := readCommand ring p act s.dev }) hd
    (ring_lt_of_front h.1) rfl hdev hmem
  exact completes_of_onDev hi (hpost _ hdev hkept hregs)

end Rows

/-! ### BAD_CMD, SYNC_SET and CT_LOAD -/

/-- A code that no command has. -/
theorem badCmd_answered {s : State} {ring : RingId} {e : CmdEntry} (h : CommandAt s ring e.code e)
    (hcode : e.code = 0 ∨ (0x0A < e.code ∧ e.code < 0x10) ∨ 0x16 < e.code) :
    Completes (.badCmd ring) s (fun t => CommandAnswered ring e resBadCmd s t ∧ RegsExcept (doneRegs ring e s) s t ∧
      WorkKept s t) :=
  completes_refused rfl h (by
    simp only [Bool.not_eq_true', Bool.or_eq_false_iff, Bool.and_eq_false_iff, decide_eq_false_iff_not]
    omega) rfl

section SyncSet

variable {s : State} {ring : RingId} {e : CmdEntry}

theorem apartFromReader_synValue (o : Nat) : ApartFromReader (R.SYN_VALUE o) := by
  simp only [ApartFromReader, R.SYN_VALUE, R.ENT_CMD_CNT, R.ENT_CMD_NEXT]
  omega

theorem syncSet_done (h : CommandAt s ring 0x0A e) : Completes (.syncSet ring) s (fun t =>
    CommandAnswered ring e resDone s t ∧
    getReg t.dev (R.SYN_VALUE (e.arg 13 0)) = BitVec.ofNat 32 (e.arg 63 32) + ringAdd s e.ring (e.arg 13 0) ∧
    (∀ o, o < 2 ^ 14 → o ≠ e.arg 13 0 →
      getReg t.dev (R.SYN_VALUE o) = getReg s.dev (R.SYN_VALUE o) + ringAdd s e.ring o) ∧
    RegsExcept (R.SYN_VALUE (e.arg 13 0) :: doneRegs ring e s) s t ∧ WorkKept s t) := by
  have hr := ring_lt_of_front h.1
  have hacted : ActedOn ring e s [R.SYN_VALUE (e.arg 13 0)]
      (setReg (cmdTaken ring e s.dev) (R.SYN_VALUE (e.arg 13 0)) (BitVec.ofNat 32 (e.arg 63 32))) :=
    { cm := rfl, hbm := rfl, hive := rfl
      regs := fun o ho => getReg_setReg_ne _ _ _ _ (by simpa using ho)
      apart := fun o ho => by rw [List.mem_singleton.1 ho]; exact apartFromReader_synValue _ }
  refine completes_answered rfl h rfl rfl hacted fun t ht hans hregs => ⟨hans, ?_, fun o _ hne => ?_, hregs, ?_⟩
  · rw [getReg_record_syn hacted hr ht, getReg_setReg_self]
  · rw [getReg_record_syn hacted hr ht, getReg_setReg_ne _ _ _ _ (by rwa [Ne, synValue_inj]),
      getReg_cmdTaken_apart ring s.dev hr (apartFromReader_synValue o)]
  · simp only [WorkKept, ht, cmdRecord_ent, cmdRecord_cache, cmdRecord_wgt, cmdRecord_cells]
    exact ⟨rfl, rfl, rfl, rfl, rfl, rfl, rfl⟩

theorem syncSet_noRing (h : CommandFront s ring 0x0A e) (hring : ringIsCompletion s.dev e.ring = false) :
    Completes (.syncSet ring) s (fun t => t.pending = s.pending ∧ SameMemory s t ∧ WorkKept s t ∧
      getReg t.dev (R.RNG_HEAD ring.toNat) = getReg s.dev (R.RNG_HEAD ring.toNat) + 1 ∧
      getReg t.dev (R.RNG_ERR_CNT ring.toNat) = counted (getReg s.dev (R.RNG_ERR_CNT ring.toNat)) 1 ∧
      RegsExcept [R.RNG_HEAD ring.toNat, R.RNG_ERR_CNT ring.toNat, R.ENT_CMD_CNT, R.ENT_CMD_NEXT] s t) := by
  have hdev := readCommand_noRing (p := fun c => c = 0x0A) (fun e _ _ d =>
    (some resDone, setReg d (R.SYN_VALUE (e.arg 13 0)) (BitVec.ofNat 32 (e.arg 63 32)))) h rfl hring
  have hcode : e.code = 0x0A := code_of_front h
  have herr : getReg (cmdConsumed ring e s.dev) (R.RNG_ERR_CNT ring.toNat) = getReg s.dev (R.RNG_ERR_CNT ring.toNat) := by
    rw [getReg_cmdConsumed, if_neg, if_neg, if_neg]
    all_goals simp only [R.ENT_CMD_NEXT, R.ENT_CMD_CNT, R.RNG_HEAD, R.RNG_ERR_CNT]; omega
  refine completes_of_onDev rfl (?_ : _ ∧ _)
  rw [hdev]
  refine ⟨rfl, rfl, ⟨rfl, rfl, rfl, rfl, rfl, rfl, rfl⟩, ?_, ?_, fun p hp => ?_⟩
  · rw [getReg_bump, if_neg, getReg_cmdConsumed, if_neg, if_neg, if_pos rfl, hcode]
    · rfl
    all_goals simp only [R.ENT_CMD_NEXT, R.ENT_CMD_CNT, R.RNG_HEAD, R.RNG_ERR_CNT]; omega
  · rw [getReg_bump_self, herr]
  · simp only [List.mem_cons, List.not_mem_nil, or_false, not_or] at hp
    obtain ⟨hhead, herr, hcnt, hnext⟩ := hp
    rw [getReg_bump, if_neg herr, getReg_cmdConsumed, if_neg hnext, if_neg hcnt, if_neg hhead]

/-- The report of a damaged entry. -/
def entryReport (chunk : Nat) : Report :=
  { mkReport 0x21 (unitSlice (16 * chunk)) with addr := BitVec.ofNat 64 (16 * chunk) }

/-- A report that merges with none of the records is stored behind them, where there is room. -/
theorem guardTake_stored {r : Report} {d : Dev} (hcls : errClass r.code ≠ 2) (hroom : d.guard.queue.length < 64)
    (hmerge : ∀ q ∈ d.guard.queue, q.code = r.code → q.addr ≠ r.addr) :
    guardTake r d = ((freshRecord r d).seqnum, storeRecord (freshRecord r d) (reportCounted r d)) ∧
      (guardTake r d).2.guard.queue = d.guard.queue ++ [freshRecord r d] := by
  have hguard : (reportCounted r d).guard = d.guard := by simp [reportCounted]
  have hqueue : (countReport (errClass r.code) d).guard.queue = d.guard.queue := by simp
  have hnone : mergesInto (countReport (errClass r.code) d) r = none := by
    unfold mergesInto
    split
    · rw [hqueue, List.find?_eq_none]
      intro q hq hm
      obtain ⟨-, hcode, haddr⟩ := of_decide_eq_true hm
      exact hmerge q hq hcode haddr
    · rfl
  have h : guardTake r d = ((freshRecord r d).seqnum, storeRecord (freshRecord r d) (reportCounted r d)) := by
    unfold guardTake guardTakeAt
    simp only [hnone, if_neg hcls]
    rw [show (recordOf (countReport (errClass r.code) d) r d.tick.num
      (getReg (countReport (errClass r.code) d) R.GRD_NEXT_SEQ)).hwEsc = false by simp [recordOf, hcls]]
    rfl
  refine ⟨h, ?_⟩
  rw [h, storeRecord, if_pos (by rwa [hguard])]
  exact congrArg (fun g : Guard => g.queue ++ [freshRecord r d]) hguard

/-- A record takes the sequence number that comes next. -/
theorem freshRecord_seqnum (r : Report) (d : Dev) : (freshRecord r d).seqnum = getReg d R.GRD_NEXT_SEQ := by
  show getReg (countReport (errClass r.code) d) R.GRD_NEXT_SEQ = _
  unfold countReport
  split
  · exact getReg_setReg_ne d _ _ _ (by decide)
  · split
    · exact getReg_setReg_ne d _ _ _ (by decide)
    · rfl

theorem entryReport_class (chunk : Nat) : errClass (entryReport chunk).code ≠ 2 := by
  show errClass 0x21 ≠ 2
  decide

/-- The guard's registers, in which a report shows. -/
def guardRegs : List Nat := (List.range (R.GRD_REC 0)).filter guardReg

theorem guardReg_of_not_mem {o : Nat} (h : o ∉ guardRegs) : guardReg o = false := by
  simp only [guardRegs, List.mem_filter, List.mem_range, not_and, Bool.not_eq_true] at h
  by_cases ho : o < R.GRD_REC 0
  · exact h ho
  · simp only [guardReg, ho, decide_false, Bool.and_false]

/-- The device on which the record of a damaged command is formed. -/
def entryReported (ring : RingId) (e : CmdEntry) (chunk : Nat) (d : Dev) : Dev :=
  (freshWord (guardTake (entryReport chunk) (cmdTaken ring e d)).2).2

theorem entryReported_mem (chunk : Nat) (d : Dev) : (entryReported ring e chunk d).mem = d.mem :=
  (guardTake_mem (entryReport chunk) (cmdTaken ring e d)).trans rfl

theorem actedOn_entryReported (chunk : Nat) : ActedOn ring e s guardRegs (entryReported ring e chunk s.dev) where
  cm := by rw [entryReported_mem]
  hbm := by rw [entryReported_mem]
  hive := by rw [entryReported_mem]
  regs o ho := getReg_guardTake (entryReport_class chunk) _ (guardReg_of_not_mem ho)
  apart o ho := by
    have hg := (List.mem_filter.1 ho).2
    have hlt : o < 0x5100 := of_decide_eq_true (Bool.and_eq_true_iff.1 hg).2
    have hge : 0x5000 ≤ o := of_decide_eq_true (Bool.and_eq_true_iff.1 hg).1
    simp only [ApartFromReader, R.ENT_CMD_CNT, R.ENT_CMD_NEXT]
    omega

theorem completionBytes_statusNibble (x : Completion) (phase : Bool) (done slot : Nat) :
    (completionBytes x phase done slot).getD 6 0 &&& 0xF = BitVec.ofNat 8 (x.status % 16) := by
  rw [completionBytes_status]
  have : x.status % 16 < 16 := Nat.mod_lt _ (by decide)
  generalize x.status % 16 = n at this
  interval_cases n <;> cases phase <;> rfl

/-- The completion of a command with a damaged word (Table 03-6): ECC_FAIL and its guard record, and a RESULT that nothing
states. -/
def stoppedCompletion (x : CmdRef) (ref word : W32) : Completion :=
  { reqId := x.cmdId, tenant := x.tenant, status := 6, op := BitVec.ofNat 8 (0x80 + x.code % 128), tick := x.tick,
    seq := x.seq, result := word.toNat % 256, errRef := ref }

theorem stopCommand_unfold (x : CmdRef) (chunk : Nat) (d : Dev) : stopCommand x chunk d =
    writeRecord (freshWord (guardTake (entryReport chunk) d).2).2 x.ring x.ctr
      (stoppedCompletion x (guardTake (entryReport chunk) d).1 (freshWord (guardTake (entryReport chunk) d).2).1)
      none := rfl

/-- The report of a damaged entry takes the sequence number that comes next. -/
theorem entryReport_seqnum {d : Dev} {chunk : Nat} (hroom : d.guard.queue.length < 64)
    (hmerge : ∀ q ∈ d.guard.queue, q.code = 0x21 → q.addr ≠ BitVec.ofNat 64 (16 * chunk)) :
    (guardTake (entryReport chunk) d).1 = getReg d R.GRD_NEXT_SEQ := by
  obtain ⟨hstored, -⟩ := guardTake_stored (entryReport_class chunk) (d := d) hroom hmerge
  rw [hstored]
  exact freshRecord_seqnum _ _

/-- The record of a stopped command names the sequence number that the report takes. -/
theorem stopCommand_eq (hr : e.ring < 4096) {chunk : Nat} (hroom : s.dev.guard.queue.length < 64)
    (hmerge : ∀ q ∈ s.dev.guard.queue, q.code = 0x21 → q.addr ≠ BitVec.ofNat 64 (16 * chunk)) :
    ∃ word, stopCommand (cmdRefOf e s.dev) chunk (cmdTaken ring e s.dev) =
      writeRecord (entryReported ring e chunk s.dev) e.ring (cmdRefOf e s.dev).ctr
        (stoppedCompletion (cmdRefOf e s.dev) (getReg s.dev R.GRD_NEXT_SEQ) word) none := by
  have happ : ApartFromReader R.GRD_NEXT_SEQ := by
    simp [ApartFromReader, R.GRD_NEXT_SEQ, R.ENT_CMD_CNT, R.ENT_CMD_NEXT]
  have hseq := entryReport_seqnum (d := cmdTaken ring e s.dev) hroom hmerge
  rw [getReg_cmdTaken_apart ring s.dev hr happ] at hseq
  refine ⟨(freshWord (guardTake (entryReport chunk) (cmdTaken ring e s.dev)).2).1, ?_⟩
  rw [stopCommand_unfold, hseq]
  rfl

theorem syncSet_damaged {chunk : Nat} (h : CommandFront s ring 0x0A e) (hring : ringIsCompletion s.dev e.ring = true)
    (hbad : badEntry s.dev ring.toNat 1 = some chunk) (hroom : s.dev.guard.queue.length < 64)
    (hmerge : ∀ q ∈ s.dev.guard.queue, q.code = 0x21 → q.addr ≠ BitVec.ofNat 64 (16 * chunk)) :
    Completes (.syncSet ring) s (fun t =>
      leNat (hiveRead t.dev (cmdSlot e s) 4) = e.cmdId.toNat ∧
      tblGet 0 t.dev.mem.hive (cmdSlot e s + 6) &&& 0xF = 6 ∧
      leNat (hiveRead t.dev (cmdSlot e s + 0x30) 4) = (getReg s.dev R.GRD_NEXT_SEQ).toNat ∧
      (∃ q, t.dev.guard.queue = s.dev.guard.queue ++ [q] ∧ q.code = 0x21 ∧
        q.addr = BitVec.ofNat 64 (16 * chunk)) ∧
      getReg t.dev (R.SYN_VALUE (e.arg 13 0)) =
        getReg s.dev (R.SYN_VALUE (e.arg 13 0)) + ringAdd s e.ring (e.arg 13 0) ∧ WorkKept s t) := by
  have hr := ring_lt_of_front h
  have hcode : e.code = 0x0A := code_of_front h
  obtain ⟨word, hrec⟩ := stopCommand_eq (ring := ring) (e := e) hr hroom hmerge
  obtain ⟨-, hqueue⟩ := guardTake_stored (entryReport_class chunk) (d := cmdTaken ring e s.dev) hroom hmerge
  have hdev := (readCommand_damaged (p := fun c => c = 0x0A) (fun e _ _ d =>
    (some resDone, setReg d (R.SYN_VALUE (e.arg 13 0)) (BitVec.ofNat 32 (e.arg 63 32)))) h rfl hring hbad).trans hrec
  have hacted := actedOn_entryReported (s := s) (ring := ring) (e := e) chunk
  obtain ⟨phase, done, slot, hmem⟩ := record_mem_of_slot hr (slotAddr_actedOn hacted hr)
    (stoppedCompletion (cmdRefOf e s.dev) (getReg s.dev R.GRD_NEXT_SEQ) word)
  refine completes_of_onDev rfl (?_ : _ ∧ _)
  generalize readCommand _ _ _ s.dev = u at hdev
  rw [← hdev] at hmem
  have hlen := completionBytes_length (stoppedCompletion (cmdRefOf e s.dev) (getReg s.dev R.GRD_NEXT_SEQ) word)
    phase done slot
  have hread (k : Nat) (hk : k + 4 ≤ 64) := hiveRead_within (entryReported ring e chunk s.dev) (cmdSlot e s) k 4
    (completionBytes (stoppedCompletion (cmdRefOf e s.dev) (getReg s.dev R.GRD_NEXT_SEQ) word) phase done slot) (by omega)
  have hid := hread 0 (by decide)
  rw [Nat.add_zero, List.drop_zero, completionBytes_reqId] at hid
  refine ⟨?_, ?_, ?_, ⟨freshRecord (entryReport chunk) (cmdTaken ring e s.dev), ?_, rfl, rfl⟩, ?_, ?_⟩
  · rw [hiveRead_congr hmem, hid]
    exact leNat_leBytes 4 _ e.cmdId.isLt
  · rw [hmem, hive_after_write, if_pos (by omega), Nat.add_sub_cancel_left, completionBytes_statusNibble]
    rfl
  · rw [hiveRead_congr hmem, hread 0x30 (by decide), completionBytes_errRef]
    exact leNat_leBytes 4 _ (getReg s.dev R.GRD_NEXT_SEQ).isLt
  · rw [hdev, writeRecord_guard]
    exact hqueue
  · have hsyn := apartFromReader_synValue (e.arg 13 0)
    rw [getReg_record_syn hacted hr hdev, hacted.regs _ fun hmem => ?_, getReg_cmdTaken_apart ring s.dev hr hsyn]
    have hlt := List.mem_range.1 (List.mem_filter.1 hmem).1
    simp only [R.SYN_VALUE, R.GRD_REC] at hlt
    omega
  · simp only [WorkKept, hdev, writeRecord_ent, writeRecord_cache, writeRecord_wgt, writeRecord_cells]
    simp only [entryReported, freshWord, guardTake_ent, guardTake_cache, guardTake_wgt, guardTake_cells]
    exact ⟨rfl, rfl, rfl, rfl, rfl, rfl, rfl⟩

end SyncSet

section CtLoad

variable {s : State} {ring : RingId} {e : CmdEntry}

theorem ctEntries_length (payload : List (List Byte)) : (ctEntries payload).length = 4 * payload.length := by
  simp [ctEntries, Nat.mul_comm]

theorem tblGet_putList {α : Type} (dflt : α) (vs : List α) (t : Tbl α) (x y : Nat) :
    tblGet dflt (tblPutList t x vs) y = if x ≤ y ∧ y < x + vs.length then vs.getD (y - x) dflt else tblGet dflt t y := by
  rw [tblGet, tblFind_putList]
  split
  · rw [List.getD_eq_getElem?_getD]
  · rfl

theorem getReg_installTable (i : Nat) (es : List (BitVec 128)) (d : Dev) {o : Nat} (ho : o ≠ R.ENT_CT_VALID (i / 32)) :
    getReg (installTable i es d) o = getReg d o := getReg_setReg_ne _ _ _ _ ho

theorem installTable_mem (i : Nat) (es : List (BitVec 128)) (d : Dev) : (installTable i es d).mem = d.mem := rfl

/-- What CT_LOAD leaves of the device on which it acts. -/
theorem actedOn_installTable (es : List (BitVec 128)) (i : Nat) (hi : i < 512) :
    ActedOn ring e s [R.ENT_CT_VALID (i / 32)] (installTable i es (cmdTaken ring e s.dev)) where
  cm := by rw [installTable_mem]; rfl
  hbm := by rw [installTable_mem]; rfl
  hive := by rw [installTable_mem]; rfl
  regs o ho := getReg_installTable i es _ (by simpa using ho)
  apart o ho := by
    rw [List.mem_singleton.1 ho]
    simp only [ApartFromReader, R.ENT_CT_VALID, R.ENT_CMD_CNT, R.ENT_CMD_NEXT]
    omega

theorem ctLoadCmd_bad {payload : List (List Byte)} (h : ∃ c ∈ ctEntries payload, fld c 127 96 ≠ 0) (d : Dev) :
    ctLoadCmd e payload d = (some resBadCmd, d) := if_pos (by simpa using h)

theorem ctLoadCmd_good {payload : List (List Byte)} (h : ∀ c ∈ ctEntries payload, fld c 127 96 = 0) (d : Dev) :
    ctLoadCmd e payload d = (some resDone, installTable (e.arg 8 0) (ctEntries payload) d) := if_neg (by simpa using h)

theorem ctLoad_refused (h : CommandAt s ring 0x09 e)
    (hbad : ∃ c ∈ ctEntries (cmdPayload ring 65 s.dev), fld c 127 96 ≠ 0) :
    Completes (.ctLoad ring) s (fun t => CommandAnswered ring e resBadCmd s t ∧
      RegsExcept (doneRegs ring e s) s t ∧ WorkKept s t ∧ t.dev.ent.cost = s.dev.ent.cost) := by
  refine completes_answered rfl h rfl (ctLoadCmd_bad hbad _) (actedOn_taken ring e s) fun t ht hans hregs =>
    ⟨hans, hregs, workKept_of_record ht, ?_⟩
  rw [ht, cmdRecord_ent]
  rfl

theorem tblGet_cost_installTable (i : Nat) (es : List (BitVec 128)) (d : Dev) (k : Nat) :
    tblGet 0 (installTable i es d).ent.cost k =
      if 256 * i ≤ k ∧ k < 256 * i + es.length then es.getD (k - 256 * i) 0 else tblGet 0 d.ent.cost k :=
  tblGet_putList 0 es d.ent.cost (256 * i) k

theorem bit_ctValid_installTable (i : Nat) (es : List (BitVec 128)) (d : Dev) :
    bit (getReg (installTable i es d) (R.ENT_CT_VALID (i / 32))) (i % 32) = true := by
  have hbit : i % 32 < 32 := Nat.mod_lt _ (by decide)
  rw [installTable, getReg_setReg_self, bit_setBit _ _ _ _ hbit, if_pos rfl]

theorem ctLoad_done (h : CommandAt s ring 0x09 e) {es : List (BitVec 128)}
    (hes : es = ctEntries (cmdPayload ring 65 s.dev)) (hgood : ∀ c ∈ es, fld c 127 96 = 0) :
    Completes (.ctLoad ring) s (fun t => CommandAnswered ring e resDone s t ∧
      bit (getReg t.dev (R.ENT_CT_VALID (e.arg 8 0 / 32))) (e.arg 8 0 % 32) = true ∧
      RegsExcept (R.ENT_CT_VALID (e.arg 8 0 / 32) :: doneRegs ring e s) s t ∧ WorkKept s t ∧
      (∀ k, k < 256 → tblGet 0 t.dev.ent.cost (256 * e.arg 8 0 + k) = es.getD k 0) ∧
      ∀ k, k < 256 * e.arg 8 0 ∨ 256 * e.arg 8 0 + 256 ≤ k → tblGet 0 t.dev.ent.cost k = tblGet 0 s.dev.ent.cost k) := by
  have hr := ring_lt_of_front h.1
  have hlen : es.length = 256 := by rw [hes, ctEntries_length, cmdPayload, List.length_map, List.length_range]
  have hi : e.arg 8 0 < 512 := Nat.mod_lt _ (by decide)
  have hact := ctLoadCmd_good (e := e) (hes ▸ hgood) (cmdTaken ring e s.dev)
  rw [← hes] at hact
  have hacted := actedOn_installTable (s := s) (ring := ring) (e := e) es (e.arg 8 0) hi
  refine completes_answered rfl h rfl hact hacted fun t ht hans hregs =>
    ⟨hans, ?_, hregs, ?_, fun k hk => ?_, fun k hk => ?_⟩
  · rw [getReg_record_below hacted hr ht, bit_ctValid_installTable]
    all_goals simp only [R.ENT_CT_VALID, R.RNG_PENDING]; omega
  · simp only [WorkKept, ht, cmdRecord_ent, cmdRecord_cache, cmdRecord_wgt, cmdRecord_cells]
    exact ⟨rfl, rfl, rfl, rfl, rfl, rfl, rfl⟩
  · rw [ht, cmdRecord_ent, tblGet_cost_installTable, if_pos (by omega), Nat.add_sub_cancel_left]
  · rw [ht, cmdRecord_ent, tblGet_cost_installTable, if_neg (by omega)]
    rfl

end CtLoad

/-- Settles O39: each row is the reader at the front entry, and what differs is the action; a record shows in its slot, in
RNG_PENDING and in the ring's sync object alone. -/
theorem commandsAreReadInOrder : Obligations.CommandsAreReadInOrder := by
  intro s ring e
  refine ⟨badCmd_answered, syncSet_done, fun h hring hgood hbad => completes_bad rfl h hring hgood hbad rfl,
    syncSet_noRing, fun chunk => syncSet_damaged, fun h => ⟨ctLoad_refused h, ctLoad_done h rfl⟩⟩

end Sys2Proof.Machine
end

section
/-!
PROOFS. What an action reads of the device on which it acts (R73, R76): all but the reader's registers is as before.
-/

namespace Sys2Proof.Machine

open Sys2Proof

section Entries

variable {α β : Type} (f : Nat × α → Option β) (t : Tbl α) (x : Nat) (h : ∀ w, f (x, w) = none)

include h

theorem filterMap_tblErase : (tblErase t x).filterMap f = t.filterMap f := by
  induction t with
  | nil => rfl
  | cons a t ih =>
    obtain ⟨k, w⟩ := a
    rw [tblErase]
    split
    · rename_i hk
      rw [ih, List.filterMap_cons_none (hk ▸ h w)]
    · rw [List.filterMap_cons, List.filterMap_cons, ih]

theorem filterMap_tblPut (v : α) : (tblPut t x v).filterMap f = t.filterMap f := by
  induction t with
  | nil => simp [tblPut, h v]
  | cons a t ih =>
    obtain ⟨k, w⟩ := a
    rw [tblPut]
    split
    · rw [List.filterMap_cons_none (h v)]
    · split
      · rename_i hk
        rw [List.filterMap_cons_none (h v), List.filterMap_cons_none (hk ▸ h w)]
      · rw [List.filterMap_cons, List.filterMap_cons, ih]

/-- A table's entries of a kind, where a key of another kind is set. -/
theorem filterMap_tblSet [DecidableEq α] (dflt v : α) : (tblSet dflt t x v).filterMap f = t.filterMap f := by
  unfold tblSet
  split
  · exact filterMap_tblErase f t x h
  · exact filterMap_tblPut f t x h v

end Entries

/-- The entries of a kind in the window, where a register of another kind is set. -/
theorem filterMap_setReg {β : Type} {f : Nat × W32 → Option β} (d : Dev) {o : Nat} (v : W32) (h : ∀ w, f (o, w) = none) :
    (setReg d o v).regs.filterMap f = d.regs.filterMap f := filterMap_tblSet f d.regs o h _ v

/-- Taking a command leaves the entries of the kinds of which no counter of the reader or of a ring is. -/
theorem filterMap_cmdTaken {β : Type} {ring : RingId} {e : CmdEntry} (f : Nat × W32 → Option β) (d : Dev)
    (h : ∀ o ∈ [R.RNG_HEAD ring.toNat, R.ENT_CMD_CNT, R.ENT_CMD_NEXT, R.RNG_TAIL e.ring, R.RNG_PENDING e.ring],
      ∀ w, f (o, w) = none) : (cmdTaken ring e d).regs.filterMap f = d.regs.filterMap f := by
  simp only [List.forall_mem_cons, List.not_mem_nil, false_implies, implies_true, and_true] at h
  obtain ⟨hhead, hcnt, hnext, htail, hpend⟩ := h
  unfold cmdTaken reserveSlot cmdConsumed consumeEntries bumpBy
  dsimp only
  rw [filterMap_setReg _ _ hpend, filterMap_setReg _ _ htail]
  dsimp only
  rw [filterMap_setReg _ _ hnext, filterMap_setReg _ _ hcnt, filterMap_setReg _ _ hhead]

/-- What the commands' actions look at is the same on two devices: memories, cache control, load slots, the tick, the table
of sequences, and all registers but those of the reader and the counters of rings. -/
structure ActsAlike (d u : Dev) : Prop where
  regs : ∀ p, ApartFromReader p → getReg u p = getReg d p
  cfg : ∀ p, 0x40000 ≤ p → p % 64 ≠ 8 ∧ p % 64 ≠ 12 ∧ p % 64 ≠ 20 → getReg u p = getReg d p
  rings : enabledRings u = enabledRings d
  tenants : liveTenants u = liveTenants d
  mem : u.mem = d.mem
  cache : u.cache = d.cache
  wgt : u.wgt = d.wgt
  tick : u.tick = d.tick
  seqTab : u.ent.seqTab = d.ent.seqTab
  reqs : u.ent.reqs = d.ent.reqs

/-- A command's action finds what the reader found. -/
theorem actsAlike_cmdTaken {ring : RingId} {e : CmdEntry} (hr : e.ring < 4096) (d : Dev) :
    ActsAlike d (cmdTaken ring e d) where
  regs p hp := getReg_cmdTaken_apart ring d hr hp
  cfg p hp hk := getReg_cmdTaken_cfg ring e d hp hk
  rings := filterMap_cmdTaken _ d fun o ho w => if_neg fun hc => by
    simp only [List.mem_cons, List.not_mem_nil, or_false, R.RNG_HEAD, R.RNG_TAIL, R.RNG_PENDING, R.ENT_CMD_CNT,
      R.ENT_CMD_NEXT] at ho
    omega
  tenants := filterMap_cmdTaken _ d fun o ho w => if_neg fun hc => by
    have hring : ring.toNat < 4096 := ring.isLt
    simp only [List.mem_cons, List.not_mem_nil, or_false, R.RNG_HEAD, R.RNG_TAIL, R.RNG_PENDING, R.ENT_CMD_CNT,
      R.ENT_CMD_NEXT] at ho
    omega
  mem := rfl
  cache := rfl
  wgt := rfl
  tick := rfl
  seqTab := rfl
  reqs := rfl

namespace ActsAlike

variable {d u : Dev} (h : ActsAlike d u)

include h

/-- A register of a context, of the cells or beyond. -/
theorem ctx {p : Nat} (hp : 0x80000 ≤ p) : getReg u p = getReg d p :=
  h.regs p (by simp only [ApartFromReader, R.ENT_CMD_CNT, R.ENT_CMD_NEXT]; omega)

theorem fld_ctx {p : Nat} (hi lo : Nat) (hp : 0x80000 ≤ p) : regFld u p hi lo = regFld d p hi lo := by
  rw [regFld, h.ctx hp, regFld]

theorem tcxState (t : Nat) : tcxState u t = Machine.tcxState d t := h.fld_ctx 1 0 (by simp only [R.TCX_STATE]; omega)

theorem seqDesc (q : Nat) : seqDesc u q = Machine.seqDesc d q := by rw [Machine.seqDesc, h.cache, Machine.seqDesc]

theorem seqEntry (q : Nat) : seqEntry u q = Machine.seqEntry d q := by rw [Machine.seqEntry, h.seqTab, Machine.seqEntry]

theorem seqOpen (q : Nat) : seqOpen u q = Machine.seqOpen d q := by rw [Machine.seqOpen, h.seqDesc, Machine.seqOpen]

theorem seqBusy (q : Nat) : seqBusy u q = Machine.seqBusy d q := by
  rw [Machine.seqBusy, h.seqEntry, h.tick, Machine.seqBusy]

theorem seqInRange (t q : Nat) : seqInRange u t q = Machine.seqInRange d t q := by
  have hfirst := h.fld_ctx (p := R.TCX_SEQ_FIRST t) 17 0 (by simp only [R.TCX_SEQ_FIRST]; omega)
  have hcount := h.fld_ctx (p := R.TCX_SEQ_COUNT t) 18 0 (by simp only [R.TCX_SEQ_COUNT]; omega)
  simp only [Machine.seqInRange, hfirst, hcount]

theorem prefixTokens (t : Nat) : prefixTokens u t = Machine.prefixTokens d t := by
  rw [Machine.prefixTokens, h.fld_ctx _ _ (by simp only [R.TCX_PAGE]; omega), Machine.prefixTokens]

theorem tenantKey (t : Nat) : tenantKey u t = Machine.tenantKey d t := by
  rw [Machine.tenantKey, h.wgt, h.fld_ctx _ _ (by simp only [R.TCX_KEYS]; omega), Machine.tenantKey]

theorem imgField (t dest off n : Nat) : imgField u t dest off n = Machine.imgField d t dest off n := by
  rw [Machine.imgField, h.tenantKey, Machine.imgField]
  have hbyte (k : HbmKey) (a : Nat) : hbmByteKey u k a = hbmByteKey d k a :=
    congrArg (fun m => hbmByteKey { d with mem := m } k a) h.mem
  simp only [hbmRead, hbyte]

theorem chainHdr (t dest : Nat) : chainHdr u t dest = Machine.chainHdr d t dest := by
  simp only [Machine.chainHdr, h.imgField]

theorem tenantChain (t : Nat) : tenantChain u t = Machine.tenantChain d t := by
  have hlo := h.ctx (p := R.TCX_WEIGHT_BASE_LO t) (by simp only [R.TCX_WEIGHT_BASE_LO]; omega)
  have hhi := h.ctx (p := R.TCX_WEIGHT_BASE_HI t) (by simp only [R.TCX_WEIGHT_BASE_HI]; omega)
  simp only [Machine.tenantChain, getReg64, hlo, hhi, h.chainHdr]

theorem headCell (t : Nat) (c : CellId) : headCell u t c = Machine.headCell d t c := by
  have hlo := h.ctx (p := R.TCX_HEAD_CELLS_LO t) (by simp only [R.TCX_HEAD_CELLS_LO]; omega)
  have hhi := h.ctx (p := R.TCX_HEAD_CELLS_HI t) (by simp only [R.TCX_HEAD_CELLS_HI]; omega)
  simp only [Machine.headCell, hlo, hhi]

theorem headCells (t : Nat) : headCells u t = Machine.headCells d t := by
  rw [Machine.headCells, funext (h.headCell t), Machine.headCells]

theorem shape (t hi lo : Nat) : regFld u (R.TCX_SHAPE t) hi lo = regFld d (R.TCX_SHAPE t) hi lo :=
  h.fld_ctx hi lo (by simp only [R.TCX_SHAPE]; omega)

theorem kvHeads (t : Nat) : kvHeads u t = Machine.kvHeads d t := by
  rw [Machine.kvHeads, h.headCells, headsPerCell, h.shape, Machine.kvHeads, headsPerCell]

theorem layersOf (t : Nat) : layersOf u t = Machine.layersOf d t := by
  rw [Machine.layersOf, h.shape, Machine.layersOf]

end ActsAlike

end Sys2Proof.Machine
end

section
/-!
PROOFS. Sequence commands (R85, R209, R222, R223, R228, R250).
-/

namespace Sys2Proof.Machine

open Sys2Proof

theorem seqOpenBad_alike {d u : Dev} (h : ActsAlike d u) (e : CmdEntry) : seqOpenBad e u = seqOpenBad e d := by
  have hmode := h.ctx (p := R.TCX_MODE e.tenant) (by simp only [R.TCX_MODE]; omega)
  have hsize : regFld u R.TICK_DOMAIN_SIZE 9 0 = regFld d R.TICK_DOMAIN_SIZE 9 0 := by
    rw [regFld, h.regs _ (by unfold ApartFromReader; decide), regFld]
  have hdie : dieIndex u = dieIndex d := by
    rw [dieIndex, h.regs _ (by unfold ApartFromReader; decide), dieIndex]
  simp only [seqOpenBad, h.seqInRange, hmode, hsize, hdie, h.prefixTokens, h.tcxState, h.tenantChain]

@[simp] theorem seqDesc_cmdRecord (x : CmdRef) (res len : Nat) (d : Dev) (q : Nat) :
    seqDesc (cmdRecord x res len d) q = seqDesc d q := by
  rw [seqDesc, cmdRecord_cache, seqDesc]

@[simp] theorem seqEntry_cmdRecord (x : CmdRef) (res len : Nat) (d : Dev) (q : Nat) :
    seqEntry (cmdRecord x res len d) q = seqEntry d q := by
  rw [seqEntry, cmdRecord_ent, seqEntry]

theorem seqEntry_updSeq (q : Nat) (f : SeqDesc → SeqDesc) (d : Dev) (p : Nat) :
    seqEntry (updSeq q f d) p = seqEntry d p := rfl

theorem seqDesc_updEntry (q : Nat) (f : SeqEntry → SeqEntry) (d : Dev) (p : Nat) :
    seqDesc (updEntry q f d) p = seqDesc d p := rfl

/-- An action that has changed neither memory nor a register. -/
theorem actedOn_of_taken {s : State} {ring : RingId} {e : CmdEntry} {d : Dev}
    (hmem : d.mem = (cmdTaken ring e s.dev).mem) (hregs : d.regs = (cmdTaken ring e s.dev).regs) :
    ActedOn ring e s [] d := actedOn_of_same (hmem.trans rfl) hregs

/-- The commands refused share an outcome: the record, and nothing else. -/
def Refuses (ring : RingId) (e : CmdEntry) (s : State) (c : Instr) (res : Nat) : Prop :=
  Completes c s (fun t => CommandAnswered ring e res s t ∧ RegsExcept (doneRegs ring e s) s t ∧ WorkKept s t)

/-- Every other sequence keeps its descriptor and its entry. -/
def OthersKept (e : CmdEntry) (s t : State) : Prop :=
  ∀ q, q ≠ e.seq → seqDesc t.dev q = seqDesc s.dev q ∧ seqEntry t.dev q = seqEntry s.dev q

variable {s : State} {ring : RingId} {e : CmdEntry}

/-! ### SEQ_SET -/

section SeqSet

variable (h : CommandAt s ring 0x08 e)

include h

theorem seqSet_badCmd (hrange : seqInRange s.dev e.tenant e.seq = false) : Refuses ring e s (.seqSet ring) resBadCmd := by
  have hu := actsAlike_cmdTaken (ring := ring) (ring_lt_of_front h.1) s.dev
  exact completes_refused rfl h rfl (if_pos (by rw [hu.seqInRange, hrange]; rfl))

theorem seqSet_badState (hrange : seqInRange s.dev e.tenant e.seq = true)
    (hstate : ¬tcxState s.dev e.tenant = 1 ∨ seqOpen s.dev e.seq = false) :
    Refuses ring e s (.seqSet ring) resBadState := by
  have hu := actsAlike_cmdTaken (ring := ring) (ring_lt_of_front h.1) s.dev
  refine completes_refused rfl h rfl ((if_neg ?_).trans (if_pos ?_))
  · rw [hu.seqInRange, hrange]; decide
  · rwa [hu.tcxState, hu.seqOpen]

theorem seqSet_done (hrange : seqInRange s.dev e.tenant e.seq = true) (hactive : tcxState s.dev e.tenant = 1)
    (hopen : seqOpen s.dev e.seq = true) : Completes (.seqSet ring) s (fun t =>
      CommandAnswered ring e resDone s t ∧ RegsExcept (doneRegs ring e s) s t ∧ OthersKept e s t ∧
      seqDesc t.dev e.seq = { seqDesc s.dev e.seq with evictable := decide (e.arg 0 0 = 1) }) := by
  have hu := actsAlike_cmdTaken (ring := ring) (ring_lt_of_front h.1) s.dev
  refine completes_answered rfl h rfl ((if_neg ?_).trans (if_neg ?_)) (actedOn_of_taken (updSeq_mem _ _ _) (updSeq_regs _ _ _))
    fun t ht hans hregs => ⟨hans, hregs, fun q hq => ?_, ?_⟩
  · rw [hu.seqInRange, hrange]; decide
  · rw [hu.tcxState, hu.seqOpen, hactive, hopen]; decide
  · rw [ht, seqDesc_cmdRecord, seqEntry_cmdRecord, seqDesc_updSeq, if_neg hq, seqEntry_updSeq]
    exact ⟨hu.seqDesc q, hu.seqEntry q⟩
  · rw [ht, seqDesc_cmdRecord, seqDesc_updSeq, if_pos rfl, hu.seqDesc]

end SeqSet

/-! ### Kills of requests (R83) -/

/-- A request as a kill leaves it. -/
def killedReq (p : Req → Bool) (k : Nat) (r : Req) : Req :=
  if p r && !r.recordWritten then { r with killAt := some (match r.killAt with | some j => min j k | none => k) } else r

theorem killReqs_eq (p : Req → Bool) (d : Dev) : killReqs p d =
    { d with ent := { d.ent with reqs := d.ent.reqs.map (killedReq p (d.tick.num + 1)) } } := rfl

theorem killedReq_same (p : Req → Bool) (k : Nat) (r : Req) : (killedReq p k r).uid = r.uid ∧
    (killedReq p k r).desc = r.desc ∧ (killedReq p k r).recordWritten = r.recordWritten := by
  unfold killedReq
  split <;> exact ⟨rfl, rfl, rfl⟩

theorem killReqs_descs (p : Req → Bool) (d : Dev) :
    (killReqs p d).ent.reqs.map (fun r => (r.uid, r.desc)) = d.ent.reqs.map (fun r => (r.uid, r.desc)) := by
  rw [killReqs_eq, List.map_map]
  refine List.map_congr_left fun r _ => ?_
  obtain ⟨huid, hdesc, -⟩ := killedReq_same p (d.tick.num + 1) r
  simp only [Function.comp_apply, huid, hdesc]

/-- A kill that goes by the descriptor reaches every request that it names and whose record is not yet written. -/
theorem killReqs_reaches {p : Req → Bool} {d : Dev} (hp : ∀ a b : Req, a.desc = b.desc → p a = p b) {r : Req}
    (hr : r ∈ (killReqs p d).ent.reqs) (hhit : p r = true) (hrec : r.recordWritten = false) :
    ∃ k, r.killAt = some k ∧ k ≤ d.tick.num + 1 := by
  rw [killReqs_eq] at hr
  obtain ⟨r₀, -, rfl⟩ := List.mem_map.1 hr
  obtain ⟨-, hdesc, hwritten⟩ := killedReq_same p (d.tick.num + 1) r₀
  rw [hp _ _ hdesc] at hhit
  rw [hwritten] at hrec
  rw [killedReq, hhit, hrec, Bool.not_false, Bool.and_true, if_pos rfl]
  refine ⟨_, rfl, ?_⟩
  cases r₀.killAt with
  | none => exact le_refl _
  | some j => exact Nat.min_le_right _ _

/-! ### SEQ_KILL -/

/-- The requests that SEQ_KILL names. -/
def seqKillHits (e : CmdEntry) (r : Req) : Bool := decide (dTenant r.desc = e.tenant) && decide (dSeq r.desc = e.seq)

theorem seqKillHits_desc (e : CmdEntry) (a b : Req) (h : a.desc = b.desc) : seqKillHits e a = seqKillHits e b := by
  rw [seqKillHits, h, seqKillHits]

/-- What SEQ_KILL makes of a device. -/
def seqKilled (e : CmdEntry) (d : Dev) : Dev :=
  let d := updEntry e.seq (fun x => { x with prefillOpen := false }) (killReqs (seqKillHits e) d)
  { d with ent := { d.ent with spec := tblErase d.ent.spec e.seq } }

section SeqKilled

variable (e : CmdEntry) (d : Dev)

theorem seqKilled_mem : (seqKilled e d).mem = d.mem := rfl
theorem seqKilled_regs : (seqKilled e d).regs = d.regs := rfl
theorem seqKilled_reqs : (seqKilled e d).ent.reqs = (killReqs (seqKillHits e) d).ent.reqs := rfl

theorem seqKilled_entry : (seqEntry (seqKilled e d) e.seq).prefillOpen = false := by
  have hentry := seqEntry_updEntry e.seq (fun x => { x with prefillOpen := false }) (killReqs (seqKillHits e) d) e.seq
  rw [if_pos rfl] at hentry
  exact congrArg SeqEntry.prefillOpen hentry

end SeqKilled

section SeqKill

variable (h : CommandAt s ring 0x04 e)

include h

theorem seqKill_badCmd (hrange : seqInRange s.dev e.tenant e.seq = false) : Refuses ring e s (.seqKill ring) resBadCmd := by
  have hu := actsAlike_cmdTaken (ring := ring) (ring_lt_of_front h.1) s.dev
  exact completes_refused rfl h rfl (if_pos (by rw [hu.seqInRange, hrange]; rfl))

theorem seqKill_badState (hrange : seqInRange s.dev e.tenant e.seq = true)
    (hstate : ¬tcxState s.dev e.tenant = 1 ∨ seqOpen s.dev e.seq = false) :
    Refuses ring e s (.seqKill ring) resBadState := by
  have hu := actsAlike_cmdTaken (ring := ring) (ring_lt_of_front h.1) s.dev
  refine completes_refused rfl h rfl ((if_neg ?_).trans (if_pos ?_))
  · rw [hu.seqInRange, hrange]; decide
  · rwa [hu.tcxState, hu.seqOpen]

theorem seqKill_done (hrange : seqInRange s.dev e.tenant e.seq = true) (hactive : tcxState s.dev e.tenant = 1)
    (hopen : seqOpen s.dev e.seq = true) : Completes (.seqKill ring) s (fun t =>
      CommandAnswered ring e resDone s t ∧ RegsExcept (doneRegs ring e s) s t ∧ t.dev.cache = s.dev.cache ∧
      t.dev.ent.reqs.map (fun r => (r.uid, r.desc)) = s.dev.ent.reqs.map (fun r => (r.uid, r.desc)) ∧
      (∀ r ∈ t.dev.ent.reqs, dTenant r.desc = e.tenant → dSeq r.desc = e.seq → r.recordWritten = false →
        ∃ k, r.killAt = some k ∧ k ≤ s.dev.tick.num + 1) ∧
      (seqEntry t.dev e.seq).prefillOpen = false ∧ tblFind t.dev.ent.spec e.seq = none) := by
  have hu := actsAlike_cmdTaken (ring := ring) (ring_lt_of_front h.1) s.dev
  have hact : seqKillCmd e (cmdTaken ring e s.dev) = (some resDone, seqKilled e (cmdTaken ring e s.dev)) := by
    refine (if_neg ?_).trans (if_neg ?_)
    · rw [hu.seqInRange, hrange]; decide
    · rw [hu.tcxState, hu.seqOpen, hactive, hopen]; decide
  have hacted : ActedOn ring e s [] (seqKilled e (cmdTaken ring e s.dev)) :=
    actedOn_of_taken (seqKilled_mem e _) (seqKilled_regs e _)
  refine completes_answered rfl h rfl hact hacted fun t ht hans hregs =>
    ⟨hans, hregs, ?_, ?_, fun r hr htenant hseq hrec => ?_, ?_, ?_⟩
  · rw [ht, cmdRecord_cache]
    exact hu.cache
  · rw [ht, cmdRecord_ent, seqKilled_reqs, killReqs_descs, hu.reqs]
  · rw [ht, cmdRecord_ent, seqKilled_reqs] at hr
    rw [← hu.tick]
    exact killReqs_reaches (seqKillHits_desc e) hr (by simp [seqKillHits, htenant, hseq]) hrec
  · rw [ht, seqEntry_cmdRecord, seqKilled_entry]
  · rw [ht, cmdRecord_ent]
    exact (tblFind_erase _ _ _).trans (if_pos rfl)

end SeqKill

/-! ### Directories of a new sequence (R209) -/

/-- A FREE frame taken, as cache control sees it. -/
def allocCache (t k : Nat) (kind : FrameKind) (c : CacheSt) : Option (Nat × CacheSt) :=
  (buddyAlloc 10 c.freeFrames k).map (fun r => (r.1, { c with
    freeFrames := r.2
    frames := tblPut c.frames r.1 { refcnt := 1, tenant := t, order := k, st := .used, kind := kind } }))

/-- A layer directory taken and named in the root. -/
def addDir (t root k : Nat) (o : Option CacheSt) (l : Nat) : Option CacheSt :=
  o.bind (fun c => (allocCache t k .dir c).map (fun r => { r.2 with ptrs := tblPut r.2.ptrs (4096 * root + l) r.1 }))

/-- The directories of a sequence, as cache control sees them. -/
def openCache (t layers k : Nat) (c : CacheSt) : Option (Nat × CacheSt) :=
  (allocCache t 0 .root c).bind (fun r =>
    ((List.range layers).foldl (addDir t r.1 k) (some r.2)).map (fun c => (r.1, c)))

theorem allocFrame_free (t k : Nat) (kind : FrameKind) (d : Dev) : allocFrame .free t k kind d =
    (allocCache t k kind d.cache).map (fun r => (r.1, { d with cache := r.2 })) := by
  simp only [allocFrame, pickFrame, allocCache, Option.map_map]
  rfl

/-- The directories of a device are those of its cache control. -/
theorem openDirs_eq (t : Nat) (d : Dev) : openDirs t d =
    (openCache t (layersOf d t) (dirOrder d t) d.cache).map (fun r => (r.1, { d with cache := r.2 })) := by
  have hfold (root : Nat) (ls : List Nat) (o : Option CacheSt) :
      ls.foldl (fun (o : Option Dev) l => o.bind (fun d =>
        (allocFrame .free t (dirOrder d t) .dir d).map (fun r => setPtr root l r.1 r.2)))
        (o.map (fun c => { d with cache := c })) =
      (ls.foldl (addDir t root (dirOrder d t)) o).map (fun c => { d with cache := c }) := by
    induction ls generalizing o with
    | nil => rfl
    | cons l ls ih =>
      rw [List.foldl_cons, List.foldl_cons, ← ih]
      congr 1
      cases o with
      | none => rfl
      | some c =>
        have horder : dirOrder { d with cache := c } t = dirOrder d t := rfl
        simp only [Option.map_some, Option.bind_some, addDir, allocFrame_free, Option.map_map, horder]
        rfl
  rw [openDirs, allocFrame_free, openCache]
  cases allocCache t 0 .root d.cache with
  | none => rfl
  | some r =>
    have h := hfold r.1 (List.range (layersOf d t)) (some r.2)
    rw [Option.map_some] at h
    simp only [Option.map_some, Option.bind_some, Option.map_map]
    rw [show layersOf { d with cache := r.2 } t = layersOf d t from rfl, h, Option.map_map]
    rfl

theorem allocCache_seqs {t k : Nat} {kind : FrameKind} {c : CacheSt} {r : Nat × CacheSt}
    (h : allocCache t k kind c = some r) : r.2.seqs = c.seqs := by
  obtain ⟨x, -, rfl⟩ := Option.map_eq_some_iff.1 h
  rfl

/-- New directories leave every descriptor. -/
theorem openCache_seqs {t layers k : Nat} {c : CacheSt} {r : Nat × CacheSt} (h : openCache t layers k c = some r) :
    r.2.seqs = c.seqs := by
  have hfold (root : Nat) (ls : List Nat) (o : Option CacheSt) (ho : ∀ x, o = some x → x.seqs = c.seqs) :
      ∀ x, ls.foldl (addDir t root k) o = some x → x.seqs = c.seqs := by
    induction ls generalizing o with
    | nil => exact ho
    | cons l ls ih =>
      refine ih _ fun x hx => ?_
      obtain ⟨y, hy, hx⟩ := Option.bind_eq_some_iff.1 hx
      obtain ⟨z, hz, rfl⟩ := Option.map_eq_some_iff.1 hx
      exact (allocCache_seqs hz).trans (ho y hy)
  obtain ⟨x, hx, h⟩ := Option.bind_eq_some_iff.1 h
  obtain ⟨y, hy, rfl⟩ := Option.map_eq_some_iff.1 h
  exact hfold x.1 _ (some x.2) (fun z hz => Option.some.inj hz ▸ allocCache_seqs hx) y hy

theorem openDirs_alike {d u : Dev} (h : ActsAlike d u) (t : Nat) :
    openDirs t u = (openDirs t d).map (fun r => (r.1, updCache (fun _ => r.2.cache) u)) := by
  have horder : dirOrder u t = dirOrder d t := by rw [dirOrder, h.kvHeads, dirOrder]
  rw [openDirs_eq, openDirs_eq, h.layersOf, horder, h.cache, Option.map_map]
  rfl

theorem openDirs_rest {d d' : Dev} {t root : Nat} (h : openDirs t d = some (root, d')) :
    d' = { d with cache := d'.cache } ∧ d'.cache.seqs = d.cache.seqs := by
  rw [openDirs_eq] at h
  obtain ⟨r, hr, h⟩ := Option.map_eq_some_iff.1 h
  cases h
  exact ⟨rfl, openCache_seqs hr⟩

/-- Descriptors where cache control is another device's. -/
theorem seqDesc_setCache (u : Dev) {d : Dev} {c : CacheSt} (h : c.seqs = d.cache.seqs) (q : Nat) :
    seqDesc (updCache (fun _ => c) u) q = seqDesc d q := by
  show tblGet {} c.seqs q = _
  rw [h, seqDesc]

theorem seqEntry_updCache (f : CacheSt → CacheSt) (u : Dev) (q : Nat) : seqEntry (updCache f u) q = seqEntry u q := rfl

/-! ### SEQ_OPEN -/

/-- The descriptor that SEQ_OPEN writes. -/
def openedDesc (e : CmdEntry) (root : Nat) : SeqDesc :=
  let split := decide (e.arg 1 1 = 1)
  { tenant := e.tenant, st := .live, evictable := decide (e.arg 0 0 = 1), splitPos := split,
    posLo := if split then e.arg 63 32 else 0, posHi := if split then e.arg 95 64 else 0xFFFFFFFF,
    homeDie := e.arg 111 96, parts := e.arg 31 16, root := some root, statsBase := e.arg 255 192 }

/-- What SEQ_OPEN makes of a device on which the directories are built. -/
def seqOpened (e : CmdEntry) (root : Nat) (d : Dev) : Dev :=
  let d := updEntry e.seq (fun _ => { isOpen := true }) (updSeq e.seq (fun _ => openedDesc e root) d)
  { d with ent := { d.ent with spec := tblErase d.ent.spec e.seq } }

section SeqOpened

variable (e : CmdEntry) (root : Nat) (d : Dev) (q : Nat)

theorem seqOpened_mem : (seqOpened e root d).mem = d.mem := rfl
theorem seqOpened_regs : (seqOpened e root d).regs = d.regs := rfl

theorem seqDesc_seqOpened : seqDesc (seqOpened e root d) q = if q = e.seq then openedDesc e root else seqDesc d q :=
  seqDesc_updSeq e.seq (fun _ => openedDesc e root) d q

theorem seqEntry_seqOpened :
    seqEntry (seqOpened e root d) q = if q = e.seq then { isOpen := true } else seqEntry d q :=
  seqEntry_updEntry e.seq (fun _ => { isOpen := true }) (updSeq e.seq (fun _ => openedDesc e root) d) q

theorem spec_seqOpened : tblFind (seqOpened e root d).ent.spec e.seq = none :=
  (tblFind_erase _ _ _).trans (if_pos rfl)

end SeqOpened

theorem seqOpenCmd_some {d d' : Dev} {root : Nat} (hgood : seqOpenBad e d = false) (hactive : tcxState d e.tenant = 1)
    (hfree : (seqDesc d e.seq).st = .free) (hdirs : openDirs e.tenant d = some (root, d')) :
    seqOpenCmd e d = (some resDone, seqOpened e root d') := by
  unfold seqOpenCmd
  simp only [hgood, hactive, hfree, hdirs]
  rfl

section SeqOpen

variable (h : CommandAt s ring 0x05 e)

include h

theorem seqOpen_badCmd (hbad : seqOpenBad e s.dev = true) : Refuses ring e s (.seqOpen ring) resBadCmd := by
  have hu := actsAlike_cmdTaken (ring := ring) (ring_lt_of_front h.1) s.dev
  exact completes_refused rfl h rfl (if_pos (by rw [seqOpenBad_alike hu, hbad]))

theorem seqOpen_badState (hgood : seqOpenBad e s.dev = false)
    (hstate : ¬tcxState s.dev e.tenant = 1 ∨ (seqDesc s.dev e.seq).st ≠ .free) :
    Refuses ring e s (.seqOpen ring) resBadState := by
  have hu := actsAlike_cmdTaken (ring := ring) (ring_lt_of_front h.1) s.dev
  refine completes_refused rfl h rfl ((if_neg ?_).trans (if_pos ?_))
  · rw [seqOpenBad_alike hu, hgood]; decide
  · rwa [hu.tcxState, hu.seqDesc]

theorem seqOpen_noSpace (hgood : seqOpenBad e s.dev = false) (hactive : tcxState s.dev e.tenant = 1)
    (hfree : (seqDesc s.dev e.seq).st = .free) (hdirs : openDirs e.tenant s.dev = none) :
    Refuses ring e s (.seqOpen ring) resNoSpace := by
  have hu := actsAlike_cmdTaken (ring := ring) (ring_lt_of_front h.1) s.dev
  have hnone := openDirs_alike hu e.tenant
  rw [hdirs, Option.map_none] at hnone
  refine completes_refused rfl h rfl ((if_neg ?_).trans ((if_neg ?_).trans ?_))
  · rw [seqOpenBad_alike hu, hgood]; decide
  · rw [hu.tcxState, hu.seqDesc, hactive, hfree]; decide
  · rw [hnone]

theorem seqOpen_done (hgood : seqOpenBad e s.dev = false) (hactive : tcxState s.dev e.tenant = 1)
    (hfree : (seqDesc s.dev e.seq).st = .free) (hdirs : (openDirs e.tenant s.dev).isSome = true) :
    Completes (.seqOpen ring) s (fun t => CommandAnswered ring e resDone s t ∧ RegsExcept (doneRegs ring e s) s t ∧
      OthersKept e s t ∧ seqOpen t.dev e.seq = true ∧ (seqDesc t.dev e.seq).tenant = e.tenant ∧
      (seqDesc t.dev e.seq).length = 0 ∧ (seqDesc t.dev e.seq).evictable = decide (e.arg 0 0 = 1) ∧
      (seqDesc t.dev e.seq).homeDie = e.arg 111 96 ∧ (seqDesc t.dev e.seq).parts = e.arg 31 16 ∧
      seqEntry t.dev e.seq = { isOpen := true } ∧ tblFind t.dev.ent.spec e.seq = none) := by
  have hu := actsAlike_cmdTaken (ring := ring) (ring_lt_of_front h.1) s.dev
  obtain ⟨⟨root, d'⟩, hsome⟩ := Option.isSome_iff_exists.1 hdirs
  have hdirsu := openDirs_alike hu e.tenant
  rw [hsome, Option.map_some] at hdirsu
  obtain ⟨-, hseqs⟩ := openDirs_rest hsome
  have hact := seqOpenCmd_some (e := e) (by rw [seqOpenBad_alike hu, hgood]) (by rw [hu.tcxState, hactive])
    (by rw [hu.seqDesc, hfree]) hdirsu
  have hacted : ActedOn ring e s [] (seqOpened e root (updCache (fun _ => d'.cache) (cmdTaken ring e s.dev))) :=
    actedOn_of_taken ((seqOpened_mem e root _).trans (updCache_mem _ _))
      ((seqOpened_regs e root _).trans (updCache_regs _ _))
  refine completes_answered rfl h rfl hact hacted fun t ht hans hregs => ?_
  have hnew : seqDesc t.dev e.seq = openedDesc e root := by
    rw [ht, seqDesc_cmdRecord, seqDesc_seqOpened, if_pos rfl]
  refine ⟨hans, hregs, fun q hq => ⟨?_, ?_⟩, ?_⟩
  · rw [ht, seqDesc_cmdRecord, seqDesc_seqOpened, if_neg hq, seqDesc_setCache _ hseqs]
  · rw [ht, seqEntry_cmdRecord, seqEntry_seqOpened, if_neg hq, seqEntry_updCache, hu.seqEntry]
  · rw [seqOpen, hnew]
    refine ⟨rfl, rfl, rfl, rfl, rfl, rfl, ?_, ?_⟩
    · rw [ht, seqEntry_cmdRecord, seqEntry_seqOpened, if_pos rfl]
    · rw [ht, cmdRecord_ent]
      exact spec_seqOpened e root _

end SeqOpen

/-! ### SEQ_RELEASE -/

section StartRelease

/-- The entrance's part of a release's start, and the end of what waits for the sequence. -/
def releaseEntered (q : Nat) (d : Dev) : Dev :=
  let d := updEntry q (fun e => { e with isOpen := false, prefillOpen := false }) d
  let d := { d with ent := { d.ent with spec := tblErase d.ent.spec q } }
  updCache (fun c => { c with waiting := c.waiting.filter (fun w => w.1 ≠ q) }) d

/-- The descriptor of a sequence whose release begins. -/
def releasingDesc (cmd : Option CmdRef) (x₀ x : SeqDesc) : SeqDesc :=
  { x with st := .releasing, cursor := 0, workDone := x₀.damaged, cmd := if x.forkChild then x.cmd else cmd }

variable (q : Nat) (cmd : Option CmdRef) (d : Dev)

theorem startRelease_eq : startRelease q cmd d = updSeq q (releasingDesc cmd (seqDesc d q))
    (if (seqDesc d q).damaged then bumpBy (releaseEntered q d) R.KVC_LOST (heldUnits (releaseEntered q d) q)
      else releaseEntered q d) := by
  have hdesc : seqDesc (releaseEntered q d) q = seqDesc d q := rfl
  unfold startRelease
  change (if (seqDesc (releaseEntered q d) q).damaged = true then updSeq q _ (bumpBy (releaseEntered q d) _ _) else
    updSeq q _ (releaseEntered q d)) = _
  rw [hdesc]
  split <;> rfl

/-- The device to whose descriptor the release is written: its losses counted where it is damaged. -/
def releaseCounted : Dev :=
  if (seqDesc d q).damaged then bumpBy (releaseEntered q d) R.KVC_LOST (heldUnits (releaseEntered q d) q)
  else releaseEntered q d

theorem releaseCounted_mem : (releaseCounted q d).mem = d.mem := by
  unfold releaseCounted
  split <;> rfl

theorem releaseCounted_seqs : (releaseCounted q d).cache.seqs = d.cache.seqs := by
  unfold releaseCounted
  split <;> rfl

theorem releaseCounted_ent : (releaseCounted q d).ent = (releaseEntered q d).ent := by
  unfold releaseCounted
  split <;> rfl

theorem getReg_releaseCounted {o : Nat} (h : (seqDesc d q).damaged = false ∨ o ≠ R.KVC_LOST) :
    getReg (releaseCounted q d) o = getReg d o := by
  unfold releaseCounted
  split
  · rename_i hdam
    rw [getReg_bumpBy, if_neg (h.resolve_left (by rw [hdam]; decide))]
    rfl
  · rfl

theorem startRelease_mem : (startRelease q cmd d).mem = d.mem := by
  rw [startRelease_eq, updSeq_mem]
  exact releaseCounted_mem q d

theorem getReg_startRelease {o : Nat} (h : (seqDesc d q).damaged = false ∨ o ≠ R.KVC_LOST) :
    getReg (startRelease q cmd d) o = getReg d o := by
  rw [startRelease_eq, getReg_congr (updSeq_regs _ _ _)]
  exact getReg_releaseCounted q d h

theorem seqDesc_startRelease (p : Nat) : seqDesc (startRelease q cmd d) p =
    if p = q then releasingDesc cmd (seqDesc d q) (seqDesc d q) else seqDesc d p := by
  have hdesc (x : Nat) : seqDesc (releaseCounted q d) x = seqDesc d x := by
    rw [seqDesc, releaseCounted_seqs, seqDesc]
  rw [startRelease_eq, seqDesc_updSeq, ← releaseCounted, hdesc, hdesc]

theorem seqEntry_startRelease (p : Nat) : seqEntry (startRelease q cmd d) p =
    if p = q then { seqEntry d q with isOpen := false, prefillOpen := false } else seqEntry d p := by
  rw [startRelease_eq, ← releaseCounted, seqEntry_updSeq, seqEntry, releaseCounted_ent]
  exact seqEntry_updEntry q (fun e => { e with isOpen := false, prefillOpen := false }) d p

end StartRelease

section SeqRelease

variable (h : CommandAt s ring 0x07 e)

include h

theorem seqRelease_badCmd (hrange : seqInRange s.dev e.tenant e.seq = false) :
    Refuses ring e s (.seqRelease ring) resBadCmd := by
  have hu := actsAlike_cmdTaken (ring := ring) (ring_lt_of_front h.1) s.dev
  exact completes_refused rfl h rfl (if_pos (by rw [hu.seqInRange, hrange]; rfl))

theorem seqRelease_badState (hrange : seqInRange s.dev e.tenant e.seq = true)
    (hstate : ¬tcxState s.dev e.tenant = 1 ∨ seqOpen s.dev e.seq = false) :
    Refuses ring e s (.seqRelease ring) resBadState := by
  have hu := actsAlike_cmdTaken (ring := ring) (ring_lt_of_front h.1) s.dev
  refine completes_refused rfl h rfl ((if_neg ?_).trans (if_pos ?_))
  · rw [hu.seqInRange, hrange]; decide
  · rwa [hu.tcxState, hu.seqOpen]

theorem seqRelease_busy (hrange : seqInRange s.dev e.tenant e.seq = true) (hactive : tcxState s.dev e.tenant = 1)
    (hopen : seqOpen s.dev e.seq = true) (hbusy : seqBusy s.dev e.seq = true) :
    Refuses ring e s (.seqRelease ring) resBusy := by
  have hu := actsAlike_cmdTaken (ring := ring) (ring_lt_of_front h.1) s.dev
  refine completes_refused rfl h rfl ((if_neg ?_).trans ((if_neg ?_).trans (if_pos ?_)))
  · rw [hu.seqInRange, hrange]; decide
  · rw [hu.tcxState, hu.seqOpen, hactive, hopen]; decide
  · rw [hu.seqBusy, hbusy]

theorem seqRelease_kept (hrange : seqInRange s.dev e.tenant e.seq = true) (hactive : tcxState s.dev e.tenant = 1)
    (hopen : seqOpen s.dev e.seq = true) (hbusy : seqBusy s.dev e.seq = false) :
    Completes (.seqRelease ring) s (fun t => CommandKept ring e s t ∧ OthersKept e s t ∧
      RegsExcept (R.RNG_PENDING e.ring :: R.KVC_LOST :: cmdRegs ring e) s t ∧
      ((seqDesc s.dev e.seq).damaged = false → getReg t.dev R.KVC_LOST = getReg s.dev R.KVC_LOST) ∧
      (seqDesc t.dev e.seq).st = .releasing ∧
      (seqDesc t.dev e.seq).cmd.map (·.ctr) = some (getReg s.dev (R.RNG_TAIL e.ring)) ∧
      (seqEntry t.dev e.seq).isOpen = false ∧ (seqEntry t.dev e.seq).prefillOpen = false) := by
  have hr := ring_lt_of_front h.1
  have hu := actsAlike_cmdTaken (ring := ring) hr s.dev
  have hapart : ApartFromReader R.KVC_LOST := by unfold ApartFromReader; decide
  have hact : seqReleaseCmd e (cmdRefOf e s.dev) (cmdTaken ring e s.dev) =
      (none, startRelease e.seq (some (cmdRefOf e s.dev)) (cmdTaken ring e s.dev)) := by
    refine (if_neg ?_).trans ((if_neg ?_).trans (if_neg ?_))
    · rw [hu.seqInRange, hrange]; decide
    · rw [hu.tcxState, hu.seqOpen, hactive, hopen]; decide
    · rw [hu.seqBusy, hbusy]; decide
  have hmem : (startRelease e.seq (some (cmdRefOf e s.dev)) (cmdTaken ring e s.dev)).mem = s.dev.mem :=
    (startRelease_mem _ _ _).trans hu.mem
  have hacted : ActedOn ring e s [R.KVC_LOST] (startRelease e.seq (some (cmdRefOf e s.dev)) (cmdTaken ring e s.dev)) :=
    { cm := by rw [hmem], hbm := by rw [hmem], hive := by rw [hmem]
      regs := fun o ho => getReg_startRelease _ _ _ (.inr (by simpa using ho))
      apart := fun o ho => List.mem_singleton.1 ho ▸ hapart }
  have hchild : (seqDesc s.dev e.seq).forkChild = false := by
    have := (Bool.and_eq_true_iff.1 hopen).2
    simpa using this
  refine completes_kept rfl h rfl hact hacted hmem fun t ht hkept hregs =>
    ⟨hkept, fun q hq => ⟨?_, ?_⟩, hregs, fun hdam => ?_, ?_⟩
  · rw [ht, seqDesc_startRelease, if_neg hq, hu.seqDesc]
  · rw [ht, seqEntry_startRelease, if_neg hq, hu.seqEntry]
  · rw [ht, getReg_startRelease _ _ _ (.inl (by rw [hu.seqDesc, hdam])), hu.regs _ hapart]
  · rw [ht, seqDesc_startRelease, if_pos rfl, seqEntry_startRelease, if_pos rfl, hu.seqDesc]
    simp [releasingDesc, hchild, cmdRefOf]

end SeqRelease

/-! ### SEQ_FORK -/

/-- The descriptor that SEQ_FORK writes for the child. -/
def forkedDesc (e : CmdEntry) (root : Nat) (x : CmdRef) : SeqDesc :=
  { tenant := e.tenant, st := .live, root := some root, forkChild := true, forkPeer := e.arg 17 0, forkLen := e.arg 63 32,
    cmd := some x }

/-- What SEQ_FORK makes of a device on which the child's directories are built. -/
def seqForked (e : CmdEntry) (root : Nat) (x : CmdRef) (d : Dev) : Dev :=
  updSeq (e.arg 17 0) (fun p => { p with forkParent := true, forkPeer := e.seq })
    (updSeq e.seq (fun _ => forkedDesc e root x) d)

section SeqForked

variable (e : CmdEntry) (root : Nat) (x : CmdRef) (d : Dev)

theorem seqForked_mem : (seqForked e root x d).mem = d.mem := rfl
theorem seqForked_regs : (seqForked e root x d).regs = d.regs := rfl
theorem seqForked_seqTab : (seqForked e root x d).ent.seqTab = d.ent.seqTab := rfl

theorem seqDesc_seqForked (q : Nat) : seqDesc (seqForked e root x d) q =
    if q = e.arg 17 0 then
      { (if e.arg 17 0 = e.seq then forkedDesc e root x else seqDesc d (e.arg 17 0)) with
        forkParent := true, forkPeer := e.seq }
    else if q = e.seq then forkedDesc e root x else seqDesc d q := by
  rw [seqForked, seqDesc_updSeq, seqDesc_updSeq, seqDesc_updSeq]

end SeqForked

/-- R85's form of a fork: child and parent in range, and a shared length that the parent has. -/
def ForkGiven (e : CmdEntry) (d : Dev) : Prop :=
  let p := seqDesc d (e.arg 17 0)
  let n := e.arg 63 32
  seqInRange d e.tenant e.seq = true ∧ seqInRange d e.tenant (e.arg 17 0) = true ∧ 0 < n ∧ n ≤ p.length ∧ p.parts ≤ 1 ∧
    (p.prefixLen ≤ n ∨ n % prefixTokens d e.tenant = 0)

theorem forkGiven_alike {d u : Dev} (hu : ActsAlike d u) (e : CmdEntry) : ForkGiven e u ↔ ForkGiven e d := by
  simp only [ForkGiven, hu.seqInRange, hu.seqDesc, hu.prefixTokens]

theorem seqForkCmd_bad {e : CmdEntry} {x : CmdRef} {d : Dev} (h : ¬ForkGiven e d) :
    seqForkCmd e x d = (some resBadCmd, d) := by
  refine if_pos ?_
  by_contra hgood
  refine h ?_
  simp only [Bool.or_eq_true, Bool.and_eq_true, Bool.not_eq_true', decide_eq_true_eq, not_or, not_and, Bool.not_eq_false] at hgood
  obtain ⟨⟨⟨⟨⟨hchild, hparent⟩, hpos⟩, hlen⟩, hparts⟩, hprefix⟩ := hgood
  refine ⟨hchild, hparent, by omega, by omega, by omega, ?_⟩
  by_cases hlt : e.arg 63 32 < (seqDesc d (e.arg 17 0)).prefixLen
  · exact .inr (by simpa using hprefix hlt)
  · exact .inl (by omega)

theorem seqForkCmd_given {e : CmdEntry} {x : CmdRef} {d : Dev} (h : ForkGiven e d) : seqForkCmd e x d =
    if tcxState d e.tenant ≠ 1 ∨ (seqDesc d e.seq).st ≠ .free ∨ seqOpen d (e.arg 17 0) = false ∨
        (seqDesc d (e.arg 17 0)).forkParent then (some resBadState, d)
    else if seqBusy d (e.arg 17 0) then (some resBusy, d)
    else match openDirs e.tenant d with
      | none => (some resNoSpace, d)
      | some r => (none, seqForked e r.1 x r.2) := by
  obtain ⟨hchild, hparent, hpos, hlen, hparts, hprefix⟩ := h
  refine (if_neg ?_).trans ?_
  · intro hbad
    simp [hchild, hparent] at hbad
    omega
  · cases openDirs e.tenant d <;> rfl

section SeqFork

variable (h : CommandAt s ring 0x06 e)

include h

theorem seqFork_badCmd (hbad : ¬ForkGiven e s.dev) : Refuses ring e s (.seqFork ring) resBadCmd := by
  have hu := actsAlike_cmdTaken (ring := ring) (ring_lt_of_front h.1) s.dev
  exact completes_refused rfl h rfl (seqForkCmd_bad (by rwa [forkGiven_alike hu]))

variable (hgiven : ForkGiven e s.dev)

include hgiven

theorem seqFork_badState (hstate : ¬tcxState s.dev e.tenant = 1 ∨ (seqDesc s.dev e.seq).st ≠ .free ∨
    seqOpen s.dev (e.arg 17 0) = false ∨ (seqDesc s.dev (e.arg 17 0)).forkParent = true) :
    Refuses ring e s (.seqFork ring) resBadState := by
  have hu := actsAlike_cmdTaken (ring := ring) (ring_lt_of_front h.1) s.dev
  refine completes_refused rfl h rfl ((seqForkCmd_given (by rwa [forkGiven_alike hu])).trans (if_pos ?_))
  rwa [hu.tcxState, hu.seqDesc, hu.seqDesc, hu.seqOpen]

variable (hactive : tcxState s.dev e.tenant = 1) (hfree : (seqDesc s.dev e.seq).st = .free)
  (hopen : seqOpen s.dev (e.arg 17 0) = true) (hparent : (seqDesc s.dev (e.arg 17 0)).forkParent = false)

include hactive hfree hopen hparent

theorem seqFork_act : seqForkCmd e (cmdRefOf e s.dev) (cmdTaken ring e s.dev) =
    if seqBusy s.dev (e.arg 17 0) then (some resBusy, cmdTaken ring e s.dev)
    else match openDirs e.tenant (cmdTaken ring e s.dev) with
      | none => (some resNoSpace, cmdTaken ring e s.dev)
      | some r => (none, seqForked e r.1 (cmdRefOf e s.dev) r.2) := by
  have hu := actsAlike_cmdTaken (ring := ring) (ring_lt_of_front h.1) s.dev
  rw [seqForkCmd_given (by rwa [forkGiven_alike hu]), if_neg, hu.seqBusy]
  rw [hu.tcxState, hu.seqDesc, hu.seqDesc, hu.seqOpen, hactive, hfree, hopen, hparent]
  decide

theorem seqFork_busy (hbusy : seqBusy s.dev (e.arg 17 0) = true) : Refuses ring e s (.seqFork ring) resBusy :=
  completes_refused rfl h rfl ((seqFork_act h hgiven hactive hfree hopen hparent).trans (if_pos hbusy))

variable (hbusy : seqBusy s.dev (e.arg 17 0) = false)

include hbusy

theorem seqFork_noSpace (hdirs : openDirs e.tenant s.dev = none) : Refuses ring e s (.seqFork ring) resNoSpace := by
  have hnone := openDirs_alike (actsAlike_cmdTaken (ring := ring) (ring_lt_of_front h.1) s.dev) e.tenant
  rw [hdirs, Option.map_none] at hnone
  refine completes_refused rfl h rfl ((seqFork_act h hgiven hactive hfree hopen hparent).trans ?_)
  rw [hbusy, hnone]
  rfl

theorem seqFork_kept (hdirs : (openDirs e.tenant s.dev).isSome = true) :
    Completes (.seqFork ring) s (fun t => CommandKept ring e s t ∧
      RegsExcept (R.RNG_PENDING e.ring :: cmdRegs ring e) s t ∧
      (seqDesc t.dev e.seq).st = .live ∧ (seqDesc t.dev e.seq).forkChild = true ∧
      (seqDesc t.dev e.seq).forkPeer = e.arg 17 0 ∧ (seqDesc t.dev e.seq).forkLen = e.arg 63 32 ∧
      seqDesc t.dev (e.arg 17 0) =
        { seqDesc s.dev (e.arg 17 0) with forkParent := true, forkPeer := e.seq } ∧
      t.dev.ent.seqTab = s.dev.ent.seqTab) := by
  have hu := actsAlike_cmdTaken (ring := ring) (ring_lt_of_front h.1) s.dev
  obtain ⟨⟨root, d'⟩, hsome⟩ := Option.isSome_iff_exists.1 hdirs
  have hdirsu := openDirs_alike hu e.tenant
  rw [hsome, Option.map_some] at hdirsu
  obtain ⟨-, hseqs⟩ := openDirs_rest hsome
  have hact := seqFork_act h hgiven hactive hfree hopen hparent
  rw [hbusy, hdirsu, if_neg (by decide)] at hact
  have hne : e.seq ≠ e.arg 17 0 := by
    intro heq
    rw [seqOpen, ← heq, hfree] at hopen
    cases hopen
  have hmem := (seqForked_mem e root (cmdRefOf e s.dev) (updCache (fun _ => d'.cache) (cmdTaken ring e s.dev))).trans
    (updCache_mem _ _)
  have hacted := actedOn_of_taken hmem ((seqForked_regs e root (cmdRefOf e s.dev) _).trans (updCache_regs _ _))
  refine completes_kept rfl h rfl hact hacted (hmem.trans hu.mem) fun t ht hkept hregs => ⟨hkept, hregs, ?_⟩
  rw [ht, seqDesc_seqForked, seqDesc_seqForked, if_neg hne, if_pos rfl, if_pos rfl, if_neg hne.symm,
    seqDesc_setCache _ hseqs, seqForked_seqTab, updCache_ent, hu.seqTab]
  exact ⟨rfl, rfl, rfl, rfl, rfl, rfl⟩

end SeqFork

/-- Settles O40: each command is the reader's action, whose branches are the clauses. -/
theorem sequenceCommands : Obligations.SequenceCommands := by
  intro s ring e
  refine ⟨fun h => ⟨seqSet_badCmd h, seqSet_badState h, seqSet_done h⟩,
    fun h => ⟨seqKill_badCmd h, seqKill_badState h, seqKill_done h⟩,
    fun h => ⟨seqOpen_badCmd h, seqOpen_badState h, seqOpen_noSpace h, seqOpen_done h⟩,
    fun h => ⟨seqRelease_badCmd h, seqRelease_badState h, seqRelease_busy h, seqRelease_kept h⟩,
    fun h => ⟨fun hbad => seqFork_badCmd h ?_, fun hrange hprange hpos hlen hparts hprefix =>
      ⟨seqFork_badState h ⟨hrange, hprange, hpos, hlen, hparts, hprefix⟩, fun hactive hfree hopen hparent =>
        ⟨seqFork_busy h ⟨hrange, hprange, hpos, hlen, hparts, hprefix⟩ hactive hfree hopen hparent,
          seqFork_noSpace h ⟨hrange, hprange, hpos, hlen, hparts, hprefix⟩ hactive hfree hopen hparent,
          seqFork_kept h ⟨hrange, hprange, hpos, hlen, hparts, hprefix⟩ hactive hfree hopen hparent⟩⟩⟩⟩
  rintro ⟨hrange, hprange, hpos, hlen, hparts, hprefix⟩
  rw [hrange, hprange] at hbad
  simp only [Bool.true_eq_false, false_or] at hbad
  omega

end Sys2Proof.Machine
end

section
/-!
PROOFS. Kills of requests, key sets, activation and the end of a context (R81 to R83, R269, R277, R278, R290, R298).
-/

namespace Sys2Proof.Machine

open Sys2Proof

variable {s : State} {ring : RingId} {e : CmdEntry}

/-! `killReqs` changes the requests alone. -/

section Units

variable (p : Req → Bool) (d : Dev)

theorem killReqs_mem : (killReqs p d).mem = d.mem := rfl
theorem killReqs_regs : (killReqs p d).regs = d.regs := rfl
theorem killReqs_cache : (killReqs p d).cache = d.cache := rfl
theorem killReqs_wgt : (killReqs p d).wgt = d.wgt := rfl
theorem killReqs_tokens : (killReqs p d).ent.tokens = d.ent.tokens := rfl

end Units

/-! ### REQ_KILL -/

/-- The requests that REQ_KILL names. -/
def reqKillHits (e : CmdEntry) (r : Req) : Bool :=
  decide (dTenant r.desc = e.tenant) && decide ((dReqId r.desc).toNat = e.arg 31 0)

theorem reqKillHits_iff (e : CmdEntry) (r : Req) :
    reqKillHits e r = true ↔ dTenant r.desc = e.tenant ∧ (dReqId r.desc).toNat = e.arg 31 0 := by
  simp [reqKillHits]

theorem reqKillHits_desc (e : CmdEntry) (a b : Req) (h : a.desc = b.desc) : reqKillHits e a = reqKillHits e b := by
  rw [reqKillHits, h, reqKillHits]

theorem reqKillCmd_active {d : Dev} (h : tcxState d e.tenant = 1) : reqKillCmd e d =
    if d.ent.reqs.any (fun r => reqKillHits e r && !r.recordWritten && decide (d.tick.num + 1 ≤ r.tick)) then
      (some resDone, killReqs (reqKillHits e) d) else (some resNotFound, d) :=
  if_neg (by rw [h]; decide)

/-- REQ_KILL's request: one of a later tick whose record is not yet written. -/
def ReqFound (e : CmdEntry) (s : State) : Prop :=
  ∃ r ∈ s.dev.ent.reqs, (dTenant r.desc = e.tenant ∧ (dReqId r.desc).toNat = e.arg 31 0) ∧ r.recordWritten = false ∧
    s.dev.tick.num + 1 ≤ r.tick

theorem reqFound_iff : ReqFound e s ↔ s.dev.ent.reqs.any (fun r => reqKillHits e r && !r.recordWritten &&
    decide (s.dev.tick.num + 1 ≤ r.tick)) = true := by
  simp only [ReqFound, ← reqKillHits_iff, List.any_eq_true, Bool.and_eq_true, Bool.not_eq_true', decide_eq_true_eq,
    and_assoc]

section ReqKill

variable (h : CommandAt s ring 0x03 e)

include h

theorem reqKill_badState (hstate : tcxState s.dev e.tenant ≠ 1) : Refuses ring e s (.reqKill ring) resBadState := by
  have hu := actsAlike_cmdTaken (ring := ring) (ring_lt_of_front h.1) s.dev
  exact completes_refused rfl h rfl (if_pos (by rwa [hu.tcxState]))

variable (hactive : tcxState s.dev e.tenant = 1)

include hactive

theorem reqKill_act [Decidable (ReqFound e s)] : reqKillCmd e (cmdTaken ring e s.dev) =
    if ReqFound e s then (some resDone, killReqs (reqKillHits e) (cmdTaken ring e s.dev))
    else (some resNotFound, cmdTaken ring e s.dev) := by
  have hu := actsAlike_cmdTaken (ring := ring) (ring_lt_of_front h.1) s.dev
  rw [reqKillCmd_active (by rwa [hu.tcxState]), hu.reqs, hu.tick]
  simp only [reqFound_iff]

theorem reqKill_notFound (hnone : ¬ReqFound e s) : Refuses ring e s (.reqKill ring) resNotFound := by
  classical
  exact completes_refused rfl h rfl ((reqKill_act h hactive).trans (if_neg hnone))

/-- The requests of a state are marked killed from the next tick, those that a test names. -/
def RequestsKilled (s t : State) (hit : Req → Prop) : Prop :=
  t.dev.ent.reqs.map (fun r => (r.uid, r.desc)) = s.dev.ent.reqs.map (fun r => (r.uid, r.desc)) ∧
    ∀ r ∈ t.dev.ent.reqs, hit r → r.recordWritten = false → ∃ k, r.killAt = some k ∧ k ≤ s.dev.tick.num + 1

omit h hactive in
theorem requestsKilled_of {d u : Dev} {t : State} {p : Req → Bool} {hit : Req → Prop} (hu : ActsAlike s.dev u)
    (hd : d = killReqs p u) (ht : t.dev.ent.reqs = d.ent.reqs) (hp : ∀ a b : Req, a.desc = b.desc → p a = p b)
    (hhit : ∀ r, hit r → p r = true) : RequestsKilled s t hit := by
  subst hd
  refine ⟨by rw [ht, killReqs_descs, hu.reqs], fun r hr hr' hrec => ?_⟩
  rw [ht] at hr
  rw [← hu.tick]
  exact killReqs_reaches hp hr (hhit r hr') hrec

theorem reqKill_done (hfound : ReqFound e s) : Completes (.reqKill ring) s (fun t =>
    CommandAnswered ring e resDone s t ∧ RegsExcept (doneRegs ring e s) s t ∧
    RequestsKilled s t (fun r => dTenant r.desc = e.tenant ∧ (dReqId r.desc).toNat = e.arg 31 0) ∧
    t.dev.cache = s.dev.cache ∧ t.dev.wgt = s.dev.wgt) := by
  classical
  have hu := actsAlike_cmdTaken (ring := ring) (ring_lt_of_front h.1) s.dev
  have hacted : ActedOn ring e s [] (killReqs (reqKillHits e) (cmdTaken ring e s.dev)) :=
    actedOn_of_taken (killReqs_mem _ _) (killReqs_regs _ _)
  refine completes_answered rfl h rfl ((reqKill_act h hactive).trans (if_pos hfound)) hacted fun t ht hans hregs =>
    ⟨hans, hregs, ?_, ?_, ?_⟩
  · exact requestsKilled_of hu rfl (by rw [ht, cmdRecord_ent]) (reqKillHits_desc e) fun r => (reqKillHits_iff e r).2
  · rw [ht, cmdRecord_cache, killReqs_cache, hu.cache]
  · rw [ht, cmdRecord_wgt, killReqs_wgt, hu.wgt]

end ReqKill

/-! ### Key sets (R277, R278) -/

theorem handleBusy_alike {d u : Dev} (h : ActsAlike d u) (k : Nat) : handleBusy u k = handleBusy d k := by
  have hkey (t : Nat) : keyHandle u t = keyHandle d t := h.fld_ctx 11 0 (by simp only [R.TCX_KEYS]; omega)
  have hslot (i : Nat) : wSlot u i = wSlot d i := by rw [wSlot, h.wgt, wSlot]
  simp only [handleBusy, h.tenants, hkey, slotsWith, hslot]

theorem keySet_alike {d u : Dev} (h : ActsAlike d u) (k : Nat) : keySet u k = keySet d k := by
  rw [keySet, h.wgt, keySet]

theorem keySet_cmdRecord (x : CmdRef) (res len : Nat) (d : Dev) (k : Nat) :
    keySet (cmdRecord x res len d) k = keySet d k := by
  rw [keySet, cmdRecord_wgt, keySet]

theorem actedOn_setKeys (k : Nat) (b : List Byte) (v : Bool) :
    ActedOn ring e s [] (setKeys k b v (cmdTaken ring e s.dev)) :=
  actedOn_of_taken (setKeys_mem _ _ _ _) (setKeys_regs _ _ _ _)

/-- The key set of a handle replaced, and no other. -/
def KeysReplaced (s t : State) (k : Nat) (b : List Byte) (v : Bool) : Prop :=
  keySet t.dev k = { bytes := b, valid := v, epoch := (keySet s.dev k).epoch + 1 } ∧
    ∀ g, g ≠ k → keySet t.dev g = keySet s.dev g

theorem keysReplaced_of {u : Dev} {t : State} {x : CmdRef} {res len k : Nat} {b : List Byte} {v : Bool}
    (hu : ActsAlike s.dev u) (ht : t.dev = cmdRecord x res len (setKeys k b v u)) : KeysReplaced s t k b v := by
  refine ⟨?_, fun g hg => ?_⟩
  · rw [ht, keySet_cmdRecord, keySet_setKeys, if_pos rfl, keySet_alike hu]
  · rw [ht, keySet_cmdRecord, keySet_setKeys, if_neg hg, keySet_alike hu]

section KeyClear

variable (h : CommandAt s ring 0x11 e)

include h

theorem keyClear_badState (hbusy : handleBusy s.dev (e.arg 11 0) = true) :
    Refuses ring e s (.wgtKeyClear ring) resBadState := by
  have hu := actsAlike_cmdTaken (ring := ring) (ring_lt_of_front h.1) s.dev
  exact completes_refused rfl h rfl (if_pos (by rwa [handleBusy_alike hu]))

theorem keyClear_done (hfree : handleBusy s.dev (e.arg 11 0) = false) : Completes (.wgtKeyClear ring) s (fun t =>
    CommandAnswered ring e resDone s t ∧ RegsExcept (doneRegs ring e s) s t ∧
    KeysReplaced s t (e.arg 11 0) [] false) := by
  have hu := actsAlike_cmdTaken (ring := ring) (ring_lt_of_front h.1) s.dev
  exact completes_answered rfl h rfl (if_neg (by rw [handleBusy_alike hu, hfree]; decide)) (actedOn_setKeys _ _ _)
    fun t ht hans hregs => ⟨hans, hregs, keysReplaced_of hu ht⟩

end KeyClear

/-- The row of another command than the front one does nothing. -/
theorem wgtKeyLoad_other {id : W32} {k : BitVec 12} (h : isKeyLoad s.dev ring id k = false) :
    Completes (.wgtKeyLoad ring id k) s (fun t => t = s) := by
  refine completes_of_onDev rfl ?_
  rw [h]
  rfl

/-- The row of the front command is the reader's. -/
theorem exec_wgtKeyLoad (h : CommandAt s ring 0x10 e) :
    exec (.wgtKeyLoad ring e.cmdId (BitVec.ofNat 12 (e.arg 11 0))) s =
      onDev (readCommand ring (fun c => c = 0x10) (fun e p _ d => keyLoadCmd e p d)) s := by
  have hload : isKeyLoad s.dev ring e.cmdId (BitVec.ofNat 12 (e.arg 11 0)) = true := by
    have hk : e.arg 11 0 < 2 ^ 12 := Nat.mod_lt _ (by decide)
    simp only [isKeyLoad, entry_of_front h.1, decide_true, Bool.true_and, BitVec.toNat_ofNat, Nat.mod_eq_of_lt hk]
  show onDev (fun d => onlyIf (isKeyLoad d ring e.cmdId (BitVec.ofNat 12 (e.arg 11 0))) _ d) s = _
  rw [onDev, hload]
  rfl

/-- A record after an action that has left the units as they were. -/
theorem workKept_of_units {x : CmdRef} {res len : Nat} {d : Dev} {t : State} (ht : t.dev = cmdRecord x res len d)
    (hent : d.ent = (cmdTaken ring e s.dev).ent) (hcache : d.cache = (cmdTaken ring e s.dev).cache)
    (hwgt : d.wgt = (cmdTaken ring e s.dev).wgt) (hcells : d.cells = (cmdTaken ring e s.dev).cells) : WorkKept s t := by
  simp only [WorkKept, ht, cmdRecord_ent, cmdRecord_cache, cmdRecord_wgt, cmdRecord_cells, hent, hcache, hwgt, hcells]
  exact ⟨rfl, rfl, rfl, rfl, rfl, rfl, rfl⟩

section KeyLoad

/-- The payload of a WGT_KEY_LOAD. -/
def keyPayload (s : State) (ring : RingId) : List Byte :=
  cmdEntryAt s.dev ring.toNat 1 ++ cmdEntryAt s.dev ring.toNat 2

theorem cmdPayload_flatten (s : State) (ring : RingId) : (cmdPayload ring (cmdSize 0x10) s.dev).flatten = keyPayload s ring := by
  simp [cmdPayload, cmdSize, List.range_succ, keyPayload]

theorem unwrapKeys_some {b keys : List Byte} (h : unwrapKeys b = some keys) :
    keys.length = 96 ∧ keys.take 32 ≠ (keys.drop 32).take 32 := by
  have hkeys := (Option.filter_eq_some_iff.1 h).2
  simpa using hkeys

variable (h : CommandAt s ring 0x10 e)

include h

theorem keyLoad_badCmd (hbad : ∃ b ∈ (keyPayload s ring).drop 104, b ≠ 0) :
    Refuses ring e s (.wgtKeyLoad ring e.cmdId (BitVec.ofNat 12 (e.arg 11 0))) resBadCmd :=
  completes_refused (exec_wgtKeyLoad h) h rfl (if_pos (by rw [cmdPayload_flatten]; simpa using hbad))

variable (hgood : ∀ b ∈ (keyPayload s ring).drop 104, b = 0)

include hgood

theorem keyLoad_badState (hbusy : handleBusy s.dev (e.arg 11 0) = true) :
    Refuses ring e s (.wgtKeyLoad ring e.cmdId (BitVec.ofNat 12 (e.arg 11 0))) resBadState := by
  have hu := actsAlike_cmdTaken (ring := ring) (ring_lt_of_front h.1) s.dev
  refine completes_refused (exec_wgtKeyLoad h) h rfl ((if_neg ?_).trans (if_pos ?_))
  · rw [cmdPayload_flatten]; simpa using hgood
  · rwa [handleBusy_alike hu]

variable (hfree : handleBusy s.dev (e.arg 11 0) = false)

include hfree

theorem keyLoad_act : keyLoadCmd e (cmdPayload ring (cmdSize 0x10) s.dev) (cmdTaken ring e s.dev) =
    match unwrapKeys ((keyPayload s ring).take 104) with
    | some keys => (some resDone, setKeys (e.arg 11 0) keys true (cmdTaken ring e s.dev))
    | none => (some resCheckFail, setRegFld (cmdTaken ring e s.dev) R.ENT_KEY_REASON 7 0 5) := by
  have hu := actsAlike_cmdTaken (ring := ring) (ring_lt_of_front h.1) s.dev
  refine ((if_neg ?_).trans (if_neg ?_)).trans ?_
  · rw [cmdPayload_flatten]; simpa using hgood
  · rw [handleBusy_alike hu, hfree]; decide
  · rw [cmdPayload_flatten] <;> rfl

theorem keyLoad_done {keys : List Byte} (hkeys : unwrapKeys ((keyPayload s ring).take 104) = some keys) :
    Completes (.wgtKeyLoad ring e.cmdId (BitVec.ofNat 12 (e.arg 11 0))) s (fun t =>
      CommandAnswered ring e resDone s t ∧ RegsExcept (doneRegs ring e s) s t ∧
      KeysReplaced s t (e.arg 11 0) keys true) := by
  have hu := actsAlike_cmdTaken (ring := ring) (ring_lt_of_front h.1) s.dev
  have hact := keyLoad_act h hgood hfree
  rw [hkeys] at hact
  exact completes_answered (exec_wgtKeyLoad h) h rfl hact (actedOn_setKeys _ _ _)
    fun t ht hans hregs => ⟨hans, hregs, keysReplaced_of hu ht⟩

theorem keyLoad_fails (hkeys : unwrapKeys ((keyPayload s ring).take 104) = none) :
    Completes (.wgtKeyLoad ring e.cmdId (BitVec.ofNat 12 (e.arg 11 0))) s (fun t =>
      CommandAnswered ring e resCheckFail s t ∧ fld (getReg t.dev R.ENT_KEY_REASON) 7 0 = 5 ∧
      RegsExcept (R.ENT_KEY_REASON :: doneRegs ring e s) s t ∧ WorkKept s t) := by
  have hr := ring_lt_of_front h.1
  have hact := keyLoad_act h hgood hfree
  rw [hkeys] at hact
  have hacted : ActedOn ring e s [R.ENT_KEY_REASON] (setRegFld (cmdTaken ring e s.dev) R.ENT_KEY_REASON 7 0 5) :=
    { cm := rfl, hbm := rfl, hive := rfl
      regs := fun o ho => getReg_setReg_ne _ _ _ _ (by simpa using ho)
      apart := fun o ho => by
        rw [List.mem_singleton.1 ho]
        unfold ApartFromReader
        decide }
  refine completes_answered (exec_wgtKeyLoad h) h rfl hact hacted fun t ht hans hregs => ⟨hans, ?_, hregs, ?_⟩
  · rw [getReg_record_below hacted hr ht (by decide) (by simp only [R.ENT_KEY_REASON, R.RNG_PENDING]; omega), setRegFld,
      getReg_setReg_self]
    exact fld_setFld_self _ 7 0 5 (by decide) (by decide)
  · exact workKept_of_units ht (setRegFld_ent _ _ _ _ _) (setRegFld_cache _ _ _ _ _) (setRegFld_wgt _ _ _ _ _)
      (setRegFld_cells _ _ _ _ _)

end KeyLoad

/-! ### What the checks of an activation read (R81, Table 03-12) -/

namespace ActsAlike

variable {d u : Dev} (h : ActsAlike d u)

include h

theorem wSlot (i : Nat) : wSlot u i = Machine.wSlot d i := by rw [Machine.wSlot, h.wgt, Machine.wSlot]

theorem keyHandle (t : Nat) : keyHandle u t = Machine.keyHandle d t :=
  h.fld_ctx 11 0 (by simp only [R.TCX_KEYS]; omega)

theorem costTable (t : Nat) : costTable u t = Machine.costTable d t :=
  h.fld_ctx 24 16 (by simp only [R.TCX_KEYS]; omega)

theorem mode (t : Nat) : getReg u (R.TCX_MODE t) = getReg d (R.TCX_MODE t) :=
  h.ctx (by simp only [R.TCX_MODE]; omega)

theorem version (t : Nat) : getReg u (R.TCX_VERSION t) = getReg d (R.TCX_VERSION t) :=
  h.ctx (by simp only [R.TCX_VERSION]; omega)

theorem versionNext (t : Nat) : getReg u (R.TCX_VERSION_NEXT t) = getReg d (R.TCX_VERSION_NEXT t) :=
  h.ctx (by simp only [R.TCX_VERSION_NEXT]; omega)

theorem pattern (t : Nat) : getReg u (R.TCX_PATTERN t) = getReg d (R.TCX_PATTERN t) :=
  h.ctx (by simp only [R.TCX_PATTERN]; omega)

theorem page (t hi lo : Nat) : regFld u (R.TCX_PAGE t) hi lo = regFld d (R.TCX_PAGE t) hi lo :=
  h.fld_ctx hi lo (by simp only [R.TCX_PAGE]; omega)

theorem seqRange (t : Nat) : regFld u (R.TCX_SEQ_FIRST t) 17 0 = regFld d (R.TCX_SEQ_FIRST t) 17 0 ∧
    regFld u (R.TCX_SEQ_COUNT t) 18 0 = regFld d (R.TCX_SEQ_COUNT t) 18 0 :=
  ⟨h.fld_ctx _ _ (by simp only [R.TCX_SEQ_FIRST]; omega), h.fld_ctx _ _ (by simp only [R.TCX_SEQ_COUNT]; omega)⟩

theorem cmWindow (t : Nat) : cmWindow u t = Machine.cmWindow d t := by
  have hfld (hi lo : Nat) := h.fld_ctx (p := R.TCX_CM_WINDOW t) hi lo (by simp only [R.TCX_CM_WINDOW]; omega)
  simp only [Machine.cmWindow, hfld]

theorem hvWindow (t : Nat) : hvWindow u t = Machine.hvWindow d t := by
  have hbase := h.fld_ctx (p := R.TCX_HV_BASE t) 15 0 (by simp only [R.TCX_HV_BASE]; omega)
  have hbound := h.fld_ctx (p := R.TCX_HV_BOUND t) 16 0 (by simp only [R.TCX_HV_BOUND]; omega)
  simp only [Machine.hvWindow, hbase, hbound]

theorem homeCell (t : Nat) : homeCell u t = Machine.homeCell d t := by
  simp only [Machine.homeCell, h.shape]

theorem usesCell (t : Nat) (c : CellId) : usesCell u t c = Machine.usesCell d t c := by
  simp only [Machine.usesCell, h.headCell, h.homeCell]

theorem stageWord (t n : Nat) : stageWord u t n = Machine.stageWord d t n := by
  have hlo := h.ctx (p := R.TCX_STAGE_LO t n) (by simp only [R.TCX_STAGE_LO]; omega)
  have hhi := h.ctx (p := R.TCX_STAGE_HI t n) (by simp only [R.TCX_STAGE_HI]; omega)
  simp only [Machine.stageWord, getReg64, hlo, hhi]

theorem prologue (t : Nat) : prologue u t = Machine.prologue d t := by
  rw [Machine.prologue, funext (h.stageWord t), Machine.prologue]

theorem epilogue (t : Nat) : epilogue u t = Machine.epilogue d t := by
  rw [Machine.epilogue, funext (fun n => h.stageWord t (n + 8)), Machine.epilogue]

theorem headDim (t : Nat) : headDim u t = Machine.headDim d t := by rw [Machine.headDim, h.shape, Machine.headDim]

theorem kvFmt (t : Nat) : kvFmt u t = Machine.kvFmt d t := by rw [Machine.kvFmt, h.page, Machine.kvFmt]

theorem stagesOk (t : Nat) : stagesOk u t = Machine.stagesOk d t := by
  simp only [Machine.stagesOk, h.prologue, h.epilogue, h.headDim, h.mode]

theorem patternOk (t : Nat) : patternOk u t = Machine.patternOk d t := by
  simp only [Machine.patternOk, h.pattern, h.mode]

theorem ropeFits (t : Nat) : ropeFits u t = Machine.ropeFits d t := by
  have hrope := h.fld_ctx (p := R.TCX_ROPE_BASE t) 15 0 (by simp only [R.TCX_ROPE_BASE]; omega)
  have hpairs : ropePairs u t = ropePairs d t := by rw [ropePairs, h.prologue, ropePairs]
  simp only [Machine.ropeFits, hpairs, h.hvWindow, hrope]

theorem ctxFieldsOk (t : Nat) : ctxFieldsOk u t = Machine.ctxFieldsOk d t := by
  simp only [Machine.ctxFieldsOk, h.mode, h.kvFmt, h.page, h.version, h.shape, h.seqRange t, h.cmWindow, h.hvWindow,
    h.stagesOk, h.patternOk, h.ropeFits]

theorem ctxImageFieldsOk (t dest : Nat) : ctxImageFieldsOk u t dest = Machine.ctxImageFieldsOk d t dest := by
  have hpat (hi lo : Nat) := h.fld_ctx (p := R.TCX_PATTERN t) hi lo (by simp only [R.TCX_PATTERN]; omega)
  have hgroup : groupOf u t = groupOf d t := by rw [groupOf, h.shape, groupOf]
  have hheads : headsPerCell u t = headsPerCell d t := by rw [headsPerCell, h.shape, headsPerCell]
  simp only [Machine.ctxImageFieldsOk, h.chainHdr, h.imgField, h.mode, hpat, hgroup, hheads, h.hvWindow]

theorem chainHold (t dest : Nat) : chainHold u t dest = Machine.chainHold d t dest := by
  simp only [Machine.chainHold, h.chainHdr, h.shape, h.mode]

theorem slotOf (t : Nat) (v : W32) : slotOf u t v = Machine.slotOf d t v := by
  simp only [Machine.slotOf, slotsWith, h.wSlot]

theorem verifiedSlot (t : Nat) : verifiedSlot u t = Machine.verifiedSlot d t := by
  simp only [Machine.verifiedSlot, h.slotOf, h.version, h.wSlot]

theorem costTableValid (t : Nat) : costTableValid u (Machine.costTable d t) = Machine.costTableValid d (Machine.costTable d t) := by
  have hreg := h.regs (R.ENT_CT_VALID (Machine.costTable d t / 32)) (by
    have hlt : Machine.costTable d t < 512 := fld_lt _ 24 16
    simp only [ApartFromReader, R.ENT_CT_VALID, R.ENT_CMD_CNT, R.ENT_CMD_NEXT]
    omega)
  simp only [Machine.costTableValid, hreg]

theorem ctxCellsOk (t : Nat) : ctxCellsOk u t = Machine.ctxCellsOk d t := by
  have hexp : expressEn u = expressEn d := by
    rw [expressEn, h.regs _ (by unfold ApartFromReader; decide), expressEn]
  simp only [Machine.ctxCellsOk, hexp, h.homeCell, h.headCells, h.verifiedSlot, h.kvHeads, h.wSlot]

theorem ringCfg (r : Nat) : ringCfg u r = Machine.ringCfg d r :=
  h.cfg _ (by simp only [R.RNG_CFG]; omega) (by simp only [R.RNG_CFG]; omega)

theorem ringBase (r : Nat) : ringBase u r = Machine.ringBase d r := by
  rw [Machine.ringBase, regFld, h.cfg _ (by simp only [R.RNG_BASE]; omega) (by simp only [R.RNG_BASE]; omega),
    Machine.ringBase, regFld]

theorem bankState (c : CellId) (b : Nat) : bankState u c b = Machine.bankState d c b :=
  h.fld_ctx _ _ (by simp only [R.CEL_BANK_STATE]; omega)

theorem bandState (k : Nat) : bandState u k = Machine.bandState d k := by
  have hfld (hi lo : Nat) : regFld u R.HIV_BAND_STATE hi lo = regFld d R.HIV_BAND_STATE hi lo := by
    rw [regFld, h.regs _ (by unfold ApartFromReader; decide), regFld]
  simp only [Machine.bandState, hfld]

theorem ctxWindowOk (t : Nat) (img : Option Nat) : ctxWindowOk u t img = Machine.ctxWindowOk d t img := by
  simp only [Machine.ctxWindowOk, h.rings, h.tenants, h.hvWindow, h.cmWindow, h.ringBase, h.ringCfg, h.usesCell, mapsBank,
    h.imgField, h.bankState, h.bandState]

theorem ctxWeightsOk (t : Nat) (img : Option Nat) : ctxWeightsOk u t img = Machine.ctxWeightsOk d t img := by
  simp only [Machine.ctxWeightsOk, shapeMatches, h.version, h.versionNext, h.imgField, h.shape, h.page, h.pattern,
    h.stageWord]

theorem ctxSeqsOk (t : Nat) : ctxSeqsOk u t = Machine.ctxSeqsOk d t := by
  have hfirst (x : Nat) := (h.seqRange x).1
  have hcount (x : Nat) := (h.seqRange x).2
  simp only [Machine.ctxSeqsOk, h.tenants, hfirst, hcount]

theorem activationReason (t : Nat) : activationReason u t = Machine.activationReason d t := by
  simp only [Machine.activationReason, h.verifiedSlot, h.wSlot, h.ctxFieldsOk, h.ctxImageFieldsOk, h.costTable,
    h.costTableValid, h.ctxCellsOk, h.chainHold, h.ctxWindowOk, h.ctxWeightsOk, h.keyHandle, keySet_alike h, h.ctxSeqsOk]

end ActsAlike

/-! ### CTX_ACTIVATE -/

/-- A unit's tag names the context as its owner, or as the one for which it is wiped (R269). -/
def GrantedTo (T : Nat) (x : Tag) : Prop :=
  ∃ h k, x = .tenant (BitVec.ofNat 12 T) h k ∨ x = .wipingTenant (BitVec.ofNat 12 T) h k

/-- The tag of a unit is the context's. -/
def UnitGranted (T key : Nat) (d : Dev) : Prop := GrantedTo T (tblGet .clean d.mem.tags key)

theorem grantUnit_eq (T key : Nat) (d : Dev) : ∃ x, GrantedTo T x ∧ grantUnit T key d = setTag d key x := by
  unfold grantUnit
  dsimp only
  split
  · exact ⟨_, ⟨_, _, .inl rfl⟩, rfl⟩
  · exact ⟨_, ⟨_, _, .inr rfl⟩, rfl⟩

theorem unitGranted_grantUnit (T key : Nat) (d : Dev) : UnitGranted T key (grantUnit T key d) := by
  obtain ⟨x, hx, heq⟩ := grantUnit_eq T key d
  rw [heq, UnitGranted, tag_setTag, if_pos rfl]
  exact hx

theorem unitGranted_keep {T key j : Nat} {d : Dev} (h : UnitGranted T j d) : UnitGranted T j (grantUnit T key d) := by
  obtain ⟨x, hx, heq⟩ := grantUnit_eq T key d
  rw [heq, UnitGranted, tag_setTag]
  split
  · exact hx
  · exact h

/-- What one step of a fold brings about, and every step keeps, holds after the fold. -/
theorem foldl_reaches {α : Type} {P : Dev → Prop} {f : Dev → α → Dev} (hkeep : ∀ d x, P d → P (f d x)) {xs : List α}
    {x : α} (hx : x ∈ xs) (hset : ∀ d, P (f d x)) (d : Dev) : P (xs.foldl f d) := by
  have hfold (ys : List α) (d : Dev) (h : P d) : P (ys.foldl f d) := by
    induction ys generalizing d with
    | nil => exact h
    | cons y ys ih => exact ih _ (hkeep d y h)
  induction xs generalizing d with
  | nil => cases hx
  | cons y ys ih =>
    rcases List.mem_cons.1 hx with rfl | hx
    · exact hfold ys _ (hset d)
    · exact ih hx _

/-- Nothing but tags of units has changed. -/
def TagsOnly (d u : Dev) : Prop := ∃ tags, u = { d with mem := { d.mem with tags := tags } }

theorem TagsOnly.refl (d : Dev) : TagsOnly d d := ⟨_, rfl⟩

theorem TagsOnly.trans {a b c : Dev} (hab : TagsOnly a b) (hbc : TagsOnly b c) : TagsOnly a c := by
  obtain ⟨_, rfl⟩ := hab
  obtain ⟨_, rfl⟩ := hbc
  exact ⟨_, rfl⟩

theorem TagsOnly.rest {d u : Dev} (h : TagsOnly d u) : u.regs = d.regs ∧ u.ent = d.ent ∧ u.cache = d.cache ∧
    u.wgt = d.wgt ∧ u.mem.cm = d.mem.cm ∧ u.mem.hbm = d.mem.hbm ∧ u.mem.hive = d.mem.hive := by
  obtain ⟨_, rfl⟩ := h
  exact ⟨rfl, rfl, rfl, rfl, rfl, rfl, rfl⟩

theorem TagsOnly.foldl {α : Type} {f : Dev → α → Dev} (hf : ∀ d x, TagsOnly d (f d x)) (xs : List α) (d : Dev) :
    TagsOnly d (xs.foldl f d) := by
  induction xs generalizing d with
  | nil => exact .refl d
  | cons x xs ih => exact (hf d x).trans (ih _)

theorem grantUnit_tagsOnly (T key : Nat) (d : Dev) : TagsOnly d (grantUnit T key d) := by
  obtain ⟨x, -, heq⟩ := grantUnit_eq T key d
  exact ⟨_, heq⟩

/-- The units of a cell's window granted. -/
def grantCell (T : Nat) (w : Nat × Nat) (d : Dev) (c : CellId) : Dev :=
  (List.range (w.2 - w.1)).foldl (fun d i => grantUnit T (1024 * c.val + w.1 + i) d) d

theorem grantWindows_eq (T : Nat) (d : Dev) : grantWindows T d =
    (List.range (((hvWindow d T).2 - (hvWindow d T).1) / 4096)).foldl
      (fun b i => grantUnit T (65536 + (hvWindow d T).1 / 4096 + i) b)
      (((List.finRange 64).filter (usesCell d T)).foldl (grantCell T (cmWindow d T)) d) := by
  unfold grantWindows grantCell
  rfl

theorem grantCell_tagsOnly (T : Nat) (w : Nat × Nat) (d : Dev) (c : CellId) : TagsOnly d (grantCell T w d c) :=
  .foldl (fun d _ => grantUnit_tagsOnly T _ d) _ d

theorem grantWindows_tagsOnly (T : Nat) (d : Dev) : TagsOnly d (grantWindows T d) := by
  rw [grantWindows_eq]
  exact (TagsOnly.foldl (grantCell_tagsOnly T _) _ d).trans (.foldl (fun d _ => grantUnit_tagsOnly T _ d) _ _)

theorem unitGranted_foldl {T j : Nat} {α : Type} (key : α → Nat) (xs : List α) {d : Dev} (h : UnitGranted T j d) :
    UnitGranted T j (xs.foldl (fun d x => grantUnit T (key x) d) d) := by
  induction xs generalizing d with
  | nil => exact h
  | cons x xs ih => exact ih (unitGranted_keep h)

/-- Every unit of the context's window in hive memory is granted to it. -/
theorem grantWindows_hive (T : Nat) (d : Dev) {x : Nat} (hlo : (hvWindow d T).1 / 4096 ≤ x)
    (hhi : x < (hvWindow d T).2 / 4096) : UnitGranted T (65536 + x) (grantWindows T d) := by
  have hbase : (hvWindow d T).1 % 4096 = 0 := Nat.mul_mod_right 4096 _
  rw [grantWindows_eq]
  generalize (hvWindow d T).1 = a at hlo hbase
  generalize (hvWindow d T).2 = b at hhi
  have hkey : 65536 + a / 4096 + (x - a / 4096) = 65536 + x := by omega
  refine foldl_reaches (fun d _ h => unitGranted_keep h) (x := x - a / 4096) ?_ (fun c => ?_) _
  · rw [List.mem_range]
    omega
  · rw [hkey]
    exact unitGranted_grantUnit T _ c

theorem grantCell_unit (T : Nat) {w : Nat × Nat} (d : Dev) (c : CellId) {x : Nat} (hlo : w.1 ≤ x) (hhi : x < w.2) :
    UnitGranted T (1024 * c.val + x) (grantCell T w d c) := by
  have hkey : 1024 * c.val + w.1 + (x - w.1) = 1024 * c.val + x := by omega
  refine foldl_reaches (fun d _ h => unitGranted_keep h) (x := x - w.1) ?_ (fun b => ?_) d
  · rw [List.mem_range]
    omega
  · rw [hkey]
    exact unitGranted_grantUnit T _ b

/-- Every unit of the context's window on its cells is granted to it. -/
theorem grantWindows_cells (T : Nat) (d : Dev) {c : CellId} {x : Nat} (hc : usesCell d T c = true)
    (hlo : (cmWindow d T).1 ≤ x) (hhi : x < (cmWindow d T).2) :
    UnitGranted T (1024 * c.val + x) (grantWindows T d) := by
  rw [grantWindows_eq]
  refine unitGranted_foldl _ _ (foldl_reaches (fun d c h => unitGranted_foldl _ _ h) (x := c) ?_ (fun b => ?_) d)
  · exact List.mem_filter.2 ⟨List.mem_finRange c, hc⟩
  · exact grantCell_unit T b c hlo hhi

/-- The device on which an activation's grants are made. -/
def activateGranted (T : Nat) (d : Dev) : Dev := grantWindows T (setTcxState T 1 d)

/-- An activation's registers: the bases of the image and of its programs. -/
def activateBased (T i : Nat) (d : Dev) : Dev :=
  let x := wSlot d i
  setReg64 (setReg64 (activateGranted T d) (R.TCX_WEIGHT_BASE_LO T) (R.TCX_WEIGHT_BASE_HI T) x.dest)
    (R.TCX_PROG_BASE_LO T) (R.TCX_PROG_BASE_HI T) (x.dest + imgField d T x.dest 0x48 8)

/-- The image joins those of the die, and its first copy is asked for. -/
def imageJoined (T : Nat) (x : LoadSlot) (d : Dev) : Dev :=
  { d with wgt := { d.wgt with images := d.wgt.images ++ [slotImage x], copies := d.wgt.copies ++ [T] } }

theorem activate_eq (T i : Nat) (d : Dev) :
    activate T i d = setBarrier T true (slotIdle i 0 (imageJoined T (wSlot d i) (activateBased T i d))) := rfl

section Activate

variable (T i : Nat) (d : Dev)

theorem activateGranted_tagsOnly : TagsOnly (setTcxState T 1 d) (activateGranted T d) := grantWindows_tagsOnly T _

theorem activateGranted_rest : (activateGranted T d).regs = (setTcxState T 1 d).regs ∧
    (activateGranted T d).ent = d.ent ∧ (activateGranted T d).cache = d.cache ∧ (activateGranted T d).wgt = d.wgt ∧
    (activateGranted T d).mem.cm = d.mem.cm ∧ (activateGranted T d).mem.hbm = d.mem.hbm ∧
    (activateGranted T d).mem.hive = d.mem.hive := (activateGranted_tagsOnly T d).rest

/-- What follows the grants touches registers and the weight engine alone. -/
theorem activateBased_units : (activateBased T i d).mem = (activateGranted T d).mem ∧
    (activateBased T i d).ent = d.ent ∧ (activateBased T i d).cache = d.cache ∧ (activateBased T i d).wgt = d.wgt := by
  obtain ⟨-, hent, hcache, hwgt, -⟩ := activateGranted_rest T d
  simp only [activateBased, setReg64_mem, setReg64_ent, setReg64_cache, setReg64_wgt]
  exact ⟨trivial, hent, hcache, hwgt⟩

theorem activate_units : (activate T i d).mem = (activateGranted T d).mem ∧ (activate T i d).ent = d.ent ∧
    (activate T i d).cache = d.cache ∧ (activate T i d).wgt.copies = d.wgt.copies ++ [T] := by
  obtain ⟨hmem, hent, hcache, hwgt⟩ := activateBased_units T i d
  rw [activate_eq, ← hmem]
  generalize activateBased T i d = u at *
  exact ⟨rfl, hent, hcache, congrArg (fun w : WgtSt => w.copies ++ [T]) hwgt⟩

theorem wSlot_activate (j : Nat) : wSlot (activate T i d) j =
    if j = i then { reason := 0, tenant := (wSlot d i).tenant } else wSlot d j := by
  obtain ⟨-, -, -, hwgt⟩ := activateBased_units T i d
  rw [activate_eq]
  generalize activateBased T i d = u at *
  have hslot (k : Nat) : wSlot (imageJoined T (wSlot d i) u) k = wSlot d k := by
    show tblGet {} u.wgt.slots k = _
    rw [hwgt, wSlot]
  obtain ⟨-, -, -, hidle, -⟩ := slotIdle_rest i 0 (imageJoined T (wSlot d i) u)
  simp only [hslot] at hidle
  exact hidle j

/-- The registers of an activation. -/
def activateRegs (T : Nat) : List Nat :=
  [R.TCX_STATE T, R.TCX_VERSION_NEXT T, R.TCX_WEIGHT_BASE_LO T, R.TCX_WEIGHT_BASE_HI T, R.TCX_PROG_BASE_LO T,
    R.TCX_PROG_BASE_HI T]

theorem getReg_activateGranted (o : Nat) : getReg (activateGranted T d) o =
    if o = R.TCX_STATE T then setFld (getReg d (R.TCX_STATE T)) 1 0 1 else getReg d o := by
  rw [getReg_congr (activateGranted_rest T d).1]
  exact getReg_setReg d _ _ o

theorem getReg_activateBased (o : Nat) : getReg (activateBased T i d) o =
    if o = R.TCX_PROG_BASE_HI T then BitVec.ofNat 32 (((wSlot d i).dest + imgField d T (wSlot d i).dest 0x48 8) / 2 ^ 32)
    else if o = R.TCX_PROG_BASE_LO T then BitVec.ofNat 32 ((wSlot d i).dest + imgField d T (wSlot d i).dest 0x48 8)
    else if o = R.TCX_WEIGHT_BASE_HI T then BitVec.ofNat 32 ((wSlot d i).dest / 2 ^ 32)
    else if o = R.TCX_WEIGHT_BASE_LO T then BitVec.ofNat 32 (wSlot d i).dest
    else getReg (activateGranted T d) o := by
  rw [activateBased, getReg_setReg64, getReg_setReg64]

variable (hT : (wSlot d i).tenant = T)

include hT

theorem getReg_activate (o : Nat) : getReg (activate T i d) o =
    if o = R.TCX_STATE T then setBit (setFld (getReg d (R.TCX_STATE T)) 1 0 1) 2 true
    else if o = R.TCX_VERSION_NEXT T then 0 else getReg (activateBased T i d) o := by
  obtain ⟨-, -, -, hwgt⟩ := activateBased_units T i d
  have hstate : getReg (activateBased T i d) (R.TCX_STATE T) = setFld (getReg d (R.TCX_STATE T)) 1 0 1 := by
    rw [getReg_activateBased, if_neg, if_neg, if_neg, if_neg, getReg_activateGranted, if_pos rfl]
    all_goals simp only [R.TCX_STATE, R.TCX_PROG_BASE_HI, R.TCX_PROG_BASE_LO, R.TCX_WEIGHT_BASE_HI,
      R.TCX_WEIGHT_BASE_LO]; omega
  have hne : R.TCX_STATE T ≠ R.TCX_VERSION_NEXT T := by simp only [R.TCX_STATE, R.TCX_VERSION_NEXT]; omega
  rw [activate_eq]
  generalize activateBased T i d = u at *
  have htenant : (wSlot (imageJoined T (wSlot d i) u) i).tenant = T :=
    (congrArg (fun w : WgtSt => (tblGet ({} : LoadSlot) w.slots i).tenant) hwgt).trans hT
  obtain ⟨-, -, -, -, hregs⟩ := slotIdle_rest i 0 (imageJoined T (wSlot d i) u)
  have hjoin (p : Nat) : getReg (imageJoined T (wSlot d i) u) p = getReg u p := rfl
  simp only [htenant, hjoin] at hregs
  rw [setBarrier, getReg_setReg, hregs, hregs, if_neg hne, hstate]

theorem getReg_activate_lo : getReg (activate T i d) (R.TCX_WEIGHT_BASE_LO T) = BitVec.ofNat 32 (wSlot d i).dest := by
  rw [getReg_activate T i d hT, if_neg, if_neg, getReg_activateBased, if_neg, if_neg, if_neg, if_pos rfl]
  all_goals simp only [R.TCX_STATE, R.TCX_VERSION_NEXT, R.TCX_PROG_BASE_HI, R.TCX_PROG_BASE_LO, R.TCX_WEIGHT_BASE_HI,
    R.TCX_WEIGHT_BASE_LO]; omega

theorem getReg_activate_hi :
    getReg (activate T i d) (R.TCX_WEIGHT_BASE_HI T) = BitVec.ofNat 32 ((wSlot d i).dest / 2 ^ 32) := by
  rw [getReg_activate T i d hT, if_neg, if_neg, getReg_activateBased, if_neg, if_neg, if_pos rfl]
  all_goals simp only [R.TCX_STATE, R.TCX_VERSION_NEXT, R.TCX_PROG_BASE_HI, R.TCX_PROG_BASE_LO, R.TCX_WEIGHT_BASE_HI]; omega

end Activate

/-! The windows of a context are read from other registers than its state. -/

section Windows

variable (T n : Nat) (d : Dev)

theorem getReg_setTcxState {o : Nat} (h : o % 256 ≠ 0) : getReg (setTcxState T n d) o = getReg d o :=
  getReg_setReg_ne _ _ _ _ (by simp only [R.TCX_STATE]; omega)

theorem hvWindow_setTcxState : hvWindow (setTcxState T n d) T = hvWindow d T := by
  simp only [hvWindow, regFld, getReg_setTcxState T n d (o := R.TCX_HV_BASE T) (by simp only [R.TCX_HV_BASE]; omega),
    getReg_setTcxState T n d (o := R.TCX_HV_BOUND T) (by simp only [R.TCX_HV_BOUND]; omega)]

theorem cmWindow_setTcxState : cmWindow (setTcxState T n d) T = cmWindow d T := by
  simp only [cmWindow, regFld, getReg_setTcxState T n d (o := R.TCX_CM_WINDOW T) (by simp only [R.TCX_CM_WINDOW]; omega)]

theorem usesCell_setTcxState (c : CellId) : usesCell (setTcxState T n d) T c = usesCell d T c := by
  have hhead : headCell (setTcxState T n d) T c = headCell d T c := by
    simp only [headCell,
      getReg_setTcxState T n d (o := R.TCX_HEAD_CELLS_LO T) (by simp only [R.TCX_HEAD_CELLS_LO]; omega),
      getReg_setTcxState T n d (o := R.TCX_HEAD_CELLS_HI T) (by simp only [R.TCX_HEAD_CELLS_HI]; omega)]
  have hhome : homeCell (setTcxState T n d) T = homeCell d T := by
    simp only [homeCell, regFld,
      getReg_setTcxState T n d (o := R.TCX_SHAPE T) (by simp only [R.TCX_SHAPE]; omega)]
  rw [usesCell, hhead, hhome, usesCell]

theorem hiveWrite_tags (a : Nat) (bs : List Byte) : (hiveWrite d a bs).mem.tags = d.mem.tags := rfl

theorem cmdRecord_tags (x : CmdRef) (res len : Nat) (hr : x.ring < 4096) :
    (cmdRecord x res len d).mem.tags = d.mem.tags := by
  show (writeRecord d x.ring x.ctr (cmdCompletion x res len) none).mem.tags = _
  rw [writeRecord_mem _ _ _ _ hr, hiveWrite_tags]

end Windows

/-- A register of a context does not show a command's record. -/
theorem getReg_record_ctx {offs : List Nat} {d : Dev} {t : State} {c : Completion} (h : ActedOn ring e s offs d)
    (hr : e.ring < 4096) (ht : t.dev = writeRecord d e.ring (cmdRefOf e s.dev).ctr c none) {o : Nat}
    (ho : 0x100000 ≤ o) : getReg t.dev o = getReg d o := by
  have hsync : o ∉ ringSync s e.ring := by
    have hlt := fld_lt (getReg s.dev (R.RNG_SYNC e.ring)) 13 0
    unfold ringSync
    split
    · simp only [List.mem_singleton, R.SYN_VALUE]
      omega
    · exact List.not_mem_nil
  rw [ht, getReg_record_actedOn h hr, if_neg (by simp only [R.RNG_PENDING]; omega), if_neg hsync]

theorem activationReason_le (d : Dev) (T : Nat) : activationReason d T ≤ 8 := by
  unfold activationReason
  dsimp only
  repeat' split
  all_goals decide

/-- The slot of a context's version is the context's. -/
theorem verifiedSlot_tenant {d : Dev} {T i : Nat} (h : verifiedSlot d T = some i) : (wSlot d i).tenant = T := by
  have hslot := List.mem_of_mem_head? (Option.filter_eq_some_iff.1 h).1
  have htest := (List.mem_filter.1 hslot).2
  simp only [Bool.and_eq_true, decide_eq_true_eq] at htest
  obtain ⟨-, htenant, -⟩ := htest
  exact htenant

theorem apartFromReader_ctx {o : Nat} (ho : 0x80000 ≤ o) : ApartFromReader o := by
  simp only [ApartFromReader, R.ENT_CMD_CNT, R.ENT_CMD_NEXT]
  omega

section CtxActivate

variable (h : CommandAt s ring 0x01 e)

include h

theorem ctxActivate_badState (hstate : tcxState s.dev e.tenant ≠ 0) :
    Refuses ring e s (.ctxActivate ring) resBadState := by
  have hu := actsAlike_cmdTaken (ring := ring) (ring_lt_of_front h.1) s.dev
  exact completes_refused rfl h rfl (if_pos (by rwa [hu.tcxState]))

theorem ctxActivate_checkFail {n : Nat} (hstate : tcxState s.dev e.tenant = 0)
    (hreason : activationReason s.dev e.tenant = n) (hn : n ≠ 0) : Completes (.ctxActivate ring) s (fun t =>
      CommandAnswered ring e resCheckFail s t ∧ tcxState t.dev e.tenant = 0 ∧
      fld (getReg t.dev (R.TCX_STATE e.tenant)) 15 8 = n ∧
      RegsExcept (R.TCX_STATE e.tenant :: doneRegs ring e s) s t ∧ WorkKept s t) := by
  have hr := ring_lt_of_front h.1
  have hu := actsAlike_cmdTaken (ring := ring) hr s.dev
  have hlo : 0x100000 ≤ R.TCX_STATE e.tenant := by simp only [R.TCX_STATE]; omega
  have hle : n ≤ 8 := hreason ▸ activationReason_le s.dev e.tenant
  have hact : ctxActivateCmd e (cmdTaken ring e s.dev) =
      (some resCheckFail, setRegFld (cmdTaken ring e s.dev) (R.TCX_STATE e.tenant) 15 8 n) := by
    refine (if_neg (by rw [hu.tcxState, hstate]; decide)).trans ?_
    rw [hu.activationReason, hreason]
    cases n with
    | zero => exact absurd rfl hn
    | succ n => rfl
  have hacted : ActedOn ring e s [R.TCX_STATE e.tenant]
      (setRegFld (cmdTaken ring e s.dev) (R.TCX_STATE e.tenant) 15 8 n) :=
    { cm := rfl, hbm := rfl, hive := rfl
      regs := fun o ho => getReg_setReg_ne _ _ _ _ (by simpa using ho)
      apart := fun o ho => List.mem_singleton.1 ho ▸ apartFromReader_ctx (by omega) }
  refine completes_answered rfl h rfl hact hacted fun t ht hans hregs => ?_
  have hreg : getReg t.dev (R.TCX_STATE e.tenant) = setFld (getReg s.dev (R.TCX_STATE e.tenant)) 15 8 n := by
    rw [getReg_record_ctx hacted hr ht hlo, setRegFld, getReg_setReg_self, hu.ctx (by omega)]
  refine ⟨hans, ?_, ?_, hregs, ?_⟩
  · rw [tcxState, regFld, hreg, fld_setFld_ne]
    · exact hstate
    all_goals omega
  · rw [hreg, fld_setFld_self _ _ _ _ (by decide) (by decide)]
    omega
  · exact workKept_of_units ht (setRegFld_ent _ _ _ _ _) (setRegFld_cache _ _ _ _ _) (setRegFld_wgt _ _ _ _ _)
      (setRegFld_cells _ _ _ _ _)

theorem actedOn_activate {i : Nat} (hslot : verifiedSlot s.dev e.tenant = some i) :
    ActedOn ring e s (activateRegs e.tenant) (activate e.tenant i (cmdTaken ring e s.dev)) := by
  have hu := actsAlike_cmdTaken (ring := ring) (ring_lt_of_front h.1) s.dev
  have hT : (wSlot (cmdTaken ring e s.dev) i).tenant = e.tenant := by
    rw [hu.wSlot]
    exact verifiedSlot_tenant hslot
  obtain ⟨-, -, -, -, hcm, hhbm, hhive⟩ := activateGranted_rest e.tenant (cmdTaken ring e s.dev)
  obtain ⟨hmem, -⟩ := activate_units e.tenant i (cmdTaken ring e s.dev)
  refine ⟨?_, ?_, ?_, fun o ho => ?_, fun o ho => apartFromReader_ctx ?_⟩
  · rw [hmem, hcm, hu.mem]
  · rw [hmem, hhbm, hu.mem]
  · rw [hmem, hhive, hu.mem]
  · simp only [activateRegs, List.mem_cons, List.not_mem_nil, or_false, not_or] at ho
    obtain ⟨hstate, hnext, hwlo, hwhi, hplo, hphi⟩ := ho
    rw [getReg_activate _ _ _ hT, if_neg hstate, if_neg hnext, getReg_activateBased, if_neg hphi, if_neg hplo,
      if_neg hwhi, if_neg hwlo, getReg_activateGranted, if_neg hstate]
  · simp only [activateRegs, List.mem_cons, List.not_mem_nil, or_false, R.TCX_STATE, R.TCX_VERSION_NEXT,
      R.TCX_WEIGHT_BASE_LO, R.TCX_WEIGHT_BASE_HI, R.TCX_PROG_BASE_LO, R.TCX_PROG_BASE_HI] at ho
    omega

theorem ctxActivate_done {i : Nat} (hstate : tcxState s.dev e.tenant = 0)
    (hreason : activationReason s.dev e.tenant = 0) (hslot : verifiedSlot s.dev e.tenant = some i) :
    Completes (.ctxActivate ring) s (fun t => CommandAnswered ring e resDone s t ∧ tcxState t.dev e.tenant = 1 ∧
      tcxBarrier t.dev e.tenant = true ∧ weightBase t.dev e.tenant = (wSlot s.dev i).dest % 2 ^ 64 ∧
      getReg t.dev (R.TCX_VERSION_NEXT e.tenant) = 0 ∧ (wSlot t.dev i).st = .idle ∧ e.tenant ∈ t.dev.wgt.copies ∧
      RegsExcept (activateRegs e.tenant ++ doneRegs ring e s) s t ∧
      t.dev.ent.reqs = s.dev.ent.reqs ∧ t.dev.cache = s.dev.cache ∧
      (∀ x, (hvWindow s.dev e.tenant).1 / 4096 ≤ x → x < (hvWindow s.dev e.tenant).2 / 4096 →
        UnitGranted e.tenant (65536 + x) t.dev) ∧
      ∀ (c : CellId) x, usesCell s.dev e.tenant c = true → (cmWindow s.dev e.tenant).1 ≤ x →
        x < (cmWindow s.dev e.tenant).2 → UnitGranted e.tenant (1024 * c.val + x) t.dev) := by
  have hr := ring_lt_of_front h.1
  have hu := actsAlike_cmdTaken (ring := ring) hr s.dev
  have hacted := actedOn_activate h hslot
  have hT : (wSlot (cmdTaken ring e s.dev) i).tenant = e.tenant := by
    rw [hu.wSlot]
    exact verifiedSlot_tenant hslot
  have hact : ctxActivateCmd e (cmdTaken ring e s.dev) =
      (some resDone, activate e.tenant i (cmdTaken ring e s.dev)) := by
    refine (if_neg (by rw [hu.tcxState, hstate]; decide)).trans ?_
    rw [hu.activationReason, hreason, hu.verifiedSlot, hslot]
    rfl
  refine completes_answered rfl h rfl hact hacted fun t ht hans hregs => ?_
  obtain ⟨hmem, hent, hcache, hcopies⟩ := activate_units e.tenant i (cmdTaken ring e s.dev)
  have hctx {o : Nat} (ho : 0x100000 ≤ o) : getReg t.dev o = getReg (activate e.tenant i (cmdTaken ring e s.dev)) o :=
    getReg_record_ctx hacted hr ht ho
  have hreg : getReg t.dev (R.TCX_STATE e.tenant) =
      setBit (setFld (getReg s.dev (R.TCX_STATE e.tenant)) 1 0 1) 2 true := by
    rw [hctx (by simp only [R.TCX_STATE]; omega), getReg_activate _ _ _ hT, if_pos rfl,
      hu.ctx (by simp only [R.TCX_STATE]; omega)]
  have htags (k : Nat) (hk : UnitGranted e.tenant k (activateGranted e.tenant (cmdTaken ring e s.dev))) :
      UnitGranted e.tenant k t.dev := by
    rw [UnitGranted, ht, cmdRecord_tags _ _ _ _ hr, hmem]
    exact hk
  refine ⟨hans, ?_, ?_, ?_, ?_, ?_, ?_, hregs, ?_, ?_, fun x hlo hhi => ?_, fun c x hc hlo hhi => ?_⟩
  · rw [tcxState, regFld, hreg, setBit, fld_setFld_ne _ 2 2 _ 1 0 (by decide) (by decide) (by decide),
      fld_setFld_self _ _ _ _ (by decide) (by decide)]
    rfl
  · rw [tcxBarrier, hreg, bit_setBit _ _ _ _ (by decide), if_pos rfl]
  · rw [weightBase, getReg64, hctx (by simp only [R.TCX_WEIGHT_BASE_LO]; omega),
      hctx (by simp only [R.TCX_WEIGHT_BASE_HI]; omega), getReg_activate_lo _ _ _ hT, getReg_activate_hi _ _ _ hT,
      hu.wSlot, BitVec.toNat_ofNat, BitVec.toNat_ofNat]
    omega
  · rw [hctx (by simp only [R.TCX_VERSION_NEXT]; omega), getReg_activate _ _ _ hT, if_neg, if_pos rfl]
    simp only [R.TCX_STATE, R.TCX_VERSION_NEXT]
    omega
  · rw [ht, wSlot, cmdRecord_wgt, ← wSlot, wSlot_activate, if_pos rfl]
  · rw [ht, cmdRecord_wgt, hcopies]
    exact List.mem_append_right _ List.mem_cons_self
  · rw [ht, cmdRecord_ent, hent, hu.reqs]
  · rw [ht, cmdRecord_cache, hcache, hu.cache]
  · refine htags _ (grantWindows_hive _ _ ?_ ?_)
    · rwa [hvWindow_setTcxState, hu.hvWindow]
    · rwa [hvWindow_setTcxState, hu.hvWindow]
  · refine htags _ (grantWindows_cells _ _ ?_ ?_ ?_)
    · rwa [usesCell_setTcxState, hu.usesCell]
    · rwa [cmWindow_setTcxState, hu.cmWindow]
    · rwa [cmWindow_setTcxState, hu.cmWindow]

end CtxActivate

/-! ### Contexts that are released (R84) -/

/-- Work that leaves the cells, the tokens, the requests, the ledgers, the tick, cell memory and the load slots alone, and of
the registers those of a kind. -/
structure WorkAside (P : Nat → Prop) (d u : Dev) : Prop where
  cells : u.cells = d.cells
  tokens : u.ent.tokens = d.ent.tokens
  reqs : u.ent.reqs = d.ent.reqs
  ledgers : u.ent.ledgers = d.ent.ledgers
  tick : u.tick = d.tick
  cm : u.mem.cm = d.mem.cm
  slots : u.wgt.slots = d.wgt.slots
  regs : ∀ o, P o → getReg u o = getReg d o

namespace WorkAside

variable {P : Nat → Prop} {a b c d u : Dev}

theorem refl (d : Dev) : WorkAside P d d := ⟨rfl, rfl, rfl, rfl, rfl, rfl, rfl, fun _ _ => rfl⟩

theorem trans (hab : WorkAside P a b) (hbc : WorkAside P b c) : WorkAside P a c :=
  ⟨hbc.cells.trans hab.cells, hbc.tokens.trans hab.tokens, hbc.reqs.trans hab.reqs, hbc.ledgers.trans hab.ledgers,
    hbc.tick.trans hab.tick, hbc.cm.trans hab.cm, hbc.slots.trans hab.slots,
    fun o ho => (hbc.regs o ho).trans (hab.regs o ho)⟩

theorem foldl {α : Type} {f : Dev → α → Dev} {xs : List α} (h : ∀ d, ∀ x ∈ xs, WorkAside P d (f d x)) (d : Dev) :
    WorkAside P d (xs.foldl f d) := by
  induction xs generalizing d with
  | nil => exact .refl d
  | cons x xs ih => exact (h d x List.mem_cons_self).trans (ih (fun d y hy => h d y (List.mem_cons_of_mem x hy)) _)

/-- A change of fields that the relation does not look at. -/
theorem of_units (hc : u.cells = d.cells := by rfl) (ht : u.ent.tokens = d.ent.tokens := by rfl)
    (hr : u.ent.reqs = d.ent.reqs := by rfl) (hl : u.ent.ledgers = d.ent.ledgers := by rfl)
    (hk : u.tick = d.tick := by rfl) (hm : u.mem.cm = d.mem.cm := by rfl) (hs : u.wgt.slots = d.wgt.slots := by rfl)
    (hregs : u.regs = d.regs := by rfl) : WorkAside P d u :=
  ⟨hc, ht, hr, hl, hk, hm, hs, fun o _ => getReg_congr hregs o⟩

theorem setReg {o : Nat} (h : ¬P o) (d : Dev) (v : W32) : WorkAside P d (setReg d o v) :=
  ⟨rfl, rfl, rfl, rfl, rfl, rfl, rfl, fun p hp => getReg_setReg_ne d o v p fun heq => h (heq ▸ hp)⟩

theorem updCache (f : CacheSt → CacheSt) (d : Dev) : WorkAside P d (updCache f d) := of_units

theorem updSeq (q : Nat) (f : SeqDesc → SeqDesc) (d : Dev) : WorkAside P d (updSeq q f d) := of_units

theorem startRelease (h : ¬P R.KVC_LOST) (q : Nat) (cmd : Option CmdRef) (d : Dev) :
    WorkAside P d (startRelease q cmd d) := by
  have hentered : WorkAside P d (releaseEntered q d) := of_units
  rw [startRelease_eq]
  refine WorkAside.trans ?_ (updSeq q _ _)
  split
  · exact hentered.trans (setReg h _ _)
  · exact hentered

theorem freeContext {t : Nat} (hstate : ¬P (R.TCX_STATE t)) (hq : ¬P (R.ENT_WQ (t % 4096 / 32))) (d : Dev) :
    WorkAside P d (freeContext t d) := by
  unfold Machine.freeContext
  split
  · exact (((setReg hstate d _).trans (setReg hstate _ _)).trans (setReg hq _ _)).trans of_units
  · exact .refl d

end WorkAside

/-- The sequences of a context that are live. -/
def liveSeqs (t : Nat) (d : Dev) : List Nat := (d.cache.seqs.filter (fun e => e.2.tenant = t ∧ e.2.st = .live)).map (·.1)

/-- The releases of a context's sequences begin. -/
def seqsReleasing (t : Nat) (d : Dev) : Dev :=
  (liveSeqs t (setTcxState t 3 d)).foldl (fun d q => startRelease q none d) (setTcxState t 3 d)

theorem contextReleasing_eq (t : Nat) (d : Dev) : contextReleasing t d =
    if tenantTokens d t then d else freeContext t (seqsReleasing t d) := rfl

theorem contextReleasing_aside {P : Nat → Prop} {t : Nat} (hlost : ¬P R.KVC_LOST) (hstate : ¬P (R.TCX_STATE t))
    (hq : ¬P (R.ENT_WQ (t % 4096 / 32))) (d : Dev) : WorkAside P d (contextReleasing t d) := by
  rw [contextReleasing_eq]
  split
  · exact .refl d
  · refine WorkAside.trans ?_ (.freeContext hstate hq _)
    exact (WorkAside.setReg hstate d _).trans (.foldl (fun d q _ => .startRelease hlost q none d) _)

theorem ne_quarantine {o j : Nat} (h : 0x100000 ≤ o) (hj : j < 128) : o ≠ R.ENT_WQ j := by
  simp only [R.ENT_WQ]
  omega

theorem quarantine_index (t : Nat) : t % 4096 / 32 < 128 := by omega

/-- The condition under which a context becomes FREE. -/
def contextDone (t : Nat) (d : Dev) : Prop :=
  tcxState d t = 3 ∧ d.cache.seqs.all (fun e => decide (e.2.tenant ≠ t) || decide (e.2.st = .free)) = true

/-- The context as FREE_END leaves it: FREE without BARRIER, its quarantine and its images gone. -/
def contextFreed (t : Nat) (d : Dev) : Dev :=
  let d := setBarrier t false (setTcxState t 0 d)
  let d := setReg d (R.ENT_WQ (t % 4096 / 32)) (setBit (getReg d (R.ENT_WQ (t % 4096 / 32))) (t % 32) false)
  { d with wgt := { d.wgt with
    images := d.wgt.images.filter (fun i => i.tenant ≠ t)
    copies := d.wgt.copies.filter (fun x => x ≠ t)
    recopies := d.wgt.recopies.filter (fun e => e.1 ≠ t) } }

theorem freeContext_done {t : Nat} {d : Dev} (h : contextDone t d) : freeContext t d = contextFreed t d := if_pos h

theorem freeContext_other {t : Nat} {d : Dev} (h : ¬contextDone t d) : freeContext t d = d := if_neg h

theorem getReg_contextFreed_state (t : Nat) (d : Dev) : getReg (contextFreed t d) (R.TCX_STATE t) =
    setBit (setFld (getReg d (R.TCX_STATE t)) 1 0 0) 2 false := by
  have hlo : 0x100000 ≤ R.TCX_STATE t := by simp only [R.TCX_STATE]; omega
  refine (getReg_setReg_ne _ _ _ _ (ne_quarantine hlo (quarantine_index t))).trans ?_
  rw [setBarrier, getReg_setReg_self, setTcxState, setRegFld, getReg_setReg_self]

theorem tcxState_freed (x : W32) : fld (setBit (setFld x 1 0 0) 2 false) 1 0 = 0 := by
  rw [fld_setBit _ _ _ _ _ (by decide) (by decide), fld_setFld_self _ _ _ _ (by decide) (by decide)]
  rfl

/-- A context that may become FREE keeps its state otherwise. -/
theorem tcxState_freeContext (t : Nat) (d : Dev) :
    tcxState (freeContext t d) t = tcxState d t ∨ tcxState (freeContext t d) t = 0 := by
  by_cases h : contextDone t d
  · rw [freeContext_done h, tcxState, regFld, getReg_contextFreed_state]
    exact .inr (tcxState_freed _)
  · rw [freeContext_other h]
    exact .inl rfl

/-- A DRAINING context none of whose tokens remains is RELEASING, or FREE. -/
theorem tcxState_contextReleasing {t : Nat} {d : Dev} (h : tenantTokens d t = false) :
    tcxState (contextReleasing t d) t = 3 ∨ tcxState (contextReleasing t d) t = 0 := by
  have hlost : R.KVC_LOST ≠ R.TCX_STATE t := by simp only [R.KVC_LOST, R.TCX_STATE]; omega
  have hbegin : tcxState (seqsReleasing t d) t = 3 := by
    have haside : WorkAside (fun o => o = R.TCX_STATE t) (setTcxState t 3 d) (seqsReleasing t d) :=
      .foldl (fun d q _ => .startRelease hlost q none d) _
    rw [tcxState, regFld, haside.regs _ rfl, setTcxState, setRegFld, getReg_setReg_self,
      fld_setFld_self _ _ _ _ (by decide) (by decide)]
    rfl
  rw [contextReleasing_eq, h, if_neg (by decide), ← hbegin]
  exact tcxState_freeContext t _

/-! ### CTX_KILL (R82, R298) -/

/-- The kill of a context's load or swap in a slot. -/
def killSlot (d : Dev) (i : Nat) : Dev :=
  let s := wSlot d i
  match s.st with
  | .loading => failLoad i 8 d
  | .verified => failLoad i 8 d
  | .swapping =>
    cmdRecord? s.swapCmd 5 0 (slotIdle i 8 { d with wgt := { d.wgt with
      images := d.wgt.images ++ [slotImage s] } })
  | .ready => slotIdle i 8 { d with wgt := { d.wgt with
      images := d.wgt.images ++ [slotImage s] } }
  | _ => d

/-- The slots of a context that are not IDLE. -/
def killedSlots (t : Nat) (d : Dev) : List Nat := slotsWith d (fun s => decide (s.tenant = t))

theorem wgtKill_eq (t : Nat) (d : Dev) : wgtKill t d = (killedSlots t d).foldl killSlot d := rfl

/-- Registers that neither a record nor a load slot shows in: those of a ring's configuration, and a context's state. -/
def apartFromRecords (o : Nat) : Prop := o % 64 < 8 ∧ (o < 0x80000 ∨ 0xA0000 ≤ o)

theorem getReg_writeRecord_apart {o : Nat} (h : apartFromRecords o) (d : Dev) (r : Nat) (ctr : W32) (c : Completion) :
    getReg (writeRecord d r ctr c none) o = getReg d o := by
  obtain ⟨hmod, hsyn⟩ := h
  have hpend : o ≠ R.RNG_PENDING r := by simp only [R.RNG_PENDING]; omega
  have hadd (w : W32) : o ≠ R.SYN_VALUE (fld w 13 0) := by
    have hlt := fld_lt w 13 0
    simp only [R.SYN_VALUE]
    omega
  unfold writeRecord
  dsimp only
  split
  · rw [getReg_syncAdd, if_neg (hadd _), getReg_countRecord, getReg_setReg_ne _ _ _ _ hpend, getReg_hiveWrite]
  · rw [getReg_countRecord, getReg_setReg_ne _ _ _ _ hpend, getReg_hiveWrite]

/-- What a kill of a slot leaves: the entrance, every other slot, and registers apart from records and versions. -/
structure SlotKilled (i : Nat) (d u : Dev) : Prop where
  ent : u.ent = d.ent
  regs : ∀ o, apartFromRecords o → getReg u o = getReg d o
  slot : (wSlot u i).st = .idle ∨ (wSlot u i).st = .reverting
  others : ∀ j, j ≠ i → wSlot u j = wSlot d j

theorem slotKilled_slotIdle (i reason : Nat) (d : Dev) : SlotKilled i d (slotIdle i reason d) := by
  obtain ⟨-, -, -, hslot, hregs⟩ := slotIdle_rest i reason d
  refine ⟨rfl, fun o ho => ?_, .inl (by rw [hslot, if_pos rfl]), fun j hj => by rw [hslot, if_neg hj]⟩
  rw [hregs, if_neg]
  have hmod := ho.1
  simp only [R.TCX_VERSION_NEXT]
  omega

theorem SlotKilled.record {i : Nat} {d u : Dev} (h : SlotKilled i d u) (x : Option CmdRef) (res len : Nat) :
    SlotKilled i d (cmdRecord? x res len u) := by
  cases x with
  | none => exact h
  | some x =>
    have hslot (j : Nat) : wSlot (cmdRecord x res len u) j = wSlot u j := by rw [wSlot, cmdRecord_wgt, wSlot]
    refine ⟨(cmdRecord_ent x res len u).trans h.ent, fun o ho => ?_, ?_, fun j hj => (hslot j).trans (h.others j hj)⟩
    · exact (getReg_writeRecord_apart ho u x.ring x.ctr (cmdCompletion x res len)).trans (h.regs o ho)
    · show (wSlot (cmdRecord x res len u) i).st = _ ∨ (wSlot (cmdRecord x res len u) i).st = _
      rw [hslot]
      exact h.slot

/-- A weight message changes the port alone. -/
theorem sendWgt_units (p : Option PortId) (t : Nat) (msg : List Byte) (d : Dev) : (sendWgt p t msg d).ent = d.ent ∧
    (sendWgt p t msg d).regs = d.regs ∧ (sendWgt p t msg d).wgt = d.wgt := by
  cases p with
  | none => exact ⟨rfl, rfl, rfl⟩
  | some p => exact ⟨sendAll_ent _ _ _, sendAll_regs _ _ _, sendAll_wgt _ _ _⟩

theorem SlotKilled.of_start {i : Nat} {d v u : Dev} (hent : v.ent = d.ent) (hregs : v.regs = d.regs)
    (hslots : v.wgt.slots = d.wgt.slots) (h : SlotKilled i v u) : SlotKilled i d u := by
  refine ⟨h.ent.trans hent, fun o ho => (h.regs o ho).trans (getReg_congr hregs o), h.slot, fun j hj => ?_⟩
  rw [h.others j hj, wSlot, hslots, wSlot]

theorem slotKilled_failLoad (i reason : Nat) (d : Dev) : SlotKilled i d (failLoad i reason d) := by
  obtain ⟨hent, hregs, hwgt⟩ := sendWgt_units (wSlot d i).down (wSlot d i).tenant
    (wgtMsg 4 0 (wSlot d i).tenant (wSlot d i).version 0) d
  exact ((slotKilled_slotIdle i reason _).of_start hent hregs (by rw [hwgt])).record _ 5 0

/-- An image is given back to the die. -/
theorem slotKilled_image (i : Nat) (x : Image) (d : Dev) :
    SlotKilled i d (slotIdle i 8 { d with wgt := { d.wgt with images := d.wgt.images ++ [x] } }) :=
  SlotKilled.of_start (v := { d with wgt := { d.wgt with images := d.wgt.images ++ [x] } }) rfl rfl rfl
    (slotKilled_slotIdle i 8 _)

theorem slotKilled_killSlot (d : Dev) (i : Nat) : SlotKilled i d (killSlot d i) := by
  unfold killSlot
  dsimp only
  split
  · exact slotKilled_failLoad i 8 d
  · exact slotKilled_failLoad i 8 d
  · exact (slotKilled_image i _ d).record _ 5 0
  · exact slotKilled_image i _ d
  · rename_i hload hver hswap hready
    refine ⟨rfl, fun _ _ => rfl, ?_, fun _ _ => rfl⟩
    cases hst : (wSlot d i).st with
    | idle => exact .inl rfl
    | reverting => exact .inr rfl
    | loading => exact absurd hst hload
    | verified => exact absurd hst hver
    | swapping => exact absurd hst hswap
    | ready => exact absurd hst hready

/-- The kill of all slots of a list. -/
theorem killSlots_kills (is : List Nat) (d : Dev) : (is.foldl killSlot d).ent = d.ent ∧
    (∀ o, apartFromRecords o → getReg (is.foldl killSlot d) o = getReg d o) ∧
    ∀ i, (i ∈ is → (wSlot (is.foldl killSlot d) i).st = .idle ∨ (wSlot (is.foldl killSlot d) i).st = .reverting) ∧
      (i ∉ is → wSlot (is.foldl killSlot d) i = wSlot d i) := by
  induction is generalizing d with
  | nil => exact ⟨rfl, fun _ _ => rfl, fun i => ⟨fun h => absurd h List.not_mem_nil, fun _ => rfl⟩⟩
  | cons x xs ih =>
    have hx := slotKilled_killSlot d x
    obtain ⟨hent, hregs, hslots⟩ := ih (killSlot d x)
    refine ⟨hent.trans hx.ent, fun o ho => (hregs o ho).trans (hx.regs o ho), fun i => ⟨fun hi => ?_, fun hi => ?_⟩⟩
    · by_cases hmem : i ∈ xs
      · exact (hslots i).1 hmem
      · rw [List.foldl_cons, (hslots i).2 hmem, (List.mem_cons.1 hi).resolve_right hmem]
        exact hx.slot
    · rw [List.mem_cons, not_or] at hi
      rw [List.foldl_cons, (hslots i).2 hi.2, hx.others i hi.1]

/-- No slot of a context holds a load or a swap after the kill. -/
theorem wgtKill_slots (T : Nat) (d : Dev) {i : Nat} (hi : i < 8) (hT : (wSlot (wgtKill T d) i).tenant = T) :
    (wSlot (wgtKill T d) i).st = .idle ∨ (wSlot (wgtKill T d) i).st = .reverting := by
  obtain ⟨-, -, hslots⟩ := killSlots_kills (killedSlots T d) d
  rw [wgtKill_eq] at hT ⊢
  by_cases hmem : i ∈ killedSlots T d
  · exact (hslots i).1 hmem
  · rw [(hslots i).2 hmem] at hT ⊢
    refine .inl (by_contra fun hst => hmem (List.mem_filter.2 ⟨List.mem_range.2 hi, ?_⟩))
    simp [hst, hT]

/-- The requests of a context. -/
def ctxKillHits (T : Nat) (r : Req) : Bool := decide (dTenant r.desc = T)

/-- What CTX_KILL makes of a device before it looks whether a token remains. -/
def ctxKilled (T : Nat) (d : Dev) : Dev := wgtKill T (killReqs (ctxKillHits T) (setTcxState T 2 d))

theorem ctxKilled_ent (T : Nat) (d : Dev) :
    (ctxKilled T d).ent = (killReqs (ctxKillHits T) (setTcxState T 2 d)).ent :=
  (killSlots_kills _ _).1

theorem getReg_ctxKilled (T : Nat) (d : Dev) {o : Nat} (h : apartFromRecords o) :
    getReg (ctxKilled T d) o = getReg (setTcxState T 2 d) o :=
  (killSlots_kills _ _).2.1 o h

section CtxKill

variable (h : CommandAt s ring 0x02 e)

include h

theorem ctxKill_badState (hstate : tcxState s.dev e.tenant ≠ 1) : Refuses ring e s (.ctxKill ring) resBadState := by
  have hu := actsAlike_cmdTaken (ring := ring) (ring_lt_of_front h.1) s.dev
  exact completes_refused rfl h rfl (if_pos (by rwa [hu.tcxState]))

omit h in
theorem ctxKillHits_desc (T : Nat) (a b : Req) (hab : a.desc = b.desc) : ctxKillHits T a = ctxKillHits T b := by
  rw [ctxKillHits, hab, ctxKillHits]

omit h in
/-- What the end of a context's kill touches: no request, no token, no load slot, no register of a ring. -/
theorem ctxReleased_aside (T : Nat) (d : Dev) :
    WorkAside (fun o => 0x40000 ≤ o ∧ o ≠ R.TCX_STATE T) d (contextReleasing T d) := by
  refine contextReleasing_aside ?_ (fun hc => hc.2 rfl) ?_ d
  · simp only [R.KVC_LOST]
    omega
  · simp only [R.ENT_WQ]
    omega

omit h in
theorem tenantTokens_congr {d u : Dev} (h : u.ent = d.ent) (T : Nat) : tenantTokens u T = tenantTokens d T := by
  simp only [tenantTokens, findReq, h]

omit h in
theorem findReq_killReqs (p : Req → Bool) (d : Dev) (uid : Nat) :
    findReq (killReqs p d) uid = (findReq d uid).map (killedReq p (d.tick.num + 1)) := by
  rw [findReq, killReqs_eq, findReq, List.find?_map]
  congr 2
  funext r
  simp only [Function.comp_apply, (killedReq_same p (d.tick.num + 1) r).1]

omit h in
/-- A kill marks requests, and leaves every token with its context. -/
theorem tenantTokens_killReqs (p : Req → Bool) (d : Dev) (T : Nat) :
    tenantTokens (killReqs p d) T = tenantTokens d T := by
  unfold tenantTokens
  rw [killReqs_tokens]
  congr 1
  funext k
  rw [findReq_killReqs]
  cases findReq d k.uid with
  | none => rfl
  | some r => simp only [Option.map_some, (killedReq_same p (d.tick.num + 1) r).2.1]

omit h in
/-- A context that is killed with a running token is DRAINING; without one it is RELEASING or FREE. -/
theorem tcxState_ctxKilled (T : Nat) (d : Dev) : (tenantTokens d T = true →
    tcxState (contextReleasing T (ctxKilled T d)) T = 2) ∧ tcxState (contextReleasing T (ctxKilled T d)) T ≠ 1 := by
  have hapart : apartFromRecords (R.TCX_STATE T) := by
    simp only [apartFromRecords, R.TCX_STATE]
    omega
  have hdraining : tcxState (ctxKilled T d) T = 2 := by
    rw [tcxState, regFld, getReg_ctxKilled T d hapart, setTcxState, setRegFld, getReg_setReg_self,
      fld_setFld_self _ _ _ _ (by decide) (by decide)]
    rfl
  have htokens : tenantTokens (ctxKilled T d) T = tenantTokens d T := by
    rw [tenantTokens_congr (ctxKilled_ent T d), tenantTokens_killReqs]
    rfl
  cases hrun : tenantTokens d T with
  | true =>
    rw [contextReleasing_eq, htokens, hrun, if_pos rfl, hdraining]
    exact ⟨fun _ => rfl, by decide⟩
  | false =>
    refine ⟨fun hc => absurd hc (by decide), ?_⟩
    rcases tcxState_contextReleasing (htokens.trans hrun) with hst | hst <;> rw [hst] <;> decide

omit h in
theorem tenantTokens_of {d u : Dev} {k : Token} {r : Req} {T : Nat} (hreqs : u.ent.reqs = d.ent.reqs)
    (htokens : u.ent.tokens = d.ent.tokens) (hk : k ∈ d.ent.tokens) (hst : k.st ≠ .finished)
    (hfind : findReq d k.uid = some r) (htenant : dTenant r.desc = T) : tenantTokens u T = true := by
  refine List.any_eq_true.2 ⟨k, htokens ▸ hk, ?_⟩
  rw [findReq, hreqs, ← findReq, hfind]
  simp only [hst, htenant, ne_eq, not_false_eq_true, decide_true, Bool.and_self]

omit h in
/-- What CTX_KILL leaves: requests that are marked, rings as they were, and no load or swap of the context. -/
structure CtxEnded (T : Nat) (u d : Dev) : Prop where
  reqs : d.ent.reqs = (killReqs (ctxKillHits T) u).ent.reqs
  draining : tenantTokens u T = true → tcxState d T = 2
  ended : tcxState d T ≠ 1
  rings : ∀ o, 0x40000 ≤ o → o < 0x80000 → o % 64 < 8 → getReg d o = getReg u o
  slots : ∀ i, i < 8 → (wSlot d i).tenant = T → (wSlot d i).st = .idle ∨ (wSlot d i).st = .reverting

omit h in
theorem ctxEnded_ctxKilled (T : Nat) (u : Dev) : CtxEnded T u (contextReleasing T (ctxKilled T u)) := by
  have haside := ctxReleased_aside T (ctxKilled T u)
  obtain ⟨hdraining, hended⟩ := tcxState_ctxKilled T u
  have hslot (i : Nat) : wSlot (contextReleasing T (ctxKilled T u)) i = wSlot (ctxKilled T u) i := by
    rw [wSlot, haside.slots, ← wSlot]
  refine ⟨?_, hdraining, hended, fun o hlo hhi hmod => ?_, fun i hi hT => ?_⟩
  · rw [haside.reqs, ctxKilled_ent]
    rfl
  · have hne : o ≠ R.TCX_STATE T := by simp only [R.TCX_STATE]; omega
    rw [haside.regs o ⟨hlo, hne⟩, getReg_ctxKilled _ _ ⟨hmod, .inl hhi⟩, setTcxState, setRegFld,
      getReg_setReg_ne _ _ _ _ hne]
  · rw [hslot] at hT ⊢
    exact wgtKill_slots T _ hi hT

theorem ctxKill_done (hactive : tcxState s.dev e.tenant = 1) : Completes (.ctxKill ring) s (fun t =>
    t.pending = s.pending ∧ CommandResult e resDone s t ∧ tcxState t.dev e.tenant ≠ 1 ∧
    ((∃ k ∈ s.dev.ent.tokens, k.st ≠ .finished ∧ ∃ r, findReq s.dev k.uid = some r ∧ dTenant r.desc = e.tenant) →
      tcxState t.dev e.tenant = 2) ∧
    RequestsKilled s t (fun r => dTenant r.desc = e.tenant) ∧
    ∀ i, i < 8 → (wSlot t.dev i).tenant = e.tenant → (wSlot t.dev i).st = .idle ∨ (wSlot t.dev i).st = .reverting) := by
  have hr := ring_lt_of_front h.1
  have hu := actsAlike_cmdTaken (ring := ring) hr s.dev
  have htokens : (cmdTaken ring e s.dev).ent.tokens = s.dev.ent.tokens := rfl
  have hact : ctxKillCmd e (cmdTaken ring e s.dev) =
      (some resDone, contextReleasing e.tenant (ctxKilled e.tenant (cmdTaken ring e s.dev))) :=
    if_neg (by rw [hu.tcxState, hactive]; decide)
  have hdev := readCommand_carried (p := fun c => c = 0x02) (act := fun e _ _ d => ctxKillCmd e d) h rfl
  rw [hact] at hdev
  have hended := ctxEnded_ctxKilled e.tenant (cmdTaken ring e s.dev)
  refine completes_of_onDev rfl ?_
  generalize contextReleasing e.tenant (ctxKilled e.tenant (cmdTaken ring e s.dev)) = d at hdev hended
  generalize cmdTaken ring e s.dev = u at hu hended htokens
  have hring (o : Nat) (hlo : 0x40000 ≤ o) (hhi : o < 0x80000) (hmod : o % 64 < 8) : getReg d o = getReg s.dev o := by
    rw [hended.rings o hlo hhi hmod, hu.cfg o hlo (by omega)]
  have hslot : slotAddr d e.ring (cmdRefOf e s.dev).ctr.toNat = cmdSlot e s := by
    have hcfg := hring (R.RNG_CFG e.ring) (by simp only [R.RNG_CFG]; omega) (by simp only [R.RNG_CFG]; omega)
      (by simp only [R.RNG_CFG]; omega)
    have hbase := hring (R.RNG_BASE e.ring) (by simp only [R.RNG_BASE]; omega) (by simp only [R.RNG_BASE]; omega)
      (by simp only [R.RNG_BASE]; omega)
    simp only [cmdSlot, slotAddr, ringBase, regFld, ringSize, ringShift, ringCfg, hcfg, hbase]
    rfl
  have hstate : tcxState (cmdRecord (cmdRefOf e s.dev) resDone (cmdLength d e) d) e.tenant = tcxState d e.tenant := by
    have hapart : apartFromRecords (R.TCX_STATE e.tenant) := by
      simp only [apartFromRecords, R.TCX_STATE]
      omega
    exact congrArg (fld · 1 0) (getReg_writeRecord_apart hapart d _ _ _)
  refine ⟨rfl, commandResult_of_slot hr hslot hdev, ?_, ?_, ?_, ?_⟩
  · show tcxState (readCommand _ _ _ _) _ ≠ 1
    rw [hdev]
    exact fun hc => hended.ended (hstate.symm.trans hc)
  · rintro ⟨k, hk, hst, r, hfind, htenant⟩
    show tcxState (readCommand _ _ _ _) _ = 2
    rw [hdev]
    exact hstate.trans (hended.draining (tenantTokens_of hu.reqs htokens hk hst hfind htenant))
  · refine requestsKilled_of hu rfl ?_ (ctxKillHits_desc e.tenant) (fun r hr => decide_eq_true hr)
    show (readCommand _ _ _ _).ent.reqs = _
    rw [hdev]
    exact (congrArg (·.reqs) (cmdRecord_ent _ _ _ d)).trans hended.reqs
  · show ∀ i, i < 8 → (wSlot (readCommand _ _ _ _) i).tenant = _ → (wSlot (readCommand _ _ _ _) i).st = _ ∨
      (wSlot (readCommand _ _ _ _) i).st = _
    have hwgt (i : Nat) : wSlot (cmdRecord (cmdRefOf e s.dev) resDone (cmdLength d e) d) i = wSlot d i := by
      rw [wSlot, cmdRecord_wgt, wSlot]
    rw [hdev]
    intro i hi hT
    rw [show wSlot (cmdAnswer e (cmdRefOf e s.dev) (some resDone, d)) i = wSlot d i from hwgt i] at hT ⊢
    exact hended.slots i hi hT

end CtxKill

/-- Settles O41: each command is the reader's action. The kill of a context ends its loads and swaps, slot by slot, and an
activation grants its windows unit by unit. -/
theorem contextAndKeyCommands : Obligations.ContextAndKeyCommands := by
  intro s ring e T refuses killed hactivate
  refine ⟨ctxActivate_badState hactivate, fun n => ctxActivate_checkFail hactivate, fun i => ctxActivate_done hactivate,
    fun h => ⟨ctxKill_badState h, ctxKill_done h⟩,
    fun h => ⟨reqKill_badState h, reqKill_notFound h, reqKill_done h⟩,
    fun h => ⟨keyClear_badState h, keyClear_done h⟩, fun id k => wgtKeyLoad_other,
    fun h => ⟨keyLoad_badCmd h, fun hgood => ⟨keyLoad_badState h hgood, fun hfree => ?_⟩⟩⟩
  cases hkeys : unwrapKeys ((keyPayload s ring).take 104) with
  | some keys =>
    show match unwrapKeys ((keyPayload s ring).take 104) with
      | some keys => _
      | none => _
    rw [hkeys]
    exact ⟨(unwrapKeys_some hkeys).1, (unwrapKeys_some hkeys).2, keyLoad_done h hgood hfree hkeys⟩
  | none =>
    show match unwrapKeys ((keyPayload s ring).take 104) with
      | some keys => _
      | none => _
    rw [hkeys]
    exact keyLoad_fails h hgood hfree hkeys

end Sys2Proof.Machine
end


section
/-!
PROOFS. The drain work of cache control (R84, R207, R208, R223, R226, R228, R229): what its operations leave alone, the
frames that they free and reserve, and the ends of forks and releases.
-/

namespace Sys2Proof.Machine

open Sys2Proof

/-! ### Work on frames, leaves and pages -/

theorem foldl_bind_none {α : Type} (f : Dev → α → Option Dev) (xs : List α) :
    xs.foldl (fun (o : Option Dev) x => o.bind (fun d => f d x)) none = none := by
  induction xs with
  | nil => rfl
  | cons x xs ih => exact ih

namespace WorkAside

variable {P : Nat → Prop} {d u : Dev}

/-- Steps that may find no frame, in turn. -/
theorem foldl_bind {α : Type} {f : Dev → α → Option Dev} (h : ∀ d x u, f d x = some u → WorkAside P d u) (xs : List α)
    (hu : xs.foldl (fun (o : Option Dev) x => o.bind (fun d => f d x)) (some d) = some u) : WorkAside P d u := by
  induction xs generalizing d with
  | nil =>
    cases hu
    exact .refl _
  | cons x xs ih =>
    cases hx : f d x with
    | none =>
      rw [List.foldl_cons, Option.bind_some, hx, foldl_bind_none] at hu
      cases hu
    | some e =>
      rw [List.foldl_cons, Option.bind_some, hx] at hu
      exact (h d x e hx).trans (ih hu)

theorem setHead (k : Nat) (x : PageHead) (d : Dev) : WorkAside P d (setHead k x d) := of_units

theorem setPtr (b k v : Nat) (d : Dev) : WorkAside P d (setPtr b k v d) := of_units

theorem updEntry (q : Nat) (f : SeqEntry → SeqEntry) (d : Dev) : WorkAside P d (updEntry q f d) := of_units

theorem freeFrame (x k : Nat) (d : Dev) : WorkAside P d (freeFrame x k d) := of_units

theorem hbmWrite (d : Dev) (k : HbmKey) (a : Nat) (bs : List Byte) : WorkAside P d (hbmWrite d k a bs) := of_units

theorem hiveWrite (d : Dev) (a : Nat) (bs : List Byte) : WorkAside P d (hiveWrite d a bs) := of_units

theorem allocFrame {src : FrameSrc} {t k : Nat} {kind : FrameKind} {r : Nat × Dev}
    (h : allocFrame src t k kind d = some r) : WorkAside P d r.2 := by
  obtain ⟨p, -, rfl⟩ := Option.map_eq_some_iff.1 h
  exact of_units

theorem decRef (x : Nat) (d : Dev) : WorkAside P d (decRef x d) := by
  unfold Machine.decRef decRefRaw
  split
  · exact .refl d
  · split
    · exact .refl d
    · split
      · exact of_units
      · split <;> exact of_units

theorem freeGroup (x : PageHead) (dd : Nat) (d : Dev) : WorkAside P d (freeGroup x dd d) := by
  unfold Machine.freeGroup
  split
  · exact decRef _ d
  · exact of_units

theorem takeGroup {src : FrameSrc} {t p dd : Nat} {r : Bool × Nat × Dev} (h : takeGroup src t p dd d = some r) :
    WorkAside P d r.2.2 := by
  unfold Machine.takeGroup at h
  split at h
  · cases h
    exact of_units
  · obtain ⟨p, hp, rfl⟩ := Option.map_eq_some_iff.1 h
    exact allocFrame hp

theorem groupWrite (x : PageHead) (off : Nat) (bs : List Byte) (d : Dev) : WorkAside P d (groupWrite x off bs d) := by
  unfold Machine.groupWrite
  split
  · exact hbmWrite _ _ _ _
  · exact hiveWrite _ _ _

theorem groupPut (x : PageHead) (dd r : Nat) (k v : List Nat) (d : Dev) : WorkAside P d (groupPut x dd r k v d) :=
  (groupWrite _ _ _ _).trans (groupWrite _ _ _ _)

/-- What a leaf names is given up, head by head. -/
theorem emptyLeaf (x : Nat) (d : Dev) : WorkAside P d (emptyLeaf x d) := by
  unfold Machine.emptyLeaf
  refine WorkAside.trans ?_ (updCache _ _)
  refine foldl (fun d x _ => ?_) d
  split
  · exact decRef _ d
  · exact freeGroup _ _ d
  · exact .refl d

theorem decLeaf (x : Nat) (d : Dev) : WorkAside P d (decLeaf x d) := by
  unfold Machine.decLeaf
  split
  · split
    · exact (emptyLeaf x d).trans (decRef x _)
    · exact decRef x d
  · exact .refl d

theorem clearBlock (x : Nat) (d : Dev) : WorkAside P d
    (Machine.decRef x (Machine.updCache (fun c => { c with ptrs := tblClear c.ptrs (4096 * x) 4096 }) d)) :=
  (updCache _ d).trans (decRef x _)

section Counted

variable (hP : ∀ o, P o → 0x100000 ≤ o)

include hP

/-- A register below the contexts' counts. -/
theorem counted {o : Nat} (h : o < 0x100000) (d : Dev) (n : Nat) : WorkAside P d (bumpBy d o n) :=
  setReg (fun ho => absurd (hP o ho) (by omega)) d _

theorem incRef (x : Nat) (d : Dev) : WorkAside P d (incRef x d) := by
  unfold Machine.incRef
  split
  · exact .refl d
  · split
    · exact .refl d
    · split
      · exact (updCache _ d).trans (counted hP (o := R.KVC_PIN_CNT) (by decide) _ 1)
      · exact of_units

theorem copyLeaf {src : FrameSrc} {t x : Nat} {r : Nat × Dev} (h : copyLeaf src t x d = some r) :
    WorkAside P d r.2 := by
  unfold Machine.copyLeaf at h
  generalize List.range 16 = js at h
  obtain ⟨p, hp, rfl⟩ := Option.map_eq_some_iff.1 h
  refine (allocFrame hp).trans (foldl (fun d j _ => ?_) p.2)
  dsimp only
  split
  · exact (setHead _ _ d).trans (incRef hP _ _)
  · exact setHead _ _ d

theorem privateLeaf {src : FrameSrc} {q l h i : Nat} {r : Nat × Dev} (hr : privateLeaf src q l h i d = some r) :
    WorkAside P d r.2 := by
  unfold Machine.privateLeaf at hr
  dsimp only at hr
  split at hr
  · cases hr
  · split at hr
    · cases hr
    · rename_i b e hblock
      have hstart : WorkAside P d e := by
        split at hblock
        · cases hblock
          exact .refl d
        · obtain ⟨p, hp, hpe⟩ := Option.map_eq_some_iff.1 hblock
          cases hpe
          exact (allocFrame hp).trans (setPtr _ _ _ _)
      refine hstart.trans ?_
      split at hr
      · obtain ⟨p, hp, rfl⟩ := Option.map_eq_some_iff.1 hr
        exact (allocFrame hp).trans (setPtr _ _ _ _)
      · split at hr
        · obtain ⟨p, hp, rfl⟩ := Option.map_eq_some_iff.1 hr
          exact (copyLeaf hP hp).trans (((setPtr _ _ _ _).trans (decRef _ _)).trans
            (counted hP (o := R.KVC_COW_CNT) (by decide) _ 1))
        · cases hr
          exact .refl e

theorem dropPage (q l h i : Nat) (d : Dev) : WorkAside P d (dropPage q l h i d) := by
  unfold Machine.dropPage
  dsimp only
  split
  · exact .refl d
  · split
    · exact .refl d
    · split
      · exact updCache _ d
      · split
        · exact updCache _ d
        · rename_i v e hleaf
          refine (privateLeaf hP hleaf).trans
            ((setHead (16 * v + i % 16) (droppedHead (pageHead d q l h i)) e).trans ?_)
          generalize Machine.setHead _ _ e = e
          refine (updCache (fun c => { c with waiting := c.waiting.filter (fun w => w ≠ (q, l, h, i)) }) e).trans ?_
          split
          · exact decRef _ _
          · exact freeGroup _ _ _
          · exact .refl _

theorem dropRange (q a b : Nat) (ref : Option W32) (d : Dev) : WorkAside P d (dropRange q a b ref d) := by
  unfold Machine.dropRange
  dsimp only
  split
  · exact .refl d
  · refine WorkAside.trans ?_ (foldl (fun d lh _ => foldl (fun d i _ => dropPage hP q lh.1 lh.2 i d) d) _)
    split
    · exact (updEntry _ _ d).trans (updCache _ _)
    · exact updEntry _ _ d

theorem cacheError (q : Nat) (spot : CacheSpot) (ref : W32) (d : Dev) : WorkAside P d (cacheError q spot ref d) := by
  have hcount : WorkAside P d (bump d R.KVC_ECC_DROP_CNT) := counted hP (by decide) d 1
  unfold Machine.cacheError
  dsimp only
  generalize bump d R.KVC_ECC_DROP_CNT = e at hcount
  refine hcount.trans ?_
  cases spot with
  | page l h i => exact dropRange hP _ _ _ _ _
  | leaf l h i b e x => exact ((updCache _ _).trans (decLeaf _ _)).trans (dropRange hP _ _ _ _ _)
  | index l h j dir e b =>
    exact (((updCache _ _).trans (foldl (fun d x _ => decLeaf x.2 d) _)).trans (clearBlock b _)).trans
      (dropRange hP _ _ _ _ _)
  | directory => exact dropRange hP _ _ _ _ _

/-! ### Flushes, releases and forks -/

/-- A contained error that the guard takes. -/
theorem guardTaken {r : Report} (h : errClass r.code ≠ 2) (d : Dev) : WorkAside P d (guardTake r d).2 where
  cells := guardTake_cells r d
  tokens := by rw [guardTake_ent]
  reqs := by rw [guardTake_ent]
  ledgers := by rw [guardTake_ent]
  tick := guardTake_tick r d
  cm := by rw [guardTake_mem]
  slots := by rw [guardTake_wgt]
  regs := fun o ho => getReg_guardTake h d (by
    have hlo := hP o ho
    exact Bool.and_eq_false_iff.2 (.inr (decide_eq_false (by simp only [R.GRD_REC]; omega))))

theorem flushOne (key : Nat) (d : Dev) : WorkAside P d (flushOne key d) := by
  unfold Machine.flushOne
  dsimp only
  split
  · split
    · refine WorkAside.trans ?_ (cacheError hP _ _ _ _)
      refine guardTaken hP ?_ d
      split
      · show errClass 0x22 ≠ 2
        decide
      · show errClass 0x21 ≠ 2
        decide
    · exact .refl d
  · split
    · exact updCache _ d
    · rename_i halloc
      exact (((allocFrame halloc).trans (hbmWrite _ _ _ _)).trans ((setHead _ _ _).trans (freeGroup _ _ _))).trans
        (counted hP (o := R.KVC_FLUSH_CNT) (by decide) _ 1)

omit hP in
theorem releaseHead (q l h : Nat) (d : Dev) : WorkAside P d (releaseHead q l h d) :=
  foldl (fun d b _ => (foldl (fun d x _ => decLeaf x.2 d) d).trans (clearBlock b _)) d

omit hP in
theorem releaseRoot (q : Nat) (d : Dev) : WorkAside P d (releaseRoot q d) := by
  unfold Machine.releaseRoot
  split
  · exact .refl d
  · refine (foldl (fun d l _ => ?_) d).trans (clearBlock _ _)
    split
    · exact clearBlock _ d
    · exact .refl d

omit hP in
theorem releaseStep (q : Nat) (d : Dev) : WorkAside P d (releaseStep q d) := by
  unfold Machine.releaseStep
  dsimp only
  split
  · exact (releaseHead _ _ _ d).trans (updSeq _ _ _)
  · exact (releaseRoot _ d).trans (updSeq _ _ _)

omit hP in
theorem forkGroup {x : PageHead} {t dd : Nat} {r : PageHead × Dev} (h : forkGroup x t dd d = some r) :
    WorkAside P d r.2 := by
  obtain ⟨p, hp, rfl⟩ := Option.map_eq_some_iff.1 h
  exact (takeGroup hp).trans (foldl (fun d i _ => groupPut _ _ _ _ _ d) _)

theorem forkLeaf {t pl n first x : Nat} {r : Nat × Dev} (h : forkLeaf t pl n first x d = some r) :
    WorkAside P d r.2 := by
  unfold Machine.forkLeaf at h
  split at h
  · cases h
  · rename_i x' e halloc
    obtain ⟨p, hp, rfl⟩ := Option.map_eq_some_iff.1 h
    refine ((allocFrame halloc).trans (foldl_bind (fun d j w hw => ?_) (List.range 16) hp)).trans
      (counted hP (o := R.KVC_COW_CNT) (by decide) p 1)
    dsimp only at hw
    split at hw
    · obtain ⟨y, hy, rfl⟩ := Option.map_eq_some_iff.1 hw
      exact (forkGroup hy).trans (setHead _ _ _)
    · cases hw
      exact (incRef hP _ d).trans (setHead _ _ _)
    · cases hw
      exact setHead _ _ d

omit hP in
theorem forkPoint {q l h first x t : Nat} (hp : forkPoint q l h first x t d = some u) : WorkAside P d u := by
  unfold Machine.forkPoint at hp
  split at hp
  · cases hp
  · split at hp
    · cases hp
      exact setPtr _ _ _ d
    · obtain ⟨r, hr, rfl⟩ := Option.map_eq_some_iff.1 hp
      exact (allocFrame hr).trans ((setPtr _ _ _ _).trans (setPtr _ _ _ _))

theorem forkHeadWork {child parent l h n : Nat} (hw : forkHeadWork child parent l h n d = some u) :
    WorkAside P d u := by
  refine foldl_bind (fun d e w hw => ?_) _ hw
  dsimp only at hw
  split at hw
  · cases hw
    exact .refl d
  · split at hw
    · exact (incRef hP _ d).trans (forkPoint hw)
    · obtain ⟨r, hr, hpoint⟩ := Option.bind_eq_some_iff.1 hw
      exact (forkLeaf hP hr).trans (forkPoint hpoint)

theorem forkStep {q : Nat} (h : forkStep q d = some u) : WorkAside P d u := by
  unfold Machine.forkStep at h
  dsimp only at h
  split at h
  · obtain ⟨w, hw, rfl⟩ := Option.map_eq_some_iff.1 h
    exact (forkHeadWork hP hw).trans (updSeq _ _ _)
  · cases h
    exact updSeq _ _ d

theorem releaseForkDrop (h : releaseForkDrop d = some u) : WorkAside P d u := by
  unfold Machine.releaseForkDrop at h
  split at h
  · cases h
    exact releaseStep _ d
  · rename_i q _ _
    cases h
    cases hfork : Machine.forkStep q d with
    | none =>
      rw [Option.getD_none]
      exact updCache _ d
    | some w => exact forkStep hP hfork
  · cases h
    exact dropPage hP _ _ _ _ d
  · cases h

/-! ### Eviction and top-up -/

theorem evictFrom {q : Nat} (h : evictFrom d q = some u) : WorkAside P d u := by
  unfold Machine.evictFrom at h
  dsimp only at h
  split at h
  · cases h
  · rename_i a b _
    split at h
    · cases h
      refine WorkAside.trans ((dropRange hP q a b none d).trans ?_) (updCache _ _)
      split
      · exact counted hP (o := R.KVC_DROP_CNT) (by decide) _ 1
      · exact .refl _
    · cases h

theorem reserveMore (c : CellId) (k n : Nat) (d : Dev) : WorkAside P d (reserveMore c k n d) := by
  induction n generalizing d with
  | zero => exact .refl d
  | succ n ih =>
    unfold Machine.reserveMore
    split
    · exact counted hP (o := R.KVC_TOPUP_SHORT_CNT) (by decide) d _
    · exact (updCache _ d).trans (ih _)

theorem topUpCell (c : CellId) (d : Dev) : WorkAside P d (topUpCell c d) :=
  foldl (fun d k _ => reserveMore hP c k _ d) d

omit hP in
theorem freeFreeing (d : Dev) : WorkAside P d (freeFreeing d) := foldl (fun d e _ => freeFrame e.1 e.2.order d) d

end Counted

end WorkAside

/-! ### Contexts that are looked at -/

/-- A register of a context is zero until it is written. -/
theorem regReset_ctx {o : Nat} (hlo : 0x100000 ≤ o) (hhi : o < 0x200000) : regReset o = 0 := by
  have hrows : rowsAt o = rowsTcx := by
    unfold rowsAt
    simp only [show ¬o < 0x1000 by omega, show ¬o < 0x2000 by omega, show ¬o < 0x4000 by omega,
      show ¬o < 0x5000 by omega, show ¬o < 0x6000 by omega, show ¬o < 0x7000 by omega, show ¬o < 0x8000 by omega,
      show ¬o < 0x10000 by omega, show ¬o < 0x20000 by omega, show ¬o < 0x30000 by omega, show ¬o < 0x40000 by omega,
      show ¬o < 0x80000 by omega, show ¬o < 0xA0000 by omega, show ¬o < 0x100000 by omega, if_neg, if_pos hhi,
      not_false_eq_true]
  have hreset : ∀ r ∈ rowsTcx, r.reset = 0 := by decide
  unfold regReset regRow?
  rw [hrows]
  cases hfind : rowsTcx.find? (fun r => rowCovers r o) with
  | none => rfl
  | some r =>
    dsimp only
    rw [if_neg (by omega)]
    exact hreset r (List.mem_of_find?_eq_some hfind)

theorem lt_of_mem_tenantsIn {d : Dev} {st t : Nat} (h : t ∈ tenantsIn d st) : t < 4096 ∧ tcxState d t = st := by
  obtain ⟨hlive, hst⟩ := List.mem_filter.1 h
  obtain ⟨e, -, he⟩ := List.mem_filterMap.1 hlive
  split at he
  · cases he
    exact ⟨by omega, by simpa using hst⟩
  · cases he

theorem mem_tenantsIn {d : Dev} {st T : Nat} (hT : T < 4096) (hst : tcxState d T = st) (h0 : st ≠ 0) :
    T ∈ tenantsIn d st := by
  refine List.mem_filter.2 ⟨?_, by simpa using hst⟩
  cases hfind : tblFind d.regs (R.TCX_STATE T) with
  | none =>
    refine absurd hst fun h => h0 ?_
    rw [← h, tcxState, regFld, getReg, tblGet, hfind, Option.getD_none, regReset_ctx]
    · rfl
    · simp only [R.TCX_STATE]; omega
    · simp only [R.TCX_STATE]; omega
  | some v =>
    have hreg : tcxState d T = fld v 1 0 := by rw [tcxState, regFld, getReg, tblGet, hfind, Option.getD_some]
    refine List.mem_filterMap.2 ⟨(R.TCX_STATE T, v), mem_of_tblFind hfind, (if_pos ?_).trans (congrArg some ?_)⟩
    · refine ⟨?_, ?_, ?_, by rwa [← hreg, hst]⟩ <;> simp only [R.TCX_STATE] <;> omega
    · simp only [R.TCX_STATE]
      omega

section Contexts

variable {P : Nat → Prop} {d : Dev} {T : Nat}

/-- Registers of contexts that are not DRAINING stay as contexts are looked at. -/
theorem contextsReleasing_aside (hP : ∀ o, P o → 0x100000 ≤ o) (h : ∀ t, t < 4096 → tcxState d t = 2 → ¬P (R.TCX_STATE t)) :
    WorkAside P d (contextsReleasing d) :=
  .foldl (fun d t ht => contextReleasing_aside (fun ho => absurd (hP _ ho) (by decide))
    (h t (lt_of_mem_tenantsIn ht).1 (lt_of_mem_tenantsIn ht).2)
    (fun ho => ne_quarantine (hP _ ho) (quarantine_index t) rfl) d) d

theorem WorkAside.tenantTokens_eq {u : Dev} (h : WorkAside P d u) (t : Nat) : tenantTokens u t = tenantTokens d t := by
  simp only [tenantTokens, findReq, h.tokens, h.reqs]

/-- The state of the context alone. -/
def stateOf (T o : Nat) : Prop := o = R.TCX_STATE T

theorem stateOf_ctx (T o : Nat) (h : stateOf T o) : 0x100000 ≤ o := by
  rw [h, R.TCX_STATE]
  omega

theorem WorkAside.tcxState_eq {u : Dev} (h : WorkAside (stateOf T) d u) : tcxState u T = tcxState d T := by
  rw [tcxState, regFld, h.regs _ rfl, ← regFld, ← tcxState]

theorem stateOf_ne {t : Nat} (h : t ≠ T) : ¬stateOf T (R.TCX_STATE t) := by
  simp only [stateOf, R.TCX_STATE]
  omega

/-- A context that is not DRAINING stays as it is. -/
theorem contextsReleasing_settled (h : tcxState d T ≠ 2) : WorkAside (stateOf T) d (contextsReleasing d) :=
  contextsReleasing_aside (stateOf_ctx T) fun _ _ hst => stateOf_ne fun heq => h (heq ▸ hst)

theorem contextReleasing_units (t : Nat) (d : Dev) : WorkAside (fun _ => False) d (contextReleasing t d) :=
  contextReleasing_aside id id id d

/-- A DRAINING context without tokens is looked at, and is DRAINING no more. -/
theorem tcxState_contextsReleasing (hT : T < 4096) (hst : tcxState d T = 2) (htokens : tenantTokens d T = false) :
    tcxState (contextsReleasing d) T = 3 ∨ tcxState (contextsReleasing d) T = 0 := by
  refine foldl_reaches (P := fun d => tenantTokens d T = false → tcxState d T = 3 ∨ tcxState d T = 0) (xs := tenantsIn d 2)
    (f := fun d t => contextReleasing t d) (fun e t he hnone => ?_) (mem_tenantsIn hT hst (by decide)) (fun e hnone => ?_) d
    ?_
  · have hnone' : tenantTokens e T = false := ((contextReleasing_units t e).tenantTokens_eq T).symm.trans hnone
    by_cases ht : t = T
    · subst ht
      exact tcxState_contextReleasing hnone'
    · have haside : WorkAside (stateOf T) e (contextReleasing t e) :=
        contextReleasing_aside (fun h => absurd (stateOf_ctx T _ h) (by decide)) (stateOf_ne ht)
          (fun h => ne_quarantine (stateOf_ctx T _ h) (quarantine_index t) rfl) e
      rw [haside.tcxState_eq]
      exact he hnone'
  · exact tcxState_contextReleasing (((contextReleasing_units T e).tenantTokens_eq T).symm.trans hnone)
  · rw [← htokens]
    exact WorkAside.tenantTokens_eq (P := fun _ => False) (contextsReleasing_aside (fun _ h => h.elim) fun _ _ _ => id) T

end Contexts

/-! ### Operations of a drain phase -/

section Operations

variable {P : Nat → Prop} (hP : ∀ o, P o → 0x100000 ≤ o)

include hP

theorem drainOp_aside {d : Dev} (hlook : WorkAside P d (contextsReleasing d)) : WorkAside P d (drainOp d) := by
  have hwork : WorkAside P d ((releaseForkDrop d).getD d) := by
    cases h : releaseForkDrop d with
    | none => exact .refl d
    | some u => exact .releaseForkDrop hP h
  unfold drainOp
  split
  · exact .refl d
  · exact (WorkAside.freeFreeing d).trans (.updCache _ _)
  · split
    · split
      · exact .refl d
      · exact .flushOne hP _ d
    · exact hlook.trans (.updCache _ _)
  · cases h : releaseForkDrop d with
    | none =>
      rw [Option.getD_none]
      exact .updCache _ d
    | some u => exact .releaseForkDrop hP h
  · split <;> exact .updCache _ d
  · split
    · exact .updCache _ d
    · split
      · rename_i u hu
        obtain ⟨q, -, hq⟩ := List.exists_of_findSome?_eq_some hu
        exact .evictFrom hP hq
      · exact .updCache _ d
  · split
    · exact (WorkAside.topUpCell hP _ d).trans (.updCache _ _)
    · exact .updCache _ d
  · exact hwork

end Operations

/-- Any number of operations leaves the units alone. -/
theorem drainOps_units (n : Nat) (d : Dev) : WorkAside (fun _ => False) d (drainOps n d) := by
  induction n generalizing d with
  | zero => exact .refl d
  | succ n ih =>
    exact (drainOp_aside (fun _ h => h.elim) (contextsReleasing_aside (fun _ h => h.elim) fun _ _ _ => id)).trans (ih _)

/-- A context that is not DRAINING keeps its state in any number of operations. -/
theorem drainOps_settled {d : Dev} {T : Nat} (n : Nat) (h : tcxState d T ≠ 2) : tcxState (drainOps n d) T = tcxState d T := by
  induction n generalizing d with
  | zero => rfl
  | succ n ih =>
    have hop := (drainOp_aside (stateOf_ctx T) (contextsReleasing_settled h)).tcxState_eq
    exact (ih (by rwa [hop])).trans hop

/-! ### CACHE_DRAIN_WORK -/

section DrainWork

variable {s : State}

theorem drainWork_outside (n : Nat) (h : (alive s.dev && inDrain s.dev) = false) :
    Completes (.cacheDrainWork n) s (fun t => t = s) :=
  completes_same_of_onlyIf (fun d => alive d && inDrain d) rfl h

variable (halive : alive s.dev = true) (hdrain : inDrain s.dev = true)

include halive hdrain

theorem drainWork_dev (n : Nat) {Q : State → Prop}
    (h : Q { s with dev := drainOps n (contextsReleasing s.dev) }) : Completes (.cacheDrainWork n) s Q :=
  completes_of_onlyIf (fun d => alive d && inDrain d) rfl (by rw [halive, hdrain]; rfl) h

theorem drainWork_keeps (n : Nat) : Completes (.cacheDrainWork n) s (fun t => t.pending = s.pending ∧
    t.dev.cells = s.dev.cells ∧ t.dev.ent.tokens = s.dev.ent.tokens ∧ t.dev.ent.reqs = s.dev.ent.reqs ∧
    t.dev.tick = s.dev.tick ∧ t.dev.mem.cm = s.dev.mem.cm ∧ t.dev.ent.ledgers = s.dev.ent.ledgers ∧
    ∀ T, T < 4096 → tcxState s.dev T = 2 → tenantTokens s.dev T = false →
      (tcxState t.dev T = 3 ∨ tcxState t.dev T = 0)) := by
  have hlook : WorkAside (fun _ => False) s.dev (contextsReleasing s.dev) :=
    contextsReleasing_aside (fun _ h => h.elim) fun _ _ _ => id
  have haside := hlook.trans (drainOps_units n _)
  refine drainWork_dev halive hdrain n ⟨rfl, haside.cells, haside.tokens, haside.reqs, haside.tick, haside.cm,
    haside.ledgers, fun T hT hst htokens => ?_⟩
  have hout := tcxState_contextsReleasing hT hst htokens
  show tcxState (drainOps n (contextsReleasing s.dev)) T = 3 ∨ tcxState (drainOps n (contextsReleasing s.dev)) T = 0
  rw [drainOps_settled n (by omega)]
  exact hout

end DrainWork

/-! ### Frames that are freed and reserved -/

theorem tblFind_of_sorted {α : Type} {t : Tbl α} (h : tblSorted t = true) {e : Nat × α} (he : e ∈ t) :
    tblFind t e.1 = some e.2 := by
  induction t with
  | nil => cases he
  | cons x t ih =>
    obtain ⟨k, w⟩ := x
    obtain ⟨hkeys, ht⟩ := (tblSorted_cons k w t).1 h
    rcases List.mem_cons.1 he with rfl | he
    · exact if_pos rfl
    · exact (if_neg (by have := hkeys e he; omega)).trans (ih ht he)

/-- Frames that become FREE are gone from the table, and the others stay. -/
theorem frameOf_freeFrames (es : List (Nat × FrameEnt)) (d : Dev) (x : Nat) :
    frameOf (es.foldl (fun d e => freeFrame e.1 e.2.order d) d) x =
      if x ∈ es.map (·.1) then none else frameOf d x := by
  induction es generalizing d with
  | nil => simp
  | cons e es ih =>
    have hone : frameOf (freeFrame e.1 e.2.order d) x = if x = e.1 then none else frameOf d x := tblFind_erase _ _ _
    simp only [List.foldl_cons, ih, hone, List.map_cons, List.mem_cons]
    split <;> split <;> simp_all

theorem frameOf_freeFreeing {d : Dev} (hsorted : tblSorted d.cache.frames = true) {x : Nat} {e : FrameEnt}
    (he : frameOf d x = some e) : frameOf (freeFreeing d) x = if e.st = .freeing then none else some e := by
  have hkeys : x ∈ (d.cache.frames.filter (fun e => decide (e.2.st = .freeing))).map (·.1) ↔ e.st = .freeing := by
    refine ⟨fun hx => ?_, fun hst => ?_⟩
    · obtain ⟨y, hy, rfl⟩ := List.mem_map.1 hx
      obtain ⟨hmem, hst⟩ := List.mem_filter.1 hy
      have heq : some y.2 = some e := (tblFind_of_sorted hsorted hmem).symm.trans he
      rw [← Option.some.inj heq]
      simpa using hst
    · exact List.mem_map.2 ⟨(x, e), List.mem_filter.2 ⟨mem_of_tblFind he, by simpa using hst⟩, rfl⟩
  rw [freeFreeing, frameOf_freeFrames, he]
  exact if_congr hkeys rfl rfl

/-- Freeing touches cache control alone. -/
theorem freeFreeing_rest (d : Dev) : (freeFreeing d).mem = d.mem ∧ (freeFreeing d).regs = d.regs :=
  ⟨foldl_keep (·.mem) _ _ _ fun _ _ => rfl, foldl_keep (·.regs) _ _ _ fun _ _ => rfl⟩

theorem countP_tblPut_le {α : Type} (p : Nat × α → Bool) (t : Tbl α) (x : Nat) (v : α) :
    (tblPut t x v).countP p ≤ t.countP p + if p (x, v) then 1 else 0 := by
  induction t with
  | nil => simp [tblPut, List.countP_cons]
  | cons e t ih =>
    obtain ⟨k, w⟩ := e
    simp only [tblPut, List.countP_cons]
    split
    · simp only [List.countP_cons]
      omega
    · split
      · simp only [List.countP_cons]
        omega
      · simp only [List.countP_cons]
        omega

/-- A top-up of reserves: it counts what is missing, and changes frames alone. -/
structure Reserving (d u : Dev) : Prop where
  mem : u.mem = d.mem
  seqs : u.cache.seqs = d.cache.seqs
  heads : u.cache.heads = d.cache.heads
  topCell : u.cache.topCell = d.cache.topCell
  regs : ∀ o, o ≠ R.KVC_TOPUP_SHORT_CNT → getReg u o = getReg d o

theorem Reserving.trans {a b c : Dev} (hab : Reserving a b) (hbc : Reserving b c) : Reserving a c :=
  ⟨hbc.mem.trans hab.mem, hbc.seqs.trans hab.seqs, hbc.heads.trans hab.heads, hbc.topCell.trans hab.topCell,
    fun o ho => (hbc.regs o ho).trans (hab.regs o ho)⟩

theorem Reserving.of_frames {d : Dev} {f : CacheSt → CacheSt} (hs : (f d.cache).seqs = d.cache.seqs)
    (hh : (f d.cache).heads = d.cache.heads) (ht : (f d.cache).topCell = d.cache.topCell) : Reserving d (updCache f d) :=
  ⟨rfl, hs, hh, ht, fun _ _ => rfl⟩

theorem Reserving.refl (d : Dev) : Reserving d d := ⟨rfl, rfl, rfl, rfl, fun _ _ => rfl⟩

section Reserve

variable (c : CellId)

theorem reserveCount_eq (d : Dev) (k : Nat) :
    reserveCount d c k = d.cache.frames.countP (fun e => decide (e.2.st = .reserved c ∧ e.2.order = k)) :=
  List.countP_eq_length_filter.symm

/-- What a top-up of one order reserves: frames of the order, and no more than asked. -/
theorem reserveMore_reserves (k n : Nat) (d : Dev) : Reserving d (reserveMore c k n d) ∧
    ∀ j, reserveCount (reserveMore c k n d) c j ≤ reserveCount d c j + if j = k then n else 0 := by
  induction n generalizing d with
  | zero => exact ⟨.refl d, fun j => Nat.le_add_right _ _⟩
  | succ n ih =>
    unfold reserveMore
    split
    · exact ⟨⟨rfl, rfl, rfl, rfl, fun o ho => getReg_setReg_ne _ _ _ _ ho⟩, fun j => Nat.le_add_right _ _⟩
    · rename_i x rest _
      obtain ⟨hrest, hcount⟩ := ih (updCache (fun s => { s with
        freeFrames := rest
        frames := tblPut s.frames x { refcnt := 0, tenant := 0, order := k, st := .reserved c, kind := .body } }) d)
      refine ⟨(Reserving.of_frames rfl rfl rfl).trans hrest, fun j => (hcount j).trans ?_⟩
      have hput := countP_tblPut_le (fun e => decide (e.2.st = .reserved c ∧ e.2.order = j)) d.cache.frames x
        { refcnt := 0, tenant := 0, order := k, st := .reserved c, kind := .body }
      rw [reserveCount_eq, reserveCount_eq]
      refine (Nat.add_le_add_right hput _).trans ?_
      by_cases hj : j = k
      · subst hj
        simp only [and_self, decide_true, if_true]
        omega
      · simp only [Ne.symm hj, and_false, decide_false, Bool.false_eq_true, if_false, hj]
        omega

/-- A cell's reserves of some orders, topped up in turn. -/
def reserveOrders (ks : List Nat) (d : Dev) : Dev :=
  ks.foldl (fun d k => reserveMore c k (regFld d (R.KVC_RESERVE k) 15 0 - reserveCount d c k) d) d

/-- No reserve of the cell exceeds both what it was and what its register asks for. -/
def ReservesBounded (d u : Dev) : Prop := Reserving d u ∧ ∀ k,
  reserveCount u c k ≤ max (reserveCount d c k) (regFld d (R.KVC_RESERVE k) 15 0)

theorem reservesBounded_orders {d u : Dev} (ks : List Nat) (h : ReservesBounded c d u) :
    ReservesBounded c d (reserveOrders c ks u) := by
  induction ks generalizing u with
  | nil => exact h
  | cons k ks ih =>
    obtain ⟨hrest, hcount⟩ := h
    obtain ⟨hmore, hadded⟩ := reserveMore_reserves c k (regFld u (R.KVC_RESERVE k) 15 0 - reserveCount u c k) u
    refine ih ⟨hrest.trans hmore, fun j => (hadded j).trans ?_⟩
    have hreg : regFld u (R.KVC_RESERVE k) 15 0 = regFld d (R.KVC_RESERVE k) 15 0 := by
      rw [regFld, hrest.regs _ (by simp only [R.KVC_RESERVE, R.KVC_TOPUP_SHORT_CNT]; omega), ← regFld]
    have hj := hcount j
    split
    · next heq =>
      subst heq
      rw [hreg]
      omega
    · exact hj

theorem topUpCell_reserves (d : Dev) : ReservesBounded c d (topUpCell c d) :=
  reservesBounded_orders c (List.range 11) ⟨.refl d, fun _ => Nat.le_max_left _ _⟩

end Reserve

/-! ### One operation -/

section Steps

variable {d : Dev}

theorem drainOp_freeing (h : d.cache.step = 1) : drainOp d = setDrainStep 2 (freeFreeing d) := by
  unfold drainOp
  rw [h]
  rfl

theorem drainOp_watermark (h : d.cache.step = 4) : drainOp d =
    setDrainStep (if freeUnits d < regFld d R.KVC_WATERMARK 19 0 * 1024 then 5 else 6) d := by
  unfold drainOp
  rw [h]
  exact (apply_ite (fun n => setDrainStep n d) _ 5 6).symm

theorem drainOp_evicted (h : d.cache.step = 5) (hmet : regFld d R.KVC_WATERMARK_HI 19 0 * 1024 ≤ freeUnits d ∨
    regFld d R.KVC_EVICT_BUDGET 15 0 ≤ d.cache.evicted) : drainOp d = setDrainStep 6 d := by
  unfold drainOp
  rw [h]
  exact if_pos hmet

theorem drainOp_topUp (h : d.cache.step = 6) (hcell : d.cache.topCell < 64) : drainOp d =
    updCache (fun c => { c with topCell := c.topCell + 1 }) (topUpCell ⟨d.cache.topCell, hcell⟩ d) := by
  unfold drainOp
  rw [h]
  exact dif_pos hcell

end Steps

section OneOperation

variable {s : State} (halive : alive s.dev = true) (hdrain : inDrain s.dev = true)
  (hquiet : contextsReleasing s.dev = s.dev)

include halive hdrain hquiet

theorem drainWork_one {Q : State → Prop} (h : Q { s with dev := drainOp s.dev }) : Completes (.cacheDrainWork 1) s Q :=
  drainWork_dev halive hdrain 1 (by rw [hquiet]; exact h)

theorem drainWork_freeing (hstep : s.dev.cache.step = 1) (hsorted : tblSorted s.dev.cache.frames = true) :
    Completes (.cacheDrainWork 1) s (fun t => t.dev.cache.step = 2 ∧ RegsExcept [] s t ∧ SameMemory s t ∧
      ∀ u x, frameOf s.dev u = some x → frameOf t.dev u = if x.st = .freeing then none else some x) := by
  obtain ⟨hmem, hregs⟩ := freeFreeing_rest s.dev
  refine drainWork_one halive hdrain hquiet ?_
  rw [drainOp_freeing hstep]
  exact ⟨rfl, fun o _ => getReg_congr hregs o, hmem, fun u x hx => frameOf_freeFreeing hsorted hx⟩

theorem drainWork_setStep {n : Nat} (hop : drainOp s.dev = setDrainStep n s.dev) :
    Completes (.cacheDrainWork 1) s (fun t => RegsExcept [] s t ∧ SameMemory s t ∧
      t.dev.cache = { s.dev.cache with step := n }) := by
  refine drainWork_one halive hdrain hquiet ?_
  rw [hop]
  exact ⟨fun _ _ => rfl, rfl, rfl⟩

theorem drainWork_watermark (hstep : s.dev.cache.step = 4) : Completes (.cacheDrainWork 1) s (fun t =>
    RegsExcept [] s t ∧ SameMemory s t ∧ t.dev.cache = { s.dev.cache with
      step := if freeUnits s.dev < regFld s.dev R.KVC_WATERMARK 19 0 * 1024 then 5 else 6 }) :=
  drainWork_setStep halive hdrain hquiet (drainOp_watermark hstep)

theorem drainWork_evicted (hstep : s.dev.cache.step = 5)
    (hmet : regFld s.dev R.KVC_WATERMARK_HI 19 0 * 1024 ≤ freeUnits s.dev ∨
      regFld s.dev R.KVC_EVICT_BUDGET 15 0 ≤ s.dev.cache.evicted) : Completes (.cacheDrainWork 1) s (fun t =>
    RegsExcept [] s t ∧ SameMemory s t ∧ t.dev.cache = { s.dev.cache with step := 6 }) :=
  drainWork_setStep halive hdrain hquiet (drainOp_evicted hstep hmet)

theorem drainWork_topUp (hstep : s.dev.cache.step = 6) (c : CellId) (hc : s.dev.cache.topCell = c.val) :
    Completes (.cacheDrainWork 1) s (fun t => t.dev.cache.topCell = c.val + 1 ∧ SameMemory s t ∧
      RegsExcept [R.KVC_TOPUP_SHORT_CNT] s t ∧ t.dev.cache.seqs = s.dev.cache.seqs ∧
      (∀ k, k < 11 → reserveCount t.dev c k ≤ max (reserveCount s.dev c k) (regFld s.dev (R.KVC_RESERVE k) 15 0)) ∧
      t.dev.cache.heads = s.dev.cache.heads) := by
  obtain ⟨hrest, hcount⟩ := topUpCell_reserves c s.dev
  have hlt : s.dev.cache.topCell < 64 := hc ▸ c.isLt
  have hcell : (⟨s.dev.cache.topCell, hlt⟩ : CellId) = c := Fin.ext hc
  have hop := drainOp_topUp hstep hlt
  rw [hcell] at hop
  generalize topUpCell c s.dev = u at hrest hcount hop
  refine drainWork_one halive hdrain hquiet ?_
  rw [hop]
  exact ⟨congrArg (· + 1) (hrest.topCell.trans hc), hrest.mem,
    fun o ho => hrest.regs o fun heq => ho (List.mem_singleton.2 heq), hrest.seqs, fun k _ => hcount k, hrest.heads⟩

end OneOperation

/-! ### FORK_END -/

section ForkEnd

/-- The child's descriptor once the fork has ended: `x` is what it was, `p` its parent's. -/
def forkEnded (x p y : SeqDesc) : SeqDesc :=
  { y with
    length := x.forkLen, prefixLen := min x.forkLen p.prefixLen, parent := y.forkPeer, pinVersion := p.pinVersion,
    evictable := p.evictable, posLo := p.posLo, posHi := p.posHi, splitPos := p.splitPos, homeDie := p.homeDie,
    parts := p.parts, lruTick := p.lruTick, cursor := 0, workDone := false, forkChild := false, forkPeer := 0,
    cmd := none }

/-- The dropped range that the child takes over. -/
def forkedRange (x p : SeqDesc) (e : SeqEntry) : Nat × Nat :=
  if e.dropLo < e.dropHi ∧ max e.dropLo p.posLo < min e.dropHi (p.posLo + x.forkLen) then
    (max e.dropLo p.posLo, min e.dropHi (p.posLo + x.forkLen)) else (0, 0)

/-- The child's entry once the fork has ended. -/
def forkedEntry (x p : SeqDesc) (e : SeqEntry) : SeqEntry :=
  { dropLo := (forkedRange x p e).1, dropHi := (forkedRange x p e).2, isOpen := decide (x.st = .live) }

/-- A fork that has ended, before its command's record. -/
def forkSettled (q : Nat) (x p : SeqDesc) (e : SeqEntry) (d : Dev) : Dev :=
  updEntry q (fun _ => forkedEntry x p e)
    (updSeq q (forkEnded x p) (updSeq x.forkPeer (fun p => { p with forkParent := false, forkPeer := 0 }) d))

theorem forkEnd_eq {q : Nat} {x p : SeqDesc} {e : SeqEntry} {d : Dev} (hx : seqDesc d q = x)
    (hp : seqDesc d x.forkPeer = p) (he : seqEntry d x.forkPeer = e) :
    forkEnd q d = cmdRecord? x.cmd 0 x.forkLen (forkSettled q x p e d) := by
  unfold forkEnd
  simp only [hx, hp, he]
  rfl

theorem forkedRange_empty {x p : SeqDesc} {e : SeqEntry} (h : e.dropHi ≤ e.dropLo) : forkedRange x p e = (0, 0) :=
  if_neg fun hc => absurd hc.1 (by omega)

theorem forkedRange_le (x p : SeqDesc) (e : SeqEntry) : (forkedRange x p e).2 ≤ p.posLo + x.forkLen := by
  unfold forkedRange
  split
  · exact Nat.min_le_right _ _
  · exact Nat.zero_le _

variable {q : Nat} {x p : SeqDesc} {e : SeqEntry} {d : Dev}

theorem forkSettled_mem : (forkSettled q x p e d).mem = d.mem := rfl

theorem forkSettled_regs : (forkSettled q x p e d).regs = d.regs := rfl

theorem seqEntry_forkSettled : seqEntry (forkSettled q x p e d) q = forkedEntry x p e := by
  rw [forkSettled, seqEntry_updEntry, if_pos rfl]

theorem seqDesc_forkSettled (h : x.forkPeer ≠ q) (k : Nat) : seqDesc (forkSettled q x p e d) k =
    if k = q then forkEnded x p (seqDesc d q)
    else if k = x.forkPeer then { seqDesc d x.forkPeer with forkParent := false, forkPeer := 0 }
    else seqDesc d k := by
  rw [forkSettled, seqDesc_updEntry, seqDesc_updSeq, seqDesc_updSeq, if_neg h.symm, seqDesc_updSeq]

end ForkEnd

/-! ### Records that are kept for later -/

theorem leNat_leBytes_mod (n v : Nat) : leNat (leBytes n v) = v % 256 ^ n := by
  induction n generalizing v with
  | zero => simp [leBytes, leNat, Nat.mod_one]
  | succ n ih =>
    have hsplit : v % 256 ^ (n + 1) = v % 256 + 256 * (v / 256 % 256 ^ n) := by rw [pow_succ', Nat.mod_mul]
    rw [leBytes, leNat, ih, BitVec.toNat_ofNat, hsplit]

theorem completionBytes_length_word (x : Completion) (phase : Bool) (done slot : Nat) :
    ((completionBytes x phase done slot).drop 0x20).take 4 = leBytes 4 x.length := by
  simp [completionBytes, leBytes, zeroBytes]

section KeptRecord

variable {c : Option CmdRef} {d u : Dev}

@[simp] theorem seqDesc_keptRecord (res len q : Nat) : seqDesc (cmdRecord? c res len d) q = seqDesc d q := by
  cases c with
  | none => rfl
  | some x => exact seqDesc_cmdRecord x res len d q

@[simp] theorem seqEntry_keptRecord (res len q : Nat) : seqEntry (cmdRecord? c res len d) q = seqEntry d q := by
  cases c with
  | none => rfl
  | some x => exact seqEntry_cmdRecord x res len d q

theorem keptRecord_cache (res len : Nat) : (cmdRecord? c res len d).cache = d.cache := by
  cases c with
  | none => rfl
  | some x => exact cmdRecord_cache x res len d

/-- A record changes no register but its ring's RNG_PENDING and the object of the ring's sync add. -/
theorem getReg_writeRecord_except {s : State} {r : Nat} (hr : r < 4096) (hregs : d.regs = s.dev.regs) (ctr : W32)
    (x : Completion) {o : Nat} (ho : o ∉ R.RNG_PENDING r :: ringSync s r) :
    getReg (writeRecord d r ctr x none) o = getReg s.dev o := by
  have hpend := List.ne_of_not_mem_cons ho
  have hsync := List.not_mem_of_not_mem_cons ho
  rw [writeRecord_eq _ _ _ _ hr, getReg_syncAdd?_ne, syncAdd?, getReg_recordStored, if_neg hpend, getReg_congr hregs]
  rintro a ha rfl
  rw [ringSyncAdd, getReg_congr hregs] at ha
  rw [ringSync] at hsync
  split at ha
  · rename_i hbit
    cases ha
    exact hsync (by rw [if_pos hbit]; exact List.mem_cons_self)
  · cases ha

/-- The record of a command that was kept, on a device with the registers of the state before. -/
theorem keptRecord_bytes {x : CmdRef} (hr : x.ring < 4096) (hregs : u.regs = d.regs) (len : Nat) :
    leNat (hiveRead (cmdRecord x 0 len u) (slotAddr d x.ring x.ctr.toNat + 0x20) 4) = len % 2 ^ 32 ∧
      tblGet 0 (cmdRecord x 0 len u).mem.hive (slotAddr d x.ring x.ctr.toNat + 0x2E) = 0 := by
  have hmem : (cmdRecord x 0 len u).mem = _ := writeRecord_mem u x.ctr (cmdCompletion x 0 len) none hr
  rw [slotAddr_congr (fun o _ => getReg_congr hregs o) hr] at hmem
  refine ⟨?_, ?_⟩
  · rw [hiveRead_congr hmem, hiveRead_within _ _ _ _ _ (by rw [completionBytes_length]; omega),
      completionBytes_length_word, leNat_leBytes_mod]
    rfl
  · rw [hmem, hive_after_write, if_pos (by rw [completionBytes_length]; omega), Nat.add_sub_cancel_left,
      completionBytes_result]
    rfl

end KeptRecord

/-- The end of a fork. -/
theorem forkEnd_done {s : State} {q : SeqId} {x p : SeqDesc} {e : SeqEntry} (halive : alive s.dev = true)
    (hdrain : inDrain s.dev = true) (hx : seqDesc s.dev q.toNat = x) (hp : seqDesc s.dev x.forkPeer = p)
    (he : seqEntry s.dev x.forkPeer = e) (hchild : x.forkChild = true) (hdone : x.workDone = true)
    (hpeer : x.forkPeer ≠ q.toNat) (hring : ∀ c, x.cmd = some c → c.ring < 4096) :
    Completes (.forkEnd q) s (fun t => t.pending = s.pending ∧
      seqDesc t.dev q.toNat = forkEnded x p x ∧
      seqDesc t.dev x.forkPeer = { p with forkParent := false, forkPeer := 0 } ∧
      seqEntry t.dev q.toNat = forkedEntry x p e ∧
      (x.cmd = none → SameMemory s t ∧ RegsExcept [] s t) ∧
      (∀ c, x.cmd = some c → tblGet 0 t.dev.mem.hive (slotAddr s.dev c.ring c.ctr.toNat + 0x2E) = 0 ∧
        leNat (hiveRead t.dev (slotAddr s.dev c.ring c.ctr.toNat + 0x20) 4) = x.forkLen % 2 ^ 32 ∧
        RegsExcept (R.RNG_PENDING c.ring :: ringSync s c.ring) s t)) := by
  have hend := forkEnd_eq hx hp he
  have hmem : (forkSettled q.toNat x p e s.dev).mem = s.dev.mem := forkSettled_mem
  have hregs : (forkSettled q.toNat x p e s.dev).regs = s.dev.regs := forkSettled_regs
  refine completes_of_onlyIf (fun d => alive d && inDrain d && (seqDesc d q.toNat).forkChild && (seqDesc d q.toNat).workDone)
    rfl (by simp only [halive, hdrain, hx, hchild, hdone, Bool.and_self]) ?_
  rw [hend]
  refine ⟨rfl, ?_, ?_, ?_, fun hc => ?_, fun c hc => ?_⟩
  · rw [seqDesc_keptRecord, seqDesc_forkSettled hpeer, if_pos rfl, hx]
  · rw [seqDesc_keptRecord, seqDesc_forkSettled hpeer, if_neg hpeer, if_pos rfl, hp]
  · rw [seqEntry_keptRecord, seqEntry_forkSettled]
  · rw [hc]
    exact ⟨hmem, fun o _ => getReg_congr hregs o⟩
  · rw [hc]
    obtain ⟨hlen, hres⟩ := keptRecord_bytes (hring c hc) hregs x.forkLen
    exact ⟨hres, hlen, fun o ho => getReg_writeRecord_except (hring c hc) hregs c.ctr _ ho⟩

/-! ### RELEASE_END -/

/-- A sequence that has been released, before its command's record. -/
def seqReleased (q : Nat) (d : Dev) : Dev :=
  { updCache (fun c => { c with seqs := tblErase c.seqs q, notes := c.notes.filter (fun n => n.seq ≠ q) }) d with
    ent := { d.ent with seqTab := tblErase d.ent.seqTab q } }

theorem releaseEnd_eq (q : Nat) (d : Dev) :
    releaseEnd q d = freeContext (seqDesc d q).tenant (cmdRecord? (seqDesc d q).cmd 0 0 (seqReleased q d)) := rfl

theorem tblGet_erase {α : Type} (dflt : α) (t : Tbl α) (x y : Nat) :
    tblGet dflt (tblErase t x) y = if y = x then dflt else tblGet dflt t y := by
  rw [tblGet, tblFind_erase]
  split <;> rfl

theorem seqDesc_seqReleased (q : Nat) (d : Dev) (k : Nat) :
    seqDesc (seqReleased q d) k = if k = q then {} else seqDesc d k := tblGet_erase _ _ _ _

theorem seqEntry_seqReleased (q : Nat) (d : Dev) (k : Nat) :
    seqEntry (seqReleased q d) k = if k = q then {} else seqEntry d k := tblGet_erase _ _ _ _

/-- A context that becomes FREE keeps memory, sequences and their entries. -/
theorem freeContext_rest (t : Nat) (d : Dev) : (freeContext t d).mem = d.mem ∧ (freeContext t d).cache = d.cache ∧
    (freeContext t d).ent = d.ent := by
  unfold freeContext
  split <;> exact ⟨rfl, rfl, rfl⟩

/-- Where every other sequence of the context is FREE, the context without this one is done. -/
theorem seqs_free_of_others {q T : Nat} {d : Dev}
    (hothers : ∀ k, k ≠ q → (seqDesc d k).tenant = T → (seqDesc d k).st = .free) (hsorted : tblSorted d.cache.seqs = true) :
    (tblErase d.cache.seqs q).all (fun e => decide (e.2.tenant ≠ T) || decide (e.2.st = .free)) = true := by
  refine List.all_eq_true.2 fun e he => ?_
  have herased := tblFind_of_sorted (tblSorted_erase _ q hsorted) he
  have hkey : e.1 ≠ q := fun heq => by
    rw [tblFind_erase, if_pos heq] at herased
    cases herased
  have hdesc : seqDesc d e.1 = e.2 := by
    rw [seqDesc, tblGet, tblFind_of_sorted hsorted (mem_erase _ _ _ he), Option.getD_some]
  have hfree := hothers e.1 hkey
  rw [hdesc] at hfree
  by_cases hT : e.2.tenant = T
  · simp only [hfree hT, decide_true, Bool.or_true]
  · simp only [ne_eq, hT, not_false_eq_true, decide_true, Bool.true_or]

/-- The end of a release. -/
theorem releaseEnd_done {s : State} {q : SeqId} (halive : alive s.dev = true) (hdrain : inDrain s.dev = true)
    (hst : (seqDesc s.dev q.toNat).st = .releasing) (hchild : (seqDesc s.dev q.toNat).forkChild = false)
    (hparent : (seqDesc s.dev q.toNat).forkParent = false) (hdone : (seqDesc s.dev q.toNat).workDone = true)
    (hring : ∀ c, (seqDesc s.dev q.toNat).cmd = some c → c.ring < 4096) : Completes (.releaseEnd q) s (fun t =>
    t.pending = s.pending ∧ (seqDesc t.dev q.toNat).st = .free ∧ (seqEntry t.dev q.toNat).isOpen = false ∧
    (∀ k, k ≠ q.toNat → seqDesc t.dev k = seqDesc s.dev k ∧ seqEntry t.dev k = seqEntry s.dev k) ∧
    (tcxState s.dev (seqDesc s.dev q.toNat).tenant ≠ 3 → tcxState t.dev (seqDesc s.dev q.toNat).tenant =
      tcxState s.dev (seqDesc s.dev q.toNat).tenant) ∧
    (tcxState s.dev (seqDesc s.dev q.toNat).tenant = 3 →
      (∀ k, k ≠ q.toNat → (seqDesc s.dev k).tenant = (seqDesc s.dev q.toNat).tenant → (seqDesc s.dev k).st = .free) →
      tblSorted s.dev.cache.seqs = true → tcxState t.dev (seqDesc s.dev q.toNat).tenant = 0 ∧
        tcxBarrier t.dev (seqDesc s.dev q.toNat).tenant = false) ∧
    (∀ c, (seqDesc s.dev q.toNat).cmd = some c →
      tblGet 0 t.dev.mem.hive (slotAddr s.dev c.ring c.ctr.toNat + 0x2E) = 0)) := by
  refine completes_of_onlyIf (fun d => alive d && inDrain d && decide ((seqDesc d q.toNat).st = .releasing) &&
    !(seqDesc d q.toNat).forkChild && !(seqDesc d q.toNat).forkParent && (seqDesc d q.toNat).workDone) rfl
    (by simp only [halive, hdrain, hst, hchild, hparent, hdone, decide_true, Bool.not_false, Bool.and_self]) ?_
  obtain ⟨-, -, hhive, -⟩ := cmdRecord?_done _ hring (d := s.dev) (e := seqReleased q.toNat s.dev) fun o _ => rfl
  have hctx : tcxState (cmdRecord? (seqDesc s.dev q.toNat).cmd 0 0 (seqReleased q.toNat s.dev)) (seqDesc s.dev q.toNat).tenant =
      tcxState s.dev (seqDesc s.dev q.toNat).tenant :=
    congrArg (fld · 1 0) (getReg_cmdRecord?_far _ hring _ _ _ (by simp only [R.TCX_STATE]; omega))
  have hdesc (k : Nat) := seqDesc_keptRecord (c := (seqDesc s.dev q.toNat).cmd) (d := seqReleased q.toNat s.dev) 0 0 k
  have hentry (k : Nat) := seqEntry_keptRecord (c := (seqDesc s.dev q.toNat).cmd) (d := seqReleased q.toNat s.dev) 0 0 k
  have hseqs : (cmdRecord? (seqDesc s.dev q.toNat).cmd 0 0 (seqReleased q.toNat s.dev)).cache.seqs =
      tblErase s.dev.cache.seqs q.toNat := by
    rw [keptRecord_cache]
    rfl
  rw [releaseEnd_eq]
  generalize cmdRecord? (seqDesc s.dev q.toNat).cmd 0 0 (seqReleased q.toNat s.dev) = u at *
  obtain ⟨hmem, hcache, hent⟩ := freeContext_rest (seqDesc s.dev q.toNat).tenant u
  have hfreed (k : Nat) : seqDesc (freeContext (seqDesc s.dev q.toNat).tenant u) k =
      (if k = q.toNat then {} else seqDesc s.dev k) := by
    rw [seqDesc, hcache, ← seqDesc, hdesc, seqDesc_seqReleased]
  have hclosed (k : Nat) : seqEntry (freeContext (seqDesc s.dev q.toNat).tenant u) k =
      (if k = q.toNat then {} else seqEntry s.dev k) := by
    rw [seqEntry, hent, ← seqEntry, hentry, seqEntry_seqReleased]
  refine ⟨rfl, ?_, ?_, fun k hk => ⟨?_, ?_⟩, fun h3 => ?_, fun h3 hothers hsorted => ?_, fun c hc => ?_⟩
  · rw [hfreed, if_pos rfl]
  · rw [hclosed, if_pos rfl]
  · rw [hfreed, if_neg hk]
  · rw [hclosed, if_neg hk]
  · rw [freeContext_other fun hc => h3 (hctx.symm.trans hc.1), hctx]
  · have hall : contextDone (seqDesc s.dev q.toNat).tenant u :=
      ⟨hctx.trans h3, by rw [hseqs]; exact seqs_free_of_others hothers hsorted⟩
    rw [freeContext_done hall]
    refine ⟨?_, ?_⟩
    · rw [tcxState, regFld, getReg_contextFreed_state, tcxState_freed]
    · rw [tcxBarrier, getReg_contextFreed_state, bit_setBit _ _ _ _ (by decide), if_pos rfl]
  · exact (congrArg (fun m => tblGet 0 m.hive _) hmem).trans (hhive c hc)

/-- Settles O44: the operations of cache control touch frames, pages, sequences and the records of commands alone, and a
context's look-up comes before them. -/
theorem cacheWorkInADrain : Obligations.CacheWorkInADrain := by
  refine ⟨fun s n h => drainWork_outside n h, fun s n halive hdrain => drainWork_keeps halive hdrain n,
    fun s halive hdrain hquiet => ⟨drainWork_freeing halive hdrain hquiet, drainWork_watermark halive hdrain hquiet,
      drainWork_evicted halive hdrain hquiet, drainWork_topUp halive hdrain hquiet⟩,
    fun s q halive hdrain hchild hdone hpeer hring => ?_,
    fun s q halive hdrain hst hchild hparent hdone hring => releaseEnd_done halive hdrain hst hchild hparent hdone hring⟩
  obtain ⟨t, ht, hpending, hdesc, hparent, hentry, hnone, hrecord⟩ :=
    forkEnd_done halive hdrain (q := q) rfl rfl rfl hchild hdone hpeer hring
  refine ⟨t, ht, hpending, ?_, hparent, ?_, fun hdrop => ?_, ?_, hnone, hrecord⟩
  · rw [hdesc]
    exact ⟨rfl, rfl, rfl, rfl, rfl, rfl, rfl, rfl⟩
  · rw [hentry]
    rfl
  · rw [hentry, forkedEntry, forkedRange_empty hdrop]
    exact ⟨rfl, rfl⟩
  · rw [hentry]
    exact forkedRange_le _ _ _

end Sys2Proof.Machine
end


section
/-!
PROOFS. The instructions that order a tick program (R87, R396): a token that a reserved opcode stops is suppressed, and its
request is not.
-/

namespace Sys2Proof.Machine

open Sys2Proof

/-! ### What a stopped token leaves of the requests -/

section Stopped

variable (c : CellId) (k : Token)

/-- Whether a request's results are suppressed. -/
def suppression (q : Req) : Nat × Bool := (q.uid, q.suppressed)

/-- A change of requests that suppresses none. -/
theorem suppression_updReq (uid : Nat) {f : Req → Req} (hf : ∀ q, suppression (f q) = suppression q) (d : Dev) :
    (updReq uid f d).ent.reqs.map suppression = d.ent.reqs.map suppression := by
  show (d.ent.reqs.map _).map suppression = _
  rw [List.map_map]
  refine List.map_congr_left fun q _ => ?_
  simp only [Function.comp_apply]
  split
  · exact hf q
  · rfl

theorem clearCell_ent (express : Bool) (d : Dev) : (clearCell c express d).ent = d.ent := by
  unfold clearCell
  dsimp only
  split <;> rfl

theorem updToken_reqs (uid : Nat) (f : Token → Token) (d : Dev) : (updToken uid c f d).ent.reqs = d.ent.reqs := rfl

theorem finishToken_reqs (uid : Nat) (d : Dev) : (finishToken uid c d).ent.reqs = d.ent.reqs := rfl

/-- The end of a token suppresses no request. -/
theorem endToken_suppression (d : Dev) :
    (endToken c k d).ent.reqs.map suppression = d.ent.reqs.map suppression := by
  unfold endToken
  dsimp only
  rw [finishToken_reqs, clearCell_ent, updToken_reqs, suppression_updReq]
  exact fun _ => rfl

/-- Nor does its stop, which suppresses the token. -/
theorem stopToken_suppression (bankOff : Bool) (ref : W32) (d : Dev) :
    (stopToken c k bankOff ref d).ent.reqs.map suppression = d.ent.reqs.map suppression := by
  unfold stopToken
  rw [endToken_suppression, updToken_reqs, suppression_updReq]
  exact fun _ => rfl

theorem failFree_suppression (r : Req) (code : Byte) (d : Dev) :
    (failFree c k r code d).ent.reqs.map suppression = d.ent.reqs.map suppression := by
  unfold failFree failToken
  rw [stopToken_suppression, guardTake_ent, freshNat_ent]

end Stopped

/-! ### A token that comes to a reserved opcode -/

/-- The word with opcode 0x05, which Table 03-16 does not list. -/
def reservedWord : IWord := 0x05

/-- A request, none of whose results is suppressed. -/
def servedReq : Req := { uid := 0, desc := 0, port := 0, src := 0, tick := 0, ctr := 0, version := 0, bucket := 0 }

/-- Its token, which runs on cell 4. -/
def servedToken : Token := { uid := 0, cell := 4, tick := 0, bucket := 0, charge := 0, st := .running }

/-- A running die whose cell 4 has come to the reserved opcode. -/
def reservedState : State :=
  { dev := {
      regs := [(R.ID_BOOT_STATUS, 0x19), (R.ID_LOCK, 1)]
      die := { porstLow := false }
      ent := { reqs := [servedReq], tokens := [servedToken] }
      cells := [(4, { prog := [reservedWord] })] } }

theorem reservedState_runs : RunsOn reservedState 4 servedToken servedReq := by
  unfold RunsOn
  decide +kernel

theorem reservedState_fetch : fetchOk (cellOf reservedState.dev 4) reservedWord = true := by decide

theorem reservedWord_unknown : opcodeKnown (iOpc reservedWord) = false := by decide

/-- The token fails, and its request is not suppressed. -/
theorem reservedOpcode_unsuppressed {t : State} (h : exec (.reservedOpcode 4 reservedWord) reservedState = .next t) :
    t.dev.ent.reqs.map suppression = [(0, false)] := by
  obtain ⟨halive, hclock, htoken, hreq⟩ := reservedState_runs
  have hrun := onWord_runs 4 reservedWord (fun _ d => !opcodeKnown (iOpc reservedWord) ||
    gangMismatch (cellOf d 4) reservedWord) (fun t r d => failFree 4 t r 0x24 d) reservedState.dev servedToken servedReq
    halive hclock htoken hreq reservedState_fetch (by simp only [reservedWord_unknown, Bool.not_false, Bool.true_or])
  change onDev (onWord 4 reservedWord (fun _ d => !opcodeKnown (iOpc reservedWord) ||
    gangMismatch (cellOf d 4) reservedWord) (fun t r d => failFree 4 t r 0x24 d)) reservedState = .next t at h
  rw [onDev, hrun] at h
  cases h
  exact failFree_suppression 4 servedToken servedReq 0x24 reservedState.dev

/-- Refutes O48: a reserved opcode stops its token, and it is the token that is marked suppressed; the statement asks for the
mark in the request itself, which `stopToken` leaves as it was. -/
theorem not_programOrderInstructions : ¬ Obligations.ProgramOrderInstructions := by
  intro h
  obtain ⟨-, -, hreserved, -⟩ := h reservedState 4 servedToken servedReq reservedWord reservedState_runs
  obtain ⟨t, hexec, -, -, hreqs, -⟩ := hreserved reservedState_fetch (.inl reservedWord_unknown)
  obtain ⟨q, hq, hmark⟩ : ∃ q ∈ t.dev.ent.reqs, suppression q = (0, false) := by
    rw [← List.mem_map, reservedOpcode_unsuppressed hexec]
    exact List.mem_cons_self
  obtain ⟨huid, hunsuppressed⟩ := Prod.mk.inj hmark
  obtain ⟨-, hsuppressed⟩ := hreqs q hq huid
  rw [hunsuppressed] at hsuppressed
  cases hsuppressed

end Sys2Proof.Machine
end
